-- ==== Sys2Proof/Word.lean ====
section
/-! DEFINITION. The word types of the module: 64-bit registers and addresses (00 R7, 01 R24), bytes of memory. -/

namespace Sys2Proof

/-- A register value or a 64-bit address (00 R7, 01 R24). -/
abbrev Word := BitVec 64

/-- One byte of memory. -/
abbrev Byte := BitVec 8

end Sys2Proof
end

