-- ==== Sys2Proof/Syntax.lean ====
section
/-! DEFINITION. The commands of the Lyrax LX20 module: one constructor per row of spec/opcode_table.json, in the table's order,
with the types its operands are made of. An operand that the spec numbers within a fixed range is a `Fin`. -/

namespace Sys2Proof

/-- Status codes (00 Table 00.4, R13). -/
inductive Status where
  | ok | aborted | alreadyDone | fenced | dieLost | nodeLost | timeout | linkDown | uncorrectable | dataLost
  | bankUnderTest | writeLost | protocol | access | thermal | range | retired | busy | bankOff
  deriving DecidableEq, Repr

/-- The agents that send requests (00 terms; 01 R27; 08 R226; 18 Table 18.2). -/
inductive Agent where
  /-- application core ACi -/
  | ac (i : Fin 8)
  /-- real-time core RTi -/
  | rt (i : Fin 2)
  /-- tile core TCd_j of die ECDd -/
  | tc (d : Fin 16) (j : Fin 4)
  /-- the service endpoint's bulk data port -/
  | svc
  /-- a fabric transaction of the management class -/
  | fabMgmt
  /-- an ordinary fabric read, write or atomic -/
  | fabric
  /-- a stream or DMA channel of an operation of SQm -/
  | dma (m : Fin 4)
  /-- descriptor fetch or completion-record write of SQm -/
  | sqFetch (m : Fin 4)
  /-- hub execution of an ATOMIC operation of SQm -/
  | atomic (m : Fin 4)
  /-- a march test engine in preserving mode -/
  | march
  deriving DecidableEq, Repr

/-- One failing read that a march engine meets (08 R245): bank, word, failing bit (0-511 data, 512 + b parity of byte b). -/
structure MarchFail where
  bank : Fin 1024
  word : Fin 65536
  bit : Fin 576
  deriving DecidableEq, Repr

/-- The S-port access of the bank cycle in which a Y access arrives (08 R228): its bank and word, and its data when it writes. -/
structure SPort where
  bank : Fin 1024
  word : Fin 65536
  write : Option (List Byte)
  deriving DecidableEq, Repr

/-- A memory access: a read of `size` bytes, or a write of bytes (`none` where the byte mask leaves the byte out). -/
inductive MemOp where
  | read (size : Nat)
  | write (data : List (Option Byte))
  deriving DecidableEq, Repr

/-- Who a request's completion goes to. -/
inductive Src where
  | agent (a : Agent)
  /-- an inbound fabric request from a node: its GRT index there, and the port it came through -/
  | fabric (node : Fin 16384) (grt : Fin 65536) (port : Fin 10)
  /-- memory request of operand slot `slot` (07 Table 07.3) of the operation numbered `seq` in SQm -/
  | op (m : Fin 4) (seq : Nat) (slot : Nat)
  | scrub
  /-- a request that the domain manager's firmware makes for a node (12 R320, R323; 16 R430): 0 a register write for its join, 1 one
  after a failover, 2 a doorbell, 3 a read of its Saffron status, 4 and 5 of the halves of its bitmap, 6 a unit written to it; 7: a Saffron receiver's own writes -/
  | manager (node : Fin 16384) (use : Fin 8)
  /-- the additions of a SCATTER_ADD row from another module that came through a port (06 R191) -/
  | adder (port : Fin 10)
  /-- the write of a BCW that came through a port; it has no response (12 R344) -/
  | bcast (port : Fin 10)
  deriving DecidableEq, Repr

/-- Symbol errors of one LPDDR block as its decoder sees them (09 R252-R254): the wrong symbols, 0-71. -/
structure BlockErr where
  addr : Nat
  syms : List (Fin 72)
  deriving DecidableEq, Repr

/-- A request that arrives at an LPDDR channel queue (10 R280-R284). Classes: 0 STREAM, 1 FABRIC, 2 MGMT, 3 OCHRE, 4 TEST. -/
structure LpReq where
  src : Src
  cls : Fin 5
  /-- local address -/
  addr : Nat
  op : MemOp
  /-- deadline of a STREAM request (low 16 bits), given by the sequencer (05 R141) -/
  deadline : Fin 65536
  /-- marked late at issue (05 R141) -/
  lateAtIssue : Bool
  deriving DecidableEq, Repr

/-- How the host ended an SMBus write (15 R414): without PEC, with a right one, with a wrong one. -/
inductive Pec where
  | absent | good | bad
  deriving DecidableEq, Repr

/-- A holder of a line, or the sender of a coherence request: a local caching agent (11 Table 11.1) or a member module of the
domain (11 R310). -/
inductive Holder where
  | agent (a : Fin 65)
  | member (i : Fin 64)
  deriving DecidableEq, Repr

/-- What a RecallAck carries (11 Table 11.3). -/
inductive AckKind where
  | clean | dirtyFollows | notHeld
  deriving DecidableEq, Repr

/-- The function of an 8-byte atomic (06 Table 06.15 AOP). -/
inductive AtomFn where
  | add | swap | cas | set | clear
  deriving DecidableEq, Repr

/-- An 8-byte atomic: its function, operand and compare value (06 Table 06.15). -/
structure AtomOp where
  fn : AtomFn
  operand : Word
  compare : Word
  deriving DecidableEq, Repr

/-- RISC-V atomic memory operations (RV64A), as CORE_AMO names them. -/
inductive AmoFn where
  | swap | add | xor | and | or | min | max | minu | maxu
  deriving DecidableEq, Repr

/-- The state a Data message grants (11 Table 11.3). -/
inductive Grant where
  | s | e | m
  deriving DecidableEq, Repr

/-- The collective fields of a REDC or COLL packet (12 R341): the spec names them and gives them no places in the payload. -/
structure CollFields where
  id : Nat
  rank : Nat
  groupSize : Nat
  opcode : Nat
  redOp : Nat
  flags : Nat
  peer : Nat
  count : Nat
  format : Nat
  crc : Nat
  deriving DecidableEq, Repr

/-- A parity error on an operand (07 R215): the tensor slot (4: data named by an OPS field), the byte range, and whether the input's own
bytes in SRAM or the hub buffer are bad; `aux`: block scales, bitmap or OPS data. -/
structure ParityReport where
  slot : Nat
  addr : Nat
  len : Nat
  own : Bool
  aux : Bool
  deriving DecidableEq, Repr

/-- A fabric packet (12 Tables 12.2-12.4): the header of its first flit, the 64 payload bytes of that flit, and the payload bytes of
the body flits that arrived. In a packet command the command's row gives TYPE. -/
structure Packet where
  vc : Fin 8
  sub : Bool
  ty : BitVec 8
  dst : Fin 16384
  ord : Bool
  srcrt : Bool
  src : Fin 16384
  tag : Fin 65536
  len : BitVec 8
  status : BitVec 8
  hops : BitVec 8
  hint : BitVec 8
  head : List Byte
  body : List Byte
  /-- a reserved bit of the header is not 0 -/
  reserved : Bool
  /-- the collective fields of a REDC or COLL packet, the first 32 bytes of its payload -/
  coll : Option CollFields
  deriving DecidableEq, Repr

/-- A flit as a lane receiver reads it (13 R363-R365): its number, whether an SOF with that number stands before it, whether its
CRC-32 is good, symbol violations in it, and its LINK, TYPE, SRC and LEN fields. KIND: 0 single, 1 head, 2 body, 3 last body. -/
structure Flit where
  num : Fin 4096
  sof : Bool
  crcGood : Bool
  violations : Nat
  vc : Fin 8
  sub : Bool
  kind : Fin 4
  ty : BitVec 8
  src : Fin 16384
  len : BitVec 8
  deriving DecidableEq, Repr

/-- The capability record of a partner (13 Table 13.7). -/
structure CapRecord where
  node : Fin 16384
  port : Fin 16
  peerSeen : Bool
  rxUse : BitVec 32
  txLit : BitVec 32
  rxNext : Fin 4096
  retrain : Bool := false
  siRev : BitVec 8 := 0xA1
  fwRev : BitVec 32 := 0
  deriving DecidableEq, Repr

/-- A frame as the hub's receiver of a die-link bundle reads it (14 R387, Table 14.2): its frame word, whether CRC8 is good, and the byte
lanes of the payload bytes that fail parity, one entry for each byte. KIND: 0 idle, 1 data, 2 training. -/
structure Frame where
  sync : BitVec 8
  seq : BitVec 8
  ack : Option (BitVec 8)
  kind : Fin 4
  cvc : Fin 8
  total : Fin 4096
  crcGood : Bool
  badLanes : List (Fin 8)
  deriving DecidableEq, Repr

/-- What a training step found on one direction of a bundle (14 Table 14.3): forwarded clock, deskew, and failed wires 0-76. -/
structure DirTest where
  bundle : Fin 16
  rx : Bool
  clockBad : Bool
  deskewBad : Bool
  failed : List (Fin 77)
  deriving DecidableEq, Repr

/-- A service frame (15 R410, Table 15.7): source MAC, FLAGS.AUTH, BOOT_ID, SEQ, ARG, payload, TAG. The row gives OP. -/
structure SvcFrame where
  mac : BitVec 48
  auth : Bool
  bootId : Word
  seq : Word
  arg : Word
  payload : List Byte
  tag : List Byte
  deriving DecidableEq, Repr

/-- What the hardware of a boot meets: the PUF reconstruction succeeds (15 R408), signatures of the boot-set logic BIST of the hub
and the management die (19 R478), and MP trains (14 R393). -/
structure BootIn where
  puf : Bool
  hubSig : Word
  mgdSig : Word
  mp : Bool
  /-- the start-up march of the hub buffer (08 R248): words mapped to new spares, and whether every word is good then -/
  hubSpares : List (Fin 1024 × Fin 65536) := []
  hubMarch : Bool := true
  deriving DecidableEq, Repr

/-- What bringing a compute die up comes to (03 R66, 08 R248, 14 R393, 16 R426, R427): its port trains, the PEs that fail logic
BIST phase A (physical row and column), phase B passes, the words the start-up march maps to new spares and whether every word is
good then, and the image blocks still missing after the fan-out. -/
structure DieRun where
  die : Fin 16
  link : Bool
  pes : List (Fin 264 × Fin 264)
  logic : Bool
  spares : List (Fin 1024 × Fin 65536)
  march : Bool
  missing : Nat
  deriving DecidableEq, Repr

/-- A die sensor's reading in sixteenths of a degree; `failed`: open, short or out of range (17 R451). -/
structure Sensor where
  raw : BitVec 16
  failed : Bool
  deriving DecidableEq, Repr

/-- A test access port: ECD0-ECD15 (0-15), hub (16), management die (17) (19 Table 19.5). -/
abbrev Tap := Fin 18

/-- The commands: one constructor per row of the opcode table. -/
inductive Instr where
  /-- REGISTER_WRITE (R486): A write to a register that has no row of its own: width, alignment and value checks, busy and state checks in the order of R485, then the field update or a refusal status. -/
  | registerWrite (ag : Agent) (addr : Word) (size : Nat) (data : Word)
  /-- REFERENCE_CLOCK_LOST (R23): The 100 MHz reference stops or leaves ±200 ppm; the always-on island places the module in a cold module reset and logs the cause. -/
  | referenceClockLost (b : BootIn)
  /-- STANDBY_POWER_UP (R38): STBY_12V comes into range; the always-on island starts, samples SLOT_ID and the module enters STANDBY. -/
  | standbyPowerUp (straps : BitVec 8)
  /-- STANDBY_POWER_LOST (R47): STBY_12V falls below 10.8 V for 100 µs; the module stops and enters OFF. -/
  | standbyPowerLost
  /-- MOD_PWR_EN_ASSERT (R42): MOD_PWR_EN is asserted and acted on once the island is ready and VIN is at or above the start threshold, starting the hot-swap charge and rail power-up. -/
  | modPwrEnAssert (lowLongEnough vin : Bool)
  /-- VIN_START_THRESHOLD (R42): VIN reaches 37.5 V while MOD_PWR_EN is asserted and held off, and the island starts the conversion stages. -/
  | vinStartThreshold
  /-- MOD_PWR_EN_DEASSERT (R44): MOD_PWR_EN is deasserted; unordered power-down to STANDBY with the cause "power enable removed". -/
  | modPwrEnDeassert
  /-- INPUT_FAULT (R34): VIN stays below 36.5 V or above 52.0 V for 100 µs; the hub stops the conversion stages, MOD_PWRGD falls and the module enters STANDBY. -/
  | inputFault (high : Bool)
  /-- RAIL_GROUP_IN_REGULATION (R441): A rail group reaches regulation; the island starts the next group, and after the last group MOD_PWRGD rises and MP trains by hardware. -/
  | railGroupInRegulation (b : BootIn)
  /-- MOD_RST_N_ASSERT (R45): MOD_RST_N is held low for 1 µs; every die except the always-on island enters reset and any running power-on boot is abandoned. -/
  | modRstNAssert
  /-- MOD_RST_N_RELEASE (R45): MOD_RST_N rises; a warm module reset with fast start runs, or the power-on boot starts again, and every test access port enters Test-Logic-Reset. -/
  | modRstNRelease (b : BootIn)
  /-- THERMAL_TRIP (R456): An enabled die comparator trips; MOD_THERMTRIP_N asserts, the conversion stages are cut and the cause is recorded with the die. -/
  | thermalTrip (die : Fin 20)
  /-- THERMTRIP_RESTART (R46): Once 60 s have passed and the coolant and management-die readings are below 60 °C, the island restarts the module into STANDBY. -/
  | thermtripRestart (outlet mgd : BitVec 16)
  /-- LASER_EN_N_DEASSERT (R359): LASER_EN_N goes high; all emitters go dark in hardware and every port goes down with cause interlock. -/
  | laserEnNDeassert
  /-- LASER_EN_N_ASSERT (R49): LASER_EN_N goes low and starts the 1 ms qualification time. -/
  | laserEnNAssert
  /-- LASER_ENABLE_QUALIFIED (R49): LASER_EN_N has been low for 1 ms; VLAS rails start, the emitters are enabled and every enabled port enters DETECT. -/
  | laserEnableQualified
  /-- SMBUS_ALERT_RESPONSE (R40): The baseboard reads the alert response address 0x0C, which takes part in releasing MOD_ALERT_N. -/
  | smbusAlertResponse
  /-- SMBUS_INVALID_COMMAND (R414): An unsupported SMBus command code, or a write with a wrong PEC, is NACKed or discarded and sets STATUS_BYTE.CML. -/
  | smbusInvalidCommand (code : Byte) (pec : Pec)
  /-- CLEAR_FAULTS (R414): The SMBus send-byte command that clears the STATUS_WORD latches. -/
  | clearFaults (pec : Pec)
  /-- CAPABILITY (R414): The SMBus read that returns 0xD0. -/
  | capability
  /-- STATUS_WORD (R414): The SMBus read of the status bits. -/
  | statusWord
  /-- READ_VIN (R414): The PMBus read of the input voltage. -/
  | readVin (reading : BitVec 16)
  /-- READ_IIN (R414): The PMBus read of the input current. -/
  | readIin (reading : BitVec 16)
  /-- READ_PIN (R414): The PMBus read of the input power. -/
  | readPin (reading : BitVec 16)
  /-- READ_TEMPERATURE_1 (R414): The PMBus read of the hottest die temperature. -/
  | readTemperature1
  /-- READ_TEMPERATURE_2 (R414): The PMBus read of the coolant outlet temperature. -/
  | readTemperature2
  /-- PMBUS_REVISION (R414): The PMBus read that returns 0x33. -/
  | pmbusRevision
  /-- MFR_ID (R414): The block read that returns "QUAWIN". -/
  | mfrId
  /-- MFR_MODEL (R414): The block read that returns "QW-LX20-A". -/
  | mfrModel
  /-- MFR_REVISION (R414): The block read that returns "A1". -/
  | mfrRevision
  /-- MFR_SERIAL (R414): The block read that returns the 16-character serial number. -/
  | mfrSerial
  /-- MFR_INVENTORY (R414): The block read of the 32-byte module inventory. -/
  | mfrInventory
  /-- MFR_DIE_TEMP (R414): The block read of the 20 die temperature readings. -/
  | mfrDieTemp
  /-- MFR_CAUSE (R414): The block read of the 8 newest cause records. -/
  | mfrCause
  /-- MFR_ALERT_STATUS (R415): The read, or the W1C write, of the alert status; writing bit 4 also clears HUB_FAULT.PENDING. -/
  | mfrAlertStatus (w : Option (BitVec 16)) (pec : Pec)
  /-- MFR_ALERT_MASK (R415): The read or write of the alert source mask. -/
  | mfrAlertMask (w : Option (BitVec 16)) (pec : Pec)
  /-- MFR_LOCATE (R41): The read, or the write that sets the locate LED MOD_LED_N[2]. -/
  | mfrLocate (w : Option Byte) (pec : Pec)
  /-- MFR_SERVICE_KEY (R411): The PEC-protected write of a new service key, sealed to flash, or the read of whether a key is set. -/
  | mfrServiceKey (w : Option (List Byte)) (pec : Pec)
  /-- MFR_STATE (R414): The SMBus read of the module state code. -/
  | mfrState
  /-- HUB_PARTITION_WRITE (R28): A write of HUB_PARTITION.MODE that changes the partition layout, or is refused as reserved or busy. -/
  | hubPartitionWrite (ag : Agent) (data : Word)
  /-- HUB_TILE_MAP_WRITE (R81): A write of the logical-to-physical die map, refused when it is not a permutation or when a context is busy. -/
  | hubTileMapWrite (ag : Agent) (data : Word)
  /-- REPAIR_LOCK (R63): Writing 1 to ECD_REPAIR_CTL.LOCK applies the row and column repair mapping, locks the repair entries and releases held fragments. -/
  | repairLock (ag : Agent) (die : Fin 16)
  /-- STREAM_PARITY_ERROR (R71): The stream engine meets an operand byte with bad parity, reports the byte range to the sequencer and stops the fragment. -/
  | streamParityError (q : Fin 4) (r : ParityReport)
  /-- TILE_REPORT (R19): A tile reports the completion of its fragment; when all tiles and the reduction engine have reported, the operation becomes REPORTED. -/
  | tileReport (q : Fin 4) (die : Fin 16)
  /-- PARTIAL_SUM_ARRIVAL (R86): A partial sum reaches the reduction engine, is staged under credit and added in ascending logical tile order. -/
  | partialSumArrival (q : Fin 4) (die : Fin 16) (n : Nat)
  /-- REDUCTION_COMPLETE (R87): The reduction engine has written every output of the operation and reports completion to the sequencer. -/
  | reductionComplete (q : Fin 4)
  /-- RING_TAIL_WRITE (R128): A write of SQ_RING_TAIL posts or withdraws ring slots, or is refused with ST_ACCESS. -/
  | ringTailWrite (ag : Agent) (q : Fin 4) (data : Word)
  /-- RING_BASE_WRITE (R126): A write of SQ_RING_BASE that sets the submission ring and zeroes HEAD and TAIL, or is refused. -/
  | ringBaseWrite (ag : Agent) (q : Fin 4) (data : Word)
  /-- CPL_BASE_WRITE (R158): A write of SQ_CPL_BASE that sets the completion ring and zeroes its counters, or is refused. -/
  | cplBaseWrite (ag : Agent) (q : Fin 4) (data : Word)
  /-- CPL_HEAD_WRITE (R158): Software consumes completion records by writing SQ_CPL_HEAD, which frees ring slots. -/
  | cplHeadWrite (ag : Agent) (q : Fin 4) (data : Word)
  /-- FETCH_START (R127): With HEAD ≠ TAIL, fetch enabled, no chain and no pause, the fetch unit reads the next ring slot or chain descriptor. -/
  | fetchStart (q : Fin 4)
  /-- FETCH_COMPLETE (R134): A descriptor arrives: HEAD advances, fetch-resolved opcodes are resolved, others take a resident slot and a sequence number, and the fetch-time checks run. -/
  | fetchComplete (q : Fin 4)
  /-- NOP (R154): Fetch-resolved no-op that completes with ST_OK. -/
  | nop (q : Fin 4)
  /-- JUMP (R154): Fetch-resolved jump to TARGET within a chain. -/
  | jump (q : Fin 4)
  /-- CALL (R154): Pushes the return point and fetches at TARGET; a ninth level traps. -/
  | call (q : Fin 4)
  /-- RETURN (R154): Pops the return point; at depth 1 fetch returns to the ring at HEAD. -/
  | ret (q : Fin 4)
  /-- LOOP (R154): Decrements loop counter k and jumps to TARGET until it reaches 0. -/
  | loop (q : Fin 4)
  /-- BRANCH_IF (R154): When oldest, reads the flag once and continues fetch at TARGET or at the next address. -/
  | branchIf (q : Fin 4)
  /-- HALT (R154): When oldest, completes with ST_OK and places the context in HALTED. -/
  | halt (q : Fin 4)
  /-- FENCE (R154): Holds later operations until every earlier operation has completed, then completes with ST_OK. -/
  | fence (q : Fin 4)
  /-- WAIT_FLAG (R154): Does nothing besides its flag wait, then completes. -/
  | waitFlag (q : Fin 4)
  /-- SIGNAL_FLAG (R154): Does nothing besides its flag signal, and completes when oldest. -/
  | signalFlag (q : Fin 4)
  /-- TRAP (R154): When oldest, traps the context with SQ_TRAP.CODE = CODE. -/
  | trap (q : Fin 4)
  /-- FLAG_WAIT_PASS (R142): A waiting operation passes its wait in the first HCLK in which the flag reaches WAIT_VALUE. -/
  | flagWaitPass (q : Fin 4)
  /-- FLAG_WRITE (R157): A write of HUB_FLAGi sets the flag; additions in the same HCLK apply after it. -/
  | flagWrite (ag : Agent) (n : Fin 1024) (data : Word)
  /-- FLAG_ADD (R157): A write of HUB_FLAG_ADDi adds its value to flag i modulo 2³². -/
  | flagAdd (ag : Agent) (n : Fin 1024) (data : Word)
  /-- STAGING_START (R200): The oldest unstaged operation, with its wait passed, starts reading its tensor descriptors. -/
  | stagingStart (q : Fin 4)
  /-- STAGING_COMPLETE (R203): Tensor descriptors read and checked: the operation is STAGED with its deadlines based and head reads issued, or FAILED. -/
  | stagingComplete (q : Fin 4)
  /-- CONTRACT (R164): Dispatch and execution of a dense contraction with its epilogue. -/
  | contract (q : Fin 4)
  /-- CONTRACT_SPARSE (R169): Dispatch and execution of a block-sparse contraction under a bitmap. -/
  | contractSparse (q : Fin 4)
  /-- CONTRACT_SPLIT32 (R121): Dispatch and execution of an FP32 contraction in six BF16 passes. -/
  | contractSplit32 (q : Fin 4)
  /-- CONTRACT_WINDOW (R170): Dispatch and execution of a 2-D convolution as a contraction. -/
  | contractWindow (q : Fin 4)
  /-- ATTEND (R173): Dispatch and execution of attention over dense Q, K and V. -/
  | attend (q : Fin 4)
  /-- ATTEND_PAGED (R176): Dispatch and execution of attention over paged K and V pools. -/
  | attendPaged (q : Fin 4)
  /-- SCAN_LINEAR (R178): Dispatch and execution of a linear recurrence along SDIM. -/
  | scanLinear (q : Fin 4)
  /-- SCAN_ASSOC (R179): Dispatch and execution of an associative prefix scan. -/
  | scanAssoc (q : Fin 4)
  /-- MAP (R180): Dispatch and execution of an element-wise function. -/
  | map (q : Fin 4)
  /-- MAP2 (R180): Dispatch and execution of a two-input element-wise function. -/
  | map2 (q : Fin 4)
  /-- NORM (R182): Dispatch and execution of RMS or layer normalisation of rows. -/
  | norm (q : Fin 4)
  /-- SOFTMAX (R183): Dispatch and execution of a row softmax. -/
  | softmax (q : Fin 4)
  /-- QUANTIZE (R184): Dispatch and execution of scaled conversion, including to MX formats. -/
  | quantize (q : Fin 4)
  /-- TOPK (R185): Dispatch and execution of top-K selection per row. -/
  | topk (q : Fin 4)
  /-- SORT (R186): Dispatch and execution of a stable row sort. -/
  | sort (q : Fin 4)
  /-- REDUCE (R187): Dispatch and execution of a reduction over the selected dimensions. -/
  | reduce (q : Fin 4)
  /-- GATHER (R189): Dispatch and execution of a row gather by index. -/
  | gather (q : Fin 4)
  /-- SCATTER (R190): Dispatch and execution of a row scatter by index. -/
  | scatter (q : Fin 4)
  /-- SCATTER_ADD (R191): Dispatch and execution of a scatter that adds at the table's memory. -/
  | scatterAdd (q : Fin 4)
  /-- COPY (R192): Dispatch and execution of a converting tensor copy. -/
  | copy (q : Fin 4)
  /-- FILL (R193): Dispatch and execution that writes VALUE to every element. -/
  | fill (q : Fin 4)
  /-- PREFETCH (R194): Copy of src into on-chip memory, started at staging or at dispatch. -/
  | prefetch (q : Fin 4)
  /-- EVICT (R195): Optional copy to LPDDR, then places wholly covered banks in STATE. -/
  | evict (q : Fin 4)
  /-- ALLREDUCE (R197): Dispatch and execution of an all-reduce across a fabric group. -/
  | allreduce (q : Fin 4)
  /-- REDUCE_SCATTER (R197): Dispatch and execution of a reduce-scatter across a fabric group. -/
  | reduceScatter (q : Fin 4)
  /-- ALLGATHER (R343): Dispatch and execution of an all-gather across a fabric group. -/
  | allgather (q : Fin 4)
  /-- ALLTOALL (R343): Dispatch and execution of an all-to-all exchange. -/
  | alltoall (q : Fin 4)
  /-- BROADCAST (R343): Dispatch and execution that copies the root's tensor to every member. -/
  | broadcast (q : Fin 4)
  /-- SEND (R198): Point-to-point send that waits for the matching RECV's READY. -/
  | send (q : Fin 4)
  /-- RECV (R343): Point-to-point receive paired with a SEND. -/
  | recv (q : Fin 4)
  /-- ATOMIC (R199): One 8-byte read-modify-write at the home memory, with the old value written to RESULT_ADDR. -/
  | atomic (q : Fin 4)
  /-- MEMORY_REQUEST_COMPLETE (R162): A memory request of an operation completes; a first non-OK status fails the operation and drains its other requests. -/
  | memoryRequestComplete (q : Fin 4)
  /-- RETIRE (R201): The commit point retires the oldest REPORTED operation whose writes and signal are acknowledged, fires a local signal and issues deferred head reads. -/
  | retire (q : Fin 4)
  /-- COMPLETION_RECORD_WRITE (R206): The completion record is written into a free completion-ring slot, after which TAIL advances and the resident slot frees. -/
  | completionRecordWrite (q : Fin 4)
  /-- ABORT_REQUEST (R207): A write of 1 to SQ_CTL.ABORT requests an abort of the context. -/
  | abortRequest (ag : Agent) (q : Fin 4)
  /-- ABORT_TAKEN (R207): The commit point samples the abort: it retires first if it can, marks operations ALREADY_DONE or ABORTED, sets HEAD := TAIL and enters ABORTING. -/
  | abortTaken (q : Fin 4)
  /-- DETACH_TIMEOUT (R210): 16 µs after the abort was taken, requests still open are detached and counted in SQ_DETACHED. -/
  | detachTimeout (q : Fin 4)
  /-- ABORT_COMPLETE (R210): The drain has ended; records are written, loop counters cleared, the context enters IDLE and event 0x0302 is raised. -/
  | abortComplete (q : Fin 4)
  /-- RESUME (R154): Writing 1 to SQ_CTL.RESUME in HALTED continues fetch after the HALT. -/
  | resume (ag : Agent) (q : Fin 4)
  /-- CONTEXT_TRAP (R212): The failing operation becomes oldest: its record is written, later operations abort, SQ_TRAP is written and the context enters TRAPPED. -/
  | contextTrap (q : Fin 4)
  /-- RELOAD_COMPLETE (R217): The reload finishes; the operation returns to STAGED for redispatch, or fails with ST_DATA_LOST. -/
  | reloadComplete (q : Fin 4)
  /-- SEQUENCER_DIE_LOST (R219): Within 1 µs of a Slate in the active die mask, dispatched operations end with ST_DIE_LOST and the context traps. -/
  | sequencerDieLost (q : Fin 4) (die : Fin 16)
  /-- Y_PORT_ACCESS (R228): A Y-port access to an SRAM bank is performed, waits behind the S port, or is discarded as ST_WRITE_LOST, and meets bank states and parity. -/
  | yPortAccess (ag : Agent) (arr : Fin 17) (off : Nat) (op : MemOp) (sport : Option SPort)
  /-- Y_ACCESS_PERFORMED (R229): A waiting Y access is performed in a later free bank cycle. -/
  | yAccessPerformed (arr : Fin 17) (bank : Fin 1024) (sub : Fin 2)
  /-- ALIAS_WRITE (R233): An 8-byte write to a bit-set or bit-clear alias performs an atomic two-cycle OR or AND-NOT update. -/
  | aliasWrite (ag : Agent) (addr : Word) (size : Nat) (data : Word)
  /-- BANK_CMD_ON (R239): BANK_CMD with STATE ON places a range of banks in ON, with any wake. -/
  | bankCmdOn (ag : Agent) (arr : Fin 17) (first last : Fin 1024)
  /-- BANK_CMD_RET (R239): BANK_CMD with STATE RET places a range of banks in retention. -/
  | bankCmdRet (ag : Agent) (arr : Fin 17) (first last : Fin 1024)
  /-- BANK_CMD_OFF (R239): BANK_CMD with STATE OFF turns a range of banks off, losing contents. -/
  | bankCmdOff (ag : Agent) (arr : Fin 17) (first last : Fin 1024)
  /-- BANK_CMD_TEST (R239): BANK_CMD with STATE TEST places a range of banks in TEST. -/
  | bankCmdTest (ag : Agent) (arr : Fin 17) (first last : Fin 1024)
  /-- BANK_WAKE_COMPLETE (R237): A bank's wake ends and its new state takes effect; BUSY clears when the whole range is done. -/
  | bankWakeComplete (arr : Fin 17) (bank : Fin 1024)
  /-- MARCH_DESTRUCTIVE (R241): MARCH_CMD with MODE 0 runs March C− over TEST banks, optionally repairing with spares. -/
  | marchDestructive (ag : Agent) (arr : Fin 17) (first last : Fin 1024) (repair : Bool) (fails : List MarchFail)
  /-- MARCH_PRESERVING (R242): MARCH_CMD with MODE 1 runs the content-preserving march on ON or RET banks. -/
  | marchPreserving (ag : Agent) (arr : Fin 17) (first last : Fin 1024) (fails : List MarchFail)
  /-- MARCH_CANCEL (R246): MARCH_CMD with CANCEL = 1 stops the running test within 64 bank cycles. -/
  | marchCancel (ag : Agent) (arr : Fin 17)
  /-- MARCH_END (R245): A test completes or is cancelled; DONE is set and event 0x0402 is raised. -/
  | marchEnd (arr : Fin 17) (fails : List MarchFail)
  /-- SPARE_ADD (R247): Maps a named word to the next free spare word of its sub-bank. -/
  | spareAdd (ag : Agent) (arr : Fin 17) (bank : Fin 1024) (word : Fin 65536)
  /-- LPDDR_COMMAND_SLOT (R284): In each DCLK slot that the thermal step allows, a channel picks the next request by tier, priority, lateness, deadline, open row and arrival, and issues its command. -/
  | lpddrCommandSlot (k : Fin 24) (c : Fin 4) (arrivals : List LpReq) (errs : List BlockErr)
  /-- OCHRE_REQUEST (R259): A narrow LPDDR read enters Ochre, is split into pieces and sorted by bank and row. -/
  | ochreRequest (src : Src) (addr : Nat) (size : Nat)
  /-- OCHRE_AGE_EXPIRED (R259): A request exceeds OCH_CTL.AGE, and its bank issues that request's row next. -/
  | ochreAgeExpired (id : Nat)
  /-- REFRESH (R261): A per-bank refresh that the controller issues at the rate for the package temperature. -/
  | refresh (k : Fin 24) (c : Fin 4) (bank : Fin 32)
  /-- TEMPERATURE_REPORT (R262): The 4 ms read of the package temperature that moves the package thermal step and enters or leaves HOLD. -/
  | temperatureReport (k : Fin 24) (temp : BitVec 8)
  /-- THERMAL_HOLD_TIMEOUT (R264): A request waiting in HOLD reaches 50 ms, or FAB_HOLD for a fabric request, and completes with ST_THERMAL. -/
  | thermalHoldTimeout (k : Fin 24) (id : Nat)
  /-- SELF_REFRESH_IDLE (R265): In PARKED, a package with no access for 1 ms returns to self-refresh. -/
  | selfRefreshIdle (k : Fin 24)
  /-- PATROL_SCRUB (R272): Periodic scrub read of a row unit that writes corrected blocks back. -/
  | patrolScrub (k : Fin 24) (unit : Fin 33254839) (errs : List BlockErr)
  /-- ROW_REMAP (R275): A queued remap locks the row, copies it to a spare and verifies it, or retires its pages, then releases the waiting requests. -/
  | rowRemap (k : Fin 24) (errs : List BlockErr) (spare : List (Fin 3 × BlockErr))
  /-- LOG_CLEAR (R271): Writing 1 to MC_CTL.LOG_CLEAR invalidates every correction log entry. -/
  | logClear (ag : Agent) (k : Fin 24)
  /-- ZQ_CALIBRATION (R266): MC_TRAIN_CMD OP 1 runs ZQ calibration on the selected channels. -/
  | zqCalibration (ag : Agent) (k : Fin 24) (mask : Fin 16)
  /-- COMMAND_ADDRESS_TRAINING (R266): MC_TRAIN_CMD OP 2 runs command/address training. -/
  | commandAddressTraining (ag : Agent) (k : Fin 24) (mask : Fin 16)
  /-- WRITE_LEVELING (R266): MC_TRAIN_CMD OP 3 runs write leveling. -/
  | writeLeveling (ag : Agent) (k : Fin 24) (mask : Fin 16)
  /-- READ_DQ_TRAINING (R266): MC_TRAIN_CMD OP 4 runs read DQ training. -/
  | readDqTraining (ag : Agent) (k : Fin 24) (mask : Fin 16)
  /-- WRITE_DQ_TRAINING (R266): MC_TRAIN_CMD OP 5 runs write DQ training. -/
  | writeDqTraining (ag : Agent) (k : Fin 24) (mask : Fin 16)
  /-- PATTERN_CHECK (R267): MC_TRAIN_CMD OP 6 writes and reads the test range of each selected channel. -/
  | patternCheck (ag : Agent) (k : Fin 24) (mask : Fin 16)
  /-- APPLY_TRAINING_PARAM (R267): MC_TRAIN_CMD OP 7 applies the saved MC_TRAIN_PARAM values to the channels. -/
  | applyTrainingParam (ag : Agent) (k : Fin 24) (mask : Fin 16)
  /-- LPDDR_TRAINING_STEP_DONE (R266): A training step ends and sets PASS, FAIL and DQFAIL, with up to three repeats. -/
  | lpddrTrainingStepDone (k : Fin 24) (pass : Fin 16) (pins : List (BitVec 16))
  /-- FIELD_TEST_GO (R481): MC_FTEST.GO starts a pattern write and read over a page range in the TEST class. -/
  | fieldTestGo (ag : Agent) (k : Fin 24) (data : Word)
  /-- FIELD_TEST_END (R481): The field test completes and clears BUSY, with FAIL set on any mismatch. -/
  | fieldTestEnd (k : Fin 24) (fail : Bool)
  /-- DEADLINE_TICK (R281): The 512÷7 HCLK accumulator passes 512, the tick count advances, and STREAM requests whose slack reaches 0 become late. -/
  | deadlineTick
  /-- RESERVATION_WINDOW (R285): Every 1,024 DCLK, the class credits of each controller are reloaded from the effective reservations. -/
  | reservationWindow (k : Fin 24)
  /-- RESERVATION_WRITE (R286): A write of REG_RESk that the 204-unit admission check accepts or refuses. -/
  | reservationWrite (ag : Agent) (k : Fin 24) (data : Word)
  /-- QUEUE_LEVEL_BROADCAST (R287): Every 16 HCLK, each controller broadcasts its queue level to the rate limiters. -/
  | queueLevelBroadcast (k : Fin 24)
  /-- CAPACITY_RECOMPUTE (R290): After a step change, a package failure or a retirement, EFF, SCALE and the effective values are recomputed, entering or leaving OVERSUBSCRIBED. -/
  | capacityRecompute
  /-- CORE_LOAD (R306): A core load that hits its line, or sends RdS or an uncached read. -/
  | coreLoad (ag : Agent) (addr : Word) (size : Nat)
  /-- CORE_STORE (R306): A core store that completes in M or E, or sends RdX, Upg or an uncached write. -/
  | coreStore (ag : Agent) (addr : Word) (data : List Byte)
  /-- LINE_REPLACEMENT (R306): A cache replaces a line: silently when in S or E, or with WbData when in M. -/
  | lineReplacement (a : Fin 65) (line : Word)
  /-- RDS (R299): The home directory serialises a read request and grants S or E after any recall. -/
  | rds (h : Holder) (line : Word)
  /-- RDX (R299): The home directory serialises a read-for-ownership request, invalidates or recalls holders, and grants M. -/
  | rdx (h : Holder) (line : Word)
  /-- UPG (R307): An upgrade request granted with GrantM, or handled as RdX when the sender is not a recorded sharer. -/
  | upg (h : Holder) (line : Word)
  /-- NC_RD (R300): A non-caching read at the home that recalls an owner to S, then reads memory. -/
  | ncRd (src : Src) (ag : Agent) (addr : Word) (size : Nat)
  /-- NC_WR (R300): A non-caching write at the home that invalidates or recalls holders, writes memory and may push a hinted line. -/
  | ncWr (src : Src) (ag : Agent) (addr : Word) (data : List (Option Byte)) (hint : Option (Fin 128))
  /-- NC_ATOM (R300): A non-caching atomic performed at the home after invalidation or recall. -/
  | ncAtom (src : Src) (ag : Agent) (addr : Word) (op : AtomOp)
  /-- RECALL_S (R306): The owner receives a recall to S and answers with RecallAck and any dirty data. -/
  | recallS (dst : Option (Fin 65)) (line : Word)
  /-- RECALL_I (R306): The owner receives a recall to I and answers with RecallAck and any dirty data. -/
  | recallI (dst : Option (Fin 65)) (line : Word)
  /-- INV (R306): A sharer receives an invalidation and answers InvAck. -/
  | inv (dst : Option (Fin 65)) (line : Word)
  /-- INV_ACK (R299): The home receives an invalidation acknowledgement. -/
  | invAck (h : Holder) (line : Word)
  /-- RECALL_ACK (R309): The home receives a recall answer: clean, dirty-follows or not-held. -/
  | recallAck (h : Holder) (line : Word) (kind : AckKind)
  /-- WB_PEND (R309): The home learns that a writeback is in flight and waits for its WbData. -/
  | wbPend (h : Holder) (line : Word)
  /-- WB_ACK (R306): The agent's writeback is acknowledged and the line goes to I. -/
  | wbAck (a : Fin 65) (line : Word)
  /-- GRANT_M (R306): The agent's upgrade is granted and its store completes. -/
  | grantM (dst : Option (Fin 65)) (line : Word)
  /-- DATA (R306): The requester receives line data with its granted state, completes its access and answers any held snoop. -/
  | data (dst : Option (Fin 65)) (line : Word) (data : List Byte) (grant : Grant) (poison : Bool)
  /-- RECALL_DATA (R308): The home receives the dirty data of a recall and writes it to memory. -/
  | recallData (h : Holder) (line : Word) (data : List Byte) (poison : Bool)
  /-- WB_DATA (R309): The home receives eviction data, writes it, answers WbAck and ends any open recall to that agent. -/
  | wbData (h : Holder) (line : Word) (data : List Byte) (poison : Bool)
  /-- PUSH (R304): The target receives a hinted line and accepts it in E or drops it. -/
  | push (a : Fin 65) (line : Word) (room : Bool)
  /-- PUSH_ACK (R304): The home learns that the Push was accepted; the entry becomes OWNED by the target. -/
  | pushAck (a : Fin 65) (line : Word)
  /-- PUSH_DROP (R304): The home learns that the Push was dropped and frees the entry. -/
  | pushDrop (a : Fin 65) (line : Word)
  /-- NC_ACK (R305): A non-caching source receives the completion of its write or atomic. -/
  | ncAck (src : Src)
  /-- RETRY_QUEUE_RELEASE (R298): A request waiting in the directory retry queue proceeds when its line or a way of its set frees. -/
  | retryQueueRelease (line : Word)
  /-- REMOTE_EN_CLEAR (R312): Writing 0 to DIR_CTL.REMOTE_EN starts the eviction of proxy entries. -/
  | remoteEnClear (ag : Agent)
  /-- PROXY_DRAIN_COMPLETE (R312): The last proxy entry is evicted; DRAINING clears and REMOTE_EN becomes 0. -/
  | proxyDrainComplete
  /-- RD64 (R336): Inbound read of one 64-byte line, answered with RSPD. -/
  | rd64 (port : Fin 10) (p : Packet)
  /-- RDN (R336): Inbound aligned read of 8, 16 or 32 bytes, answered with RSP. -/
  | rdn (port : Fin 10) (p : Packet)
  /-- WR64 (R336): Inbound write of one line, with an optional hint, answered with RSP. -/
  | wr64 (port : Fin 10) (p : Packet)
  /-- WRM (R338): Inbound masked line write, or a remote alias write, answered with RSP. -/
  | wrm (port : Fin 10) (p : Packet)
  /-- ATOM (R338): Inbound 8-byte atomic at home memory, returning the old value. -/
  | atom (port : Fin 10) (p : Packet)
  /-- BULKR (R337): Inbound read of 1 to 64 lines, answered with RSPD. -/
  | bulkr (port : Fin 10) (p : Packet)
  /-- BULKW (R337): Inbound write of 1 to 64 lines, each as a separate write. -/
  | bulkw (port : Fin 10) (p : Packet)
  /-- DBELL (R339): Inbound doorbell that adds ADD to a local flag. -/
  | dbell (port : Fin 10) (p : Packet)
  /-- REDC (R342): Inbound reduction contribution combined in ascending rank by the reduction engine. -/
  | redc (port : Fin 10) (p : Packet)
  /-- COLL_READY (R341): A peer's READY with its collective fields and recv descriptor, checked for agreement. -/
  | collReady (port : Fin 10) (p : Packet)
  /-- COLL_CREDIT (R342): A grant of 256 KiB of staging space for reduction contributions. -/
  | collCredit (port : Fin 10) (p : Packet)
  /-- RSP (R347): A response completes its GRT entry with its status, or is discarded as late or stray. -/
  | rsp (port : Fin 10) (p : Packet)
  /-- RSPD (R336): A read-data response completes its GRT entry. -/
  | rspd (port : Fin 10) (p : Packet)
  /-- MRD (R319): An 8-byte management read from the domain manager. -/
  | mrd (port : Fin 10) (p : Packet)
  /-- MWR (R319): An 8-byte management write from the domain manager. -/
  | mwr (port : Fin 10) (p : Packet)
  /-- JOIN (R321): A join request, forwarded toward the manager with PATH appended, or handled by the manager. -/
  | join (port : Fin 10) (p : Packet)
  /-- JOIN_ACK (R321): A provisional, final or refusing join answer that moves the membership state. -/
  | joinAck (port : Fin 10) (p : Packet)
  /-- NODE_DOWN (R351): The manager, or a failover module, receives the report of a lost neighbour and starts confirming it. -/
  | nodeDown (port : Fin 10) (p : Packet)
  /-- FABRIC_FENCE (R351): A FENCE notice sets the node's fence bit, completes requests to it and is relayed down tree 0. -/
  | fabricFence (port : Fin 10) (p : Packet)
  /-- UNFENCE (R353): An UNFENCE notice clears a fence bit, or announces a new manager. -/
  | unfence (port : Fin 10) (p : Packet)
  /-- EVENT_PACKET (R463): An inbound event record that is delivered to the local queues with REMOTE set. -/
  | eventPacket (port : Fin 10) (p : Packet)
  /-- BCW (R344): A broadcast write along a tree, delivered locally and copied to the children. -/
  | bcw (port : Fin 10) (p : Packet)
  /-- PACKET_FORWARD (R329): A packet for another node is routed on a usable candidate port, waits, or completes as unroutable. -/
  | packetForward (port : Fin 10) (p : Packet)
  /-- FABRIC_ENABLE (R321): Writing FAB_CTL.ENABLE := 1 makes the module MEMBER as manager, starts joining, or leaves it ISOLATED. -/
  | fabricEnable (ag : Agent)
  /-- FABRIC_DISABLE (R321): Writing FAB_CTL.ENABLE := 0 isolates the module. -/
  | fabricDisable (ag : Agent)
  /-- JOIN_REPEAT (R321): While JOINING, JOIN is resent on every ACTIVE port every 1 ms, or every 100 ms after a provisional answer. -/
  | joinRepeat
  /-- NODE_DOWN_FAILOVER (R323): With no answer to NODE_DOWN within 1 ms, it is resent to the next failover module. -/
  | nodeDownFailover (n : Fin 16384)
  /-- NODE_DOWN_CONFIRM (R351): After 200 µs, the manager reroutes and unfences a live node, or fences it across the hall. -/
  | nodeDownConfirm (n : Fin 16384) (alive : Bool)
  /-- GRT_TIMEOUT (R346): A GRT entry timer reaches its limit and the entry completes with ST_TIMEOUT. -/
  | grtTimeout (idx : Fin 65536)
  /-- QUARANTINE_EXPIRY (R348): A quarantined entry is freed after FAB_TIMEOUT.REMOTE. -/
  | quarantineExpiry (idx : Fin 65536)
  /-- PORT_DRAIN (R335): FAB_PORTp.DRAIN = 1 stops the hub choosing the port and sends a BAR request. -/
  | portDrain (ag : Agent) (port : Fin 10) (data : Word)
  /-- DRAIN_END (R335): A write with DRAIN = 0 and ROUTE_EN = 1 ends the drain. -/
  | drainEnd (ag : Agent) (port : Fin 10) (data : Word)
  /-- EMITTER_FAILURE (R358): A primary emitter falls below threshold; its lanes are unlit, the ports retrain and the spare starts. -/
  | emitterFailure (d : Fin 2) (w : Fin 8)
  /-- SPARE_EMITTER_RESULT (R358): The spare locks and the lanes are relit with a retrain, or at 50 ms the wavelength stays dark. -/
  | spareEmitterResult (d : Fin 2) (w : Fin 8) (locked : Bool)
  /-- FLIT_RECEIVED (R365): A flit is accepted and passed to the fabric engine, or rejected with a NAK. -/
  | flitReceived (port : Fin 10) (f : Flit)
  /-- ACK (R366): An ACK control sequence frees acknowledged flits from the replay buffer. -/
  | ack (port : Fin 10) (n : Fin 4096) (wrap : Bool)
  /-- NAK (R367): A NAK makes the transmitter resend from flit N, enters retry and on the eighth consecutive NAK starts a retrain. -/
  | nak (port : Fin 10) (n : Fin 4096)
  /-- NAK_RESEND_TIMEOUT (R367): No SOF carrying the expected number within 1 µs, so the NAK is sent again. -/
  | nakResendTimeout (port : Fin 10)
  /-- CRD (R369): A credit return updates the transmitter's free credits for a VC and SUB. -/
  | crd (port : Fin 10) (vc : Fin 8) (sub : Bool) (total : Fin 4096)
  /-- HBT (R378): A heartbeat from the partner is received. -/
  | hbt (port : Fin 10) (node : Fin 16384)
  /-- HEARTBEAT_SEND (R378): Every 1 µs of its own counter, an ACTIVE transmitter sends one HBT. -/
  | heartbeatSend (port : Fin 10)
  /-- HEARTBEAT_TIMEOUT (R378): A missing heartbeat: after 16 µs with light the port retrains; after 4 µs with total loss of signal the port goes down as partner lost. -/
  | heartbeatTimeout (port : Fin 10) (light : Bool)
  /-- BAR (R335): A BAR request is answered once earlier flits have left, or a BAR answer sets DRAINED. -/
  | bar (port : Fin 10) (answer : Bool)
  /-- SLP (R380): The receiver accepts SLP and its direction sleeps. -/
  | slp (port : Fin 10)
  /-- LOSS_OF_SIGNAL (R377): Partial loss of signal or lock on receive lanes makes an ACTIVE port retrain. -/
  | lossOfSignal (port : Fin 10) (mask : BitVec 32)
  /-- PORT_ENABLE (R371): LANE_CTL.ENABLE := 1 with laser light permitted sends the port to DETECT with beacons. -/
  | portEnable (ag : Agent) (port : Fin 10)
  /-- PORT_DISABLE (R371): LANE_CTL.ENABLE := 0 darkens the port and sends it to DISABLED. -/
  | portDisable (ag : Agent) (port : Fin 10)
  /-- PARTNER_BEACON_DETECTED (R372): 25 beacon periods are recognised and the port enters TRAIN. -/
  | partnerBeaconDetected (port : Fin 10)
  /-- TRAIN_DONE (R373): Every lane not excluded is DONE in both directions and the port enters LOCK. -/
  | trainDone (port : Fin 10) (taps : List (Fin 32 × Fin 16 × Fin 16 × Fin 16))
  /-- LANE_SLIP (R374): LANE_SLIP.GO moves one lane's symbol boundary one bit later. -/
  | laneSlip (ag : Agent) (port : Fin 10) (lane : Fin 32)
  /-- SLIP_DONE (R374): LANE_CTL.SLIP_DONE ends symbol lock, excludes unlocked lanes and enters DESKEW. -/
  | slipDone (ag : Agent) (port : Fin 10)
  /-- DESKEW_DONE (R375): The lanes are aligned and the port enters EXCHANGE. -/
  | deskewDone (port : Fin 10) (skewed : BitVec 32)
  /-- CAPABILITY_RECORD (R376): A partner capability record sets RX_USE and widths, and with PEER_SEEN makes the port ACTIVE. -/
  | capabilityRecord (port : Fin 10) (r : CapRecord)
  /-- STAGE_TIMEOUT (R371): A training stage limit is reached: lanes are excluded or the attempt fails, retrying or ending FAILED or DOWN. -/
  | stageTimeout (port : Fin 10) (incomplete : BitVec 32)
  /-- RETRAIN_BUDGET_EXPIRED (R371): 500 µs after leaving ACTIVE, the port goes DOWN with cause retrain limit. -/
  | retrainBudgetExpired (port : Fin 10)
  /-- DOWN_DARK_EXPIRY (R371): After 100 µs dark in DOWN, the port re-enters DETECT. -/
  | downDarkExpiry (port : Fin 10)
  /-- TRAINING_SET_RECEIVED (R377): A training set arrives while ACTIVE, so the partner is retraining and the port retrains. -/
  | trainingSetReceived (port : Fin 10)
  /-- LANE_RETRAIN (R377): Writing LANE_CTL.RETRAIN in ACTIVE starts a retrain. -/
  | laneRetrain (ag : Agent) (port : Fin 10)
  /-- TX_SLEEP_ENTRY (R380): After LANE_SLEEP.IDLE µs idle, the transmit direction sends SLP and darkens. -/
  | txSleepEntry (port : Fin 10)
  /-- TX_WAKE (R381): A sleeping direction with something to send, or a write of LANE_SLEEP.WAKE, relights it and sends idle framing. -/
  | txWake (port : Fin 10) (ag : Option Agent)
  /-- WAKE_TIMEOUT (R381): No COM within 5 µs of light makes the port retrain; no reverse light within 20 µs sends it down as wake failed. -/
  | wakeTimeout (port : Fin 10) (reverse : Bool)
  /-- LOOPBACK_NONE (R382): LOOPBACK 0 ends loopback and sends the port to DOWN. -/
  | loopbackNone (ag : Agent) (port : Fin 10)
  /-- LOOPBACK_NEAR_SERIAL (R382): LOOPBACK 1 turns the transmit waveguides back optically. -/
  | loopbackNearSerial (ag : Agent) (port : Fin 10)
  /-- LOOPBACK_NEAR_PARALLEL (R382): LOOPBACK 2 returns transmit words in the lane logic. -/
  | loopbackNearParallel (ag : Agent) (port : Fin 10)
  /-- LOOPBACK_FAR_END (R382): LOOPBACK 3 retimes received lanes back to the partner. -/
  | loopbackFarEnd (ag : Agent) (port : Fin 10)
  /-- PRBS_TEST (R382): LANE_CTL.PRBS_EN sends and checks PRBS31 on every lit lane. -/
  | prbsTest (port : Fin 10) (errors : List (Fin 32 × Nat))
  /-- FRAME_RECEIVE (R389): A die-link frame is checked for parity, CRC8, SYNC and SEQ, accepted or answered with a NAK, and credits and ACKs are taken. -/
  | frameReceive (port : Fin 17) (b : Fin 16) (f : Frame)
  /-- FRAME_NAK (R389): A frame-word NAK makes the transmitter resend from the named frame; NAK_LIMIT consecutive NAKs start a retrain. -/
  | frameNak (port : Fin 17) (b : Fin 16) (n : BitVec 8)
  /-- LANE_ERROR_WINDOW (R390): Each 1 ms window, byte-lane parity counts at or above LANE_LIMIT start a bundle retrain. -/
  | laneErrorWindow (port : Fin 17)
  /-- BUNDLE_RETRAIN (R394): A bundle retrains in both directions with traffic moved to other bundles, started by a cause of R390 or a write of RETRAIN. -/
  | bundleRetrain (ag : Agent) (port : Fin 17) (b : Fin 16) (data : Word)
  /-- BUNDLE_RETRAIN_COMPLETE (R394): After step 5 the bundle carries traffic and held frames are resent; width and spare events are raised. -/
  | bundleRetrainComplete (port : Fin 17) (tests : List DirTest)
  /-- D2D_CLOCK (R391): D2D_TRAIN_CMD OP 1 locks receivers to the forwarded clocks. -/
  | d2dClock (ag : Agent) (port : Fin 17) (mask prbs : BitVec 16)
  /-- D2D_DESKEW (R391): D2D_TRAIN_CMD OP 2 aligns every wire to FRM. -/
  | d2dDeskew (ag : Agent) (port : Fin 17) (mask prbs : BitVec 16)
  /-- D2D_ICT (R391): D2D_TRAIN_CMD OP 3 runs the walking-ones, walking-zeros and PRBS31 interconnect test. -/
  | d2dIct (ag : Agent) (port : Fin 17) (mask prbs : BitVec 16)
  /-- D2D_SPARE (R392): D2D_TRAIN_CMD OP 4 sets the width and spare map of each direction. -/
  | d2dSpare (ag : Agent) (port : Fin 17) (mask prbs : BitVec 16)
  /-- D2D_PARITY (R391): D2D_TRAIN_CMD OP 5 exchanges idle frames with checks on and starts traffic. -/
  | d2dParity (ag : Agent) (port : Fin 17) (mask prbs : BitVec 16)
  /-- D2D_APPLY (R391): D2D_TRAIN_CMD OP 6 loads the saved parameters and spare maps. -/
  | d2dApply (ag : Agent) (port : Fin 17) (mask prbs : BitVec 16)
  /-- D2D_COLD_TRAINING (R391): D2D_TRAIN_CMD OP 7 runs steps 1 to 5 in order. -/
  | d2dColdTraining (ag : Agent) (port : Fin 17) (mask prbs : BitVec 16)
  /-- D2D_TRAIN_STEP_DONE (R393): A die-link training step ends and sets PASS and FAIL; a port reaches ACTIVE or fails. -/
  | d2dTrainStepDone (port : Fin 17) (tests : List DirTest)
  /-- LOSS_OF_FORWARDED_CLOCK (R395): An RX bundle sees no clock edge for 16 ns, or 8 frames without SYNC; a partial loss retrains, a total loss leads to Slate. -/
  | lossOfForwardedClock (port : Fin 17) (mask : BitVec 16) (frame : Bool)
  /-- HUB_LOST (R398): The management die sees the hub lost on both MP bundles; a warm module reset follows. -/
  | hubLost (b : BootIn)
  /-- MGD_RESET_RELEASE (R416): After 10 ms held, the management die is released and the boot ROM runs again, unless restarts have stopped. -/
  | mgdResetRelease (b : BootIn)
  /-- EVQ_BASE_WRITE (R402): A write of EVQ_BASE that sets the queue ring and zeroes TAIL and HEAD. -/
  | evqBaseWrite (ag : Agent) (q : Fin 4) (data : Word)
  /-- EVRAISE (R463): A write of HUB_EVRAISE2 raises the record staged by the same core with FIRMWARE set. -/
  | evraise (ag : Agent) (data : Word)
  /-- FAULT_CLEAR (R468): Writing 1 to HUB_FAULT.PENDING clears it and MFR_ALERT_STATUS[4]. -/
  | faultClear (ag : Agent)
  /-- FLASH_WRITE (R401): An 8-byte write to the flash window programs the flash, erasing a sector first at its first byte. -/
  | flashWrite (ag : Agent) (addr : Word) (data : List Byte)
  /-- EXTEND (R418): MGD_ROT_CMD OP 1 extends MEAS5 to MEAS7 with a digest. -/
  | extend (ag : Agent) (index : Fin 8) (addr : Word)
  /-- ROT_ATTEST (R419): MGD_ROT_CMD OP 2 signs an attestation report for a core. -/
  | rotAttest (ag : Agent) (addr : Word)
  /-- ROT_COMMAND_COMPLETE (R409): The root of trust finishes a command, writes the report or digest and frees BUSY for a waiting service ATTEST. -/
  | rotCommandComplete
  /-- STATUS (R410): Service STATUS answered without authentication with the 72-byte status. -/
  | status (f : SvcFrame)
  /-- EVENT_READ (R464): Service read of up to 256 flash event log records. -/
  | eventRead (f : SvcFrame)
  /-- SERVICE_RESET_WARM (R432): Service RESET with ARG 0 schedules a warm module reset 1 ms after the response. -/
  | serviceResetWarm (f : SvcFrame)
  /-- SERVICE_RESET_COLD (R432): Service RESET with ARG 1 schedules a cold module reset. -/
  | serviceResetCold (f : SvcFrame)
  /-- SERVICE_RESET_MGD (R416): Service RESET with ARG 2 schedules a management-die reset. -/
  | serviceResetMgd (f : SvcFrame)
  /-- SERVICE_RESET_PARTITION (R435): Service RESET with ARG 3 schedules a partition reset. -/
  | serviceResetPartition (f : SvcFrame)
  /-- SERVICE_RESET_DELAY (R432): 1 ms after the RESET response is sent, the requested reset begins. -/
  | serviceResetDelay (b : BootIn)
  /-- BULK_SEEK (R412): Sets the bulk address register. -/
  | bulkSeek (f : SvcFrame)
  /-- BULK_READ (R412): Reads memory from the bulk address as non-caching requests, stopping at the first failing unit. -/
  | bulkRead (f : SvcFrame)
  /-- BULK_WRITE (R412): Writes memory from the bulk address, stopping at the first failing unit. -/
  | bulkWrite (f : SvcFrame)
  /-- CLEAR_REPAIR (R65): Empties the flash repair list of a die outside every active die mask. -/
  | clearRepair (f : SvcFrame)
  /-- RETURN_DIE (R92): Clears a die's out-of-service record after a passing field logic BIST. -/
  | returnDie (f : SvcFrame)
  /-- LOCATE_ON (R41): Turns the locate LED on. -/
  | locateOn (f : SvcFrame)
  /-- LOCATE_OFF (R41): Turns the locate LED off. -/
  | locateOff (f : SvcFrame)
  /-- SVN_COMMIT (R407): Writes the SVN commit request for the running slot. -/
  | svnCommit (f : SvcFrame)
  /-- SET_OPERATOR_KEY (R413): Stages an operator key hash that is written to the boot directory at the next boot. -/
  | setOperatorKey (f : SvcFrame)
  /-- ATTEST (R409): Service request for a signed attestation report, which waits for the root of trust if it is busy. -/
  | attest (f : SvcFrame)
  /-- CORE_RESET_CLEAN (R433): HUB_RESET_CMD level 1 resets one core after writing back its dirty lines. -/
  | coreResetClean (ag : Agent) (target : Fin 128)
  /-- CORE_RESET_HARD (R433): HUB_RESET_CMD level 2 resets one core, poisoning its dirty lines. -/
  | coreResetHard (ag : Agent) (target : Fin 128)
  /-- CLUSTER_RESET (R434): HUB_RESET_CMD level 3 resets a compute die outside every mask, or the AC cluster. -/
  | clusterReset (ag : Agent) (target : Fin 128)
  /-- PARTITION_RESET (R435): HUB_RESET_CMD level 4 aborts the context and power-cycles, retrains, repairs and reloads the partition's dies. -/
  | partitionReset (ag : Agent) (target : Fin 128)
  /-- MODULE_RESET_WARM (R436): HUB_RESET_CMD level 5 resets every die and reboots with fast start. -/
  | moduleResetWarm (ag : Agent) (target : Fin 128) (b : BootIn)
  /-- MODULE_RESET_COLD (R436): HUB_RESET_CMD level 6 resets every die and runs a cold boot. -/
  | moduleResetCold (ag : Agent) (target : Fin 128) (b : BootIn)
  /-- RESET_FINISH (R435): HUB_RESET_CMD.FINISH ends the oldest firmware phase: PRESENT is written, ACTIVE changes and R92 are applied and the context returns to IDLE. -/
  | resetFinish (ag : Agent) (dies : List DieRun)
  /-- CORE_RESET_COMPLETE (R432): A core reset completes after its walk and the core restarts at its reset vector. -/
  | coreResetComplete (target : Fin 128)
  /-- DRAIN_LIMIT (R431): 16 µs after a reset begins, requests to the unit still open complete with ST_FENCED. -/
  | drainLimit (level : Fin 8) (target : Fin 128)
  /-- BOOT_COMPLETE (R424): Stage 8 ends: STAGE 15 is written, the LED turns on, the alert bit is set and event 0x0C02 is raised. -/
  | bootComplete (dies : List DieRun)
  /-- RAIL_FAULT (R442): A rail leaves its setpoint, exceeds its current limit or fails to regulate; its phases are cut and a die Slates, ports go down or the module enters STANDBY. -/
  | railFault (rail : Fin 30) (kind : Fin 4)
  /-- ACTIVE_REQUEST (R445): PWR_STATE.REQ = ACTIVE in PARKED restores the compute dies. -/
  | activeRequest (ag : Agent)
  /-- PARKED_REQUEST (R445): PWR_STATE.REQ = PARKED is refused when busy, or runs the PARKED entry. -/
  | parkedRequest (ag : Agent)
  /-- STANDBY_REQUEST (R446): PWR_STATE.REQ = STANDBY runs an orderly shutdown. -/
  | standbyRequest (ag : Agent)
  /-- PARKED_ENTRY_COMPLETE (R445): The PARKED entry sequence finishes and the module is PARKED. -/
  | parkedEntryComplete
  /-- PARKED_EXIT_COMPLETE (R445): The exit sequence finishes, the module is ACTIVE and contexts may fetch. -/
  | parkedExitComplete (dies : List DieRun)
  /-- ARRAY_CLOCK_GATE (R444): After GATE_US without fragments, a partition's array clocks are gated. -/
  | arrayClockGate (q : Fin 4)
  /-- ARRAY_CLOCK_UNGATE (R444): A context meets its dispatch conditions and the partition's clocks are ungated within 1 µs. -/
  | arrayClockUngate (q : Fin 4)
  /-- CAP_LOOP_TICK (R449): Once per ms the cap loop sets level L from the peak power, giving CAP_N and GATE. -/
  | capLoopTick (peak average : BitVec 12)
  /-- SENSOR_SAMPLE (R451): Every 100 µs each die sensor is sampled and WARN, THROTTLE or sensor failure is evaluated. -/
  | sensorSample (sensors : List Sensor)
  /-- THROTTLE_CEILING_STEP (R453): A thermal ceiling falls one step per ms in THROTTLE, or rises one step per RISE_MS after it. -/
  | throttleCeilingStep (n : Fin 20)
  /-- COOLANT_SAMPLE (R455): Every 100 ms the coolant thermistors are sampled and out-of-range readings raise 0x0D08. -/
  | coolantSample (inlet outlet : BitVec 16)
  /-- CACHE_PARITY_ERROR (R471): A core cache parity error refetches a clean line or poisons a modified one. -/
  | cacheParityError (a : Fin 65) (line : Word)
  /-- LOGIC_BIST_BOOT (R476): DT_CMD OP 1 runs the boot-set logic BIST on a compute die in Slate. -/
  | logicBistBoot (ag : Agent) (n : Fin 18)
  /-- LOGIC_BIST_FIELD (R476): DT_CMD OP 2 runs the field-set logic BIST. -/
  | logicBistField (ag : Agent) (n : Fin 18)
  /-- MEMORY_BIST (R477): DT_CMD OP 3 runs memory BIST with a verify signature. -/
  | memoryBist (ag : Agent) (n : Fin 18)
  /-- STANDALONE_TEST (R479): DT_CMD OP 4 runs the stand-alone test set from the tile-core ROM. -/
  | standaloneTest (ag : Agent) (n : Fin 18)
  /-- DIE_TEST_END (R475): A die test ends or is aborted; DONE and PASS are set and event 0x0C09 is raised. -/
  | dieTestEnd (die : Fin 16) (sig : Word)
  /-- DT_EXPECT_WRITE (R473): A write of DT_EXPECT recomputes PASS against the signature. -/
  | dtExpectWrite (ag : Agent) (n : Fin 18) (data : Word)
  /-- IDCODE (R482): The JTAG instruction that selects the device identification register. -/
  | idcode (tap : Tap)
  /-- SAMPLE_PRELOAD (R482): The JTAG instruction that selects boundary scan or the die wrapper. -/
  | samplePreload (tap : Tap)
  /-- EXTEST (R482): Drives package balls or die wrapper wires, only while in reset. -/
  | extest (tap : Tap)
  /-- CLAMP (R482): Holds outputs with bypass selected, only while in reset. -/
  | clamp (tap : Tap)
  /-- HIGHZ (R482): Places outputs in high impedance, only while in reset. -/
  | highz (tap : Tap)
  /-- STACK_SELECT (R482): Selects the secondary test access ports chained after the hub, only while in reset. -/
  | stackSelect (selection : BitVec 17)
  /-- BYPASS (R482): The JTAG instruction that selects the 1-bit bypass register. -/
  | bypass (tap : Tap)
  /-- ALWAYS_ON_ISLAND_READY (R42): Up to 100 ms after STBY_12V reaches 11.4 V, the always-on island becomes ready: SMBus answers, MOD_LED_N[0] blinks, and an earlier MOD_PWR_EN assertion is acted on. -/
  | alwaysOnIslandReady
  /-- COMMA_LOCKED (R374): A lane's comma has been seen, or has stood at a multiple of 10 for 64 consecutive training sets, and LANE_COMMAi SEEN or LOCKED is set. -/
  | commaLocked (port : Fin 10) (lane : Fin 32) (pos : Fin 40) (locked : Bool)
  /-- RECEIVER_WAKE (R381): Light returns on a sleeping receive direction, and the receiver wakes on the idle framing and finds COM at the saved positions. -/
  | receiverWake (port : Fin 10)
  /-- SEGMENT_BLOCK (R362): Every 80 ns, each ACTIVE transmit direction sends the block at the start of a segment and fills its control slots with NAK, ACK, HBT, BAR, CRD and SLP, including the ACK after accepted flits and the TOTAL repeats. -/
  | segmentBlock (port : Fin 10)
  /-- MGMT_ETHERNET_LINK_UP (R51): The 25GBASE-KR management link completes auto-negotiation and comes up, after which the service endpoint and the operating system can receive frames. -/
  | mgmtEthernetLinkUp
  /-- MGMT_ETHERNET_LINK_DOWN (R59): The management Ethernet link is lost because of the partner, the cable or a management-die restart. -/
  | mgmtEthernetLinkDown
  /-- CORE_INSTRUCTION_FETCH (R470): A core instruction fetch that hits its line or fills it, and that raises instruction access fault with event 0x0E01 on poisoned data. -/
  | coreInstructionFetch (ag : Agent) (addr : Word) (size : Nat)
  /-- CORE_AMO (R470): A core atomic memory operation that takes its line for ownership, and that raises store/AMO access fault with event 0x0E01 on poisoned data. -/
  | coreAmo (ag : Agent) (addr : Word) (size : Nat) (fn : AmoFn) (operand : Word)
  deriving DecidableEq, Repr

end Sys2Proof
end

