-- ==== Sys2Proof/Config.lean ====
section
/-! DEFINITION. What the spec leaves open: free values and functions of published standards, as constants without a body, so that
nothing can be proved about them. Each is named in a row of notes/assumptions/. -/

namespace Sys2Proof

namespace Config

/-- Byte at a local address of memory whose contents the spec leaves undefined (08 R238, 09 R269), by epoch. -/
opaque freeByte : Nat → Nat → BitVec 8

/-- Whether the stored parity of such a byte is wrong (08 R238), by epoch and address. -/
opaque freeParityBad : Nat → Nat → Bool

/-- A fresh value where the spec gives a result no value, by draw number (State field `fresh`). -/
opaque freeNat : Nat → Nat

/-- Result of a transcendental unit for an input whose result 03 R77 and R78 bound but do not fix, by function (in the order of 03
Table 03.6) and FP32 input. -/
opaque transcendental : Nat → BitVec 32 → BitVec 32

/-- Value of the 48-bit TIME counter (18 R462) when a record is raised, by draw number. -/
opaque freeTime : Nat → BitVec 48

/-- LINEAR11 word of a temperature in sixteenths of a degree (15 Table 15.10): the standard allows several exponents. -/
opaque linear11 : Int → BitVec 16

/-- SHAKE256 (FIPS 202): the first `n` bytes of the hash of a message. -/
opaque shake256 : List (BitVec 8) → Nat → List (BitVec 8)

/-- SLH-DSA-SHAKE-256f signature with the identity key (15 R409, FIPS 205). -/
opaque identitySign : List (BitVec 8) → List (BitVec 8)

/-- SLH-DSA-SHAKE-256s verification of a firmware image: public key, message, signature (15 R405). -/
opaque imageVerify : List (BitVec 8) → List (BitVec 8) → List (BitVec 8) → Bool

/-- The 64-byte hash of the vendor's public key held in the boot ROM (15 R405). -/
opaque romKeyHash : List (BitVec 8)

/-- The identity public key, 64 bytes (15 R408). -/
opaque identityKey : List (BitVec 8)

/-- The PUF key, 32 bytes (15 R408). -/
opaque pufKey : List (BitVec 8)

/-- BOOT_ID drawn at a reset of the management die (15 R411), by draw number. -/
opaque bootId : Nat → BitVec 64

/-- Set of a line in the directory: "a hash" of its address (11 R295). -/
opaque dirSet : Nat → Nat

/-- JEP106 manufacturer code in the device identification register (19 Table 19.5). -/
opaque jep106 : BitVec 11

/-- The 16-character serial number (15 Table 15.11). -/
opaque serial : List (BitVec 8)

/-- REDUCE AMAX of INT32 −2³¹, whose magnitude INT32 does not hold (06 R187 states no result). -/
opaque absMin32 : BitVec 32

end Config

end Sys2Proof
end

