-- ==== Sys2Proof/Machine/Bits.lean ====
section
/-! DEFINITION. Bit-field and byte-order helpers: fields of a number, little-endian bytes (00 R4), sparse tables. -/

namespace Sys2Proof.Machine

/-- Field [lo + w − 1 : lo] of a number. -/
def bits (v lo w : Nat) : Nat := (v >>> lo) % 2 ^ w

/-- Bit `i` of a number, as a Bool. -/
def bit (v i : Nat) : Bool := bits v i 1 == 1

/-- `v` with field [lo + w − 1 : lo] replaced by `x` (taken modulo 2^w). -/
def putBits (v lo w x : Nat) : Nat :=
  (v % 2 ^ lo) + (x % 2 ^ w) * 2 ^ lo + (v >>> (lo + w)) * 2 ^ (lo + w)

def b2n (b : Bool) : Nat := if b then 1 else 0

/-- The `n` little-endian bytes of a number (00 R4). -/
def toBytes : Nat → Nat → List Byte
  | 0, _ => []
  | n + 1, v => BitVec.ofNat 8 v :: toBytes n (v >>> 8)

/-- The number whose little-endian bytes these are (00 R4). -/
def ofBytes : List Byte → Nat
  | [] => 0
  | b :: bs => b.toNat + 256 * ofBytes bs

/-- `n` bytes from offset `i` of a byte list, zero beyond its end, as a number. -/
def leAt (bs : List Byte) (i n : Nat) : Nat := ofBytes ((bs.drop i).take n)

/-- A list cut or padded with zero bytes to `n` bytes. -/
def padTo (n : Nat) (bs : List Byte) : List Byte := (bs ++ List.replicate (n - bs.length) 0).take n

/-- `bs` with the bytes `x` written from offset `i`. -/
def splice (bs : List Byte) (i : Nat) (x : List Byte) : List Byte :=
  bs.take i ++ x ++ bs.drop (i + x.length)

/-- The numbers of the list `[0 .. 63]` (or fewer) whose bits are set in a mask. -/
def bitsOf (n mask : Nat) : List Nat := (List.range n).filter (bit mask)

def popCount (n mask : Nat) : Nat := (bitsOf n mask).length

/-- A mask with the bits of a list set. -/
def maskOf (l : List Nat) : Nat := l.foldl (fun m i => m ||| 2 ^ i) 0

/-- Saturating addition to a counter of `w` bits. -/
def satAdd (w a b : Nat) : Nat := min (a + b) (2 ^ w - 1)

/-- The signed value of the low `w` bits of a number. -/
def signed (w v : Nat) : Int :=
  let x := v % 2 ^ w
  if x < 2 ^ (w - 1) then (x : Int) else (x : Int) - 2 ^ w

/-- The low `w` bits of an integer (two's complement). -/
def unsigned (w : Nat) (x : Int) : Nat := (x % (2 ^ w : Int)).toNat

/-- A table from a number to a value, sparse, newest entry first while a command runs (see `settleMap`). -/
abbrev Sparse (α : Type) := List (Nat × α)

def Sparse.get? {α : Type} (t : Sparse α) (k : Nat) : Option α :=
  match t with
  | [] => none
  | (k', v) :: t => if k' = k then some v else Sparse.get? t k

/-- Every entry of `t` whose key is not `k`. -/
def Sparse.del {α : Type} (t : Sparse α) (k : Nat) : Sparse α := t.filter (fun e => e.1 != k)

/-- `t` with `k` bound to `v`; any older entry for `k` is dropped. -/
def Sparse.set {α : Type} (t : Sparse α) (k : Nat) (v : α) : Sparse α := (k, v) :: Sparse.del t k

/-- Insert into a list sorted by strictly rising keys, replacing an entry of the same key. -/
def insertKey {α : Type} (k : Nat) (v : α) : Sparse α → Sparse α
  | [] => [(k, v)]
  | (k', v') :: t =>
    if k < k' then (k, v) :: (k', v') :: t
    else if k = k' then (k, v) :: t
    else (k', v') :: insertKey k v t

/-- The entries of a table in the order of their keys; of several entries for one key the newest (first) one stays. -/
def sortKeys {α : Type} (t : Sparse α) : Sparse α := t.foldr (fun e acc => insertKey e.1 e.2 acc) []

/-- The canonical form of a table: keys strictly rising, and no entry equal to the value `dflt` gives an unlisted key. -/
def settleMap {α : Type} [DecidableEq α] (dflt : Nat → Option α) (t : Sparse α) : Sparse α :=
  (sortKeys t).filter (fun e => dflt e.1 != some e.2)

/-- Keys strictly rising. -/
def keysRise {α : Type} : Sparse α → Bool
  | [] => true
  | [_] => true
  | (k, _) :: (k', v') :: t => decide (k < k') && keysRise ((k', v') :: t)

/-- The canonical form, as a check (the rule `settleMap` establishes). -/
def canonical {α : Type} [DecidableEq α] (dflt : Nat → Option α) (t : Sparse α) : Bool :=
  keysRise t && t.all (fun e => dflt e.1 != some e.2)

/-- Element `i` of a list, or `d`. -/
def nth {α : Type} (l : List α) (i : Nat) (d : α) : α := l.getD i d

/-- A list with its element `i` changed by `f` (unchanged when there is none). -/
def modNth {α : Type} (l : List α) (i : Nat) (f : α → α) : List α :=
  match l, i with
  | [], _ => []
  | x :: xs, 0 => f x :: xs
  | x :: xs, i + 1 => x :: modNth xs i f

/-- Split a list into pieces of `n` (the last may be shorter); `fuel` bounds the pieces. -/
def chunksFuel {α : Type} : Nat → Nat → List α → List (List α)
  | 0, _, _ => []
  | _ + 1, _, [] => []
  | f + 1, n, l => l.take n :: chunksFuel f n (l.drop n)

def chunks {α : Type} (n : Nat) (l : List α) : List (List α) := chunksFuel l.length n l

/-- CRC-32 as the IEEE 802.3 frame check sequence (00 Table 00.1; 13 R363). -/
def crc32 (bs : List Byte) : Nat :=
  let step := fun (c : Nat) (_ : Nat) => if c % 2 = 1 then (c / 2) ^^^ 0xEDB88320 else c / 2
  (bs.foldl (fun c b => (List.range 8).foldl step (c ^^^ b.toNat)) 0xFFFFFFFF) ^^^ 0xFFFFFFFF

/-- ⌈a ÷ b⌉. -/
def ceilDiv (a b : Nat) : Nat := (a + b - 1) / b

end Sys2Proof.Machine
end

