-- ==== Sys2Proof/Machine/RegMap.lean ====
section
/-! DEFINITION. The register map: every register block, register and field of the register tables of spec/ (chapters 01, 03-05,
07-19), with its place, width, access type (00 Table 00.3) and reset value. Register addresses follow 01 R24-R26. -/

namespace Sys2Proof.Machine

/-- The register blocks (01 Table 01.7 R26, 01 Table 01.6, 08 Table 08.6, 15 Table 15.2). `sram` is the on-chip memory register
group: instance n < 16 lies in ECDn at 0x2000, instance 16 is BUF_ (08 Table 08.6). -/
inductive Block where
  | hub | sq | sram | mc | och | fab | lane | d2d | reg | dir | pwr | thm | ecd | mgd
  deriving DecidableEq, Repr

/-- Address of instance `i` of a block (01 R26, Table 01.7; 08 Table 08.6; 15 Table 15.2). -/
def Block.base : Block → Nat → Nat
  | .hub, _ => 0x700000000000
  | .sq, i => 0x700001000000 + i * 0x10000
  | .sram, i => if i = 16 then 0x700002000000 else 0x710000002000 + i * 0x1000000
  | .mc, i => 0x700003000000 + i * 0x10000
  | .och, _ => 0x700004000000
  | .fab, _ => 0x700005000000
  | .lane, i => 0x700006000000 + i * 0x10000
  | .d2d, i => 0x700007000000 + i * 0x10000
  | .reg, _ => 0x700008000000
  | .dir, _ => 0x700009000000
  | .pwr, _ => 0x70000A000000
  | .thm, _ => 0x70000B000000
  | .ecd, i => 0x710000000000 + i * 0x1000000
  | .mgd, _ => 0x7F0000000000

/-- Field access types (00 Table 00.3 R9). -/
inductive Acc where
  | rw | ro | wo | w1c | w1s | rc | rwl
  deriving DecidableEq, Repr

/-- The register names of the register tables. -/
inductive RegName where
  | hubPartition | hubDieMask | hubTileMap | ecdRepairCtl | ecdRepairRow | ecdRepairCol | ecdTileStatus | ecdPerf
  | sqSrSeed | sqSrCount | hubFlag | hubFlagAdd | sqCtl | sqStatus | sqRingBase | sqRingTail | sqRingHead | sqCplBase
  | sqCplTail | sqCplHead | sqPc | sqTrap | sqTrapAddr | sqSeq | sqReplay | sqGap | sqDetached | sqLoop | bankCmd
  | bankStatus | marchCmd | marchStatus | marchFail | spareAdd | protCtl | parityLog | errCount | prot | bankState
  | mcCtl | mcStatus | mcTherm | mcTrainCmd | mcTrainStatus | mcTrainDqfail | mcFtest | mcCount | mcPinMark | mcLog
  | mcRetire | mcSpareNext | mcRemap | mcTrainParam | ochCtl | ochStatus | ochCount | regStatus | regNow | regStream
  | regLimit | regClass | regMiss | regRes | regEff | regLat | dirCtl | dirStatus | dirDomain | dirDomainMembers
  | dirPoisonLog | dirCount | dirHint | fabCtl | fabNode | fabRole | fabFailover | fabTimeout | fabGrt | fabViolLog
  | fabPort | fabTree | fabCount | fabFence | fabRoute | laneCtl | laneStatus | laneTxMask | laneRxMask | laneExclude
  | laneSlip | laneSleep | lanePrbsLane | laneCount | laneComma | laneTap | d2dCtl | d2dStatus | d2dTrainCmd
  | d2dTrainStatus | d2dBundle | d2dSpare | d2dLaneErr | d2dTrainParam | evqBase | evqTail | evqHead | evqCtl
  | hubEvqUnrouted | hubFault | mgdStatus | mgdBootId | mgdSvc | mgdBulkAddr | mgdRotCmd | mgdRotStatus | mgdMeas
  | hubResetCmd | hubResetStatus | hubBoot | pwrState | pwrCap | pwrStatus | pwrAclk | pwrIdle | pwrRail | pwrLaser
  | thmCtl | thmLimits | thmSubst | thmTemp | hubEvraise0 | hubEvraise1 | hubEvraise2 | dtCmd | dtStatus | dtSig
  | dtExpect
  deriving DecidableEq, Repr

/-- One field of a register, repeated `cnt` times every `bs` bits (a table row written with an index, as [8j + 7:8j]). -/
structure FieldD where
  lo : Nat
  w : Nat
  acc : Acc
  reset : Nat
  bs : Nat := 0
  cnt : Nat := 1
  deriving DecidableEq, Repr

/-- One row of a register map: `count` registers from `off`, `stride` bytes apart. -/
structure RegD where
  name : RegName
  off : Nat
  stride : Nat
  count : Nat
  fields : List FieldD
  deriving DecidableEq, Repr

/-- Registers of the block `hub` (tables of spec/ as INVENTORY.md lists them). -/
def regsHub : List RegD := [
  ⟨.hubPartition, 0x100, 0, 1,
    [⟨0, 2, .rw, 0x0, 0, 1⟩]⟩,
  ⟨.hubDieMask, 0x108, 0, 1,
    [⟨0, 16, .ro, 0x0, 0, 1⟩, ⟨16, 16, .rw, 0x0, 0, 1⟩, ⟨32, 16, .ro, 0x0, 0, 1⟩]⟩,
  ⟨.hubTileMap, 0x110, 0, 1, [⟨0, 64, .rw, 0xFEDCBA9876543210, 0, 1⟩]⟩,
  ⟨.hubFlag, 0x8000, 8, 1024,
    [⟨0, 32, .rw, 0x0, 0, 1⟩]⟩,
  ⟨.hubFlagAdd, 0xA000, 8, 1024,
    [⟨0, 32, .wo, 0x0, 0, 1⟩]⟩,
  ⟨.evqBase, 0x400, 32, 4,
    [⟨5, 43, .rw, 0x0, 0, 1⟩, ⟨48, 4, .rw, 0x0, 0, 1⟩]⟩,
  ⟨.evqTail, 0x408, 32, 4,
    [⟨0, 32, .ro, 0x0, 0, 1⟩, ⟨32, 32, .rw, 0x0, 0, 1⟩]⟩,
  ⟨.evqHead, 0x410, 32, 4,
    [⟨0, 32, .rw, 0x0, 0, 1⟩]⟩,
  ⟨.evqCtl, 0x418, 32, 3, [⟨0, 32, .rw, 0x0, 0, 1⟩, ⟨32, 3, .rw, 0, 0, 1⟩, ⟨35, 1, .rw, 0, 0, 1⟩]⟩,
  ⟨.evqCtl, 0x478, 32, 1, [⟨0, 32, .rw, 0xFFFFFFFF, 0, 1⟩, ⟨32, 3, .rw, 0, 0, 1⟩, ⟨35, 1, .rw, 0, 0, 1⟩]⟩,
  ⟨.hubEvqUnrouted, 0x480, 0, 1,
    [⟨0, 64, .rw, 0x0, 0, 1⟩]⟩,
  ⟨.hubFault, 0x490, 0, 1,
    [⟨0, 1, .w1c, 0x0, 0, 1⟩]⟩,
  ⟨.hubResetCmd, 0x200, 0, 1,
    [⟨0, 3, .wo, 0x0, 0, 1⟩, ⟨8, 7, .wo, 0x0, 0, 1⟩, ⟨15, 1, .wo, 0x0, 0, 1⟩]⟩,
  ⟨.hubResetStatus, 0x208, 0, 1,
    [⟨0, 1, .ro, 0x0, 0, 1⟩, ⟨1, 1, .ro, 0x0, 0, 1⟩, ⟨2, 1, .ro, 0x0, 0, 1⟩, ⟨8, 8, .ro, 0x0, 0, 1⟩, ⟨16, 3, .ro, 0x0, 0, 1⟩, ⟨19, 7, .ro, 0x0, 0, 1⟩, ⟨32, 8, .ro, 0x0, 0, 1⟩, ⟨40, 24, .ro, 0x0, 0, 1⟩]⟩,
  ⟨.hubBoot, 0x210, 0, 1,
    [⟨0, 4, .rw, 0x0, 0, 1⟩, ⟨4, 1, .rw, 0x0, 0, 1⟩, ⟨32, 16, .rw, 0x0, 0, 1⟩]⟩,
  ⟨.hubEvraise0, 0x4A0, 0, 1,
    [⟨0, 16, .wo, 0x0, 0, 1⟩]⟩,
  ⟨.hubEvraise1, 0x4A8, 0, 1,
    [⟨0, 64, .wo, 0x0, 0, 1⟩]⟩,
  ⟨.hubEvraise2, 0x4B0, 0, 1,
    [⟨0, 64, .wo, 0x0, 0, 1⟩]⟩,
  ⟨.dtCmd, 0x600, 32, 18,
    [⟨0, 3, .wo, 0x0, 0, 1⟩]⟩,
  ⟨.dtStatus, 0x608, 32, 18,
    [⟨0, 1, .ro, 0x0, 0, 1⟩, ⟨1, 1, .w1c, 0x0, 0, 1⟩, ⟨2, 1, .ro, 0x0, 0, 1⟩, ⟨3, 1, .ro, 0x0, 0, 1⟩, ⟨4, 3, .ro, 0x0, 0, 1⟩, ⟨8, 8, .ro, 0x0, 0, 1⟩, ⟨16, 8, .ro, 0x0, 0, 1⟩]⟩,
  ⟨.dtSig, 0x610, 32, 18,
    [⟨0, 64, .ro, 0x0, 0, 1⟩]⟩,
  ⟨.dtExpect, 0x618, 32, 18,
    [⟨0, 64, .rw, 0x0, 0, 1⟩]⟩]

/-- Registers of the block `ecd` (tables of spec/ as INVENTORY.md lists them). -/
def regsEcd : List RegD := [
  ⟨.ecdRepairCtl, 0x1000, 0, 1,
    [⟨0, 1, .w1s, 0x0, 0, 1⟩, ⟨8, 4, .ro, 0x0, 0, 1⟩, ⟨12, 4, .ro, 0x0, 0, 1⟩]⟩,
  ⟨.ecdRepairRow, 0x1040, 8, 8,
    [⟨0, 9, .rwl, 0x0, 0, 1⟩, ⟨15, 1, .rwl, 0x0, 0, 1⟩]⟩,
  ⟨.ecdRepairCol, 0x1080, 8, 8,
    [⟨0, 9, .rwl, 0x0, 0, 1⟩, ⟨15, 1, .rwl, 0x0, 0, 1⟩]⟩,
  ⟨.ecdTileStatus, 0x10C0, 0, 1,
    [⟨0, 5, .ro, 0x10, 0, 1⟩, ⟨8, 1, .ro, 0x0, 0, 1⟩, ⟨9, 1, .ro, 0x0, 0, 1⟩, ⟨10, 1, .ro, 0x0, 0, 1⟩]⟩,
  ⟨.ecdPerf, 0x10C8, 8, 4,
    [⟨0, 64, .rw, 0x0, 0, 1⟩]⟩]

/-- Registers of the block `sq` (tables of spec/ as INVENTORY.md lists them). -/
def regsSq : List RegD := [
  ⟨.sqSrSeed, 0x200, 0, 1,
    [⟨0, 64, .rw, 0x0, 0, 1⟩]⟩,
  ⟨.sqSrCount, 0x208, 0, 1,
    [⟨0, 40, .rw, 0x0, 0, 1⟩]⟩,
  ⟨.sqCtl, 0x0, 0, 1,
    [⟨0, 1, .rw, 0x0, 0, 1⟩, ⟨1, 1, .wo, 0x0, 0, 1⟩, ⟨2, 1, .wo, 0x0, 0, 1⟩]⟩,
  ⟨.sqStatus, 0x8, 0, 1,
    [⟨0, 3, .ro, 0x0, 0, 1⟩, ⟨3, 3, .ro, 0x0, 0, 1⟩, ⟨6, 1, .ro, 0x0, 0, 1⟩, ⟨7, 4, .ro, 0x0, 0, 1⟩, ⟨11, 1, .ro, 0x0, 0, 1⟩]⟩,
  ⟨.sqRingBase, 0x10, 0, 1,
    [⟨7, 41, .rw, 0x0, 0, 1⟩, ⟨48, 4, .rw, 0x0, 0, 1⟩]⟩,
  ⟨.sqRingTail, 0x18, 0, 1,
    [⟨0, 32, .rw, 0x0, 0, 1⟩]⟩,
  ⟨.sqRingHead, 0x20, 0, 1,
    [⟨0, 32, .ro, 0x0, 0, 1⟩]⟩,
  ⟨.sqCplBase, 0x28, 0, 1,
    [⟨5, 43, .rw, 0x0, 0, 1⟩, ⟨48, 4, .rw, 0x0, 0, 1⟩]⟩,
  ⟨.sqCplTail, 0x30, 0, 1,
    [⟨0, 32, .ro, 0x0, 0, 1⟩]⟩,
  ⟨.sqCplHead, 0x38, 0, 1,
    [⟨0, 32, .rw, 0x0, 0, 1⟩]⟩,
  ⟨.sqPc, 0x40, 0, 1,
    [⟨0, 48, .ro, 0x0, 0, 1⟩]⟩,
  ⟨.sqTrap, 0x48, 0, 1,
    [⟨0, 8, .ro, 0x0, 0, 1⟩, ⟨8, 8, .ro, 0x0, 0, 1⟩, ⟨16, 16, .ro, 0x0, 0, 1⟩]⟩,
  ⟨.sqTrapAddr, 0x50, 0, 1,
    [⟨0, 48, .ro, 0x0, 0, 1⟩, ⟨63, 1, .ro, 0x0, 0, 1⟩]⟩,
  ⟨.sqSeq, 0x100, 0, 1,
    [⟨0, 32, .ro, 0x0, 0, 1⟩]⟩,
  ⟨.sqReplay, 0x108, 0, 1,
    [⟨0, 32, .rw, 0x0, 0, 1⟩, ⟨32, 32, .rw, 0x0, 0, 1⟩]⟩,
  ⟨.sqGap, 0x110, 0, 1,
    [⟨0, 64, .rw, 0x0, 0, 1⟩]⟩,
  ⟨.sqDetached, 0x118, 0, 1,
    [⟨0, 17, .ro, 0x0, 0, 1⟩]⟩,
  ⟨.sqLoop, 0x60, 8, 4,
    [⟨0, 32, .ro, 0x0, 0, 1⟩]⟩]

/-- Registers of the block `sram` (tables of spec/ as INVENTORY.md lists them). -/
def regsSram : List RegD := [
  ⟨.bankCmd, 0x0, 0, 1,
    [⟨0, 10, .wo, 0x0, 0, 1⟩, ⟨16, 10, .wo, 0x0, 0, 1⟩, ⟨32, 2, .wo, 0x0, 0, 1⟩]⟩,
  ⟨.bankStatus, 0x8, 0, 1,
    [⟨0, 1, .ro, 0x0, 0, 1⟩, ⟨8, 8, .ro, 0x0, 0, 1⟩]⟩,
  ⟨.marchCmd, 0x10, 0, 1,
    [⟨0, 10, .wo, 0x0, 0, 1⟩, ⟨16, 10, .wo, 0x0, 0, 1⟩, ⟨32, 1, .wo, 0x0, 0, 1⟩, ⟨33, 1, .wo, 0x0, 0, 1⟩, ⟨34, 1, .wo, 0x0, 0, 1⟩]⟩,
  ⟨.marchStatus, 0x18, 0, 1,
    [⟨0, 1, .ro, 0x0, 0, 1⟩, ⟨1, 1, .w1c, 0x0, 0, 1⟩, ⟨2, 1, .w1c, 0x0, 0, 1⟩, ⟨3, 1, .ro, 0x0, 0, 1⟩, ⟨8, 8, .ro, 0x0, 0, 1⟩, ⟨16, 8, .ro, 0x0, 0, 1⟩, ⟨24, 16, .ro, 0x0, 0, 1⟩]⟩,
  ⟨.marchFail, 0x20, 0, 1,
    [⟨0, 10, .ro, 0x0, 0, 1⟩, ⟨16, 16, .ro, 0x0, 0, 1⟩, ⟨32, 10, .ro, 0x0, 0, 1⟩, ⟨42, 1, .ro, 0x0, 0, 1⟩, ⟨63, 1, .ro, 0x0, 0, 1⟩]⟩,
  ⟨.spareAdd, 0x28, 0, 1,
    [⟨0, 10, .wo, 0x0, 0, 1⟩, ⟨16, 16, .wo, 0x0, 0, 1⟩]⟩,
  ⟨.protCtl, 0x30, 0, 1,
    [⟨0, 1, .w1s, 0x0, 0, 1⟩]⟩,
  ⟨.parityLog, 0x38, 0, 1,
    [⟨0, 31, .ro, 0x0, 0, 1⟩, ⟨32, 1, .ro, 0x0, 0, 1⟩, ⟨63, 1, .w1c, 0x0, 0, 1⟩]⟩,
  ⟨.errCount, 0x40, 0, 1,
    [⟨0, 32, .rw, 0x0, 0, 1⟩, ⟨32, 32, .rw, 0x0, 0, 1⟩]⟩,
  ⟨.prot, 0x80, 8, 16,
    [⟨0, 1, .rwl, 0x0, 0, 1⟩, ⟨6, 25, .rwl, 0x0, 0, 1⟩, ⟨32, 25, .rwl, 0x0, 0, 1⟩]⟩,
  ⟨.bankState, 0x100, 8, 32,
    [⟨0, 2, .ro, 0x0, 2, 32⟩]⟩]

/-- Registers of the block `mc` (tables of spec/ as INVENTORY.md lists them). -/
def regsMc : List RegD := [
  ⟨.mcCtl, 0x0, 0, 1,
    [⟨0, 1, .rw, 0x0, 0, 1⟩, ⟨1, 1, .rw, 0x0, 0, 1⟩, ⟨2, 1, .rw, 0x1, 0, 1⟩, ⟨3, 1, .rw, 0x1, 0, 1⟩, ⟨4, 1, .wo, 0x0, 0, 1⟩, ⟨8, 8, .rw, 0x18, 0, 1⟩]⟩,
  ⟨.mcStatus, 0x8, 0, 1,
    [⟨0, 3, .ro, 0x0, 0, 1⟩, ⟨3, 1, .ro, 0x0, 0, 1⟩, ⟨16, 9, .ro, 0x0, 9, 4⟩, ⟨52, 8, .ro, 0x0, 0, 1⟩]⟩,
  ⟨.mcTherm, 0x10, 0, 1,
    [⟨0, 2, .ro, 0x0, 0, 1⟩, ⟨8, 8, .ro, 0x0, 0, 1⟩, ⟨16, 8, .rw, 0xA, 0, 1⟩, ⟨32, 16, .rw, 0x0, 0, 1⟩]⟩,
  ⟨.mcTrainCmd, 0x60, 0, 1,
    [⟨0, 3, .wo, 0x0, 0, 1⟩, ⟨8, 4, .wo, 0x0, 0, 1⟩]⟩,
  ⟨.mcTrainStatus, 0x68, 0, 1,
    [⟨0, 1, .ro, 0x0, 0, 1⟩, ⟨8, 4, .ro, 0x0, 0, 1⟩, ⟨12, 4, .ro, 0x0, 0, 1⟩, ⟨16, 8, .ro, 0x0, 0, 1⟩]⟩,
  ⟨.mcTrainDqfail, 0x70, 0, 1,
    [⟨0, 16, .ro, 0x0, 16, 4⟩]⟩,
  ⟨.mcFtest, 0x78, 0, 1,
    [⟨0, 1, .wo, 0x0, 0, 1⟩, ⟨1, 1, .ro, 0x0, 0, 1⟩, ⟨2, 1, .w1c, 0x0, 0, 1⟩, ⟨8, 8, .ro, 0x0, 0, 1⟩, ⟨16, 15, .rw, 0x0, 0, 1⟩, ⟨32, 15, .rw, 0x0, 0, 1⟩, ⟨48, 2, .rw, 0x0, 0, 1⟩]⟩,
  ⟨.mcCount, 0x20, 8, 4,
    [⟨0, 32, .rw, 0x0, 0, 1⟩, ⟨32, 32, .rw, 0x0, 0, 1⟩]⟩,
  ⟨.mcPinMark, 0x40, 8, 4,
    [⟨0, 4, .rw, 0x0, 0, 1⟩, ⟨4, 1, .rw, 0x0, 0, 1⟩, ⟨5, 1, .ro, 0x0, 0, 1⟩]⟩,
  ⟨.mcLog, 0x100, 8, 16,
    [⟨0, 2, .ro, 0x0, 0, 1⟩, ⟨2, 5, .ro, 0x0, 0, 1⟩, ⟨7, 18, .ro, 0x0, 0, 1⟩, ⟨25, 7, .ro, 0x0, 0, 1⟩, ⟨32, 1, .ro, 0x0, 0, 1⟩, ⟨33, 8, .ro, 0x0, 0, 1⟩, ⟨41, 12, .ro, 0x0, 0, 1⟩, ⟨63, 1, .ro, 0x0, 0, 1⟩]⟩,
  ⟨.mcRetire, 0x800, 8, 128,
    [⟨0, 15, .rw, 0x0, 0, 1⟩, ⟨15, 1, .rw, 0x0, 0, 1⟩]⟩,
  ⟨.mcSpareNext, 0x1000, 8, 128,
    [⟨0, 12, .rw, 0x0, 0, 1⟩]⟩,
  ⟨.mcRemap, 0x2000, 8, 1024,
    [⟨0, 5, .rw, 0x0, 0, 1⟩, ⟨5, 18, .rw, 0x0, 0, 1⟩, ⟨23, 12, .rw, 0x0, 0, 1⟩, ⟨63, 1, .rw, 0x0, 0, 1⟩]⟩,
  ⟨.mcTrainParam, 0x4000, 8, 256,
    [⟨0, 32, .rw, 0x0, 0, 1⟩]⟩]

/-- Registers of the block `och` (tables of spec/ as INVENTORY.md lists them). -/
def regsOch : List RegD := [
  ⟨.ochCtl, 0x0, 0, 1,
    [⟨0, 16, .rw, 0x960, 0, 1⟩]⟩,
  ⟨.ochStatus, 0x8, 0, 1,
    [⟨0, 13, .ro, 0x0, 0, 1⟩]⟩,
  ⟨.ochCount, 0x10, 8, 4,
    [⟨0, 64, .rw, 0x0, 0, 1⟩]⟩]

/-- Registers of the block `reg` (tables of spec/ as INVENTORY.md lists them). -/
def regsReg : List RegD := [
  ⟨.regStatus, 0x0, 0, 1,
    [⟨0, 1, .ro, 0x0, 0, 1⟩, ⟨8, 24, .ro, 0x0, 0, 1⟩, ⟨32, 8, .ro, 0x0, 0, 1⟩]⟩,
  ⟨.regNow, 0x8, 0, 1,
    [⟨0, 16, .ro, 0x0, 0, 1⟩, ⟨16, 48, .ro, 0x0, 0, 1⟩]⟩,
  ⟨.regStream, 0x10, 0, 1,
    [⟨0, 3, .rw, 0x3, 0, 1⟩, ⟨8, 8, .rw, 0x10, 0, 1⟩]⟩,
  ⟨.regLimit, 0x18, 0, 1,
    [⟨0, 8, .rw, 0x40, 0, 1⟩, ⟨8, 8, .rw, 0x10, 0, 1⟩, ⟨16, 8, .rw, 0x4, 0, 1⟩]⟩,
  ⟨.regClass, 0x20, 8, 1, [⟨0, 12, .rw, 0x8, 0, 1⟩, ⟨12, 3, .rw, 2, 0, 1⟩]⟩,
  ⟨.regClass, 0x28, 8, 1, [⟨0, 12, .rw, 0x8, 0, 1⟩, ⟨12, 3, .rw, 2, 0, 1⟩]⟩,
  ⟨.regClass, 0x30, 8, 1, [⟨0, 12, .rw, 0x42, 0, 1⟩, ⟨12, 3, .rw, 1, 0, 1⟩]⟩,
  ⟨.regClass, 0x38, 8, 1, [⟨0, 12, .rw, 0xFFF, 0, 1⟩, ⟨12, 3, .rw, 0, 0, 1⟩]⟩,
  ⟨.regMiss, 0x40, 8, 5,
    [⟨0, 64, .rw, 0x0, 0, 1⟩]⟩,
  ⟨.regRes, 0x100, 8, 24,
    [⟨0, 8, .rw, 0x0, 0, 1⟩, ⟨8, 8, .rw, 0x0, 0, 1⟩, ⟨16, 8, .rw, 0x0, 0, 1⟩, ⟨24, 8, .rw, 0x0, 0, 1⟩, ⟨32, 8, .rw, 0x0, 0, 1⟩]⟩,
  ⟨.regEff, 0x200, 8, 24,
    [⟨0, 9, .ro, 0x100, 0, 1⟩, ⟨16, 17, .ro, 0x10000, 0, 1⟩]⟩,
  ⟨.regLat, 0x1000, 8, 96,
    [⟨0, 16, .ro, 0x0, 0, 1⟩, ⟨16, 3, .ro, 0x0, 0, 1⟩]⟩]

/-- Registers of the block `dir` (tables of spec/ as INVENTORY.md lists them). -/
def regsDir : List RegD := [
  ⟨.dirCtl, 0x0, 0, 1,
    [⟨0, 1, .rw, 0x1, 0, 1⟩, ⟨1, 1, .rw, 0x0, 0, 1⟩]⟩,
  ⟨.dirStatus, 0x8, 0, 1,
    [⟨0, 10, .ro, 0x0, 0, 1⟩, ⟨10, 1, .ro, 0x0, 0, 1⟩, ⟨11, 1, .ro, 0x0, 0, 1⟩, ⟨12, 1, .ro, 0x0, 0, 1⟩]⟩,
  ⟨.dirDomain, 0x10, 0, 1,
    [⟨0, 6, .rw, 0x0, 0, 1⟩]⟩,
  ⟨.dirDomainMembers, 0x18, 0, 1,
    [⟨0, 64, .rw, 0x0, 0, 1⟩]⟩,
  ⟨.dirPoisonLog, 0x50, 0, 1,
    [⟨0, 48, .ro, 0x0, 0, 1⟩, ⟨62, 1, .w1c, 0x0, 0, 1⟩, ⟨63, 1, .w1c, 0x0, 0, 1⟩]⟩,
  ⟨.dirCount, 0x20, 8, 6,
    [⟨0, 64, .rw, 0x0, 0, 1⟩]⟩,
  ⟨.dirHint, 0x100, 8, 16,
    [⟨0, 27, .rw, 0x0, 0, 1⟩, ⟨27, 27, .rw, 0x0, 0, 1⟩, ⟨54, 7, .rw, 0x0, 0, 1⟩, ⟨63, 1, .rw, 0x0, 0, 1⟩]⟩]

/-- Registers of the block `fab` (tables of spec/ as INVENTORY.md lists them). -/
def regsFab : List RegD := [
  ⟨.fabCtl, 0x0, 0, 1,
    [⟨0, 1, .rw, 0x0, 0, 1⟩]⟩,
  ⟨.fabNode, 0x8, 0, 1,
    [⟨0, 14, .rwl, 0x0, 0, 1⟩, ⟨16, 1, .w1s, 0x0, 0, 1⟩]⟩,
  ⟨.fabRole, 0x10, 0, 1,
    [⟨0, 2, .rw, 0x0, 0, 1⟩, ⟨2, 2, .ro, 0x0, 0, 1⟩, ⟨16, 14, .rw, 0x0, 0, 1⟩]⟩,
  ⟨.fabFailover, 0x18, 0, 1,
    [⟨0, 6, .rw, 0x0, 8, 8⟩, ⟨7, 1, .rw, 0x0, 8, 8⟩]⟩,
  ⟨.fabTimeout, 0x20, 0, 1,
    [⟨0, 16, .rw, 0xC8, 0, 1⟩, ⟨16, 16, .rw, 0x7D0, 0, 1⟩]⟩,
  ⟨.fabGrt, 0x28, 0, 1,
    [⟨0, 17, .ro, 0x0, 0, 1⟩, ⟨17, 17, .ro, 0x0, 0, 1⟩, ⟨34, 1, .ro, 0x0, 0, 1⟩]⟩,
  ⟨.fabViolLog, 0x30, 0, 1,
    [⟨0, 4, .ro, 0x0, 0, 1⟩, ⟨4, 4, .ro, 0x0, 0, 1⟩, ⟨8, 14, .ro, 0x0, 0, 1⟩, ⟨22, 8, .ro, 0x0, 0, 1⟩, ⟨63, 1, .w1c, 0x0, 0, 1⟩]⟩,
  ⟨.fabPort, 0x100, 8, 10,
    [⟨0, 1, .rw, 0x0, 0, 1⟩, ⟨1, 3, .rw, 0x0, 0, 1⟩, ⟨4, 1, .rw, 0x0, 0, 1⟩, ⟨5, 1, .wo, 0x0, 0, 1⟩, ⟨6, 1, .ro, 0x0, 0, 1⟩, ⟨7, 1, .ro, 0x0, 0, 1⟩, ⟨8, 14, .ro, 0x0, 0, 1⟩, ⟨22, 4, .ro, 0x0, 0, 1⟩]⟩,
  ⟨.fabTree, 0x200, 8, 16,
    [⟨0, 4, .rw, 0xF, 0, 1⟩, ⟨4, 10, .rw, 0x0, 0, 1⟩, ⟨14, 1, .rw, 0x0, 0, 1⟩, ⟨15, 1, .rw, 0x0, 0, 1⟩]⟩,
  ⟨.fabCount, 0x300, 8, 8,
    [⟨0, 64, .rw, 0x0, 0, 1⟩]⟩,
  ⟨.fabFence, 0x1000, 8, 256,
    [⟨0, 64, .ro, 0x0, 0, 1⟩]⟩,
  ⟨.fabRoute, 0x100000, 8, 16384,
    [⟨0, 4, .rw, 0xF, 0, 1⟩, ⟨4, 4, .rw, 0xF, 0, 1⟩, ⟨8, 4, .rw, 0xF, 0, 1⟩, ⟨12, 4, .rw, 0xF, 0, 1⟩, ⟨16, 1, .rw, 0x0, 0, 1⟩]⟩]

/-- Registers of the block `lane` (tables of spec/ as INVENTORY.md lists them). -/
def regsLane : List RegD := [
  ⟨.laneCtl, 0x0, 0, 1,
    [⟨0, 1, .rw, 0x0, 0, 1⟩, ⟨1, 1, .wo, 0x0, 0, 1⟩, ⟨2, 2, .rw, 0x0, 0, 1⟩, ⟨4, 1, .rw, 0x0, 0, 1⟩, ⟨5, 1, .wo, 0x0, 0, 1⟩]⟩,
  ⟨.laneStatus, 0x8, 0, 1,
    [⟨0, 4, .ro, 0x0, 0, 1⟩, ⟨4, 1, .ro, 0x0, 0, 1⟩, ⟨5, 1, .ro, 0x0, 0, 1⟩, ⟨6, 1, .ro, 0x0, 0, 1⟩, ⟨7, 1, .ro, 0x0, 0, 1⟩, ⟨8, 6, .ro, 0x0, 0, 1⟩, ⟨16, 6, .ro, 0x0, 0, 1⟩, ⟨22, 2, .ro, 0x0, 0, 1⟩, ⟨24, 4, .ro, 0x0, 0, 1⟩]⟩,
  ⟨.laneTxMask, 0x10, 0, 1,
    [⟨0, 32, .ro, 0x0, 0, 1⟩, ⟨32, 32, .ro, 0x0, 0, 1⟩]⟩,
  ⟨.laneRxMask, 0x18, 0, 1,
    [⟨0, 32, .ro, 0x0, 0, 1⟩, ⟨32, 32, .ro, 0x0, 0, 1⟩]⟩,
  ⟨.laneExclude, 0x20, 0, 1,
    [⟨0, 32, .rw, 0x0, 0, 1⟩]⟩,
  ⟨.laneSlip, 0x28, 0, 1,
    [⟨0, 5, .wo, 0x0, 0, 1⟩, ⟨8, 1, .wo, 0x0, 0, 1⟩]⟩,
  ⟨.laneSleep, 0x30, 0, 1,
    [⟨0, 1, .rw, 0x1, 0, 1⟩, ⟨1, 1, .wo, 0x0, 0, 1⟩, ⟨8, 8, .rw, 0x32, 0, 1⟩]⟩,
  ⟨.lanePrbsLane, 0x38, 0, 1,
    [⟨0, 5, .rw, 0x0, 0, 1⟩, ⟨32, 32, .rw, 0x0, 0, 1⟩]⟩,
  ⟨.laneCount, 0x40, 8, 8,
    [⟨0, 64, .rw, 0x0, 0, 1⟩]⟩,
  ⟨.laneComma, 0x80, 8, 4,
    [⟨0, 6, .ro, 0x0, 8, 8⟩, ⟨6, 1, .ro, 0x0, 8, 8⟩, ⟨7, 1, .ro, 0x0, 8, 8⟩]⟩,
  ⟨.laneTap, 0x100, 8, 32,
    [⟨0, 4, .rw, 0x2, 0, 1⟩, ⟨8, 4, .rw, 0xC, 0, 1⟩, ⟨16, 4, .rw, 0x4, 0, 1⟩]⟩]

/-- Registers of the block `d2d` (tables of spec/ as INVENTORY.md lists them). -/
def regsD2d : List RegD := [
  ⟨.d2dCtl, 0x0, 0, 1,
    [⟨0, 1, .rw, 0x0, 0, 1⟩, ⟨1, 1, .rw, 0x0, 0, 1⟩, ⟨8, 8, .rw, 0x10, 0, 1⟩, ⟨16, 8, .rw, 0x20, 0, 1⟩]⟩,
  ⟨.d2dStatus, 0x8, 0, 1,
    [⟨0, 3, .ro, 0x0, 0, 1⟩, ⟨8, 6, .ro, 0x0, 0, 1⟩, ⟨16, 6, .ro, 0x0, 0, 1⟩, ⟨24, 3, .ro, 0x0, 0, 1⟩]⟩,
  ⟨.d2dTrainCmd, 0x10, 0, 1,
    [⟨0, 3, .wo, 0x0, 0, 1⟩, ⟨16, 16, .wo, 0x0, 0, 1⟩, ⟨32, 16, .wo, 0x0, 0, 1⟩]⟩,
  ⟨.d2dTrainStatus, 0x18, 0, 1,
    [⟨0, 1, .ro, 0x0, 0, 1⟩, ⟨8, 8, .ro, 0x0, 0, 1⟩, ⟨16, 16, .ro, 0x0, 0, 1⟩, ⟨32, 16, .ro, 0x0, 0, 1⟩]⟩,
  ⟨.d2dBundle, 0x100, 8, 16,
    [⟨0, 2, .ro, 0x0, 0, 1⟩, ⟨2, 2, .ro, 0x0, 0, 1⟩, ⟨4, 1, .ro, 0x0, 0, 1⟩, ⟨5, 1, .rw, 0x0, 0, 1⟩, ⟨6, 1, .wo, 0x0, 0, 1⟩, ⟨16, 16, .rw, 0x0, 0, 1⟩, ⟨32, 32, .rw, 0x0, 0, 1⟩]⟩,
  ⟨.d2dSpare, 0x200, 8, 32,
    [⟨0, 7, .rw, 0x0, 8, 4⟩, ⟨7, 1, .rw, 0x0, 8, 4⟩, ⟨32, 4, .ro, 0x0, 0, 1⟩, ⟨36, 1, .ro, 0x0, 0, 1⟩, ⟨40, 7, .ro, 0x0, 0, 1⟩]⟩,
  ⟨.d2dLaneErr, 0x400, 8, 16,
    [⟨0, 8, .rw, 0x0, 8, 8⟩]⟩,
  ⟨.d2dTrainParam, 0x1000, 8, 256,
    [⟨0, 32, .rw, 0x0, 0, 1⟩]⟩]

/-- Registers of the block `mgd` (tables of spec/ as INVENTORY.md lists them). -/
def regsMgd : List RegD := [
  ⟨.mgdStatus, 0x0, 0, 1,
    [⟨0, 1, .ro, 0x0, 0, 1⟩, ⟨1, 1, .ro, 0x0, 0, 1⟩, ⟨2, 1, .ro, 0x0, 0, 1⟩, ⟨3, 1, .ro, 0x0, 0, 1⟩, ⟨4, 1, .ro, 0x0, 0, 1⟩, ⟨5, 1, .ro, 0x0, 0, 1⟩, ⟨32, 32, .ro, 0x0, 0, 1⟩]⟩,
  ⟨.mgdBootId, 0x8, 0, 1,
    [⟨0, 64, .ro, 0x0, 0, 1⟩]⟩,
  ⟨.mgdSvc, 0x10, 0, 1,
    [⟨0, 1, .rw, 0x1, 0, 1⟩, ⟨32, 32, .rw, 0x0, 0, 1⟩]⟩,
  ⟨.mgdBulkAddr, 0x18, 0, 1,
    [⟨0, 64, .ro, 0x0, 0, 1⟩]⟩,
  ⟨.mgdRotCmd, 0x20, 0, 1,
    [⟨0, 3, .wo, 0x0, 0, 1⟩, ⟨3, 3, .wo, 0x0, 0, 1⟩, ⟨6, 42, .wo, 0x0, 0, 1⟩]⟩,
  ⟨.mgdRotStatus, 0x28, 0, 1,
    [⟨0, 1, .ro, 0x0, 0, 1⟩, ⟨8, 8, .ro, 0x0, 0, 1⟩]⟩,
  ⟨.mgdMeas, 0x100, 8, 64,
    [⟨0, 64, .ro, 0x0, 0, 1⟩]⟩]

/-- Registers of the block `pwr` (tables of spec/ as INVENTORY.md lists them). -/
def regsPwr : List RegD := [
  ⟨.pwrState, 0x0, 0, 1,
    [⟨0, 3, .ro, 0x0, 0, 1⟩, ⟨8, 2, .wo, 0x0, 0, 1⟩, ⟨16, 8, .ro, 0x0, 0, 1⟩]⟩,
  ⟨.pwrCap, 0x8, 0, 1,
    [⟨0, 12, .rw, 0xAF0, 0, 1⟩, ⟨16, 8, .rw, 0x8C, 0, 1⟩]⟩,
  ⟨.pwrStatus, 0x10, 0, 1,
    [⟨0, 5, .ro, 0x0, 0, 1⟩, ⟨5, 5, .ro, 0x10, 0, 1⟩, ⟨10, 4, .ro, 0x0, 0, 1⟩, ⟨14, 1, .ro, 0x0, 0, 1⟩, ⟨16, 12, .ro, 0x0, 0, 1⟩, ⟨32, 12, .ro, 0x0, 0, 1⟩]⟩,
  ⟨.pwrAclk, 0x18, 0, 1,
    [⟨0, 5, .rw, 0x10, 0, 1⟩]⟩,
  ⟨.pwrIdle, 0x20, 0, 1,
    [⟨0, 16, .rw, 0x14, 0, 1⟩, ⟨16, 4, .ro, 0x0, 0, 1⟩]⟩,
  ⟨.pwrRail, 0x100, 8, 30,
    [⟨0, 12, .ro, 0x0, 0, 1⟩, ⟨16, 12, .ro, 0x0, 0, 1⟩, ⟨28, 1, .ro, 0x0, 0, 1⟩, ⟨29, 1, .w1c, 0x0, 0, 1⟩]⟩,
  ⟨.pwrLaser, 0x200, 8, 16,
    [⟨0, 10, .rw, 0x0, 0, 1⟩, ⟨10, 10, .rw, 0x0, 0, 1⟩, ⟨20, 10, .ro, 0x0, 0, 1⟩, ⟨30, 10, .rw, 0xC8, 0, 1⟩, ⟨40, 1, .ro, 0x0, 0, 1⟩, ⟨41, 1, .ro, 0x0, 0, 1⟩]⟩]

/-- Registers of the block `thm` (tables of spec/ as INVENTORY.md lists them). -/
def regsThm : List RegD := [
  ⟨.thmCtl, 0x0, 0, 1,
    [⟨0, 1, .w1s, 0x0, 0, 1⟩, ⟨8, 5, .rw, 0x8, 0, 1⟩, ⟨16, 8, .rw, 0xA, 0, 1⟩]⟩,
  ⟨.thmLimits, 0x8, 0, 1,
    [⟨0, 8, .rw, 0x5F, 0, 1⟩, ⟨8, 8, .rw, 0x69, 0, 1⟩, ⟨16, 8, .rwl, 0x73, 0, 1⟩, ⟨24, 4, .rw, 0x5, 0, 1⟩]⟩,
  ⟨.thmSubst, 0x10, 0, 1,
    [⟨0, 5, .rw, 0x6, 0, 1⟩, ⟨8, 5, .rw, 0xB, 0, 1⟩, ⟨16, 5, .rw, 0x1, 0, 1⟩, ⟨24, 5, .rw, 0x10, 0, 1⟩]⟩,
  ⟨.thmTemp, 0x100, 8, 22,
    [⟨0, 16, .ro, 0x0, 0, 1⟩, ⟨16, 1, .ro, 0x0, 0, 1⟩, ⟨17, 1, .ro, 0x0, 0, 1⟩, ⟨18, 1, .ro, 0x0, 0, 1⟩, ⟨19, 1, .ro, 0x0, 0, 1⟩, ⟨20, 5, .ro, 0x10, 0, 1⟩, ⟨25, 1, .ro, 0x0, 0, 1⟩]⟩]

/-- The registers of a block. -/
def Block.regs : Block → List RegD
  | .hub => regsHub
  | .sq => regsSq
  | .sram => regsSram
  | .mc => regsMc
  | .och => regsOch
  | .fab => regsFab
  | .lane => regsLane
  | .d2d => regsD2d
  | .reg => regsReg
  | .dir => regsDir
  | .pwr => regsPwr
  | .thm => regsThm
  | .ecd => regsEcd
  | .mgd => regsMgd

/-- A named field: its block, the offset and stride of its register, its bits, and the bit stride of a field repeated inside one
register. -/
structure Fld where
  blk : Block
  off : Nat
  stride : Nat
  lo : Nat
  w : Nat
  bs : Nat := 0
  deriving DecidableEq, Repr

namespace F

def HUB_PARTITION_MODE : Fld := ⟨.hub, 0x100, 0, 0, 2, 0⟩
def HUB_DIE_MASK_PRESENT : Fld := ⟨.hub, 0x108, 0, 0, 16, 0⟩
def HUB_DIE_MASK_ACTIVE : Fld := ⟨.hub, 0x108, 0, 16, 16, 0⟩
def HUB_DIE_MASK_SLATE : Fld := ⟨.hub, 0x108, 0, 32, 16, 0⟩
def HUB_TILE_MAP_DIE : Fld := ⟨.hub, 0x110, 0, 0, 4, 4⟩
def ECD_REPAIR_CTL_LOCK : Fld := ⟨.ecd, 0x1000, 0, 0, 1, 0⟩
def ECD_REPAIR_CTL_ROWS_LISTED : Fld := ⟨.ecd, 0x1000, 0, 8, 4, 0⟩
def ECD_REPAIR_CTL_COLS_LISTED : Fld := ⟨.ecd, 0x1000, 0, 12, 4, 0⟩
def ECD_REPAIR_ROW_ROW : Fld := ⟨.ecd, 0x1040, 8, 0, 9, 0⟩
def ECD_REPAIR_ROW_VALID : Fld := ⟨.ecd, 0x1040, 8, 15, 1, 0⟩
def ECD_REPAIR_COL_COL : Fld := ⟨.ecd, 0x1080, 8, 0, 9, 0⟩
def ECD_REPAIR_COL_VALID : Fld := ⟨.ecd, 0x1080, 8, 15, 1, 0⟩
def ECD_TILE_STATUS_ACLK_STEP : Fld := ⟨.ecd, 0x10C0, 0, 0, 5, 0⟩
def ECD_TILE_STATUS_FRAG_BUSY : Fld := ⟨.ecd, 0x10C0, 0, 8, 1, 0⟩
def ECD_TILE_STATUS_GATED : Fld := ⟨.ecd, 0x10C0, 0, 9, 1, 0⟩
def ECD_TILE_STATUS_WAIT_LOCK : Fld := ⟨.ecd, 0x10C0, 0, 10, 1, 0⟩
def ECD_PERF_COUNT : Fld := ⟨.ecd, 0x10C8, 8, 0, 64, 0⟩
def SQ_SR_SEED_SEED : Fld := ⟨.sq, 0x200, 0, 0, 64, 0⟩
def SQ_SR_COUNT_COUNT : Fld := ⟨.sq, 0x208, 0, 0, 40, 0⟩
def HUB_FLAG_VALUE : Fld := ⟨.hub, 0x8000, 8, 0, 32, 0⟩
def HUB_FLAG_ADD_ADD : Fld := ⟨.hub, 0xA000, 8, 0, 32, 0⟩
def SQ_CTL_ENABLE : Fld := ⟨.sq, 0x0, 0, 0, 1, 0⟩
def SQ_CTL_RESUME : Fld := ⟨.sq, 0x0, 0, 1, 1, 0⟩
def SQ_CTL_ABORT : Fld := ⟨.sq, 0x0, 0, 2, 1, 0⟩
def SQ_STATUS_STATE : Fld := ⟨.sq, 0x8, 0, 0, 3, 0⟩
def SQ_STATUS_RESIDENT : Fld := ⟨.sq, 0x8, 0, 3, 3, 0⟩
def SQ_STATUS_IN_CHAIN : Fld := ⟨.sq, 0x8, 0, 6, 1, 0⟩
def SQ_STATUS_CALL_DEPTH : Fld := ⟨.sq, 0x8, 0, 7, 4, 0⟩
def SQ_STATUS_CPL_FULL : Fld := ⟨.sq, 0x8, 0, 11, 1, 0⟩
def SQ_RING_BASE_ADDR : Fld := ⟨.sq, 0x10, 0, 7, 41, 0⟩
def SQ_RING_BASE_LOG2_SLOTS : Fld := ⟨.sq, 0x10, 0, 48, 4, 0⟩
def SQ_RING_TAIL_TAIL : Fld := ⟨.sq, 0x18, 0, 0, 32, 0⟩
def SQ_RING_HEAD_HEAD : Fld := ⟨.sq, 0x20, 0, 0, 32, 0⟩
def SQ_CPL_BASE_ADDR : Fld := ⟨.sq, 0x28, 0, 5, 43, 0⟩
def SQ_CPL_BASE_LOG2_SLOTS : Fld := ⟨.sq, 0x28, 0, 48, 4, 0⟩
def SQ_CPL_TAIL_TAIL : Fld := ⟨.sq, 0x30, 0, 0, 32, 0⟩
def SQ_CPL_HEAD_HEAD : Fld := ⟨.sq, 0x38, 0, 0, 32, 0⟩
def SQ_PC_ADDR : Fld := ⟨.sq, 0x40, 0, 0, 48, 0⟩
def SQ_TRAP_STATUS : Fld := ⟨.sq, 0x48, 0, 0, 8, 0⟩
def SQ_TRAP_OPCODE : Fld := ⟨.sq, 0x48, 0, 8, 8, 0⟩
def SQ_TRAP_CODE : Fld := ⟨.sq, 0x48, 0, 16, 16, 0⟩
def SQ_TRAP_ADDR_ADDR : Fld := ⟨.sq, 0x50, 0, 0, 48, 0⟩
def SQ_TRAP_ADDR_RING : Fld := ⟨.sq, 0x50, 0, 63, 1, 0⟩
def SQ_SEQ_NEXT : Fld := ⟨.sq, 0x100, 0, 0, 32, 0⟩
def SQ_REPLAY_RECOVERED : Fld := ⟨.sq, 0x108, 0, 0, 32, 0⟩
def SQ_REPLAY_LOST : Fld := ⟨.sq, 0x108, 0, 32, 32, 0⟩
def SQ_GAP_COUNT : Fld := ⟨.sq, 0x110, 0, 0, 64, 0⟩
def SQ_DETACHED_COUNT : Fld := ⟨.sq, 0x118, 0, 0, 17, 0⟩
def SQ_LOOP_COUNT : Fld := ⟨.sq, 0x60, 8, 0, 32, 0⟩
def BANK_CMD_FIRST : Fld := ⟨.sram, 0x0, 0, 0, 10, 0⟩
def BANK_CMD_LAST : Fld := ⟨.sram, 0x0, 0, 16, 10, 0⟩
def BANK_CMD_STATE : Fld := ⟨.sram, 0x0, 0, 32, 2, 0⟩
def BANK_STATUS_BUSY : Fld := ⟨.sram, 0x8, 0, 0, 1, 0⟩
def BANK_STATUS_RESULT : Fld := ⟨.sram, 0x8, 0, 8, 8, 0⟩
def MARCH_CMD_FIRST : Fld := ⟨.sram, 0x10, 0, 0, 10, 0⟩
def MARCH_CMD_LAST : Fld := ⟨.sram, 0x10, 0, 16, 10, 0⟩
def MARCH_CMD_MODE : Fld := ⟨.sram, 0x10, 0, 32, 1, 0⟩
def MARCH_CMD_REPAIR : Fld := ⟨.sram, 0x10, 0, 33, 1, 0⟩
def MARCH_CMD_CANCEL : Fld := ⟨.sram, 0x10, 0, 34, 1, 0⟩
def MARCH_STATUS_BUSY : Fld := ⟨.sram, 0x18, 0, 0, 1, 0⟩
def MARCH_STATUS_DONE : Fld := ⟨.sram, 0x18, 0, 1, 1, 0⟩
def MARCH_STATUS_FAIL : Fld := ⟨.sram, 0x18, 0, 2, 1, 0⟩
def MARCH_STATUS_CANCELLED : Fld := ⟨.sram, 0x18, 0, 3, 1, 0⟩
def MARCH_STATUS_RESULT : Fld := ⟨.sram, 0x18, 0, 8, 8, 0⟩
def MARCH_STATUS_SPARE_RESULT : Fld := ⟨.sram, 0x18, 0, 16, 8, 0⟩
def MARCH_STATUS_FAIL_COUNT : Fld := ⟨.sram, 0x18, 0, 24, 16, 0⟩
def MARCH_FAIL_BANK : Fld := ⟨.sram, 0x20, 0, 0, 10, 0⟩
def MARCH_FAIL_WORD : Fld := ⟨.sram, 0x20, 0, 16, 16, 0⟩
def MARCH_FAIL_BIT : Fld := ⟨.sram, 0x20, 0, 32, 10, 0⟩
def MARCH_FAIL_PARITY : Fld := ⟨.sram, 0x20, 0, 42, 1, 0⟩
def MARCH_FAIL_VALID : Fld := ⟨.sram, 0x20, 0, 63, 1, 0⟩
def SPARE_ADD_BANK : Fld := ⟨.sram, 0x28, 0, 0, 10, 0⟩
def SPARE_ADD_WORD : Fld := ⟨.sram, 0x28, 0, 16, 16, 0⟩
def PROT_CTL_LOCK : Fld := ⟨.sram, 0x30, 0, 0, 1, 0⟩
def PARITY_LOG_OFFSET : Fld := ⟨.sram, 0x38, 0, 0, 31, 0⟩
def PARITY_LOG_PORT : Fld := ⟨.sram, 0x38, 0, 32, 1, 0⟩
def PARITY_LOG_VALID : Fld := ⟨.sram, 0x38, 0, 63, 1, 0⟩
def ERR_COUNT_PARITY : Fld := ⟨.sram, 0x40, 0, 0, 32, 0⟩
def ERR_COUNT_WRITE_LOST : Fld := ⟨.sram, 0x40, 0, 32, 32, 0⟩
def PROT_VALID : Fld := ⟨.sram, 0x80, 8, 0, 1, 0⟩
def PROT_START : Fld := ⟨.sram, 0x80, 8, 6, 25, 0⟩
def PROT_LAST : Fld := ⟨.sram, 0x80, 8, 32, 25, 0⟩
def BANK_STATE_ST : Fld := ⟨.sram, 0x100, 8, 0, 2, 2⟩
def MC_CTL_ENABLE : Fld := ⟨.mc, 0x0, 0, 0, 1, 0⟩
def MC_CTL_FAILED : Fld := ⟨.mc, 0x0, 0, 1, 1, 0⟩
def MC_CTL_SCRUB_EN : Fld := ⟨.mc, 0x0, 0, 2, 1, 0⟩
def MC_CTL_AUTO_MARK : Fld := ⟨.mc, 0x0, 0, 3, 1, 0⟩
def MC_CTL_LOG_CLEAR : Fld := ⟨.mc, 0x0, 0, 4, 1, 0⟩
def MC_CTL_SCRUB_HOURS : Fld := ⟨.mc, 0x0, 0, 8, 8, 0⟩
def MC_STATUS_STATE : Fld := ⟨.mc, 0x8, 0, 0, 3, 0⟩
def MC_STATUS_REMAP_BUSY : Fld := ⟨.mc, 0x8, 0, 3, 1, 0⟩
def MC_STATUS_REMAP_USED : Fld := ⟨.mc, 0x8, 0, 16, 9, 9⟩
def MC_STATUS_RETIRE_USED : Fld := ⟨.mc, 0x8, 0, 52, 8, 0⟩
def MC_THERM_STEP : Fld := ⟨.mc, 0x10, 0, 0, 2, 0⟩
def MC_THERM_TEMP : Fld := ⟨.mc, 0x10, 0, 8, 8, 0⟩
def MC_THERM_FAB_HOLD : Fld := ⟨.mc, 0x10, 0, 16, 8, 0⟩
def MC_THERM_HOLD_EXPIRED : Fld := ⟨.mc, 0x10, 0, 32, 16, 0⟩
def MC_TRAIN_CMD_OP : Fld := ⟨.mc, 0x60, 0, 0, 3, 0⟩
def MC_TRAIN_CMD_CH_MASK : Fld := ⟨.mc, 0x60, 0, 8, 4, 0⟩
def MC_TRAIN_STATUS_BUSY : Fld := ⟨.mc, 0x68, 0, 0, 1, 0⟩
def MC_TRAIN_STATUS_PASS : Fld := ⟨.mc, 0x68, 0, 8, 4, 0⟩
def MC_TRAIN_STATUS_FAIL : Fld := ⟨.mc, 0x68, 0, 12, 4, 0⟩
def MC_TRAIN_STATUS_RESULT : Fld := ⟨.mc, 0x68, 0, 16, 8, 0⟩
def MC_TRAIN_DQFAIL_PINS : Fld := ⟨.mc, 0x70, 0, 0, 16, 16⟩
def MC_FTEST_GO : Fld := ⟨.mc, 0x78, 0, 0, 1, 0⟩
def MC_FTEST_BUSY : Fld := ⟨.mc, 0x78, 0, 1, 1, 0⟩
def MC_FTEST_FAIL : Fld := ⟨.mc, 0x78, 0, 2, 1, 0⟩
def MC_FTEST_RESULT : Fld := ⟨.mc, 0x78, 0, 8, 8, 0⟩
def MC_FTEST_FIRST : Fld := ⟨.mc, 0x78, 0, 16, 15, 0⟩
def MC_FTEST_LAST : Fld := ⟨.mc, 0x78, 0, 32, 15, 0⟩
def MC_FTEST_PATTERN : Fld := ⟨.mc, 0x78, 0, 48, 2, 0⟩
def MC_COUNT_CE : Fld := ⟨.mc, 0x20, 8, 0, 32, 0⟩
def MC_COUNT_UE : Fld := ⟨.mc, 0x20, 8, 32, 32, 0⟩
def MC_PIN_MARK_PIN : Fld := ⟨.mc, 0x40, 8, 0, 4, 0⟩
def MC_PIN_MARK_VALID : Fld := ⟨.mc, 0x40, 8, 4, 1, 0⟩
def MC_PIN_MARK_AUTO : Fld := ⟨.mc, 0x40, 8, 5, 1, 0⟩
def MC_LOG_CH : Fld := ⟨.mc, 0x100, 8, 0, 2, 0⟩
def MC_LOG_BANK : Fld := ⟨.mc, 0x100, 8, 2, 5, 0⟩
def MC_LOG_ROW : Fld := ⟨.mc, 0x100, 8, 7, 18, 0⟩
def MC_LOG_SYM : Fld := ⟨.mc, 0x100, 8, 25, 7, 0⟩
def MC_LOG_SECOND : Fld := ⟨.mc, 0x100, 8, 32, 1, 0⟩
def MC_LOG_HITS : Fld := ⟨.mc, 0x100, 8, 33, 8, 0⟩
def MC_LOG_AGE : Fld := ⟨.mc, 0x100, 8, 41, 12, 0⟩
def MC_LOG_VALID : Fld := ⟨.mc, 0x100, 8, 63, 1, 0⟩
def MC_RETIRE_PAGE : Fld := ⟨.mc, 0x800, 8, 0, 15, 0⟩
def MC_RETIRE_VALID : Fld := ⟨.mc, 0x800, 8, 15, 1, 0⟩
def MC_SPARE_NEXT_NEXT : Fld := ⟨.mc, 0x1000, 8, 0, 12, 0⟩
def MC_REMAP_BANK : Fld := ⟨.mc, 0x2000, 8, 0, 5, 0⟩
def MC_REMAP_ROW : Fld := ⟨.mc, 0x2000, 8, 5, 18, 0⟩
def MC_REMAP_SPARE : Fld := ⟨.mc, 0x2000, 8, 23, 12, 0⟩
def MC_REMAP_VALID : Fld := ⟨.mc, 0x2000, 8, 63, 1, 0⟩
def MC_TRAIN_PARAM_VALUE : Fld := ⟨.mc, 0x4000, 8, 0, 32, 0⟩
def OCH_CTL_AGE : Fld := ⟨.och, 0x0, 0, 0, 16, 0⟩
def OCH_STATUS_HELD : Fld := ⟨.och, 0x8, 0, 0, 13, 0⟩
def OCH_COUNT_COUNT : Fld := ⟨.och, 0x10, 8, 0, 64, 0⟩
def REG_STATUS_OVERSUB : Fld := ⟨.reg, 0x0, 0, 0, 1, 0⟩
def REG_STATUS_OVS_MASK : Fld := ⟨.reg, 0x0, 0, 8, 24, 0⟩
def REG_STATUS_RESULT : Fld := ⟨.reg, 0x0, 0, 32, 8, 0⟩
def REG_NOW_NOW : Fld := ⟨.reg, 0x8, 0, 0, 16, 0⟩
def REG_NOW_HIGH : Fld := ⟨.reg, 0x8, 0, 16, 48, 0⟩
def REG_STREAM_BASE : Fld := ⟨.reg, 0x10, 0, 0, 3, 0⟩
def REG_STREAM_URGENT : Fld := ⟨.reg, 0x10, 0, 8, 8, 0⟩
def REG_LIMIT_L1 : Fld := ⟨.reg, 0x18, 0, 0, 8, 0⟩
def REG_LIMIT_L2 : Fld := ⟨.reg, 0x18, 0, 8, 8, 0⟩
def REG_LIMIT_L3 : Fld := ⟨.reg, 0x18, 0, 16, 8, 0⟩
def REG_CLASS_TARGET : Fld := ⟨.reg, 0x20, 8, 0, 12, 0⟩
def REG_CLASS_BASE : Fld := ⟨.reg, 0x20, 8, 12, 3, 0⟩
def REG_MISS_COUNT : Fld := ⟨.reg, 0x40, 8, 0, 64, 0⟩
def REG_RES_STREAM : Fld := ⟨.reg, 0x100, 8, 0, 8, 0⟩
def REG_RES_FABRIC : Fld := ⟨.reg, 0x100, 8, 8, 8, 0⟩
def REG_RES_MGMT : Fld := ⟨.reg, 0x100, 8, 16, 8, 0⟩
def REG_RES_OCHRE : Fld := ⟨.reg, 0x100, 8, 24, 8, 0⟩
def REG_RES_TEST : Fld := ⟨.reg, 0x100, 8, 32, 8, 0⟩
def REG_EFF_EFF : Fld := ⟨.reg, 0x200, 8, 0, 9, 0⟩
def REG_EFF_SCALE : Fld := ⟨.reg, 0x200, 8, 16, 17, 0⟩
def REG_LAT_AVG : Fld := ⟨.reg, 0x1000, 8, 0, 16, 0⟩
def REG_LAT_PRIO : Fld := ⟨.reg, 0x1000, 8, 16, 3, 0⟩
def DIR_CTL_HINT_EN : Fld := ⟨.dir, 0x0, 0, 0, 1, 0⟩
def DIR_CTL_REMOTE_EN : Fld := ⟨.dir, 0x0, 0, 1, 1, 0⟩
def DIR_STATUS_RETRY_USED : Fld := ⟨.dir, 0x8, 0, 0, 10, 0⟩
def DIR_STATUS_RETRY_FULL : Fld := ⟨.dir, 0x8, 0, 10, 1, 0⟩
def DIR_STATUS_DRAINING : Fld := ⟨.dir, 0x8, 0, 11, 1, 0⟩
def DIR_STATUS_WALKING : Fld := ⟨.dir, 0x8, 0, 12, 1, 0⟩
def DIR_DOMAIN_INDEX : Fld := ⟨.dir, 0x10, 0, 0, 6, 0⟩
def DIR_DOMAIN_MEMBERS_MEMBERS : Fld := ⟨.dir, 0x18, 0, 0, 64, 0⟩
def DIR_POISON_LOG_ADDR : Fld := ⟨.dir, 0x50, 0, 0, 48, 0⟩
def DIR_POISON_LOG_OVERRUN : Fld := ⟨.dir, 0x50, 0, 62, 1, 0⟩
def DIR_POISON_LOG_VALID : Fld := ⟨.dir, 0x50, 0, 63, 1, 0⟩
def DIR_COUNT_COUNT : Fld := ⟨.dir, 0x20, 8, 0, 64, 0⟩
def DIR_HINT_START : Fld := ⟨.dir, 0x100, 8, 0, 27, 0⟩
def DIR_HINT_LAST : Fld := ⟨.dir, 0x100, 8, 27, 27, 0⟩
def DIR_HINT_AGENT : Fld := ⟨.dir, 0x100, 8, 54, 7, 0⟩
def DIR_HINT_VALID : Fld := ⟨.dir, 0x100, 8, 63, 1, 0⟩
def FAB_CTL_ENABLE : Fld := ⟨.fab, 0x0, 0, 0, 1, 0⟩
def FAB_NODE_ID : Fld := ⟨.fab, 0x8, 0, 0, 14, 0⟩
def FAB_NODE_LOCK : Fld := ⟨.fab, 0x8, 0, 16, 1, 0⟩
def FAB_ROLE_ROLE : Fld := ⟨.fab, 0x10, 0, 0, 2, 0⟩
def FAB_ROLE_STATE : Fld := ⟨.fab, 0x10, 0, 2, 2, 0⟩
def FAB_ROLE_MANAGER : Fld := ⟨.fab, 0x10, 0, 16, 14, 0⟩
def FAB_FAILOVER_INDEX : Fld := ⟨.fab, 0x18, 0, 0, 6, 8⟩
def FAB_FAILOVER_VALID : Fld := ⟨.fab, 0x18, 0, 7, 1, 8⟩
def FAB_TIMEOUT_LOCAL : Fld := ⟨.fab, 0x20, 0, 0, 16, 0⟩
def FAB_TIMEOUT_REMOTE : Fld := ⟨.fab, 0x20, 0, 16, 16, 0⟩
def FAB_GRT_USED : Fld := ⟨.fab, 0x28, 0, 0, 17, 0⟩
def FAB_GRT_QUARANTINED : Fld := ⟨.fab, 0x28, 0, 17, 17, 0⟩
def FAB_GRT_FULL : Fld := ⟨.fab, 0x28, 0, 34, 1, 0⟩
def FAB_VIOL_LOG_CODE : Fld := ⟨.fab, 0x30, 0, 0, 4, 0⟩
def FAB_VIOL_LOG_PORT : Fld := ⟨.fab, 0x30, 0, 4, 4, 0⟩
def FAB_VIOL_LOG_SRC : Fld := ⟨.fab, 0x30, 0, 8, 14, 0⟩
def FAB_VIOL_LOG_TYPE : Fld := ⟨.fab, 0x30, 0, 22, 8, 0⟩
def FAB_VIOL_LOG_VALID : Fld := ⟨.fab, 0x30, 0, 63, 1, 0⟩
def FAB_PORT_ROUTE_EN : Fld := ⟨.fab, 0x100, 8, 0, 1, 0⟩
def FAB_PORT_DIM : Fld := ⟨.fab, 0x100, 8, 1, 3, 0⟩
def FAB_PORT_DATELINE : Fld := ⟨.fab, 0x100, 8, 4, 1, 0⟩
def FAB_PORT_DRAIN : Fld := ⟨.fab, 0x100, 8, 5, 1, 0⟩
def FAB_PORT_DRAINED : Fld := ⟨.fab, 0x100, 8, 6, 1, 0⟩
def FAB_PORT_PEER_VALID : Fld := ⟨.fab, 0x100, 8, 7, 1, 0⟩
def FAB_PORT_PEER : Fld := ⟨.fab, 0x100, 8, 8, 14, 0⟩
def FAB_PORT_PEER_PORT : Fld := ⟨.fab, 0x100, 8, 22, 4, 0⟩
def FAB_TREE_PARENT : Fld := ⟨.fab, 0x200, 8, 0, 4, 0⟩
def FAB_TREE_CHILDREN : Fld := ⟨.fab, 0x200, 8, 4, 10, 0⟩
def FAB_TREE_LOCAL : Fld := ⟨.fab, 0x200, 8, 14, 1, 0⟩
def FAB_TREE_VALID : Fld := ⟨.fab, 0x200, 8, 15, 1, 0⟩
def FAB_COUNT_COUNT : Fld := ⟨.fab, 0x300, 8, 0, 64, 0⟩
def FAB_FENCE_FENCED : Fld := ⟨.fab, 0x1000, 8, 0, 64, 0⟩
def FAB_ROUTE_C0 : Fld := ⟨.fab, 0x100000, 8, 0, 4, 0⟩
def FAB_ROUTE_C1 : Fld := ⟨.fab, 0x100000, 8, 4, 4, 0⟩
def FAB_ROUTE_C2 : Fld := ⟨.fab, 0x100000, 8, 8, 4, 0⟩
def FAB_ROUTE_C3 : Fld := ⟨.fab, 0x100000, 8, 12, 4, 0⟩
def FAB_ROUTE_VALID : Fld := ⟨.fab, 0x100000, 8, 16, 1, 0⟩
def LANE_CTL_ENABLE : Fld := ⟨.lane, 0x0, 0, 0, 1, 0⟩
def LANE_CTL_RETRAIN : Fld := ⟨.lane, 0x0, 0, 1, 1, 0⟩
def LANE_CTL_LOOPBACK : Fld := ⟨.lane, 0x0, 0, 2, 2, 0⟩
def LANE_CTL_PRBS_EN : Fld := ⟨.lane, 0x0, 0, 4, 1, 0⟩
def LANE_CTL_SLIP_DONE : Fld := ⟨.lane, 0x0, 0, 5, 1, 0⟩
def LANE_STATUS_STATE : Fld := ⟨.lane, 0x8, 0, 0, 4, 0⟩
def LANE_STATUS_RETRAINING : Fld := ⟨.lane, 0x8, 0, 4, 1, 0⟩
def LANE_STATUS_RETRY : Fld := ⟨.lane, 0x8, 0, 5, 1, 0⟩
def LANE_STATUS_TX_ASLEEP : Fld := ⟨.lane, 0x8, 0, 6, 1, 0⟩
def LANE_STATUS_RX_ASLEEP : Fld := ⟨.lane, 0x8, 0, 7, 1, 0⟩
def LANE_STATUS_TX_WIDTH : Fld := ⟨.lane, 0x8, 0, 8, 6, 0⟩
def LANE_STATUS_RX_WIDTH : Fld := ⟨.lane, 0x8, 0, 16, 6, 0⟩
def LANE_STATUS_ATTEMPTS : Fld := ⟨.lane, 0x8, 0, 22, 2, 0⟩
def LANE_STATUS_CAUSE : Fld := ⟨.lane, 0x8, 0, 24, 4, 0⟩
def LANE_TX_MASK_LIT : Fld := ⟨.lane, 0x10, 0, 0, 32, 0⟩
def LANE_TX_MASK_USE : Fld := ⟨.lane, 0x10, 0, 32, 32, 0⟩
def LANE_RX_MASK_USABLE : Fld := ⟨.lane, 0x18, 0, 0, 32, 0⟩
def LANE_RX_MASK_USE : Fld := ⟨.lane, 0x18, 0, 32, 32, 0⟩
def LANE_EXCLUDE_LANES : Fld := ⟨.lane, 0x20, 0, 0, 32, 0⟩
def LANE_SLIP_LANE : Fld := ⟨.lane, 0x28, 0, 0, 5, 0⟩
def LANE_SLIP_GO : Fld := ⟨.lane, 0x28, 0, 8, 1, 0⟩
def LANE_SLEEP_AUTO : Fld := ⟨.lane, 0x30, 0, 0, 1, 0⟩
def LANE_SLEEP_WAKE : Fld := ⟨.lane, 0x30, 0, 1, 1, 0⟩
def LANE_SLEEP_IDLE : Fld := ⟨.lane, 0x30, 0, 8, 8, 0⟩
def LANE_PRBS_LANE_LANE : Fld := ⟨.lane, 0x38, 0, 0, 5, 0⟩
def LANE_PRBS_LANE_COUNT : Fld := ⟨.lane, 0x38, 0, 32, 32, 0⟩
def LANE_COUNT_COUNT : Fld := ⟨.lane, 0x40, 8, 0, 64, 0⟩
def LANE_COMMA_POS : Fld := ⟨.lane, 0x80, 8, 0, 6, 8⟩
def LANE_COMMA_SEEN : Fld := ⟨.lane, 0x80, 8, 6, 1, 8⟩
def LANE_COMMA_LOCKED : Fld := ⟨.lane, 0x80, 8, 7, 1, 8⟩
def LANE_TAP_PRE : Fld := ⟨.lane, 0x100, 8, 0, 4, 0⟩
def LANE_TAP_MAIN : Fld := ⟨.lane, 0x100, 8, 8, 4, 0⟩
def LANE_TAP_POST : Fld := ⟨.lane, 0x100, 8, 16, 4, 0⟩
def D2D_CTL_ENABLE : Fld := ⟨.d2d, 0x0, 0, 0, 1, 0⟩
def D2D_CTL_APPLY : Fld := ⟨.d2d, 0x0, 0, 1, 1, 0⟩
def D2D_CTL_NAK_LIMIT : Fld := ⟨.d2d, 0x0, 0, 8, 8, 0⟩
def D2D_CTL_LANE_LIMIT : Fld := ⟨.d2d, 0x0, 0, 16, 8, 0⟩
def D2D_STATUS_STATE : Fld := ⟨.d2d, 0x8, 0, 0, 3, 0⟩
def D2D_STATUS_TX_UNITS : Fld := ⟨.d2d, 0x8, 0, 8, 6, 0⟩
def D2D_STATUS_RX_UNITS : Fld := ⟨.d2d, 0x8, 0, 16, 6, 0⟩
def D2D_STATUS_SLATE_CAUSE : Fld := ⟨.d2d, 0x8, 0, 24, 3, 0⟩
def D2D_TRAIN_CMD_OP : Fld := ⟨.d2d, 0x10, 0, 0, 3, 0⟩
def D2D_TRAIN_CMD_BUNDLES : Fld := ⟨.d2d, 0x10, 0, 16, 16, 0⟩
def D2D_TRAIN_CMD_PRBS_TIME : Fld := ⟨.d2d, 0x10, 0, 32, 16, 0⟩
def D2D_TRAIN_STATUS_BUSY : Fld := ⟨.d2d, 0x18, 0, 0, 1, 0⟩
def D2D_TRAIN_STATUS_RESULT : Fld := ⟨.d2d, 0x18, 0, 8, 8, 0⟩
def D2D_TRAIN_STATUS_PASS : Fld := ⟨.d2d, 0x18, 0, 16, 16, 0⟩
def D2D_TRAIN_STATUS_FAIL : Fld := ⟨.d2d, 0x18, 0, 32, 16, 0⟩
def D2D_BUNDLE_TX_WIDTH : Fld := ⟨.d2d, 0x100, 8, 0, 2, 0⟩
def D2D_BUNDLE_RX_WIDTH : Fld := ⟨.d2d, 0x100, 8, 2, 2, 0⟩
def D2D_BUNDLE_RETRAINING : Fld := ⟨.d2d, 0x100, 8, 4, 1, 0⟩
def D2D_BUNDLE_EXCLUDE : Fld := ⟨.d2d, 0x100, 8, 5, 1, 0⟩
def D2D_BUNDLE_RETRAIN : Fld := ⟨.d2d, 0x100, 8, 6, 1, 0⟩
def D2D_BUNDLE_RETRAINS : Fld := ⟨.d2d, 0x100, 8, 16, 16, 0⟩
def D2D_BUNDLE_REPLAYS : Fld := ⟨.d2d, 0x100, 8, 32, 32, 0⟩
def D2D_SPARE_TARGET : Fld := ⟨.d2d, 0x200, 8, 0, 7, 8⟩
def D2D_SPARE_VALID : Fld := ⟨.d2d, 0x200, 8, 7, 1, 8⟩
def D2D_SPARE_SPARE_BAD : Fld := ⟨.d2d, 0x200, 8, 32, 4, 0⟩
def D2D_SPARE_CLOCK_BAD : Fld := ⟨.d2d, 0x200, 8, 36, 1, 0⟩
def D2D_SPARE_FAILED : Fld := ⟨.d2d, 0x200, 8, 40, 7, 0⟩
def D2D_LANE_ERR_LANE : Fld := ⟨.d2d, 0x400, 8, 0, 8, 8⟩
def D2D_TRAIN_PARAM_VALUE : Fld := ⟨.d2d, 0x1000, 8, 0, 32, 0⟩
def EVQ_BASE_ADDR : Fld := ⟨.hub, 0x400, 32, 5, 43, 0⟩
def EVQ_BASE_LOG2_SLOTS : Fld := ⟨.hub, 0x400, 32, 48, 4, 0⟩
def EVQ_TAIL_TAIL : Fld := ⟨.hub, 0x408, 32, 0, 32, 0⟩
def EVQ_TAIL_OVERFLOW : Fld := ⟨.hub, 0x408, 32, 32, 32, 0⟩
def EVQ_HEAD_HEAD : Fld := ⟨.hub, 0x410, 32, 0, 32, 0⟩
def EVQ_CTL_CLASS_MASK : Fld := ⟨.hub, 0x418, 32, 0, 32, 0⟩
def EVQ_CTL_IRQ_CORE : Fld := ⟨.hub, 0x418, 32, 32, 3, 0⟩
def EVQ_CTL_IRQ_EN : Fld := ⟨.hub, 0x418, 32, 35, 1, 0⟩
def HUB_EVQ_UNROUTED_COUNT : Fld := ⟨.hub, 0x480, 0, 0, 64, 0⟩
def HUB_FAULT_PENDING : Fld := ⟨.hub, 0x490, 0, 0, 1, 0⟩
def MGD_STATUS_DIR_LOCK : Fld := ⟨.mgd, 0x0, 0, 0, 1, 0⟩
def MGD_STATUS_PUF_OK : Fld := ⟨.mgd, 0x0, 0, 1, 1, 0⟩
def MGD_STATUS_FALLBACK : Fld := ⟨.mgd, 0x0, 0, 2, 1, 0⟩
def MGD_STATUS_SLOT_B : Fld := ⟨.mgd, 0x0, 0, 3, 1, 0⟩
def MGD_STATUS_RECOVERY : Fld := ⟨.mgd, 0x0, 0, 4, 1, 0⟩
def MGD_STATUS_KEY_SET : Fld := ⟨.mgd, 0x0, 0, 5, 1, 0⟩
def MGD_STATUS_MIN_SVN : Fld := ⟨.mgd, 0x0, 0, 32, 32, 0⟩
def MGD_BOOT_ID_ID : Fld := ⟨.mgd, 0x8, 0, 0, 64, 0⟩
def MGD_SVC_ENABLE : Fld := ⟨.mgd, 0x10, 0, 0, 1, 0⟩
def MGD_SVC_AUTH_FAIL : Fld := ⟨.mgd, 0x10, 0, 32, 32, 0⟩
def MGD_BULK_ADDR_ADDR : Fld := ⟨.mgd, 0x18, 0, 0, 64, 0⟩
def MGD_ROT_CMD_OP : Fld := ⟨.mgd, 0x20, 0, 0, 3, 0⟩
def MGD_ROT_CMD_INDEX : Fld := ⟨.mgd, 0x20, 0, 3, 3, 0⟩
def MGD_ROT_CMD_ADDR : Fld := ⟨.mgd, 0x20, 0, 6, 42, 0⟩
def MGD_ROT_STATUS_BUSY : Fld := ⟨.mgd, 0x28, 0, 0, 1, 0⟩
def MGD_ROT_STATUS_RESULT : Fld := ⟨.mgd, 0x28, 0, 8, 8, 0⟩
def MGD_MEAS_VALUE : Fld := ⟨.mgd, 0x100, 8, 0, 64, 0⟩
def HUB_RESET_CMD_LEVEL : Fld := ⟨.hub, 0x200, 0, 0, 3, 0⟩
def HUB_RESET_CMD_TARGET : Fld := ⟨.hub, 0x200, 0, 8, 7, 0⟩
def HUB_RESET_CMD_FINISH : Fld := ⟨.hub, 0x200, 0, 15, 1, 0⟩
def HUB_RESET_STATUS_CORE_BUSY : Fld := ⟨.hub, 0x208, 0, 0, 1, 0⟩
def HUB_RESET_STATUS_CLUSTER_BUSY : Fld := ⟨.hub, 0x208, 0, 1, 1, 0⟩
def HUB_RESET_STATUS_PARTITION_BUSY : Fld := ⟨.hub, 0x208, 0, 2, 1, 0⟩
def HUB_RESET_STATUS_RESULT : Fld := ⟨.hub, 0x208, 0, 8, 8, 0⟩
def HUB_RESET_STATUS_LAST_LEVEL : Fld := ⟨.hub, 0x208, 0, 16, 3, 0⟩
def HUB_RESET_STATUS_LAST_TARGET : Fld := ⟨.hub, 0x208, 0, 19, 7, 0⟩
def HUB_RESET_STATUS_LAST_RESULT : Fld := ⟨.hub, 0x208, 0, 32, 8, 0⟩
def HUB_RESET_STATUS_LAST_TIME : Fld := ⟨.hub, 0x208, 0, 40, 24, 0⟩
def HUB_BOOT_STAGE : Fld := ⟨.hub, 0x210, 0, 0, 4, 0⟩
def HUB_BOOT_MODE : Fld := ⟨.hub, 0x210, 0, 4, 1, 0⟩
def HUB_BOOT_MS : Fld := ⟨.hub, 0x210, 0, 32, 16, 0⟩
def PWR_STATE_STATE : Fld := ⟨.pwr, 0x0, 0, 0, 3, 0⟩
def PWR_STATE_REQ : Fld := ⟨.pwr, 0x0, 0, 8, 2, 0⟩
def PWR_STATE_RESULT : Fld := ⟨.pwr, 0x0, 0, 16, 8, 0⟩
def PWR_CAP_WATTS : Fld := ⟨.pwr, 0x8, 0, 0, 12, 0⟩
def PWR_CAP_STEP_W : Fld := ⟨.pwr, 0x8, 0, 16, 8, 0⟩
def PWR_STATUS_LEVEL : Fld := ⟨.pwr, 0x10, 0, 0, 5, 0⟩
def PWR_STATUS_CAP_N : Fld := ⟨.pwr, 0x10, 0, 5, 5, 0⟩
def PWR_STATUS_GATE : Fld := ⟨.pwr, 0x10, 0, 10, 4, 0⟩
def PWR_STATUS_LIMITING : Fld := ⟨.pwr, 0x10, 0, 14, 1, 0⟩
def PWR_STATUS_INPUT_W : Fld := ⟨.pwr, 0x10, 0, 16, 12, 0⟩
def PWR_STATUS_PEAK_W : Fld := ⟨.pwr, 0x10, 0, 32, 12, 0⟩
def PWR_ACLK_MAX : Fld := ⟨.pwr, 0x18, 0, 0, 5, 0⟩
def PWR_IDLE_GATE_US : Fld := ⟨.pwr, 0x20, 0, 0, 16, 0⟩
def PWR_IDLE_GATED : Fld := ⟨.pwr, 0x20, 0, 16, 4, 0⟩
def PWR_RAIL_MV : Fld := ⟨.pwr, 0x100, 8, 0, 12, 0⟩
def PWR_RAIL_AMPS : Fld := ⟨.pwr, 0x100, 8, 16, 12, 0⟩
def PWR_RAIL_ON : Fld := ⟨.pwr, 0x100, 8, 28, 1, 0⟩
def PWR_RAIL_FAULT : Fld := ⟨.pwr, 0x100, 8, 29, 1, 0⟩
def PWR_LASER_BIAS : Fld := ⟨.pwr, 0x200, 8, 0, 10, 0⟩
def PWR_LASER_HEATER : Fld := ⟨.pwr, 0x200, 8, 10, 10, 0⟩
def PWR_LASER_MON : Fld := ⟨.pwr, 0x200, 8, 20, 10, 0⟩
def PWR_LASER_THRESH : Fld := ⟨.pwr, 0x200, 8, 30, 10, 0⟩
def PWR_LASER_SPARE : Fld := ⟨.pwr, 0x200, 8, 40, 1, 0⟩
def PWR_LASER_SPARE_FAILED : Fld := ⟨.pwr, 0x200, 8, 41, 1, 0⟩
def THM_CTL_LOCK : Fld := ⟨.thm, 0x0, 0, 0, 1, 0⟩
def THM_CTL_FLOOR : Fld := ⟨.thm, 0x0, 0, 8, 5, 0⟩
def THM_CTL_RISE_MS : Fld := ⟨.thm, 0x0, 0, 16, 8, 0⟩
def THM_LIMITS_WARN : Fld := ⟨.thm, 0x8, 0, 0, 8, 0⟩
def THM_LIMITS_THROTTLE : Fld := ⟨.thm, 0x8, 0, 8, 8, 0⟩
def THM_LIMITS_TRIP : Fld := ⟨.thm, 0x8, 0, 16, 8, 0⟩
def THM_LIMITS_HYST : Fld := ⟨.thm, 0x8, 0, 24, 4, 0⟩
def THM_SUBST_HUB_A : Fld := ⟨.thm, 0x10, 0, 0, 5, 0⟩
def THM_SUBST_HUB_B : Fld := ⟨.thm, 0x10, 0, 8, 5, 0⟩
def THM_SUBST_MGD_A : Fld := ⟨.thm, 0x10, 0, 16, 5, 0⟩
def THM_SUBST_MGD_B : Fld := ⟨.thm, 0x10, 0, 24, 5, 0⟩
def THM_TEMP_READING : Fld := ⟨.thm, 0x100, 8, 0, 16, 0⟩
def THM_TEMP_FAILED : Fld := ⟨.thm, 0x100, 8, 16, 1, 0⟩
def THM_TEMP_SUBSTITUTED : Fld := ⟨.thm, 0x100, 8, 17, 1, 0⟩
def THM_TEMP_WARN : Fld := ⟨.thm, 0x100, 8, 18, 1, 0⟩
def THM_TEMP_THROTTLE : Fld := ⟨.thm, 0x100, 8, 19, 1, 0⟩
def THM_TEMP_CEILING : Fld := ⟨.thm, 0x100, 8, 20, 5, 0⟩
def THM_TEMP_TRIP_DIS : Fld := ⟨.thm, 0x100, 8, 25, 1, 0⟩
def HUB_EVRAISE0_CODE : Fld := ⟨.hub, 0x4A0, 0, 0, 16, 0⟩
def HUB_EVRAISE1_DATA_LO : Fld := ⟨.hub, 0x4A8, 0, 0, 64, 0⟩
def HUB_EVRAISE2_DATA_HI : Fld := ⟨.hub, 0x4B0, 0, 0, 64, 0⟩
def DT_CMD_OP : Fld := ⟨.hub, 0x600, 32, 0, 3, 0⟩
def DT_STATUS_BUSY : Fld := ⟨.hub, 0x608, 32, 0, 1, 0⟩
def DT_STATUS_DONE : Fld := ⟨.hub, 0x608, 32, 1, 1, 0⟩
def DT_STATUS_PASS : Fld := ⟨.hub, 0x608, 32, 2, 1, 0⟩
def DT_STATUS_STANDALONE : Fld := ⟨.hub, 0x608, 32, 3, 1, 0⟩
def DT_STATUS_LAST_OP : Fld := ⟨.hub, 0x608, 32, 4, 3, 0⟩
def DT_STATUS_RESULT : Fld := ⟨.hub, 0x608, 32, 8, 8, 0⟩
def DT_STATUS_OUTCOME : Fld := ⟨.hub, 0x608, 32, 16, 8, 0⟩
def DT_SIG_SIG : Fld := ⟨.hub, 0x610, 32, 0, 64, 0⟩
def DT_EXPECT_EXPECT : Fld := ⟨.hub, 0x618, 32, 0, 64, 0⟩

end F

end Sys2Proof.Machine
end

