-- ==== Sys2Proof/Machine/State.lean ====
section
/-! DEFINITION. The state of the module: every register, memory, queue, counter, mode and pin of spec/, as plain data, the queue of
commands that are waiting, and the state right after reset. -/

namespace Sys2Proof.Machine

open Sys2Proof

/-- Stops of the machine. The spec makes every refusal a completion with a status code (00 R14, R486), so no meaning raises
a fault; the one constructor stands so that the type is inhabited. -/
inductive Fault where
  /-- raised by no command; safe -/
  | unused
  deriving DecidableEq, Repr

/-- Commands without a meaning. -/
inductive Refusal where
  /-- raised by the arm of a command whose meaning is not written; safe -/
  | notModelled (mnemonic : String)
  deriving DecidableEq, Repr

/-! ## Memory -/

/-- What the unlisted bytes of a memory unit read as: 0 (after a destructive march, 08 R238, R241), or contents that the spec
leaves undefined (after power-on, OFF, a module reset; 08 R238, 09 R269), told apart by an epoch. -/
inductive Fill where
  | zero
  | free (epoch : Nat)
  /-- written by a tile-core fan-out (16 R426): bytes that the spec does not give, with right parity -/
  | image (epoch : Nat)
  deriving DecidableEq, Repr

/-- Memory: listed bytes; bytes written with inverted parity (08 R231, 18 R469); the fill of each memory unit (`unitOf`);
LPDDR blocks that hold stored poison (09 R257). -/
structure Mem where
  cells : List Host.Cell := []
  badPar : Sparse Unit := []
  fills : Sparse Fill := []
  poison : Sparse Unit := []
  /-- wrong symbols of LPDDR blocks, as their decoder sees them (09 R252-R254); they stay until the block is written -/
  wrong : Sparse (List Nat) := []
  /-- bytes whose stored parity is undefined though they are listed, by epoch (08 R238, R247) -/
  freePar : Sparse Nat := []
  /-- epoch of the contents that the last module reset left undefined -/
  epoch : Nat := 0
  deriving DecidableEq, Repr

/-! ## On-chip memory (08) -/

/-- A Y access that waits behind the S port (08 R228); `atom`: an 8-byte update in place, `quiet`: one that returns no data (R235),
`hint`: the target of a write hint (11 R303). -/
structure YWait where
  src : Src
  ag : Agent
  off : Nat
  op : MemOp
  atom : Option AtomOp := none
  quiet : Bool := false
  hint : Option Nat := none
  deriving DecidableEq, Repr

/-- A march test in progress (08 R241, R242). -/
structure March where
  first : Nat
  last : Nat
  preserving : Bool
  repair : Bool
  cancelled : Bool
  deriving DecidableEq, Repr

/-- One SRAM array: banks whose wake is open with their new state (08 R237), the running march, spare mappings (bank, word) in
the order taken (R247), and waiting Y accesses in the order they reached their sub-bank (R229). -/
structure Sram where
  wakes : List (Nat × Nat) := []
  march : Option March := none
  spares : List (Nat × Nat) := []
  ywait : List YWait := []
  deriving DecidableEq, Repr

/-! ## Requests of agents that do not cache (11 R300) -/

/-- A non-caching request for local memory. -/
structure NcReq where
  src : Src
  ag : Agent
  op : MemOp
  addr : Nat
  /-- an 8-byte update in place (06 R199; 08 R235; 12 R338); `op` is then a read of its 8 bytes -/
  atom : Option AtomOp := none
  /-- the update returns no data: an alias write (08 R235) -/
  quiet : Bool := false
  /-- target of a write hint (11 R303) -/
  hint : Option Nat := none
  /-- deadline of a STREAM request and its late mark at issue (05 R141) -/
  dl : Nat × Bool := (0, false)
  /-- a narrow read that goes through Ochre when it reaches LPDDR (09 R258) -/
  ochre : Bool := false
  /-- an access of the S port's user (03 R68, 08 R226) -/
  sport : Bool := false
  /-- class TEST at its controller (10 Table 10.1) -/
  test : Bool := false
  deriving DecidableEq, Repr

/-- A request of class REQ at the directory (11 Table 11.3). -/
inductive DirReq where
  | rdS (h : Holder)
  | rdX (h : Holder)
  | upg (h : Holder)
  | nc (r : NcReq)
  /-- eviction of the entry (11 R297) -/
  | evict
  /-- a snoop from the line's remote home (11 R310): 0 RecallS, 1 RecallI, 2 Inv -/
  | snoop (k : Nat)
  /-- a hinted line that waits for a way of its set (11 R297, R304) -/
  | push (target : Nat)
  /-- a request whose sender is gone (11 R313, R315) -/
  | absorbed
  deriving DecidableEq, Repr

/-! ## LPDDR and its regulation (09, 10) -/

/-- A request waiting in a channel queue, or in HOLD (09 R264, 10 R280-R284). -/
structure LpWait where
  id : Nat
  req : LpReq
  deadline : Nat
  late : Bool
  /-- tick count at arrival (10 R283) -/
  tick : Nat
  /-- effective target given on arrival (10 R291) -/
  target : Nat
  /-- the agent's request, when it is one that the directory has let through -/
  nc : Option NcReq := none
  /-- a line fill that waits for the end of a HOLD (09 R264) -/
  fill : Option DirReq := none
  deriving DecidableEq, Repr

/-- A request that waits at its source for a channel: its limiter or the full queue holds it (10 R287, R288). -/
structure LpHeld where
  id : Nat
  ch : Nat
  req : LpReq
  nc : Option NcReq
  fill : Option DirReq
  deriving DecidableEq, Repr

/-- Dirty data that reaches its home while the line's package is in HOLD (09 R264, 11 R308, R309): the answer of a holder, or a plain
write. -/
structure HomeData where
  line : Nat
  /-- the holder, and whether the data is a WbData -/
  from_ : Option (Holder × Bool)
  data : List Byte
  poison : Bool
  deriving DecidableEq, Repr

/-- A request held by Ochre: the blocks of it that are still to be read (09 R259). -/
structure OchWait where
  id : Nat
  src : Src
  addr : Nat
  size : Nat
  left : List Nat
  status : Status
  aged : Bool
  deadline : Nat
  tick : Nat
  target : Nat
  deriving DecidableEq, Repr

/-- What a channel's bank holds open: the row, the check burst in its buffer, and the blocks whose check bytes are valid there, and dirty
(09 R255). -/
structure OpenRow where
  row : Nat
  burst : Option Nat
  valid : List Nat
  dirty : List Nat := []
  deriving DecidableEq, Repr

/-- One LPDDR controller beside its registers. -/
structure Mc where
  /-- waiting requests of the four channels, in arrival order (10 R287) -/
  queues : List (List LpWait) := [[], [], [], []]
  /-- requests waiting because the package is in HOLD, in arrival order (09 R264) -/
  hold : List LpWait := []
  /-- requests that wait at their sources, in arrival order (10 R287, R288) -/
  backlog : List LpHeld := []
  /-- dirty data waiting for the end of a HOLD, oldest first -/
  homeData : List HomeData := []
  /-- consecutive reports at or below the leave temperature (09 R262) -/
  lowReports : Nat := 0
  /-- a request has already completed with ST_THERMAL in this hold (09 R264) -/
  holdExpired : Bool := false
  /-- queued remap triggers (channel, bank, row), oldest first (09 R274) -/
  remaps : List (Nat × Nat × Nat) := []
  /-- MC_LOG entries from the least to the most recently hit (09 R271) -/
  logOrder : List Nat := List.range 16
  /-- open rows by channel × 32 + bank (09 R255) -/
  rows : Sparse OpenRow := []
  selfRefresh : Bool := false
  /-- training step in progress: operation and channel mask (09 R266) -/
  training : Option (Nat × Nat) := none
  /-- credit of each class in this window (10 R285) -/
  credit : List Nat := [0, 0, 0, 0, 0]
  /-- queue level last broadcast (10 R287) -/
  level : Nat := 0
  /-- command slots of each channel since its last slot that a thermal step allowed (09 R262, Table 09.4) -/
  slots : List Nat := [0, 0, 0, 0]
  /-- banks under refresh, as channel × 32 + bank, until the channel's next slot (09 R261, 10 R280) -/
  refreshing : List Nat := []
  /-- training has written the FREE bytes of every row 0 (09 Table 09.2, R255) -/
  freeZero : Bool := false
  deriving DecidableEq, Repr

/-- The regulator beside its registers: accumulator of the deadline counter (10 R281), capacity changes not yet recomputed, as
(controller, cause) (R289, R290), and the misses of each class since entry into OVERSUBSCRIBED (Table 10.2). -/
structure Regul where
  acc : Nat := 0
  changes : List (Nat × Nat) := []
  missed : List Nat := [0, 0, 0, 0, 0]
  deriving DecidableEq, Repr

/-! ## Coherence (11) -/

/-- Agent line states of 11 Table 11.4; `isE`, `im`, `sm` are I→S/E, I→M and S→M. -/
inductive LState where
  | m | e | s | i | wbPend | isE | im | sm
  deriving DecidableEq, Repr

/-- The access a core waits to complete (11 R306): what it is, its bytes, and who it answers. -/
structure CoreAccess where
  ag : Agent
  /-- 0 fetch, 1 load, 2 AMO, 3 store (18 Table 18.9) -/
  kind : Nat
  addr : Nat
  op : MemOp
  /-- the AMO, when it is one -/
  amo : Option (AmoFn × Word) := none
  deriving DecidableEq, Repr

/-- A line of an agent's cache. -/
structure Line where
  agent : Nat
  addr : Nat
  st : LState
  data : List Byte
  poison : Bool
  /-- the access that caused the open request -/
  access : Option CoreAccess
  /-- a snoop held until the data arrives (11 R306): 0 RecallS, 1 RecallI, 2 Inv -/
  snoop : Option Nat
  /-- application core whose L1 holds the line modified (18 R471, 11 Table 11.7) -/
  l1 : Option Nat := none
  deriving DecidableEq, Repr

/-- An open transaction of a BUSY line (11 R299): its request, the holders whose answer is awaited, and those whose dirty data
is awaited. -/
structure DirTxn where
  req : DirReq
  await : List Holder
  data : List Holder
  push : Option Nat
  /-- holders whose data came before their answer (11 R305: RSP and DAT keep no order between them) -/
  got : List Holder := []
  /-- dirty data of a local owner of another module's line, and whether it is poisoned -/
  line : Option (List Byte × Bool) := none
  deriving DecidableEq, Repr

/-- A directory entry (11 Table 11.2). -/
structure DirEntry where
  line : Nat
  proxy : Bool
  owner : Option Holder
  agents : List (Fin 65)
  members : List (Fin 64)
  busy : Option DirTxn
  /-- a snoop from the line's remote home that waits for the proxy's own transaction (11 R305, R306, R310) -/
  held : Option Nat := none
  deriving DecidableEq, Repr

/-- The messages of 11 Table 11.3 that travel between a local agent and a directory of this module. -/
inductive MsgKind where
  | rdS | rdX | upg | recallS | recallI | inv | invAck | recallAck (k : AckKind) | wbPend | wbAck | grantM | pushAck | pushDrop
  | ncAck | data | recallData | wbData | push
  deriving DecidableEq, Repr

/-- A coherence message in flight inside the module (11 Table 11.3); the directory is `none`. -/
structure CohMsg where
  kind : MsgKind
  src : Option (Fin 65)
  dst : Option (Fin 65)
  line : Nat
  data : List Byte := []
  grant : LState := .i
  poison : Bool := false
  /-- status with which the line could not be read (08 R236; 09 R264, R268, R277) -/
  why : Status := .ok
  deriving DecidableEq, Repr

/-! ## Always-on island, SMBus, management die (02, 15) -/

/-- A cause record (15 Table 15.12). -/
structure CauseRec where
  /-- standby power-on count and milliseconds since it -/
  when_ : Word
  code : Nat
  die : Nat
  kind : Nat
  deriving DecidableEq, Repr

/-- Module states (15 MFR_STATE, 17 Table 17.4, 02 Table 02.14). -/
inductive ModState where
  | off | standby | powerUp | boot | active | idle | parked | reset
  deriving DecidableEq, Repr

/-- A command of the root of trust in progress (15 R409, R418): EXTEND of MEASi with the digest at an address; ATTEST for a core,
whose nonce is at the address; ATTEST of the service endpoint, whose report goes to the address. -/
inductive RotJob where
  | extend (index addr : Nat)
  | attest (addr : Nat)
  | service (addr : Nat) (nonce : List Byte)
  deriving DecidableEq, Repr

/-- A service request under way: OP, frame, and for a bulk transfer the bytes completed so far (15 R410, R412). -/
structure SvcRun where
  op : Nat
  frame : SvcFrame
  data : List Byte := []
  count : Nat := 0
  /-- how the unit that waited for memory has completed -/
  got : Option (Status × List Byte) := none
  deriving DecidableEq, Repr

/-- What a requested or running reset is: level (HUB_RESET_CMD.LEVEL, 16 Table 16.9) and target. -/
structure ResetRun where
  level : Nat
  target : Nat
  deriving DecidableEq, Repr

/-- A reset that the service endpoint scheduled (15 Table 15.8): 0 warm module, 1 cold module, 2 management die, 3 partition. -/
structure SvcReset where
  kind : Nat
  part : Nat
  deriving DecidableEq, Repr

/-- Instructions of a test access port (19 Table 19.5). -/
inductive TapInstr where
  | idcode | samplePreload | extest | clamp | highz | stackSelect | bypass
  deriving DecidableEq, Repr


/-! ## Fabric (12) and optical lanes (13) -/

/-- A request of this module to another node that holds an entry of the global request table (12 R345). -/
structure GrtEntry where
  idx : Nat
  src : Src
  node : Nat
  /-- egress port the request took -/
  port : Option Nat
  ord : Bool
  /-- completed without its response (12 R348) -/
  quarantined : Bool
  /-- the request itself while it has taken no egress port: every candidate is in retry or retraining (12 R330), or `held` -/
  waiting : Option Packet
  /-- held for the order of ORD requests (12 R334) -/
  held : Bool
  deriving DecidableEq, Repr

/-- A REDC contribution held in the staging store (12 R342): collective, rank, contributing data in arrival order. -/
structure Contribution where
  id : Nat
  rank : Nat
  data : List Byte
  deriving DecidableEq, Repr

/-- A READY received for a collective (12 R341): its fields, the member it came from, the recv descriptor of its body flit. -/
structure Ready where
  fields : CollFields
  node : Nat
  desc : List Byte
  deriving DecidableEq, Repr

/-- A join that the manager has not confirmed yet (12 R321): the joiner, the JOIN and the port it came through, and the register
writes that have not completed. -/
structure Join where
  node : Nat
  port : Nat
  packet : Packet
  left : Nat
  deriving DecidableEq, Repr

/-- A member of a Saffron session as its manager sees it (16 R430). -/
structure Receiver where
  node : Nat
  /-- package that holds its Saffron area (16 R428) -/
  package : Nat := 0
  /-- its doorbell, reads or unit writes are open; `left`: reads or writes that have not completed -/
  busy : Bool := false
  left : Nat := 0
  /-- the last doorbell and reads were answered, and PASS had advanced -/
  answered : Bool := false
  /-- PASS when its STATUS was last read -/
  before : Option Nat := none
  /-- what its STATUS and the halves of its BITMAP held -/
  status : List Byte := []
  low : List Byte := []
  high : List Byte := []
  deriving DecidableEq, Repr

/-- The manager's Saffron session (16 R430): its number, the flash address of the image it sends, the passes it has sent (5: the unicast
too), its members. -/
structure Session where
  number : Nat
  image : Nat
  pass : Nat := 0
  members : List Receiver := []
  deriving DecidableEq, Repr

/-- A row of additions that waits for a line or a package (06 R191): its packet's source, address, format, count and row, and whether
its sum is being written. -/
structure AddRow where
  src : Src
  addr : Nat
  format : Nat
  count : Nat
  row : List Byte
  writing : Bool := false
  deriving DecidableEq, Repr

/-- The fabric engine beside its registers. -/
structure Fab where
  grt : List GrtEntry := []
  /-- requests stalled because the table is full (12 R345): requester, destination, packet, MGMT class -/
  stalled : List (Src × Nat × Packet × Bool) := []
  /-- event 0x0807 was raised since USED was last below 65,280 -/
  fullSeen : Bool := false
  /-- packets that wait at this hub for a port (12 R330), with the port they arrived on -/
  parked : List (Option Nat × Packet) := []
  /-- ports with a drain in force (12 R335) -/
  draining : List Nat := []
  /-- the last JOIN was refused and ENABLE has not been written since (12 Table 12.1) -/
  refused : Bool := false
  /-- a provisional JOIN_ACK has arrived (12 R321) -/
  provisional : Bool := false
  /-- the domain map (12 R320): members that have joined, with the PATH of their JOIN -/
  domainMap : List (Nat × List Nat) := []
  /-- managers of other domains that this manager knows (12 R324; DESIGN CHOICE, log 202) -/
  peers : List Nat := []
  /-- nodes whose loss is being confirmed, with the module that reported each (12 R351) -/
  confirming : List (Nat × Nat) := []
  /-- NODE_DOWN notices sent and not answered: node lost, node told (12 R323) -/
  reported : List (Nat × Nat) := []
  /-- violation codes seen since FAB_VIOL_LOG.VALID was last cleared, as a mask (12 R354) -/
  violSeen : Nat := 0
  readies : List Ready := []
  contributions : List Contribution := []
  /-- staging space granted by COLL CREDIT: collective, granting rank, bytes (12 R342) -/
  credits : List (Nat × Nat × Nat) := []
  /-- fields and senders of the REDC and CREDIT packets that came before this member's operation (06 R196) -/
  early : List (CollFields × Nat) := []
  /-- joins in progress at the manager (12 R321) -/
  joins : List Join := []
  /-- completions for the manager's firmware: node, use, status, data -/
  managed : List (Nat × Nat × Status × List Byte) := []
  /-- the Saffron session that this manager runs (16 R430), and the highest session number it has used -/
  session : Option Session := none
  lastSession : Nat := 0
  /-- this module has just become the manager (12 R323): a session of the old one has ended -/
  takeover : Bool := false
  /-- rows of additions that wait, oldest first; of those to one address only the first has issued its access (06 R191) -/
  adds : List AddRow := []
  /-- the completion of the first of them -/
  addDone : Option (Status × List Byte) := none
  /-- requests that wait at their source and keep their receive buffers (10 R288): port and packet -/
  kept : List (Nat × Packet) := []
  deriving DecidableEq, Repr

/-- Control sequences of 13 Table 13.2. -/
inductive Ctrl where
  | crd (vc : Nat) (sub : Bool) (total : Nat)
  | ack (n : Nat) (wrap : Bool)
  | nak (n : Nat)
  | hbt (node : Nat)
  | bar (answer : Bool)
  | slp
  deriving DecidableEq, Repr

/-- The state of one optical port beside its registers (13). Lists of 12 are indexed by VC × 2 + SUB. -/
structure Lane where
  /-- number of the next flit to send (13 R365) -/
  txNext : Nat := 0
  /-- numbers and VC/SUB of the flits in the replay buffer, oldest first (13 R366) -/
  replay : List (Nat × Nat) := []
  /-- flits acknowledged since entry into ACTIVE (13 R366 WRAP) -/
  acked : Nat := 0
  /-- packets to send with the flits of each already sent, oldest first -/
  txq : List (Packet × Nat) := []
  /-- this side's flits that sit in the partner's receiver (13 R369) -/
  used : List Nat := List.replicate 12 0
  /-- TOTALs last received (13 R369) -/
  txTotal : List Nat := List.replicate 12 0
  /-- number of the next flit expected (13 R365) -/
  expect : Nat := 0
  /-- flits accepted since entry into ACTIVE (13 R366) -/
  accepted : Nat := 0
  ackDue : Bool := false
  nakDue : Bool := false
  hbtDue : Bool := false
  /-- BAR sequences to send: true for an answer (12 R335) -/
  barDue : List Bool := []
  /-- VC/SUB indices whose TOTAL has changed since the last CRD (13 R369) -/
  crdDue : List Nat := []
  /-- blocks since every TOTAL was last sent (13 R369) -/
  blocks : Nat := 0
  /-- flits that sit in this receiver (13 R369) -/
  held : List Nat := List.replicate 12 0
  /-- TOTALs of this receiver (13 R369) -/
  total : List Nat := List.replicate 12 0
  /-- flits still ahead of a BAR request that waits for its answer (12 R335) -/
  barWait : Option (List Nat) := none
  /-- VCs with an open packet (12 R327, Table 12.7 code 3) -/
  openVc : List Nat := []
  /-- flits held of the open packet of each VC and SUB -/
  part : List Nat := List.replicate 12 0
  /-- VCs whose flits are discarded up to the next head (12 Table 12.7 code 3) -/
  skipVc : List Nat := []
  /-- flits are discarded until an SOF with the expected number (13 R367) -/
  discard : Bool := false
  /-- consecutive NAKs sent and received (13 R368) -/
  naksSent : Nat := 0
  naksReceived : Nat := 0
  /-- the flit a NAK named, receive and transmit side (13 R368) -/
  retryRx : Option Nat := none
  retryTx : Option Nat := none
  /-- node ID of the last heartbeat received (13 R378) -/
  lastHbt : Option Nat := none
  /-- lanes excluded from this attempt (13 Table 13.6) -/
  excluded : Nat := 0
  /-- the partner's record has been received in this attempt: PEER_SEEN (13 R376) -/
  peerSeen : Bool := false
  deriving DecidableEq, Repr

/-! ## Die-to-die links (14) -/

/-- One direction of a bundle beside its registers. -/
structure BundleDir where
  /-- step 1 or step 2 of this training failed (14 R391) -/
  stepFailed : Bool := false
  /-- wires 0-76 that failed the last interconnect test (14 Table 14.3) -/
  ict : List Nat := []
  deriving DecidableEq, Repr

/-- One bundle beside its registers. -/
structure Bundle where
  tx : BundleDir := {}
  rx : BundleDir := {}
  /-- a training has set its widths -/
  trained : Bool := false
  /-- number of the next data frame expected (14 R389) -/
  expect : Nat := 0
  /-- data frames are discarded until the expected number (14 R389) -/
  discard : Bool := false
  naksSent : Nat := 0
  naksReceived : Nat := 0
  /-- number the partner last acknowledged (14 Table 14.2) -/
  lastAck : Option Nat := none
  /-- parity errors of each byte lane in this 1 ms window (14 R390) -/
  window : List Nat := List.replicate 8 0
  deriving DecidableEq, Repr

/-- One die port beside its registers. -/
structure DPort where
  bundles : List Bundle := List.replicate 16 {}
  /-- training step in progress: operation and bundle mask (14 Table 14.3) -/
  training : Option (Nat × Nat) := none
  /-- TOTALs last received, by class (14 R388) -/
  totals : List Nat := List.replicate 6 0
  /-- credits returned so far, by class (14 R388) -/
  freed : List Nat := List.replicate 6 0
  deriving DecidableEq, Repr


/-! ## Sequencer contexts (05, 07) -/

/-- Operation states (07 Table 07.1); COMPLETE operations leave the resident list. -/
inductive OpSt where
  | fetched | staging | staged | dispatched | reload | reported | retired | failed
  deriving DecidableEq, Repr

/-- One request of an operation: key (tensor slot + 8 × number), the node when it is another one, local address, bytes, byte offset in
its stream (05 R141). -/
structure Piece where
  key : Nat
  node : Option Nat
  addr : Nat
  len : Nat
  off : Nat
  deriving DecidableEq, Repr

/-- A collective that runs (06 R196-R198; 12 R341-R343). -/
structure Coll where
  /-- node IDs in rank order -/
  members : List Nat
  rank : Nat
  /-- bytes peers still have to write here: node, address, length -/
  expect : List (Nat × Nat × Nat)
  /-- ranks whose recv tensor this member still has to write -/
  toSend : List Nat
  /-- bytes of contributions sent to each rank -/
  sent : List Nat
  /-- staging space granted to each rank (12 R342) -/
  granted : List Nat
  /-- this member's chunk, once combined, as it travels -/
  result : Option (List Byte)
  /-- a lost member or port has been reported -/
  marked : Bool := false
  deriving DecidableEq, Repr

/-- A resident operation (05 R134, 07 Table 07.1). -/
structure ROp where
  seq : Nat
  addr : Nat
  ring : Bool
  /-- the sequencer's own copy of the descriptor (05 R131); empty when it could not be read -/
  desc : List Byte
  st : OpSt := .fetched
  status : Status := .ok
  detail : Nat := 0
  faultAddr : Nat := 0
  /-- the failure always traps (05 Table 05.6, 07 Table 07.6) -/
  trapAlways : Bool := false
  nan : Bool := false
  ovf : Bool := false
  sat : Bool := false
  lost : Bool := false
  replayed : Bool := false
  signalled : Bool := false
  detached : Bool := false
  waitPassed : Bool := false
  /-- stochastic rounding count (04 R114) -/
  srCount : Option Nat := none
  /-- tick counts at staging and at the last dispatch (05 Table 05.5, 07 Table 07.2) -/
  stageTick : Nat := 0
  dispTick : Option Nat := none
  retTick : Option Nat := none
  /-- tensor descriptors read at staging, by slot -/
  tensors : Sparse (List Byte) := []
  /-- bytes read so far: head reads (07 R203) and the reads of its execution -/
  got : List (Piece × List Byte) := []
  /-- requests issued and not completed -/
  open_ : List Piece := []
  /-- a head read's failure, held until dispatch: status, slot, address -/
  bad : Option (Status × Nat × Nat) := none
  /-- the operation has read its inputs and made its results -/
  computed : Bool := false
  /-- dies that have not reported (07 Table 07.1) -/
  tiles : List Nat := []
  /-- partial sums of each tile that sends them: die, group of outputs, still to arrive, in all (03 R86) -/
  parts : List (Nat × Nat × Nat × Nat) := []
  /-- output writes that the reduction engine makes: slot, address, bytes -/
  held : List (Nat × Option Nat × Nat × List Byte) := []
  /-- the reduction engine has issued its writes (03 R87) -/
  redWrite : Bool := false
  /-- the reduction engine has reported -/
  redDone : Bool := true
  /-- its results are undefined (06 R194) -/
  undef : Bool := false
  /-- blocks to be reloaded from their backing copies (07 R217): block address, backing address, first bad byte -/
  reloads : List (Nat × Nat × Nat) := []
  /-- the reload's accesses have been issued -/
  reloading : Bool := false
  /-- first bad byte of the parity error that a replay recovers (07 Table 07.12) -/
  badByte : Nat := 0
  /-- where fetch goes after a BRANCH_IF (05 Table 05.10) -/
  next : Option Nat := none
  coll : Option Coll := none
  /-- its completion record is being written -/
  recWait : Bool := false
  deriving DecidableEq, Repr

/-- A sequencer context beside its registers. -/
structure Ctx where
  ops : List ROp := []
  /-- return points, innermost first: none is the ring (05 Table 05.10) -/
  stack : List (Option Nat) := []
  /-- address of the next chain descriptor -/
  pc : Nat := 0
  /-- the fetch in flight: descriptor address, from a ring slot -/
  inFetch : Option (Nat × Bool) := none
  /-- that fetch waits for a line or a package -/
  fetchWait : Bool := false
  /-- number of the fetch in flight -/
  fetches : Nat := 0
  /-- reads of discarded fetches that still wait, by number (07 R208, R209) -/
  staleFetches : List Nat := []
  /-- detached requests that have not completed: sequence number and key (07 R210) -/
  detached : List (Nat × Nat) := []
  /-- fetch is paused behind a BRANCH_IF, HALT or TRAP (05 R135) -/
  paused : Bool := false
  /-- fetch has met a fault or a trap and reads nothing more (05 R133) -/
  stopped : Bool := false
  /-- a fetch-resolved operation that traps in program order (05 R130, R154): status, opcode, address, ring -/
  trapAt : Option (Status × Nat × Nat × Bool) := none
  halted : Bool := false
  trapped : Bool := false
  /-- the trap followed the loss of a die (07 R220) -/
  dieLost : Bool := false
  abortReq : Bool := false
  aborting : Bool := false
  /-- operations completed with ST_ABORTED and requests detached in this abort (07 Table 07.12) -/
  aborted : Nat := 0
  detachedNow : Nat := 0
  /-- a die loss that the sequencer has not acted on yet (07 R219) -/
  lossDue : List Nat := []
  deriving DecidableEq, Repr

/-! ## Events, outputs -/

/-- An event record (18 Table 18.1). -/
structure EventRec where
  code : Nat
  flags : Nat
  seq : Nat
  time : BitVec 48
  node : Nat
  data : List Byte
  deriving DecidableEq, Repr

/-- What the last command put out of the block. -/
inductive Out where
  /-- the command's own request completes (00 R14), with data for a read -/
  | done (st : Status) (data : List Byte)
  /-- another agent's waiting request completes -/
  | compl (src : Src) (st : Status) (data : List Byte)
  /-- a core's access to a line of its cache completes (11 R306) -/
  | core (ag : Agent) (st : Status) (data : List Byte)
  /-- bytes an Ochre piece returns (09 R259) -/
  | piece (src : Src) (addr : Nat) (data : List Byte)
  /-- an event record raised or received (18 R460, R463) -/
  | event (r : EventRec)
  /-- data an SMBus read returns, with its PEC (15 R414) -/
  | smbus (data : List Byte) (pec : Byte)
  /-- an SMBus byte is not acknowledged (15 R414) -/
  | nack
  /-- a service response frame (15 R410): destination MAC, header bytes, payload, TAG -/
  | frame (mac : Nat) (op : Nat) (st : Status) (seq : Nat) (arg : Nat) (payload tag : List Byte)
  /-- an EVENT packet to the domain manager (09 R263, 12 Table 12.3 type 0x67) -/
  | toManager (node : Nat) (r : EventRec)
  /-- a coherence message to a member module (11 R310) -/
  | coh (member : Nat) (kind : MsgKind) (line : Nat) (data : List Byte) (grant : LState) (poison : Bool)
  /-- a precise exception of a core (18 R470): cause and faulting address -/
  | exception (ag : Agent) (cause : Nat) (addr : Nat)
  /-- a test access port selects a register, or drives or floats the wires its instruction names (19 Table 19.5): the instruction in
  effect and, for the device identification register, its value -/
  | tap (t : Tap) (i : TapInstr) (value : Nat)
  /-- the manager's copy of its domain map for a module of FAB_FAILOVER (12 R320): nodes and the paths to them -/
  | mapCopy (node : Nat) (map : List (Nat × List Nat))
  /-- a fabric packet leaves through a port; its last flit is sent (12, 13) -/
  | packet (port : Nat) (p : Packet)
  /-- a control sequence of 13 Table 13.2 leaves through a port -/
  | control (port : Nat) (c : Ctrl)
  /-- training starts on a port: 1 beacon, 2 training sets -/
  | training (port : Nat) (stage : Nat)
  /-- the capability record that a port sends (13 Table 13.7) -/
  | capability (port : Nat) (record : List Byte)
  /-- the next frame of a bundle asks for a replay from a number (14 R389) -/
  | frameNak (port bundle n : Nat)
  /-- a bundle's transmitter resends from a number (14 R389, R394) -/
  | frameResend (port bundle n : Nat)
  deriving DecidableEq, Repr

/-- The module's state, but for the queue of waiting commands. -/
structure Mod where
  /-- what the last command put out -/
  out : List Out := []
  /-- registers that do not hold their reset value, by address -/
  regs : Sparse Word := []
  mem : Mem := {}
  /-- number of the next free value (the model's own field) -/
  fresh : Nat := 0
  /-- number of the next event record (18 R462) -/
  evSeq : Nat := 0
  /-- HUB_EVRAISE staging words of AC0-AC7 (0-7) and RT0-RT1 (8-9) (18 R463): CODE, DATA_LO, DATA_HI -/
  evStage : Sparse (Nat × Nat × Nat) := []
  /-- the arrays ECD0-ECD15 (0-15) and the hub buffer (16) -/
  sram : List Sram := List.replicate 17 {}
  mc : List Mc := List.replicate 24 {}
  /-- number of the next LPDDR request (arrival order) -/
  lpNext : Nat := 0
  /-- requests held by Ochre, in arrival order (09 R259) -/
  och : List OchWait := []
  /-- narrow reads that wait at their sources for Ochre: number, source, address, size (09 R259, 10 R288) -/
  ochSrc : List (Nat × Src × Nat × Nat) := []
  regul : Regul := {}
  /-- cache lines that are not in I (11 R294) -/
  lines : List Line := []
  /-- directory entries, least recently used first (11 R295, R297) -/
  dir : List DirEntry := []
  /-- the directory retry queue, in arrival order (11 R298) -/
  retry : List (Nat × DirReq) := []
  /-- requests that wait at their sources because the retry queue is full, in arrival order (11 R298) -/
  reqSrc : List (Nat × DirReq) := []
  /-- answers to recalls that a WbData has already ended: holder and line (11 R309) -/
  stale : List (Holder × Nat) := []
  /-- hinted lines whose write has been acknowledged, with their targets (11 R304) -/
  pushDue : List (Nat × Nat) := []
  /-- lines that the last hard reset of an application core marked poisoned, while none has been written back yet (11 R314) -/
  poisonDue : Nat := 0
  /-- the retry queue has filled since it was last empty (11 R298) -/
  retryFilled : Bool := false
  /-- coherence messages in flight inside the module, oldest first -/
  net : List CohMsg := []
  /-- completions of non-caching writes and atomics on their way to the source (11 R305 NcAck), oldest first -/
  ncAcks : List (Src × Status × List Byte) := []
  /-- MFR_ALERT_STATUS (15 R415) -/
  alert : Nat := 0
  /-- MFR_ALERT_MASK (15 Table 15.10) -/
  alertMask : Nat := 0
  /-- MOD_ALERT_N is asserted (02 R40) -/
  alertPin : Bool := false
  /-- the alert response address has been read since MOD_ALERT_N was asserted (02 R40) -/
  araRead : Bool := false
  /-- STATUS_WORD latches CML, VIN_UV, INPUT (15 Table 15.10) -/
  statusLatch : Nat := 0
  /-- locate LED, MOD_LED_N[2] (02 R41) -/
  locate : Bool := false
  /-- operator key hash in the boot directory, when one is set (15 R405; the directory's layout is not given) -/
  operatorKey : Option (List Byte) := none
  /-- operator key hash that the next boot writes to the boot directory (15 Table 15.9) -/
  newOperatorKey : Option (List Byte) := none
  /-- the service key, when one is set (15 R411; sealed in the configuration region, whose layout is not given) -/
  serviceKey : Option (List Byte) := none
  /-- MIN_SVN in the boot directory (15 R407; the directory's layout is not given) -/
  minSvn : Nat := 0
  /-- the SVN commit request in the boot directory: slot B (15 R407) -/
  svnCommit : Option Bool := none
  /-- running firmware VERSION (15 Table 15.11) -/
  runVersion : Nat := 0
  /-- compute dies recorded as out of service (03 R92) -/
  outOfService : Nat := 0
  /-- dies whose field logic BIST has passed since their record was made (15 Table 15.9) -/
  bistPassed : Nat := 0
  /-- HUB_DIE_MASK.ACTIVE in the configuration (16 Table 16.1) -/
  cfgActive : Nat := 0xFFFF
  /-- node ID in the configuration; 0xFFFF when none (15 Table 15.11) -/
  cfgNode : Nat := 0xFFFF
  /-- HUB_DIE_MASK.PRESENT at the last boot (15 Table 15.11) -/
  bootPresent : Nat := 0
  /-- PE repair lists of ECD0-ECD15 in flash (03 R65): physical (row, column) -/
  repairLists : List (List (Nat × Nat)) := List.replicate 16 []
  /-- SRAM failing-word lists of ECD0-ECD15 and the hub buffer in flash (08 R248): (bank, word) -/
  wordLists : List (List (Nat × Nat)) := List.replicate 17 []
  /-- SLOT_ID[7:0] as sampled (02 R38) -/
  slotId : Nat := 0
  /-- cause log, newest first (15 Table 15.12) -/
  causes : List CauseRec := []
  /-- standby power-on count (15 Table 15.12) -/
  powerOns : Nat := 0
  /-- highest SEQ accepted since BOOT_ID was drawn, plus 1 (15 R411) -/
  topSeq : Nat := 0
  /-- an authentication failure has raised 0x0B03 (15 R411) -/
  authEvent : Bool := false
  /-- the root of trust's command (15 R409) -/
  rot : Option RotJob := none
  /-- the service request under way: an ATTEST that waits or runs, or a bulk transfer that waits for memory -/
  svcRun : Option SvcRun := none
  /-- service requests that have arrived behind it (15 R410): OP and frame -/
  svcq : List (Nat × SvcFrame) := []
  /-- resets scheduled by the service endpoint (15 Table 15.8), oldest first -/
  svcResets : List SvcReset := []
  /-- the management die is held in reset (15 R416) -/
  mgdHeld : Bool := false
  /-- the island has stopped restarting the management die (15 R416) -/
  mgdStopped : Bool := false
  /-- losses of the management die counted within 10 minutes (15 R416) -/
  mgdLosses : Nat := 0
  /-- the management Ethernet link is up (02 R51) -/
  link : Bool := false
  /-- module state (17 Table 17.4, 15 MFR_STATE) -/
  state : ModState := .off
  /-- the always-on island is ready (02 Table 02.6) -/
  islandReady : Bool := false
  /-- level of MOD_PWR_EN -/
  pwrEn : Bool := false
  /-- MOD_PWR_EN is ignored until it has been deasserted for 10 ms (02 R34, R46; 17 R442, R446) -/
  enIgnored : Bool := false
  /-- VIN is at or above the start threshold (02 R42) -/
  vinOk : Bool := false
  /-- level of MOD_RST_N (pulled up on the module) -/
  rstN : Bool := true
  /-- MOD_PWRGD (02 R43) -/
  pwrgd : Bool := false
  /-- rail groups in regulation during power-up (17 Table 17.2) -/
  railGroup : Nat := 0
  /-- MOD_THERMTRIP_N is asserted (02 R46) -/
  tripped : Bool := false
  /-- MOD_LED_N[1] blinks for a thermal trip (02 R46) -/
  tripBlink : Bool := false
  /-- the restart after a thermal trip is to be reported at the next boot (17 R456): die -/
  tripReport : Option Nat := none
  /-- the rail fault that the next boot reports (17 R442): rail, kind -/
  railReport : Option (Nat × Nat) := none
  /-- LASER_EN_N is low (02 R49) -/
  laserLow : Bool := false
  /-- LASER_EN_N has been low for 1 ms (02 R49) -/
  laserQual : Bool := false
  /-- laser settings saved in flash (16 Table 16.1): 8 × laser die + wavelength, BIAS, HEATER -/
  laserSaved : List (Nat × Nat × Nat) := []
  /-- last coolant samples in sixteenths of a degree: inlet, outlet (17 R451) -/
  coolant : Option (Int × Int) := none
  /-- a coolant reading is out of range (17 R455) -/
  coolantBad : Bool := false
  /-- the boot in progress is a power-on boot (02 R45) -/
  powerOnBoot : Bool := false
  /-- the boot has been stopped (16 Table 16.2) -/
  bootStopped : Bool := false
  /-- logic BIST of the hub or the management die has stopped it (19 R478) -/
  bistStop : Bool := false
  /-- core, cluster and partition resets in progress, in acceptance order; cluster and partition resets are in their firmware phase -/
  resets : List ResetRun := []
  /-- dies whose port entered Slate with cause 1, 2 or 4 since the last reset of their partition (03 R92) -/
  lostDies : Nat := 0
  /-- dies whose tile cores are held in reset for want of image blocks (16 R427) -/
  heldDies : Nat := 0
  /-- die tests in progress: die and OP (19 R474) -/
  tests : List (Nat × Nat) := []
  /-- controllers whose field test runs (19 R481) -/
  ftests : List Nat := []
  /-- instruction of every test access port (19 Table 19.5) -/
  taps : List TapInstr := List.replicate 18 .idcode
  /-- secondary ports chained after the hub's (19 Table 19.5 STACK_SELECT) -/
  stack : Nat := 0
  /-- class code of the requester of the power transition in progress (17 Table 17.6) -/
  pwrWho : Nat := 0xFF
  fab : Fab := {}
  lanes : List Lane := List.replicate 10 {}
  /-- the emitters are enabled (02 R49) -/
  laserOk : Bool := false
  /-- spare emitters warming up: 8 × laser die + wavelength, with the transmit widths of the die's ports before the failure (13 R358) -/
  warming : List (Nat × List Nat) := []
  /-- wavelengths that are dark for good: 8 × laser die + wavelength (13 R358) -/
  dark : List Nat := []
  /-- completions for memory requests of operations: SQ, sequence number, key, status, data (06 R162) -/
  opDone : List (Nat × Nat × Nat × Status × List Byte) := []
  /-- accesses of cores to lines whose request or writeback is open, waiting at their cores, oldest first (11 R306) -/
  coreq : List CoreAccess := []
  /-- accesses of cores that wait for their completion outside the caches (18 R470) -/
  uncached : List CoreAccess := []
  /-- die ports CP0-CP15 (0-15) and MP (16) -/
  dports : List DPort := List.replicate 17 {}
  /-- sequencer contexts SQ0-SQ3 -/
  ctxs : List Ctx := List.replicate 4 {}
  /-- HUB_DIE_MASK.ACTIVE and PRESENT as they stood at the last partition resets, without the dies lost since (01 R29, Table 01.10) -/
  active : Nat := 0
  deriving DecidableEq, Repr

/-- The state: the module and the commands that wait, first in first out. -/
structure State where
  pending : List Instr
  m : Mod
  deriving DecidableEq, Repr

/-- The module right after reset: OFF, no supply present, every register at its reset value, no command waiting. -/
def State.reset : State := { pending := [], m := {} }

end Sys2Proof.Machine
end

