-- ==== Sys2Proof/Machine/Ops.lean ====
section
/-! DEFINITION. The named operations every command is made of: outputs, free values, registers (00 R7-R12, 01 R24-R26), event
records (15 R402, R403; 18 R460-R468), and the run of one command. -/

namespace Sys2Proof

/-- The 8-bit status code (00 Table 00.4). -/
def Status.toNat : Status → Nat
  | .ok => 0x00 | .aborted => 0x01 | .alreadyDone => 0x02 | .fenced => 0x03 | .dieLost => 0x04 | .nodeLost => 0x05
  | .timeout => 0x06 | .linkDown => 0x07 | .uncorrectable => 0x08 | .dataLost => 0x09 | .bankUnderTest => 0x0A
  | .writeLost => 0x0B | .protocol => 0x0C | .access => 0x0D | .thermal => 0x0E | .range => 0x0F | .retired => 0x10
  | .busy => 0x11 | .bankOff => 0x12

end Sys2Proof

namespace Sys2Proof.Machine

open Sys2Proof

/-! ## Numbers -/

/-- The first of two statuses that is not ST_OK. -/
def firstBad (a b : Status) : Status := if a = .ok then b else a

/-- The status of a code; a code that names none is a protocol error. -/
def statusOf (n : Nat) : Status :=
  ([Status.ok, .aborted, .alreadyDone, .fenced, .dieLost, .nodeLost, .timeout, .linkDown, .uncorrectable, .dataLost, .bankUnderTest,
    .writeLost, .protocol, .access, .thermal, .range, .retired, .busy, .bankOff].find? (fun s => s.toNat == n)).getD .protocol

/-! ## Registers -/

/-- Value a field's reset gives the register. -/
def FieldD.resetBits (f : FieldD) : Nat :=
  (List.range f.cnt).foldl (fun v j => v ||| (f.reset <<< (f.lo + j * f.bs))) 0

/-- Bits of the register that the field names. -/
def FieldD.mask (f : FieldD) : Nat :=
  (List.range f.cnt).foldl (fun v j => v ||| ((2 ^ f.w - 1) <<< (f.lo + j * f.bs))) 0

/-- The block, instance and offset a local address lies in (01 R24-R26, Table 01.7; 08 Table 08.6; 15 Table 15.2). -/
def blockAt (a : Nat) : Option (Block × Nat × Nat) :=
  if a < 0x700000000000 then none
  else if a < 0x700001000000 then some (.hub, 0, a - 0x700000000000)
  else if a < 0x700001040000 then some (.sq, (a - 0x700001000000) / 0x10000, a % 0x10000)
  else if a < 0x700002000000 then none
  else if a < 0x700003000000 then some (.sram, 16, a - 0x700002000000)
  else if a < 0x700003180000 then some (.mc, (a - 0x700003000000) / 0x10000, a % 0x10000)
  else if a < 0x700004000000 then none
  else if a < 0x700005000000 then some (.och, 0, a - 0x700004000000)
  else if a < 0x700006000000 then some (.fab, 0, a - 0x700005000000)
  else if a < 0x7000060A0000 then some (.lane, (a - 0x700006000000) / 0x10000, a % 0x10000)
  else if a < 0x700007000000 then none
  else if a < 0x700007110000 then some (.d2d, (a - 0x700007000000) / 0x10000, a % 0x10000)
  else if a < 0x700008000000 then none
  else if a < 0x700009000000 then some (.reg, 0, a - 0x700008000000)
  else if a < 0x70000A000000 then some (.dir, 0, a - 0x700009000000)
  else if a < 0x70000B000000 then some (.pwr, 0, a - 0x70000A000000)
  else if a < 0x70000C000000 then some (.thm, 0, a - 0x70000B000000)
  else if a < 0x710000000000 then none
  else if a < 0x710010000000 then
    let n := (a - 0x710000000000) / 0x1000000
    let o := a % 0x1000000
    if 0x2000 ≤ o ∧ o < 0x2200 then some (.sram, n, o - 0x2000) else some (.ecd, n, o)
  else if a < 0x7F0000000000 then none
  else if a < 0x7F0000010000 then some (.mgd, 0, a - 0x7F0000000000)
  else none

/-- Registers that an instance of a block lacks: BANK_STATE20-31 of the hub buffer (08 Table 08.8), bundles 2-15 of MP
(01 Table 01.1). -/
def absent (b : Block) (inst : Nat) (n : RegName) (k : Nat) : Bool :=
  match b, n with
  | .sram, .bankState => inst == 16 && decide (20 ≤ k)
  | .d2d, .d2dBundle => inst == 16 && decide (2 ≤ k)
  | .d2d, .d2dSpare => inst == 16 && decide (4 ≤ k)
  | .d2d, .d2dLaneErr => inst == 16 && decide (2 ≤ k)
  | .d2d, .d2dTrainParam => inst == 16 && decide (32 ≤ k)
  | _, _ => false

/-- The register at an offset of a block: its description and index. -/
def regAtOff (b : Block) (inst off : Nat) : Option (RegD × Nat) :=
  match b.regs.find? (fun d => d.off ≤ off &&
      (if d.stride = 0 then off == d.off else (off - d.off) % d.stride == 0 && (off - d.off) / d.stride < d.count)) with
  | none => none
  | some d =>
    let k := if d.stride = 0 then 0 else (off - d.off) / d.stride
    if absent b inst d.name k then none else some (d, k)

/-- Reset value of a register (the Reset columns; MP's D2D_CTL.ENABLE resets to 1, 14 Table 14.8). -/
def resetOf (b : Block) (inst off : Nat) : Nat :=
  match regAtOff b inst off with
  | none => 0
  | some (d, _) =>
    d.fields.foldl (fun v f => v ||| f.resetBits) 0 ||| (if d.name = .d2dCtl ∧ inst = 16 then 1 else 0)

/-- Reset value of the register at an address. -/
def resetWord (a : Nat) : Word :=
  match blockAt a with
  | none => 0
  | some (b, i, o) => BitVec.ofNat 64 (resetOf b i o)

/-- The value a register holds. -/
def Mod.reg (m : Mod) (a : Nat) : Word := (m.regs.get? a).getD (resetWord a)

def Mod.setReg (m : Mod) (a : Nat) (w : Word) : Mod := { m with regs := m.regs.set a w }

/-- Address of the register that holds a field: instance `i`, register index `k`. -/
def Fld.addr (f : Fld) (i k : Nat) : Nat := f.blk.base i + f.off + k * f.stride

/-- Value of a field: instance `i` of its block, register index `k`, repetition `j` inside the register. -/
def Mod.fld (m : Mod) (f : Fld) (i : Nat := 0) (k : Nat := 0) (j : Nat := 0) : Nat :=
  bits (m.reg (f.addr i k)).toNat (f.lo + j * f.bs) f.w

/-- `m` with a field set by hardware (the value is taken modulo the field's width). -/
def Mod.setFld (m : Mod) (f : Fld) (v : Nat) (i : Nat := 0) (k : Nat := 0) (j : Nat := 0) : Mod :=
  let a := f.addr i k
  m.setReg a (BitVec.ofNat 64 (putBits (m.reg a).toNat (f.lo + j * f.bs) f.w v))

/-- Add to a saturating counter field. -/
def Mod.satFld (m : Mod) (f : Fld) (n : Nat) (i : Nat := 0) (k : Nat := 0) : Mod :=
  m.setFld f (satAdd f.w (m.fld f i k) n) i k

/-- Add to a counter field that wraps. -/
def Mod.addFld (m : Mod) (f : Fld) (n : Nat) (i : Nat := 0) (k : Nat := 0) : Mod :=
  m.setFld f (m.fld f i k + n) i k

/-- Every register of the address range [lo, hi) returns to its reset value. -/
def Mod.resetRange (m : Mod) (lo hi : Nat) : Mod :=
  { m with regs := m.regs.filter (fun e => decide (e.1 < lo) || decide (hi ≤ e.1)) }

/-! ## Outputs and free values -/

def Mod.emit (m : Mod) (o : Out) : Mod := { m with out := m.out ++ [o] }

/-- The command's own request completes. -/
def Mod.done (m : Mod) (st : Status) (data : List Byte := []) : Mod := m.emit (.done st data)

/-- A fresh free value's number. -/
def Mod.draw (m : Mod) : Mod × Nat := ({ m with fresh := m.fresh + 1 }, m.fresh)

/-- `n` fresh bytes that nothing constrains. -/
def Mod.drawBytes (m : Mod) (n : Nat) : Mod × List Byte :=
  let (m, d) := m.draw
  (m, (List.range n).map (fun i => Config.freeByte d i))

/-! ## Settling: the canonical form of the sparse tables -/

/-- Cells of memory sorted by address, one for each. -/
def Mem.settle (isDefault : Nat → Byte → Bool) (x : Mem) : Mem :=
  { cells := (sortKeys x.cells).filter (fun e => !isDefault e.1 e.2),
    badPar := sortKeys x.badPar, fills := sortKeys x.fills, poison := sortKeys x.poison, wrong := sortKeys x.wrong,
    freePar := sortKeys x.freePar, epoch := x.epoch }

/-- On-chip array (0-15 ECDn, 16 the hub buffer) and window offset of a local address (01 Table 01.6). -/
def sramAt (a : Nat) : Option (Nat × Nat) :=
  if 0x400000000000 ≤ a ∧ a < 0x400080000000 then some (16, a - 0x400000000000)
  else if 0x400100000000 ≤ a ∧ a < 0x400500000000 then
    let n := (a - 0x400100000000) / 0x40000000
    let o := (a - 0x400100000000) % 0x40000000
    if o < 0x38000000 then some (n, o) else none
  else none

/-- LPDDR package and window offset of a local address (01 Table 01.6). -/
def lpddrAt (a : Nat) : Option (Nat × Nat) :=
  let k := a / 0x1000000000
  let o := a % 0x1000000000
  if k < 24 ∧ o < 0xDE0000000 then some (k, o) else none

def sramBase (arr : Nat) : Nat := if arr = 16 then 0x400000000000 else 0x400100000000 + arr * 0x40000000

/-- Bytes of an array's populated window (08 Table 08.1). -/
def sramSize (arr : Nat) : Nat := if arr = 16 then 0x80000000 else 0x38000000

/-- Banks of an array (08 Table 08.1). -/
def bankCount (arr : Nat) : Nat := if arr = 16 then 640 else 1024

/-- Words of a bank (08 Table 08.1). -/
def wordCount (arr bank : Nat) : Nat := if arr = 16 then (if bank < 512 then 52429 else 52428) else 14336

/-- Bank and word of a window offset (08 R225). -/
def bankOf (arr off : Nat) : Nat := (off / 64) % bankCount arr
def wordOf (arr off : Nat) : Nat := (off / 64) / bankCount arr

/-- Window offset of a word (the inverse of 08 R225). -/
def wordOff (arr bank word : Nat) : Nat := (word * bankCount arr + bank) * 64

/-- The unit of memory a byte's undefined contents belong to: an SRAM bank (arr × 1024 + bank; its words in the tile-core image area
40000 + arr × 1024 + bank), the boot ROM (21000), an RT private SRAM (21001 + r), a flash sector (30000 + sector), a 2 MiB page of an LPDDR window (100000 + k × 32768 + page). -/
def unitOf (a : Nat) : Nat :=
  match sramAt a with
  | some (arr, off) => (if arr < 16 ∧ 0x37F00000 ≤ off then 40000 else 0) + arr * 1024 + bankOf arr off
  | none =>
    match lpddrAt a with
    | some (k, o) => 100000 + k * 32768 + o / 0x200000
    | none =>
      if a < 0x7F0040000000 then 21000
      else if a < 0x7F0080000000 then 21001 + (a - 0x7F0040000000) / 0x100000
      else 30000 + (a - 0x7F0080000000) / 0x10000

/-- Units that no reset touches: the boot ROM and the flash (16 Table 16.8). -/
def fixedUnit (unit : Nat) : Bool := unit == 21000 || (30000 ≤ unit && unit < 38192)

/-- The larger unit whose fill a unit without one of its own has: the array of a bank (25000 + array), the image area of a die
(26000 + die), the package of an LPDDR page (20000 + package). -/
def unitParent (unit : Nat) : Option Nat :=
  if unit < 17 * 1024 then some (25000 + unit / 1024)
  else if 40000 ≤ unit ∧ unit < 56384 then some (26000 + (unit - 40000) / 1024)
  else if 100000 ≤ unit then some (20000 + (unit - 100000) / 32768)
  else none

/-- The fill of a unit: its own, its parent's, or the module's. -/
def Mem.fill (x : Mem) (unit : Nat) : Fill :=
  match x.fills.get? unit with
  | some f => f
  | none =>
    if fixedUnit unit then .free 0
    else ((unitParent unit).bind (fun p => x.fills.get? p)).getD (.free x.epoch)

/-- What an unlisted byte reads as. -/
def Mem.unlisted (x : Mem) (a : Nat) : Byte :=
  match x.fill (unitOf a) with
  | .zero => 0
  | .free e | .image e => Config.freeByte e a

/-- A listed value that an unlisted byte of the same unit would read as (undefined contents equal no listed value). -/
def Mem.isDefault (x : Mem) (a : Nat) (b : Byte) : Bool :=
  match x.fill (unitOf a) with
  | .zero => b == 0
  | .free _ | .image _ => false

/-- Memory in canonical form: listed addresses strictly rising, none equal to what an unlisted address reads as, and the other
tables sorted. -/
abbrev Mem.wf (x : Mem) : Prop :=
  keysRise x.cells = true ∧ x.cells.all (fun e => !x.isDefault e.1 e.2) = true ∧
  keysRise x.badPar = true ∧ keysRise x.fills = true ∧ keysRise x.poison = true ∧ keysRise x.wrong = true ∧ keysRise x.freePar = true

/-- Registers in canonical form: addresses strictly rising, none listed that holds its reset value. -/
abbrev Mod.regsWf (m : Mod) : Prop := canonical (fun a => some (resetWord a)) m.regs = true

/-- Conditions that hold bits of MFR_ALERT_STATUS set for as long as they last (17 R449, R452, R455): thermal warn, thermal throttle,
power cap limiting. -/
def Mod.alertHeld (m : Mod) : Nat :=
  (if m.coolantBad || (List.range 20).any (fun i => m.fld F.THM_TEMP_WARN 0 i == 1) then 1 else 0) |||
  (if (List.range 20).any (fun i => m.fld F.THM_TEMP_THROTTLE 0 i == 1) then 2 else 0) |||
  (if m.fld F.PWR_STATUS_LEVEL == 0 then 0 else 0x80)

/-- MOD_ALERT_N follows the unmasked alert bits (02 R40): released when the alert response address has been read and no bit is left. A bit
that is cleared or masked before that read leaves the pin asserted until the read: R40 names no release without it (DESIGN CHOICE, log
193). -/
def Mod.alertSettle (m : Mod) : Mod :=
  let a := m.alert ||| m.alertHeld
  let open_ := a &&& (0xFFFF ^^^ m.alertMask) != 0
  { m with alert := a,
           alertPin := open_ || (m.alertPin && !m.araRead),
           araRead := m.araRead && m.alertPin && open_ }

/-- The tables a command leaves, in canonical form. -/
def Mod.settle (m : Mod) : Mod :=
  let m := m.alertSettle
  let mem := { m.mem with fills := sortKeys m.mem.fills }
  { m with regs := settleMap (fun a => some (resetWord a)) m.regs,
           mem := mem.settle mem.isDefault,
           evStage := sortKeys m.evStage }

/-- What the last command put out is gone. -/
def Mod.clearOut (m : Mod) : Mod := { m with out := [] }

/-- Run one command: its outputs start empty, its effect is `f`, and the tables settle. -/
def State.run (s : State) (f : Mod → Mod) : Host.Outcome State Fault Refusal :=
  .next { s with m := (f s.m.clearOut).settle }

/-! ## Bytes of memory -/

/-- The byte at a populated local address of memory. -/
def Mem.byte (x : Mem) (a : Nat) : Byte := (Sparse.get? x.cells a).getD (x.unlisted a)

def Mem.setByte (x : Mem) (a : Nat) (b : Byte) : Mem := { x with cells := Sparse.set x.cells a b }

/-- The stored parity of an on-chip byte is wrong (08 R231, R238). -/
def Mem.parityBad (x : Mem) (a : Nat) : Bool :=
  (x.badPar.get? a).isSome ||
  (match x.freePar.get? a with
   | some e => Config.freeParityBad e a
   | none => false) ||
  ((Sparse.get? x.cells a).isNone &&
    match x.fill (unitOf a) with
    | .zero | .image _ => false
    | .free e => Config.freeParityBad e a)

/-- Write a byte with right parity (08 R231). -/
def Mem.write1 (x : Mem) (a : Nat) (b : Byte) : Mem :=
  { x.setByte a b with
      badPar := if (x.badPar.get? a).isSome then x.badPar.del a else x.badPar,
      freePar := if (x.freePar.get? a).isSome then x.freePar.del a else x.freePar }

/-- Write bytes from an address (`none`: the byte keeps its value). -/
def Mem.writeAt (x : Mem) (a : Nat) : List (Option Byte) → Mem
  | [] => x
  | none :: bs => Mem.writeAt x (a + 1) bs
  | some b :: bs => Mem.writeAt (x.write1 a b) (a + 1) bs

def Mem.readAt (x : Mem) (a n : Nat) : List Byte := (List.range n).map (fun i => x.byte (a + i))

/-- Write bytes with inverted parity (18 R469). -/
def Mem.poisonAt (x : Mem) (a n : Nat) : Mem :=
  (List.range n).foldl (fun x i =>
    { x.setByte (a + i) (x.byte (a + i)) with badPar := x.badPar.set (a + i) () }) x

/-- Bytes whose contents and parity are undefined from now on (08 R238, R247): contents `d`, parity of epoch `e`. -/
def Mem.looseAt (x : Mem) (a e : Nat) (d : List Byte) : Mem :=
  (List.range d.length).foldl (fun x i => { x.write1 (a + i) (nth d i 0) with freePar := x.freePar.set (a + i) e }) x

/-- The contents of a unit become undefined, or 0: its listed bytes go. A bank takes its words of the image area with it. -/
def Mem.refill (x : Mem) (unit : Nat) (f : Fill) : Mem :=
  let bank := decide (unit < 16384)
  let out := fun (a : Nat) => unitOf a != unit && !(bank && unitOf a == unit + 40000)
  { x with cells := x.cells.filter (fun e => out e.1),
           badPar := x.badPar.filter (fun e => out e.1),
           poison := x.poison.filter (fun e => out e.1),
           wrong := x.wrong.filter (fun e => out e.1),
           freePar := x.freePar.filter (fun e => out e.1),
           fills := if bank then (x.fills.set unit f).set (unit + 40000) f else x.fills.set unit f }

/-- The contents of a unit become undefined. -/
def Mod.lose (m : Mod) (unit : Nat) : Mod :=
  let (m, e) := m.draw
  { m with mem := m.mem.refill unit (.free (e + 1)) }

/-- An on-chip array's contents become undefined, or 0 (08 R238, R248). -/
def Mod.refillArray (m : Mod) (arr : Nat) (f : Fill) : Mod :=
  let out := fun (a : Nat) => match sramAt a with
    | some (r, _) => r != arr
    | none => true
  let mine := fun (u : Nat) => decide (u < 17408 ∧ u / 1024 = arr) || decide (40000 ≤ u ∧ u < 56384 ∧ (u - 40000) / 1024 = arr)
  { m with mem := { m.mem with
      cells := m.mem.cells.filter (fun c => out c.1),
      badPar := m.mem.badPar.filter (fun c => out c.1),
      freePar := m.mem.freePar.filter (fun c => out c.1),
      fills := Sparse.set (Sparse.set (m.mem.fills.filter (fun e => !mine e.1)) (25000 + arr) f) (26000 + arr) f } }

def Mod.loseArray (m : Mod) (arr : Nat) : Mod :=
  let (m, e) := m.draw
  m.refillArray arr (.free (e + 1))

/-- A fan-out writes the tile-core image area of a die (16 R425, R426): bytes that the spec does not give. -/
def Mod.writeImage (m : Mod) (d : Nat) : Mod :=
  let (m, e) := m.draw
  let out := fun (a : Nat) => match sramAt a with
    | some (r, off) => r != d || decide (off < 0x37F00000)
    | none => true
  { m with mem := { m.mem with
      cells := m.mem.cells.filter (fun c => out c.1),
      badPar := m.mem.badPar.filter (fun c => out c.1),
      freePar := m.mem.freePar.filter (fun c => out c.1),
      fills := Sparse.set (m.mem.fills.filter (fun f => !decide (40000 ≤ f.1 ∧ f.1 < 56384 ∧ (f.1 - 40000) / 1024 = d))) (26000 + d) (.image (e + 1)) } }

/-- The contents of an LPDDR package become undefined (09 R269). -/
def Mod.losePackage (m : Mod) (k : Nat) : Mod :=
  let (m, e) := m.draw
  let other := fun (a : Nat) => match lpddrAt a with
    | some (k', _) => k' != k
    | none => true
  { m with mem := { m.mem with
      cells := m.mem.cells.filter (fun c => other c.1),
      poison := m.mem.poison.filter (fun c => other c.1),
      wrong := m.mem.wrong.filter (fun c => other c.1),
      fills := Sparse.set (m.mem.fills.filter (fun f => f.1 < 100000 || (f.1 - 100000) / 32768 != k)) (20000 + k)
        (.free (e + 1)) } }

/-! ## Event records -/

/-- The high byte of a code names one of the classes of 18 Table 18.3. -/
def eventClassKnown (code : Nat) : Bool := 3 ≤ code / 256 && code / 256 ≤ 0xE

/-- FAB_NODE.ID as a record carries it: 0xFFFF while FAB_NODE.LOCK is 0 (18 Table 18.1). -/
def Mod.recordNode (m : Mod) : Nat := if m.fld F.FAB_NODE_LOCK = 1 then m.fld F.FAB_NODE_ID else 0xFFFF

/-- The 32 bytes of a record (18 Table 18.1). -/
def EventRec.bytes (r : EventRec) : List Byte :=
  toBytes 2 r.code ++ toBytes 2 r.flags ++ toBytes 4 r.seq ++ toBytes 6 r.time.toNat ++ toBytes 2 r.node ++ padTo 16 r.data

/-- A record whose raising counts as a fault event (18 Table 18.8). -/
def isFault (code : Nat) (data : List Byte) : Bool :=
  match code with
  | 0x0301 | 0x0401 | 0x0403 | 0x0404 | 0x0501 | 0x0504 | 0x0507 | 0x050A | 0x0601 | 0x0701 => true
  | 0x0803 | 0x0806 | 0x0808 | 0x0905 | 0x0A03 | 0x0A04 | 0x0B01 | 0x0B02 | 0x0B04 => true
  | 0x0C06 | 0x0C07 | 0x0C08 | 0x0D06 | 0x0D07 | 0x0D0A | 0x0E01 => true
  | 0x0801 => leAt data 3 1 != 12 && leAt data 3 1 != 10
  | 0x0904 => leAt data 2 1 == 2
  | 0x0A05 => leAt data 1 1 != 3
  | 0x0C09 => leAt data 3 1 == 0
  | _ => false

/-- Bank state 0 ON, 1 RET, 2 OFF, 3 TEST (08 Table 08.8). -/
def Mod.bankState (m : Mod) (arr bank : Nat) : Nat := m.fld F.BANK_STATE_ST arr (bank / 32) (bank % 32)

def Mod.setBankState (m : Mod) (arr bank v : Nat) : Mod := m.setFld F.BANK_STATE_ST v arr (bank / 32) (bank % 32)

/-- The state an access to a bank meets (08 Table 08.3, R237): a RET bank wakes and stays ON; a bank on its way from RET meets the
new state. -/
def Mod.meetBank (m : Mod) (arr bank : Nat) : Mod × Nat :=
  let st := m.bankState arr bank
  if st = 1 then
    match (nth m.sram arr {}).wakes.find? (fun w => w.1 == bank) with
    | some (_, t) => (m, if t = 3 then 3 else 0)
    | none => (m.setBankState arr bank 0, 0)
  else (m, st)

/-- Bytes the hub itself writes to its buffer: each block meets the state of its bank (08 R236). -/
def Mod.hubWrite (m : Mod) (a : Nat) (data : List Byte) : Mod :=
  (List.range data.length).foldl (fun m i =>
    match sramAt (a + i) with
    | some (16, off) =>
      let (m, st) := m.meetBank 16 (bankOf 16 off)
      if 2 ≤ st then m else { m with mem := m.mem.write1 (a + i) (nth data i 0) }
    | _ => m) m

/-- Put a record into event queue `q` (15 R402): written while there is room, else counted in OVERFLOW. -/
def Mod.enqueueEvent (m : Mod) (q : Nat) (bytes : List Byte) : Mod :=
  let slots := 2 ^ m.fld F.EVQ_BASE_LOG2_SLOTS 0 q
  let tail := m.fld F.EVQ_TAIL_TAIL 0 q
  let head := m.fld F.EVQ_HEAD_HEAD 0 q
  if (tail + 2 ^ 32 - head) % 2 ^ 32 < slots then
    let m := m.hubWrite (m.fld F.EVQ_BASE_ADDR 0 q * 32 + 32 * (tail % slots)) bytes
    m.setFld F.EVQ_TAIL_TAIL (tail + 1) 0 q
  else m.satFld F.EVQ_TAIL_OVERFLOW 1 0 q

/-- A queue that is enabled and whose CLASS_MASK has the record's class (15 R402, Table 15.4). -/
def Mod.queueTakes (m : Mod) (q code : Nat) : Bool :=
  m.fld F.EVQ_BASE_LOG2_SLOTS 0 q != 0 && code / 256 < 32 && bit (m.fld F.EVQ_CTL_CLASS_MASK 0 q) (code / 256)

/-- The hub delivers a record: to every queue that takes it, or to HUB_EVQ_UNROUTED (15 R402); a fault event sets
HUB_FAULT.PENDING and MFR_ALERT_STATUS[4] (18 R468). -/
def Mod.deliver (m : Mod) (r : EventRec) : Mod :=
  let qs := [0, 1, 2, 3].filter (fun q => m.queueTakes q r.code)
  let m := if qs.isEmpty then m.satFld F.HUB_EVQ_UNROUTED_COUNT 1 else qs.foldl (fun m q => m.enqueueEvent q r.bytes) m
  let m := if isFault r.code r.data then
      { m.setFld F.HUB_FAULT_PENDING 1 with alert := m.alert ||| 0x10 } else m
  m.emit (.event r)

/-- The hub raises a record (18 R460, R462): it takes the next number, whatever becomes of it. -/
def Mod.raiseWith (m : Mod) (flags code : Nat) (data : List Byte) : Mod :=
  let (m, d) := m.draw
  let r : EventRec := { code := code, flags := flags, seq := m.evSeq, time := Config.freeTime d, node := m.recordNode,
                        data := padTo 16 data }
  ({ m with evSeq := (m.evSeq + 1) % 2 ^ 32 }).deliver r

def Mod.raise (m : Mod) (code : Nat) (data : List Byte) : Mod := m.raiseWith 0 code data

/-- The always-on island writes a cause record (15 Table 15.12): the newest 4,096 stay (Table 15.3); the time is free. -/
def Mod.recordCause (m : Mod) (code : Nat) (die : Nat := 0) (kind : Nat := 0) : Mod :=
  let (m, d) := m.draw
  let w := BitVec.ofNat 64 (m.powerOns % 2 ^ 32 + 2 ^ 32 * (Config.freeNat d % 2 ^ 32))
  { m with causes := ({ when_ := w, code := code, die := die, kind := kind } :: m.causes).take 4096 }

/-- The 16 bytes of a cause record. -/
def CauseRec.bytes (r : CauseRec) : List Byte :=
  toBytes 8 r.when_.toNat ++ toBytes 1 r.code ++ toBytes 1 r.die ++ toBytes 1 r.kind ++ List.replicate 5 0

/-- The interrupt line of an application core (15 R403). -/
def Mod.irq (m : Mod) (core : Nat) : Bool :=
  [0, 1, 2, 3].any (fun q => m.fld F.EVQ_CTL_IRQ_EN 0 q == 1 && m.fld F.EVQ_CTL_IRQ_CORE 0 q == core &&
    m.fld F.EVQ_TAIL_TAIL 0 q != m.fld F.EVQ_HEAD_HEAD 0 q)

/-! ## Partitions (01 Table 01.8) -/

/-- Dies of the partition of context `q` in the layout; empty when it does not exist. -/
def Mod.partition (m : Mod) (q : Nat) : List Nat :=
  match m.fld F.HUB_PARTITION_MODE with
  | 0 => if q = 0 then List.range 16 else []
  | 1 => if q < 2 then (List.range 8).map (· + 8 * q) else []
  | _ => (List.range 4).map (· + 4 * q)

/-! ## Data items of records (18 Table 18.2) -/

def d1 (n : Nat) : List Byte := toBytes 1 n
def d2 (n : Nat) : List Byte := toBytes 2 n
def d4 (n : Nat) : List Byte := toBytes 4 n
def d8 (n : Nat) : List Byte := toBytes 8 n
/-- A count: 2 bytes, saturating at 0xFFFF. -/
def dCount (n : Nat) : List Byte := toBytes 2 (min n 0xFFFF)

end Sys2Proof.Machine
end

