-- ==== Sys2Proof/Machine/Route.lean ====
section
/-! DEFINITION. Routing and request tracking of the fabric (12 R329-R334, R345-R348), flits and credits of the ports (13 R365-R370),
faults of cores (18 R470), and the run of a command that may complete requests of other nodes. -/

namespace Sys2Proof

open Sys2Proof.Machine

def Packet.addr (p : Packet) : Nat := leAt p.head 0 6
def Packet.word (p : Packet) (off : Nat) : Nat := leAt p.head off 8
def Packet.byteAt (p : Packet) (off : Nat) : Nat := leAt p.head off 1
def Packet.pathLen (p : Packet) : Nat := p.byteAt 0x36
def Packet.pathPos (p : Packet) : Nat := p.byteAt 0x37
/-- Entry `i` of PATH (12 Table 12.4). -/
def Packet.pathEntry (p : Packet) (i : Nat) : Nat := bits (leAt p.head 0x30 6) (4 * i) 4
def Packet.path (p : Packet) : List Nat := (List.range p.pathLen).map p.pathEntry
/-- VC × 2 + SUB. -/
def Packet.vcIdx (p : Packet) : Nat := p.vc.val * 2 + b2n p.sub

end Sys2Proof

namespace Sys2Proof.Machine

open Sys2Proof

/-! ## Requesters and core faults -/

/-- Code of a requesting agent in event 0x0401 (18 Table 18.2). -/
def agentCode : Agent → Nat
  | .tc d j => 4 * d.val + j.val
  | .ac _ => 64
  | .rt i => 0x41 + i.val
  | .dma _ => 0x43
  | .sqFetch _ => 0x44
  | .fabric | .fabMgmt => 0x45
  | .svc => 0x46
  | .march => 0x47
  | .atomic _ => 0x48

/-- The agent ID a core's event records carry: RT cores as in 18 Table 18.2. -/
def coreId (ag : Agent) : Nat := agentCode ag

/-- Exception cause of a faulting access (18 R470): 0 fetch, 1 load, 2 AMO. -/
def causeOf (kind : Nat) : Nat := if kind = 0 then 1 else if kind = 1 then 5 else 7

/-- A core used poisoned data, or its uncached access failed (18 R470, Table 18.9). -/
def Mod.coreFault (m : Mod) (ag : Agent) (kind addr : Nat) (st : Status) : Mod :=
  let m := m.raise 0x0E01 (d1 (coreId ag) ++ d8 addr ++ d1 kind ++ d1 st.toNat)
  if kind = 3 then m else m.emit (.exception ag (causeOf kind) addr)

/-- A core: its failed accesses are reported (18 R470). -/
def isCore : Agent → Bool
  | .ac _ | .rt _ | .tc _ _ => true
  | _ => false

/-- The store of an agent completes; a core's that fails after leaving the core raises 0x0E01 (18 R470). -/
def Mod.storeDone (m : Mod) (ag : Agent) (addr : Nat) (st : Status) : Mod :=
  (if st ≠ .ok ∧ isCore ag = true then m.coreFault ag 3 addr st else m).done st

/-- Agents that may access the register regions (01 R27). -/
def regAgent : Agent → Bool
  | .ac _ | .rt _ | .tc _ _ | .svc | .fabMgmt => true
  | _ => false

/-- Run an agent's write of the register at an address: the access rule of 01 R27 comes first (00 R485), then the register's own rule;
the write completes with its status (00 R486). -/
def Mod.byAgent (m : Mod) (ag : Agent) (addr : Nat) (f : Mod → Mod × Status) : Mod :=
  if regAgent ag then
    let (m, st) := f m
    m.storeDone ag addr st
  else m.storeDone ag addr .access

/-- An access outside the caches completes (18 R470): a failed one is a fault of the core, which a store's core does not see. What
another node answers to a read is cut to the bytes asked for. -/
def Mod.uncachedDone (m : Mod) (x : CoreAccess) (st : Status) (data : List Byte) : Mod :=
  let n := match x.op with
    | .read n => n
    | .write d => d.length
  let data := if n < data.length then (data.drop (if x.amo.isSome then 0 else x.addr % (if 64 ≤ data.length then 64 else 8))).take n else data
  if st = .ok then m.emit (.core x.ag .ok (if x.kind = 3 then [] else data))
  else
    let m := m.coreFault x.ag x.kind x.addr st
    if x.kind = 3 then m.emit (.core x.ag st []) else m

/-! ## Packets -/

/-- A packet that leaves this module: SRC its node ID, HOPS 32, SUB 0 (12 Table 12.2, R331). -/
def mkPacket (vc ty dst src tag : Nat) (status : Nat) (head body : List Byte) : Packet :=
  { vc := Fin.ofNat 8 vc, sub := false, ty := BitVec.ofNat 8 ty, dst := Fin.ofNat 16384 dst, ord := false, srcrt := false,
    src := Fin.ofNat 16384 src, tag := Fin.ofNat 65536 tag, len := BitVec.ofNat 8 (ceilDiv body.length 64), status := BitVec.ofNat 8 status,
    hops := 32, hint := 0, head := padTo 64 head, body := padTo (64 * ceilDiv body.length 64) body, reserved := false, coll := none }

/-- The classes (VC) of a TYPE (12 Table 12.3); none: not in the table. -/
def classesOf (ty : Nat) : List Nat :=
  if 0x01 ≤ ty ∧ ty ≤ 0x0A then [0]
  else if 0x10 ≤ ty ∧ ty ≤ 0x12 then [0]
  else if 0x13 ≤ ty ∧ ty ≤ 0x15 then [1]
  else if 0x16 ≤ ty ∧ ty ≤ 0x1A then [2]
  else if 0x1B ≤ ty ∧ ty ≤ 0x1D then [3]
  else if ty = 0x40 then [2]
  else if ty = 0x41 then [3]
  else if 0x60 ≤ ty ∧ ty ≤ 0x64 then [5]
  else if ty = 0x65 ∨ ty = 0x66 then [5, 4]
  else if ty = 0x67 then [5]
  else if ty = 0x70 then [4]
  else []

/-- Requests: each receives exactly one response (12 R336). -/
def isRequest (ty : Nat) : Bool := (0x01 ≤ ty && ty ≤ 0x0A) || ty == 0x60 || ty == 0x61

/-! ## Ports -/

def Mod.laneOf (m : Mod) (p : Nat) : Lane := nth m.lanes p {}
def Mod.modLane (m : Mod) (p : Nat) (f : Lane → Lane) : Mod := { m with lanes := modNth m.lanes p f }
def Mod.modFab (m : Mod) (f : Fab → Fab) : Mod := { m with fab := f m.fab }

/-- LANE_STATUS.STATE of a port (13 Table 13.11): 6 is ACTIVE. -/
def Mod.laneState (m : Mod) (p : Nat) : Nat := m.fld F.LANE_STATUS_STATE p

/-- A port in retry or retraining (13 R368, R371). -/
def Mod.portHeld (m : Mod) (p : Nat) : Bool :=
  m.fld F.LANE_STATUS_RETRAINING p == 1 || (m.laneState p == 6 && m.fld F.LANE_STATUS_RETRY p == 1)

/-- A port may be chosen but for its lane state: ROUTE_EN is 1 and no drain is in force (12 R329). -/
def Mod.portChosen (m : Mod) (p : Nat) : Bool := m.fld F.FAB_PORT_ROUTE_EN 0 p == 1 && !m.fab.draining.contains p

/-- 12 R329. -/
def Mod.portUsable (m : Mod) (p : Nat) : Bool := m.portChosen p && m.laneState p == 6 && m.fld F.LANE_STATUS_RETRY p == 0

/-- Flits of the shared pool of the partner's receiver in use (13 R369). -/
def Lane.shared (l : Lane) : Nat := (l.used.map (fun u => u - 64)).foldl (· + ·) 0

/-- Free credits for a VC and SUB (12 R329, 13 R369). -/
def Lane.freeCredits (l : Lane) (x : Nat) : Nat := (64 - nth l.used x 0) + (3328 - l.shared)

/-- The SUB a packet takes when it leaves through port `q` (12 R331). -/
def Mod.subAfter (m : Mod) (q : Nat) (inPort : Option Nat) (sub : Bool) : Bool :=
  if m.fld F.FAB_PORT_DATELINE 0 q = 1 then true
  else match inPort with
    | none => sub
    | some p => if m.fld F.FAB_PORT_DIM 0 q = m.fld F.FAB_PORT_DIM 0 p then sub else false

/-- Number `n` flits of a VC and SUB, put them into the replay buffer and spend their credits (13 R365, R366, R369). -/
def Lane.sendFlits (l : Lane) (x n : Nat) : Lane :=
  { l with txNext := (l.txNext + n) % 4096,
           replay := l.replay ++ (List.range n).map (fun i => ((l.txNext + i) % 4096, x)),
           used := modNth l.used x (· + n) }

/-- What a port's transmit queue has come to: its lane, what is still to send, VCs that wait, packets sent, flits sent. -/
structure Pump where
  lane : Lane
  kept : List (Packet × Nat) := []
  blocked : List Nat := []
  sent : List Packet := []
  flits : Nat := 0

/-- Send what credits and the replay buffer allow of one packet; packets of one VC follow one another (12 R327, 13 R366). -/
def Pump.next (a : Pump) (e : Packet × Nat) : Pump :=
  let (p, k) := e
  if a.blocked.contains p.vc.val then { a with kept := a.kept ++ [e] }
  else
    let left := 1 + p.len.toNat - k
    let n := min left (min (a.lane.freeCredits p.vcIdx) (4096 - a.lane.replay.length))
    let l := a.lane.sendFlits p.vcIdx n
    if n = left then { a with lane := l, sent := a.sent ++ [p], flits := a.flits + n }
    else { a with lane := l, kept := a.kept ++ [(p, k + n)], blocked := p.vc.val :: a.blocked, flits := a.flits + n }

/-- An ACTIVE port that is awake sends its queue (13 R366, R381). -/
def Mod.pump (m : Mod) (p : Nat) : Mod :=
  let l := m.laneOf p
  if l.txq.isEmpty ∨ m.laneState p ≠ 6 ∨ m.fld F.LANE_STATUS_TX_ASLEEP p = 1 then m
  else
    let a := l.txq.foldl Pump.next { lane := l }
    let m := m.modLane p (fun _ => { a.lane with txq := a.kept })
    let m := m.addFld F.LANE_COUNT_COUNT a.flits p 0
    a.sent.foldl (fun m x => m.emit (.packet p x)) m

/-- A packet takes a port. -/
def Mod.sendOn (m : Mod) (p : Nat) (x : Packet) : Mod := (m.modLane p (fun l => { l with txq := l.txq ++ [(x, 0)] })).pump p

/-- `n` flits of a VC and SUB leave a receiver's buffers: its TOTAL advances, and a BAR request behind them may be answered
(13 R369, 12 R335). -/
def Lane.freed (l : Lane) (x n : Nat) : Lane :=
  if n = 0 then l
  else
    let wait := l.barWait.map (fun w => modNth w x (· - n))
    let ready := wait.any (fun w => w.all (· == 0))
    { l with held := modNth l.held x (· - n), total := modNth l.total x (fun t => (t + n) % 4096),
             crdDue := if l.crdDue.contains x then l.crdDue else l.crdDue ++ [x],
             barWait := if ready then none else wait,
             barDue := if ready then l.barDue ++ [true] else l.barDue }

/-- The flits of a packet leave this receiver's buffers. -/
def Mod.freeFlits (m : Mod) (p : Nat) (x : Packet) : Mod :=
  m.modLane p (fun l => l.freed x.vcIdx (min (nth l.held x.vcIdx 0) (1 + x.len.toNat)))

/-! ## Routing -/

/-- What routing a packet comes to (12 R329, R330). -/
inductive Routed where
  | port (p : Nat)
  | wait
  | down
  | unroutable
  deriving DecidableEq, Repr

/-- Candidate ports of a route entry, in index order. -/
def Mod.candidates (m : Mod) (node : Nat) : List Nat :=
  [m.fld F.FAB_ROUTE_C0 0 node, m.fld F.FAB_ROUTE_C1 0 node, m.fld F.FAB_ROUTE_C2 0 node, m.fld F.FAB_ROUTE_C3 0 node].filter (· < 10)

/-- The port with the most free credits; ties go to the lower candidate index (12 R329). -/
def bestPort (free : Nat → Nat) : List Nat → Option Nat
  | [] => none
  | p :: ps =>
    match bestPort free ps with
    | none => some p
    | some q => if free p < free q then some q else some p

/-- The next hop's PATH_POS (12 R329). -/
def stepPath (p : Packet) : Packet := { p with head := splice p.head 0x37 [BitVec.ofNat 8 (p.pathPos + 255)] }

/-- Route a packet by PATH when it is source-routed, and by its DST otherwise (12 R329, R330). -/
def Mod.route (m : Mod) (inPort : Option Nat) (x : Packet) : Routed :=
  if x.srcrt then
    let q := x.pathEntry x.pathPos
    if m.laneState q = 6 ∧ m.fld F.LANE_STATUS_RETRY q = 0 then .port q else if m.portHeld q then .wait else .down
  else if m.fld F.FAB_ROUTE_VALID 0 x.dst.val = 0 then .unroutable
  else
    let cs := m.candidates x.dst.val
    let us := cs.filter m.portUsable
    let best := if x.ord then us.head?
      else bestPort (fun q => (m.laneOf q).freeCredits (x.vc.val * 2 + b2n (m.subAfter q inPort x.sub))) us
    match best with
    | some q => .port q
    | none => if cs.any (fun q => m.portChosen q && m.portHeld q) then .wait else .down

/-- A packet of this module that is no request: sent, or parked, or discarded (12 R330). -/
def Mod.sendPacket (m : Mod) (x : Packet) : Mod :=
  match m.route none x with
  | .port q => (m.addFld F.FAB_COUNT_COUNT 1 0 0).sendOn q { x with sub := m.subAfter q none x.sub }
  | .wait => m.modFab (fun f => { f with parked := f.parked ++ [(none, x)] })
  | _ => m.addFld F.FAB_COUNT_COUNT 1 0 5

/-- A response: RSP, or RSPD when `lines` (12 Table 12.3, R336). `src` is the node the request was addressed to. -/
def Mod.response (m : Mod) (src dst tag : Nat) (st : Status) (data : List Byte) (lines : Bool) : Mod :=
  m.sendPacket (mkPacket (if lines then 3 else 2) (if lines then 0x41 else 0x40) dst src tag st.toNat (data.take 64) (data.drop 64))

/-- A request that cannot go on is answered for its destination (12 R330, R350); any other packet is discarded and counted. -/
def Mod.undeliverable (m : Mod) (x : Packet) (st : Status) : Mod :=
  if isRequest x.ty.toNat then m.response x.dst.val x.src.val x.tag.val st [] false
  else m.addFld F.FAB_COUNT_COUNT 1 0 5

/-- Bit of a node in FAB_FENCE (12 R350). -/
def Mod.fenced (m : Mod) (n : Nat) : Bool := bit (m.fld F.FAB_FENCE_FENCED 0 (n / 64)) (n % 64)

def Mod.setFence (m : Mod) (n : Nat) (b : Bool) : Mod :=
  m.setFld F.FAB_FENCE_FENCED (putBits (m.fld F.FAB_FENCE_FENCED 0 (n / 64)) (n % 64) 1 (b2n b)) 0 (n / 64)

/-- A packet of another node goes on through this hub (12 R328-R331); HOPS is already decremented. -/
def Mod.passOn (m : Mod) (inPort : Option Nat) (x : Packet) : Mod :=
  let gone := fun (m : Mod) => match inPort with
    | some p => m.freeFlits p x
    | none => m
  if isRequest x.ty.toNat && m.fenced x.dst.val then (gone m).undeliverable x .nodeLost
  else
    match m.route inPort x with
    | .port q => ((gone m).addFld F.FAB_COUNT_COUNT 1 0 2).sendOn q { x with sub := m.subAfter q inPort x.sub }
    | .wait => m.modFab (fun f => { f with parked := f.parked ++ [(inPort, x)] })
    | .down => (gone m).undeliverable x .linkDown
    | .unroutable => (gone m).undeliverable x .nodeLost

/-! ## The global request table (12 R345-R348) -/

def Mod.grtUsed (m : Mod) : Nat := m.fab.grt.length

/-- The lowest number that a list does not hold. -/
def lowestFree (used : List Nat) : Nat := ((List.range (used.length + 1)).find? (fun i => !used.contains i)).getD 0

/-- Earlier ORD requests to a node are still open, and their port is not the one a new request would take; or some are held (12 R334). -/
def Mod.ordHeld (m : Mod) (node : Nat) (entries : List GrtEntry) : Bool :=
  let open_ := entries.filter (fun e => e.ord && e.node == node && !e.quarantined)
  let first := ((m.candidates node).filter m.portUsable).head?
  open_.any (fun e => e.held || (e.port.isSome && e.port != first))

/-- A packet of this module leaves through a port (12 R329, R331). -/
def Mod.launch (m : Mod) (q : Nat) (p : Packet) : Mod :=
  let p := { p with sub := m.subAfter q none p.sub }
  (m.addFld F.FAB_COUNT_COUNT 1 0 0).sendOn q (if p.srcrt then stepPath p else p)

/-- Issue a request of a local agent to another node (12 R321, R330, R334, R345). A fence refuses it, unless it is a source-routed packet
of the manager (R352). -/
def Mod.issue (m : Mod) (src : Src) (node : Nat) (p : Packet) (mgmt : Bool) : Mod :=
  if m.fld F.FAB_ROLE_STATE ≠ 2 ∨ (m.fenced node && !p.srcrt) = true then m.emit (.compl src .nodeLost [])
  else if (if mgmt then 65536 else 65280) ≤ m.grtUsed then
    let m := m.modFab (fun f => { f with stalled := f.stalled ++ [(src, node, p, mgmt)] })
    if m.fab.fullSeen then m
    else (m.modFab (fun f => { f with fullSeen := true })).raise 0x0807
      (dCount m.grtUsed ++ dCount (m.fab.grt.filter (·.quarantined)).length)
  else
    let idx := lowestFree (m.fab.grt.map (·.idx))
    let p := { p with tag := Fin.ofNat 65536 idx }
    let e : GrtEntry := { idx := idx, src := src, node := node, port := none, ord := p.ord, quarantined := false, waiting := some p, held := false }
    let add := fun (m : Mod) (e : GrtEntry) => m.modFab (fun f => { f with grt := f.grt ++ [e] })
    if p.ord && m.ordHeld node m.fab.grt then add m { e with held := true }
    else
      match m.route none p with
      | .port q => (add m { e with port := some q, waiting := none }).launch q p
      | .wait => add m e
      | .down => m.emit (.compl src .linkDown [])
      | .unroutable => m.emit (.compl src .nodeLost [])

/-- An open entry completes without its response: it is quarantined (12 R347, R348). -/
def Mod.failEntry (m : Mod) (idx : Nat) (st : Status) : Mod :=
  match m.fab.grt.find? (fun e => e.idx == idx && !e.quarantined) with
  | none => m
  | some e =>
    let m := m.modFab (fun f => { f with grt := f.grt.map (fun x => if x.idx = idx then { x with quarantined := true, waiting := none, held := false } else x) })
    let m := if st = .timeout then m.addFld F.FAB_COUNT_COUNT 1 0 6 else if st = .nodeLost then m.addFld F.FAB_COUNT_COUNT 1 0 7 else m
    m.emit (.compl e.src st [])

/-- Every open entry that a condition names completes with a status. -/
def Mod.failEntries (m : Mod) (c : GrtEntry → Bool) (st : Status) : Mod :=
  (m.fab.grt.filter (fun e => c e && !e.quarantined)).foldl (fun m e => m.failEntry e.idx st) m

/-- An entry that took no port yet tries again (12 R330, R334). -/
def Mod.retryEntry (m : Mod) (e : GrtEntry) : Mod :=
  match e.waiting with
  | none => m
  | some p =>
    let before := m.fab.grt.takeWhile (fun x => x.idx != e.idx)
    if e.held && before.any (fun x => x.ord && x.node == e.node && !x.quarantined && (x.held || x.waiting.isSome || x.port.isSome)) then m
    else
      let upd := fun (m : Mod) (q : Option Nat) =>
        m.modFab (fun f => { f with grt := f.grt.map (fun x => if x.idx = e.idx then { x with port := q, held := false, waiting := if q.isSome then none else x.waiting } else x) })
      match m.route none p with
      | .port q => (upd m (some q)).launch q p
      | .wait => upd m none
      | .down => m.failEntry e.idx .linkDown
      | .unroutable => m.failEntry e.idx .nodeLost

/-- Whatever waits in the fabric engine tries again: requests without a port, parked packets, stalled requests. -/
def Mod.retryFabric (m : Mod) : Mod :=
  let m := (m.fab.grt.filter (fun e => e.waiting.isSome)).foldl (fun m e => m.retryEntry e) m
  let ps := m.fab.parked
  let m := ps.foldl (fun m e => match e.1 with
    | some _ => m.passOn e.1 e.2
    | none => m.sendPacket e.2) (m.modFab (fun f => { f with parked := [] }))
  let m := if m.grtUsed < 65280 then m.modFab (fun f => { f with fullSeen := false }) else m
  let ss := m.fab.stalled
  ss.foldl (fun m s => m.issue s.1 s.2.1 s.2.2.1 s.2.2.2) (m.modFab (fun f => { f with stalled := [] }))

/-! ## Completions that leave the module or reach its units -/

/-- A line of coherence traffic as a packet (12 Table 12.3 types 0x10-0x1D in their order). -/
def cohType : MsgKind → Nat
  | .rdS => 0x10 | .rdX => 0x11 | .upg => 0x12 | .recallS => 0x13 | .recallI => 0x14 | .inv => 0x15 | .invAck => 0x16
  | .recallAck _ => 0x17 | .wbPend => 0x18 | .wbAck => 0x19 | .grantM => 0x1A | .data => 0x1B | .recallData => 0x1C
  | .wbData => 0x1D | _ => 0

/-- One output on its way: a completion of another node's request becomes its response (12 R336), a coherence message or a record
for the manager becomes a packet, a completion for an operation is noted for its sequencer, one for the bulk data port is noted for the
service endpoint, and one for a core ends its access. -/
def Mod.route1 (m : Mod) (o : Out) : Mod :=
  match o with
  | .compl (.fabric node grt _) st data => m.response (m.fld F.FAB_NODE_ID) node.val grt.val st data (decide (32 < data.length))
  | .compl (.op q seq slot) st data => { m.emit o with opDone := m.opDone ++ [(q.val, seq, slot, st, data)] }
  | .compl (.manager node use) st data =>
    { m.emit o with fab := { m.fab with managed := m.fab.managed ++ [(node.val, use.val, st, data)] } }
  | .compl (.bcast _) _ _ => m
  | .compl (.adder _) st data => { m.emit o with fab := { m.fab with addDone := some (st, data) } }
  | .compl (.agent ag) st data =>
    match m.uncached.find? (fun x => x.ag == ag) with
    | none =>
      let m := m.emit o
      if ag = .svc then { m with svcRun := m.svcRun.map (fun r => { r with got := some (st, data) }) } else m
    | some x =>
      let m := { m with uncached := m.uncached.eraseP (fun x => x.ag == ag) }
      m.uncachedDone x st data
  | .coh mem k line data _ _ =>
    let m := m.emit o
    let dst := m.fld F.FAB_NODE_ID / 64 * 64 + mem
    let ty := cohType k
    m.sendPacket (mkPacket ((classesOf ty).headD 0) ty dst (m.fld F.FAB_NODE_ID) 0 0 (toBytes 8 (line % 2 ^ 48)) data)
  | .toManager node r => m.sendPacket (mkPacket 5 0x67 node (m.fld F.FAB_NODE_ID) 0 0 [] r.bytes)
  | o => m.emit o

/-- A running collective learns that a member is fenced, or that its own path to one is down (06 R198). -/
def Mod.collLosses (m : Mod) : Mod :=
  let bad := fun (c : Coll) =>
    let others := c.members.filter (fun n => n != m.fld F.FAB_NODE_ID)
    if others.any m.fenced then some Status.nodeLost
    else if others.any (fun n => match m.route none (mkPacket 0 0x0A n (m.fld F.FAB_NODE_ID) 0 0 [] []) with
      | .down | .unroutable => true
      | _ => false) then some .linkDown else none
  (List.range 4).foldl (fun m q => (nth m.ctxs q {}).ops.foldl (fun m (op : ROp) =>
    match op.coll.bind (fun c => if c.marked then none else bad c) with
    | none => m
    | some st =>
      { m with opDone := m.opDone ++ [(q, op.seq, 7, st, [])],
               ctxs := modNth m.ctxs q (fun c => { c with ops := c.ops.map (fun o =>
                 if o.seq = op.seq then { o with coll := o.coll.map (fun c => { c with marked := true }) } else o) }) }) m) m

/-- The end of a command that may complete requests: its outputs go where they belong, and what waits in the fabric tries again. -/
def Mod.finish (m : Mod) : Mod :=
  let m := m.retryFabric
  let m := ((List.range 10).foldl (fun m p => m.pump p) m).collLosses
  m.out.foldl (fun m o => m.route1 o) { m with out := [] }


end Sys2Proof.Machine
end

