-- ==== Sys2Proof/Machine/Sram.lean ====
section
/-! DEFINITION. On-chip memory (08): ports, parity, aliases, bank power states, march tests, spares and their registers. -/

namespace Sys2Proof.Machine

open Sys2Proof

/-! ## Shared operations -/

/-- The pieces (start, length) of the bytes [a, a + n), cut at 64-byte blocks, in address order. -/
def blocksOf (a n : Nat) : List (Nat × Nat) :=
  if n = 0 then [] else
  (List.range ((a + n - 1) / 64 - a / 64 + 1)).map (fun i =>
    let s := max a ((a / 64 + i) * 64)
    (s, min (a + n) ((a / 64 + i + 1) * 64) - s))

def Mod.sramOf (m : Mod) (arr : Nat) : Sram := nth m.sram arr {}

def Mod.modSram (m : Mod) (arr : Nat) (f : Sram → Sram) : Mod := { m with sram := modNth m.sram arr f }

def opLen : MemOp → Nat
  | .read n => n
  | .write d => d.length

def isWrite : MemOp → Bool
  | .read _ => false
  | .write _ => true

/-- The die port of an array is in Slate (14 D2D_STATUS.STATE = SLATE): accesses from outside the die are fenced. -/
def Mod.portSlate (m : Mod) (port : Nat) : Bool := m.fld F.D2D_STATUS_STATE port == 3

/-- An agent reaches an array without its die port: the hub buffer, a core of the same die, or the die's own march engine. -/
def ownDie (ag : Agent) (arr : Nat) : Bool :=
  match ag with
  | .tc d _ => d.val == arr
  | .march => true
  | _ => arr == 16

/-- A parity error at window offset `off` (08 R232): counted and logged; on the Y port also event 0x0401. -/
def Mod.parityError (m : Mod) (arr off : Nat) (yport : Option Agent) : Mod :=
  let m := m.satFld F.ERR_COUNT_PARITY 1 arr
  let m := m.setFld F.PARITY_LOG_OFFSET off arr
  let m := m.setFld F.PARITY_LOG_PORT (b2n yport.isSome) arr
  let m := m.setFld F.PARITY_LOG_VALID 1 arr
  match yport with
  | none => m
  | some ag => m.raise 0x0401 (d8 (sramBase arr + off) ++ d1 (agentCode ag))

/-- Read one piece of a block (08 R232, R236). -/
def Mod.sramReadPiece (m : Mod) (yport : Option Agent) (arr off n : Nat) : Mod × Status × List Byte :=
  let (m, st) := m.meetBank arr (bankOf arr off)
  if st = 2 then let (m, b) := m.drawBytes n; (m, .bankOff, b)
  else if st = 3 then let (m, b) := m.drawBytes n; (m, .bankUnderTest, b)
  else
    let a := sramBase arr + off
    let data := m.mem.readAt a n
    match (List.range n).find? (fun i => m.mem.parityBad (a + i)) with
    | some i => (m.parityError arr (off + i) yport, .dataLost, data)
    | none => (m, .ok, data)

/-- Write one piece of a block (08 R231, R236). -/
def Mod.sramWritePiece (m : Mod) (arr off : Nat) (data : List (Option Byte)) : Mod × Status :=
  let (m, st) := m.meetBank arr (bankOf arr off)
  if st = 2 then (m, .bankOff)
  else if st = 3 then (m, .bankUnderTest)
  else ({ m with mem := m.mem.writeAt (sramBase arr + off) data }, .ok)

/-- An access on a port of an array, block by block; the status is that of the first failing block (08 R236). -/
def Mod.sramAccess (m : Mod) (yport : Option Agent) (arr off : Nat) : MemOp → Mod × Status × List Byte
  | .read n =>
    (blocksOf off n).foldl (fun (acc : Mod × Status × List Byte) p =>
      let (m, st, d) := acc.1.sramReadPiece yport arr p.1 p.2
      (m, firstBad acc.2.1 st, acc.2.2 ++ d)) (m, .ok, [])
  | .write data =>
    let r := (blocksOf off data.length).foldl (fun (acc : Mod × Status) p =>
      let (m, st) := acc.1.sramWritePiece arr p.1 ((data.drop (p.1 - off)).take p.2)
      (m, firstBad acc.2 st)) (m, .ok)
    (r.1, r.2, [])

/-- Sub-bank of a window offset (08 R225). -/
def subOf (arr off : Nat) : Nat := wordOf arr off % 2

/-- The new value of an atomic's quantity (06 Table 06.15, R199; 08 R233). -/
def atomResult (op : AtomOp) (old : Nat) : Nat :=
  match op.fn with
  | .add => (old + op.operand.toNat) % 2 ^ 64
  | .swap => op.operand.toNat
  | .cas => if old = op.compare.toNat then op.operand.toNat else old
  | .set => old ||| op.operand.toNat
  | .clear => old &&& (2 ^ 64 - 1 - op.operand.toNat)

/-- A Y access that no S access meets: a read, a write, or an 8-byte update in place, which a parity error of the quantity ends with
nothing written (08 R234, R235). -/
def Mod.yPerform (m : Mod) (ag : Agent) (arr off : Nat) (op : MemOp) (atom : Option AtomOp) : Mod × Status × List Byte :=
  match atom with
  | none => m.sramAccess (some ag) arr off op
  | some x =>
    match m.sramAccess (some ag) arr off (.read 8) with
    | (m, .ok, old) =>
      let (m, st, _) := m.sramAccess (some ag) arr off (.write ((toBytes 8 (atomResult x (ofBytes old))).map some))
      (m, st, old)
    | r => r

/-- The lines that a hinted write has written wait for their Push (11 R303, R304). -/
def Mod.hinted (m : Mod) (a n : Nat) (st : Status) (hint : Option Nat) : Mod :=
  match hint with
  | some t => if st = .ok then { m with pushDue := m.pushDue ++ (blocksOf a n).map (fun p => (p.1 / 64 * 64, t)) } else m
  | none => m

/-- A waiting Y access is performed, and its requester gets its completion. -/
def Mod.yServe (m : Mod) (arr : Nat) (w : YWait) : Mod :=
  let (m, st, d) := m.yPerform w.ag arr w.off w.op w.atom
  (m.hinted (sramBase arr + w.off) (opLen w.op) st w.hint).emit (.compl w.src st (if w.quiet then [] else d))

/-- Waiting Y accesses of an array, performed in the order they reached their sub-banks (08 R229). -/
def Mod.drainY (m : Mod) (arr : Nat) : Mod :=
  let ws := (m.sramOf arr).ywait
  if ws.isEmpty then m else ws.foldl (fun m w => m.yServe arr w) (m.modSram arr (fun a => { a with ywait := [] }))

/-- An access that the hub's own mechanisms make on the Y port: earlier waiting ones of the array are performed first (08 R229). -/
def Mod.yAccess (m : Mod) (ag : Agent) (arr off : Nat) (op : MemOp) : Mod × Status × List Byte :=
  (m.drainY arr).sramAccess (some ag) arr off op

/-- A Y access touches the sub-bank that window offset `off` lies in. -/
def YWait.on (w : YWait) (arr off : Nat) : Bool :=
  (blocksOf w.off (opLen w.op)).any (fun p => bankOf arr p.1 == bankOf arr off && subOf arr p.1 == subOf arr off)

/-- Y accesses wait for a sub-bank of the bytes [off, off + n): a new one goes behind them (08 R229). -/
def Mod.yBehind (m : Mod) (arr off n : Nat) : Bool := (blocksOf off n).any (fun p => (m.sramOf arr).ywait.any (fun w => w.on arr p.1))

/-- The block at window offset `off` is word `word` of bank `bank`. -/
def isWord (arr off bank word : Nat) : Bool := bankOf arr off == bank && wordOf arr off == word

/-- A waiting Y write of a word that the S port writes in bytes [off, off + n) is discarded whole (08 R228, R230). -/
def YWait.lostTo (w : YWait) (arr off n : Nat) : Bool :=
  isWrite w.op && w.atom.isNone && (blocksOf w.off (opLen w.op)).any (fun p =>
    (blocksOf off n).any (fun q => isWord arr p.1 (bankOf arr q.1) (wordOf arr q.1)))

/-- An access of the S port's user (03 R68, 08 R226): a write discards the Y writes of its words that wait (08 R228, R230). -/
def Mod.sAccess (m : Mod) (arr off : Nat) (op : MemOp) : Mod × Status × List Byte :=
  let lost := if isWrite op then (m.sramOf arr).ywait.filter (fun w => w.lostTo arr off (opLen op)) else []
  let (m, st, d) := m.sramAccess none arr off op
  if lost.isEmpty ∨ st ≠ .ok then (m, st, d)
  else
    let m := m.modSram arr (fun a => { a with ywait := a.ywait.filter (fun w => !w.lostTo arr off (opLen op)) })
    (lost.foldl (fun m w => (m.satFld F.ERR_COUNT_WRITE_LOST 1 arr).emit (.compl w.src .writeLost [])) m, st, d)

/-- The word a protected range's block lies in is in bank `b`: some block of [START, LAST] maps to it (08 R244, R225). -/
def protCovers (arr start last b : Nat) : Bool :=
  let n := bankCount arr
  decide (start + (b + n - start % n) % n ≤ last)

/-- A bank holds a byte of a valid protected range (08 R244). -/
def Mod.bankProtected (m : Mod) (arr b : Nat) : Bool :=
  (List.range 16).any (fun j => m.fld F.PROT_VALID arr j == 1 &&
    protCovers arr (m.fld F.PROT_START arr j) (m.fld F.PROT_LAST arr j) b)

def bankRange (first last : Nat) : List Nat := (List.range (last + 1 - first)).map (· + first)

/-- A march test runs on a bank. -/
def Mod.marchOn (m : Mod) (arr b : Nat) : Bool :=
  match (m.sramOf arr).march with
  | some t => t.first ≤ b && b ≤ t.last
  | none => false

/-- Command one bank to a state (08 R237, Table 08.4): transitions with a wake end at BANK_WAKE_COMPLETE; OFF loses contents. An EVICT
can meet a bank whose wake is still open, where the spec is silent: the older wake stays beside the new one (DESIGN CHOICE, log 175). -/
def Mod.commandBank (m : Mod) (arr b target : Nat) : Mod :=
  let st := m.bankState arr b
  if st = target ∨ (st = 2 ∧ target = 1) then m
  else if target = 2 then (m.setBankState arr b 2).lose (arr * 1024 + b)
  else if st = 2 ∨ (st = 1 ∧ (target = 0 ∨ target = 3)) then
    m.modSram arr (fun a => { a with wakes := a.wakes ++ [(b, target)] })
  else m.setBankState arr b target

/-- BANK_STATUS.BUSY is 1 while a wake of a bank command is open (08 R239). -/
def Mod.setBankBusy (m : Mod) (arr : Nat) : Mod :=
  m.setFld F.BANK_STATUS_BUSY (b2n (!(m.sramOf arr).wakes.isEmpty)) arr

/-- Refusals of a BANK_CMD write, in the order of 08 R239 (R485). -/
def Mod.bankCmdStatus (m : Mod) (arr first last target : Nat) : Status :=
  if last < first ∨ bankCount arr ≤ last then .range
  else if !(m.sramOf arr).wakes.isEmpty || (bankRange first last).any (m.marchOn arr) ||
      (arr < 16 && m.state == .parked) then .busy
  else if 2 ≤ target && (bankRange first last).any (m.bankProtected arr) then .access
  else .ok

/-- A write of BANK_CMD (08 R237, R239). The spec fixes only a bank-cycle boundary: Y accesses of the array that wait are performed before
it, in the old state (DESIGN CHOICE, log 176). -/
def Mod.bankCmd (m : Mod) (arr first last target : Nat) : Mod × Status :=
  let st := m.bankCmdStatus arr first last target
  let m := m.setFld F.BANK_STATUS_RESULT st.toNat arr
  if st = .ok then
    (((bankRange first last).foldl (fun m b => m.commandBank arr b target) (m.drainY arr)).setBankBusy arr, st)
  else (m, st)

/-- A wake ends: the bank's new state takes effect (08 R237). -/
def Mod.bankWake (m : Mod) (arr b : Nat) : Mod :=
  match (m.sramOf arr).wakes.find? (fun w => w.1 == b) with
  | none => m
  | some (_, t) =>
    let m := m.modSram arr (fun a => { a with wakes := a.wakes.filter (fun w => w.1 != b) })
    (m.setBankState arr b t).setBankBusy arr

/-! ## March tests -/

/-- Die number in on-chip memory events: 0-15 ECDn, 16 the hub's buffer. -/
def marchDie (arr : Nat) : Nat := arr

/-- Spare words mapped in the sub-bank of a word (08 R247). -/
def Mod.sparesUsed (m : Mod) (arr bank word : Nat) : Nat :=
  ((m.sramOf arr).spares.filter (fun s => s.1 == bank && s.2 % 2 == word % 2)).length

/-- The contents of a word, data and parity, become undefined (08 R238, R247). -/
def Mod.looseWord (m : Mod) (arr bank word : Nat) : Mod :=
  let e := m.fresh
  let (m, d) := m.drawBytes 64
  { m with mem := m.mem.looseAt (sramBase arr + wordOff arr bank word) e d }

/-- Map a word to the next free spare of its sub-bank (08 R247); none free: no change. -/
def Mod.addSpare (m : Mod) (arr bank word : Nat) : Mod × Bool :=
  if 8 ≤ m.sparesUsed arr bank word then (m, false)
  else
    let m := m.modSram arr (fun a => { a with spares := a.spares ++ [(bank, word)] })
    (m.looseWord arr bank word, true)

/-- A failing read of a march test (08 R245): counted; the first one sets FAIL, fills MARCH_FAIL and raises 0x0403; with REPAIR a
spare is taken, or 0x0404 raised. -/
def Mod.marchFail (m : Mod) (arr : Nat) (repair parity : Bool) (f : MarchFail) : Mod :=
  let m := m.satFld F.MARCH_STATUS_FAIL_COUNT 1 arr
  let m :=
    if m.fld F.MARCH_FAIL_VALID arr = 1 then m
    else
      let m := m.setFld F.MARCH_STATUS_FAIL 1 arr
      let m := m.setFld F.MARCH_FAIL_BANK f.bank.val arr
      let m := m.setFld F.MARCH_FAIL_WORD f.word.val arr
      let m := m.setFld F.MARCH_FAIL_BIT f.bit.val arr
      let m := m.setFld F.MARCH_FAIL_PARITY (b2n parity) arr
      let m := m.setFld F.MARCH_FAIL_VALID 1 arr
      m.raise 0x0403 (d1 (marchDie arr) ++ d1 f.bank.val ++ d2 f.word.val ++ d2 f.bit.val)
  if repair then
    let (m, ok) := m.addSpare arr f.bank.val f.word.val
    if ok then m
    else m.raise 0x0404 (d1 (marchDie arr) ++ d1 f.bank.val ++ d1 (f.word.val % 2) ++ d2 f.word.val)
  else m

/-- Status of a MARCH_CMD that starts a test (08 R241, R242, R246, Table 08.7). -/
def Mod.marchStatus (m : Mod) (arr first last : Nat) (preserving : Bool) : Status :=
  if last < first ∨ bankCount arr ≤ last then .range
  else if (m.sramOf arr).march.isSome || !(m.sramOf arr).wakes.isEmpty then .busy
  else if preserving then
    (if (bankRange first last).all (fun b => m.bankState arr b ≤ 1) then .ok else .access)
  else if (bankRange first last).all (fun b => m.bankState arr b == 3) then .ok else .access

/-- Words of the range whose first preserving read meets bad parity that a write left there (08 R245), with the first failing bit of
each. -/
def Mod.parityFails (m : Mod) (arr first last : Nat) : List MarchFail :=
  (sortKeys m.mem.badPar).foldl (fun fs e =>
    match sramAt e.1 with
    | some (r, off) =>
      let f : MarchFail := { bank := Fin.ofNat 1024 (bankOf arr off), word := Fin.ofNat 65536 (wordOf arr off),
                             bit := Fin.ofNat 576 (512 + off % 64) }
      if r = arr ∧ first ≤ bankOf arr off ∧ bankOf arr off ≤ last ∧ fs.all (fun x => x.bank != f.bank || x.word != f.word) = true then fs ++ [f]
      else fs
    | none => fs) []

/-- A failure that a preserving test finds on the first read of a word: a parity error, which is counted and logged as on any Y-port read
(08 R232, R245). -/
def Mod.firstReadFail (m : Mod) (arr : Nat) (f : MarchFail) : Mod :=
  (m.parityError arr (wordOff arr f.bank.val f.word.val + (f.bit.val - 512)) (some .march)).marchFail arr false true f

/-- A failing bit of a preserving test is a parity bit of contents that the spec leaves undefined (08 R238): its first read fails. -/
def Mod.looseParity (m : Mod) (arr : Nat) (f : MarchFail) : Bool :=
  let a := sramBase arr + wordOff arr f.bank.val f.word.val + (f.bit.val - 512)
  decide (512 ≤ f.bit.val) && ((m.mem.freePar.get? a).isSome || ((Sparse.get? m.mem.cells a).isNone && match m.mem.fill (unitOf a) with
    | .free _ => true
    | _ => false))

/-- A write of MARCH_CMD that starts a test (08 R241, R242, R245). -/
def Mod.marchStart (m : Mod) (arr first last : Nat) (preserving repair : Bool) (fails : List MarchFail) : Mod × Status :=
  let st := m.marchStatus arr first last preserving
  let m := m.setFld F.MARCH_STATUS_RESULT st.toNat arr
  if st = .ok then
    let m := (bankRange first last).foldl (fun m b => if m.bankState arr b = 1 then m.setBankState arr b 0 else m) m
    let m := m.setFld F.MARCH_STATUS_BUSY 1 arr
    let m := m.setFld F.MARCH_STATUS_CANCELLED 0 arr
    let m := m.setFld F.MARCH_STATUS_FAIL_COUNT 0 arr
    let m := m.setFld F.MARCH_FAIL_VALID 0 arr
    let m := m.modSram arr (fun a => { a with march := some ⟨first, last, preserving, repair && !preserving, false⟩ })
    let m := if preserving then (m.parityFails arr first last).foldl (fun m f => m.firstReadFail arr f) m else m
    (fails.foldl (fun m f => if preserving && m.looseParity arr f then m.firstReadFail arr f
      else m.marchFail arr (repair && !preserving) false f) m, st)
  else (m, st)

/-- A write of MARCH_CMD.CANCEL = 1 (08 R246): the running test will end as cancelled. -/
def Mod.marchCancel (m : Mod) (arr : Nat) : Mod × Status :=
  let m := m.setFld F.MARCH_STATUS_RESULT Status.ok.toNat arr
  (m.modSram arr (fun a => { a with march := a.march.map (fun t => { t with cancelled := true }) }), .ok)

/-- The end of a test (08 R245, R246, R241): DONE, event 0x0402; a complete destructive march leaves every word 0, a cancelled one
undefined contents. -/
def Mod.marchEnd (m : Mod) (arr : Nat) (fails : List MarchFail) : Mod :=
  match (m.sramOf arr).march with
  | none => m
  | some t =>
    let m := fails.foldl (fun m f => if t.preserving && m.looseParity arr f then m.firstReadFail arr f else m.marchFail arr t.repair false f) m
    let m := m.modSram arr (fun a => { a with march := none })
    let m :=
      if t.preserving then m
      else (bankRange t.first t.last).foldl (fun m b =>
        if t.cancelled then m.lose (arr * 1024 + b)
        else { m with mem := m.mem.refill (arr * 1024 + b) .zero }) m
    let m := m.setFld F.MARCH_STATUS_BUSY 0 arr
    let m := m.setFld F.MARCH_STATUS_DONE 1 arr
    let m := m.setFld F.MARCH_STATUS_CANCELLED (b2n t.cancelled) arr
    m.raise 0x0402 (d1 (marchDie arr) ++ d1 (b2n t.preserving) ++ dCount (m.fld F.MARCH_STATUS_FAIL_COUNT arr) ++
      d1 (b2n t.cancelled))

/-- A write of SPARE_ADD (08 R247). -/
def Mod.spareAdd (m : Mod) (arr bank word : Nat) : Mod × Status :=
  let st :=
    if bankCount arr ≤ bank ∨ wordCount arr bank ≤ word then Status.range
    else if (m.sramOf arr).march.isSome then .busy
    else if 8 ≤ m.sparesUsed arr bank word then .access
    else .ok
  let m := m.setFld F.MARCH_STATUS_SPARE_RESULT st.toNat arr
  if st = .ok then ((m.addSpare arr bank word).1, st) else (m, st)

/-- Status of a write of PROTj (08 R244, Table 08.8). -/
def Mod.protStatus (m : Mod) (arr : Nat) (v : Nat) : Status :=
  let valid := bit v 0
  let start := bits v 6 25
  let last := bits v 32 25
  if !valid then .ok
  else if last < start ∨ sramSize arr / 64 ≤ start ∨ sramSize arr / 64 ≤ last then .access
  else if (List.range (bankCount arr)).any (fun b => protCovers arr start last b && m.bankState arr b == 3) then .busy
  else .ok

/-- A reset of the BUF_ or ECD_ block's on-chip memory (08 R249, Table 08.4): registers, wakes, test and spares go; every bank ON;
contents lost in banks that were OFF or under a destructive march, and in words that had spares. -/
def Mod.resetSram (m : Mod) (arr : Nat) : Mod :=
  let a := m.sramOf arr
  let m := (List.range (bankCount arr)).foldl (fun m b =>
    let destr := match a.march with
      | some t => !t.preserving && t.first ≤ b && b ≤ t.last
      | none => false
    if destr then m.lose (arr * 1024 + b) else m) m
  let m := a.spares.foldl (fun m s => m.looseWord arr s.1 s.2) m
  let m := a.ywait.foldl (fun m w => m.emit (.compl w.src .fenced [])) m
  (m.modSram arr (fun _ => {})).resetRange (Block.base .sram arr) (Block.base .sram arr + 0x200)

/-! ## What a command reaches -/

/-- A Y access reaches its array (08 R228, R229, R236; 14 Table 14.5). With the S access `s` of its bank cycle: when both write one word
the Y write is discarded whole; when they share a sub-bank, or others already wait for it, the Y access waits. A bank that is not
powered for accesses is met at once. -/
def Mod.yPortAccess (m : Mod) (ag : Agent) (arr off : Nat) (op : MemOp) (s : Option SPort) : Mod :=
  let n := opLen op
  if sramSize arr < off + n ∨ n = 0 then m.done .range
  else if arr < 16 && m.portSlate arr && !ownDie ag arr then m.done .fenced
  else
    let live := fun (b : Nat) => decide (m.bankState arr b ≤ 1)
    let at_ := fun (sp : SPort) (p : Nat × Nat) => bankOf arr p.1 == sp.bank.val && live sp.bank.val
    let lost := s.any (fun sp => sp.write.isSome && isWrite op && (blocksOf off n).any (fun p => at_ sp p && wordOf arr p.1 == sp.word.val))
    let met := s.any (fun sp => (blocksOf off n).any (fun p => at_ sp p && subOf arr p.1 == sp.word.val % 2))
    let m := match s.bind (fun sp => sp.write.map (fun d => (sp, d))) with
      | none => m
      | some (sp, d) => (m.sAccess arr (wordOff arr sp.bank.val sp.word.val) (.write ((padTo 64 d).map some))).1
    if lost then (m.satFld F.ERR_COUNT_WRITE_LOST 1 arr).done .writeLost
    else if met || m.yBehind arr off n then
      m.modSram arr (fun a => { a with ywait := a.ywait ++ [{ src := .agent ag, ag := ag, off := off, op := op }] })
    else
      let (m, st, d) := m.sramAccess (some ag) arr off op
      m.done st d

/-- The oldest waiting Y access of a sub-bank is performed in a free bank cycle (08 R229). -/
def Mod.yPerformed (m : Mod) (arr bank sub : Nat) : Mod :=
  let here := fun (w : YWait) => (blocksOf w.off (opLen w.op)).any (fun p => bankOf arr p.1 == bank && subOf arr p.1 == sub)
  match (m.sramOf arr).ywait.find? here with
  | none => m
  | some w => (m.modSram arr (fun a => { a with ywait := a.ywait.eraseP here })).yServe arr w

end Sys2Proof.Machine
end

