-- ==== Sys2Proof/Machine/Lpddr.lean ====
section
/-! DEFINITION. LPDDR (09) and its regulation (10): the mapping, the code and its decoder, pin marks, counts and the log, remap and
retirement, thermal steps and HOLD, Ochre, training, the class queues and the choice of the next request, reservations and
capacity. -/

namespace Sys2Proof.Machine

open Sys2Proof

/-! ## Mapping and code -/

/-- A place in a package: channel, bank, row and block within the row (09 R251). -/
structure LpLoc where
  ch : Nat
  bank : Nat
  row : Nat
  slot : Nat
  deriving DecidableEq, Repr

/-- 09 R251. -/
def lpMap (o : Nat) : LpLoc :=
  let blk := o / 64
  let u := blk / 28
  { ch := u % 4, bank := (u / 4) % 32, row := u / 128, slot := blk % 28 }

/-- Row unit of a channel, bank and row (09 R277). -/
def rowUnit (ch bank row : Nat) : Nat := (row * 32 + bank) * 4 + ch

/-- Blocks of a row unit: 28, or 24 in the last one of the window (09 R251). -/
def unitBlocks (u : Nat) : Nat := if u = 33254838 then 24 else if u < 33254838 then 28 else 0

/-- Multiplication in GF(2⁸) with x⁸ + x⁴ + x³ + x² + 1 (09 R253), over the eight bits of one factor. -/
def gfMul (a b : Nat) : Nat :=
  ((List.range 8).foldl (fun (s : Nat × Nat) i =>
    let acc := if bit b i then s.1 ^^^ s.2 else s.1
    let x2 := s.2 * 2
    (acc, if 256 ≤ x2 then x2 ^^^ 0x11D else x2)) (0, a)).1

/-- Coefficients of g(x) = (x − α⁰)…(x − α⁷), highest first (09 R253). -/
def rsGen : List Nat :=
  ((List.range 8).foldl (fun (s : List Nat × Nat) _ =>
    (List.zipWith (· ^^^ ·) (s.1 ++ [0]) (0 :: s.1.map (gfMul s.2)), gfMul s.2 2)) ([1], 1)).1

/-- The eight check symbols of 64 data symbols: the remainder modulo g(x), highest coefficient first (09 R253). -/
def rsCheck (data : List Nat) : List Nat :=
  data.foldl (fun r d =>
    let f := d ^^^ r.headD 0
    List.zipWith (· ^^^ ·) (r.drop 1 ++ [0]) ((rsGen.drop 1).map (gfMul f))) (List.replicate 8 0)

/-- Data symbol 16g + p of a block: bit i is the bit pin p carries in beat 8g + i (09 R252). -/
def dataSymbol (block : List Byte) (sym : Nat) : Nat :=
  let g := sym / 16
  let p := sym % 16
  (List.range 8).foldl (fun v i =>
    let b := (nth block (2 * (8 * g + i) + p / 8) 0).toNat
    v ||| ((bits b (p % 8) 1) <<< i)) 0

/-- The eight check symbols of a block (09 R252, R253). -/
def blockCheck (block : List Byte) : List Nat := rsCheck ((List.range 64).map (dataSymbol block))

/-- The symbols of a block in slot `slot` that a pin carries (09 R252). -/
def pinSyms (pin slot : Nat) : List Nat :=
  [pin, 16 + pin, 32 + pin, 48 + pin] ++
    (if pin / 8 = slot % 2 then [64 + pin % 8] else [])

/-- What a decode gives (09 R254): whether it succeeded, the corrections outside the channel's marked pin, and the pin it marks. -/
structure Decode where
  ok : Bool
  counted : List Nat
  mark : Option Nat
  deriving DecidableEq, Repr

/-- The decoder (09 R254, R255, R270): `errs` are the wrong symbols of the block in slot `slot`. -/
def decodeBlock (marked : Option Nat) (autoMark : Bool) (slot : Nat) (errs : List Nat) : Decode :=
  let outside := fun p => errs.filter (fun e => !(pinSyms p slot).contains e)
  match marked with
  | some p =>
    if (outside p).length ≤ 1 then ⟨true, outside p, none⟩ else ⟨false, [], none⟩
  | none =>
    if errs.length ≤ 4 then
      match (List.range 16).find? (fun p => 3 ≤ errs.length - (outside p).length) with
      | some p => if autoMark then ⟨true, outside p, some p⟩ else ⟨true, errs, none⟩
      | none => ⟨true, errs, none⟩
    else
      match (List.range 16).filter (fun p => (outside p).length ≤ 1) with
      | [p] => if autoMark then ⟨true, outside p, some p⟩ else ⟨true, errs, none⟩
      | _ => ⟨false, [], none⟩

/-! ## Controller state -/

def Mod.mcOf (m : Mod) (k : Nat) : Mc := nth m.mc k {}

def Mod.modMc (m : Mod) (k : Nat) (f : Mc → Mc) : Mod := { m with mc := modNth m.mc k f }

def Mod.pageRetired (m : Mod) (k page : Nat) : Bool :=
  (List.range 128).any (fun i => m.fld F.MC_RETIRE_VALID k i == 1 && m.fld F.MC_RETIRE_PAGE k i == page)

/-- MC_STATUS.RETIRE_USED (09 Table 09.9). -/
def Mod.retireUsed (m : Mod) (k : Nat) : Nat := ((List.range 128).filter (fun i => m.fld F.MC_RETIRE_VALID k i == 1)).length

/-- MC_STATUS.REMAP_USEDc (09 Table 09.9). -/
def Mod.remapUsed (m : Mod) (k c : Nat) : Nat :=
  ((List.range 256).filter (fun j => m.fld F.MC_REMAP_VALID k (256 * c + j) == 1)).length

/-- The package is in HOLD (09 R262, R264). -/
def Mod.inHold (m : Mod) (k : Nat) : Bool := m.fld F.MC_THERM_STEP k == 3

/-- Requests to the package wait: it is in HOLD, enabled and not failed (09 R264, R268, Table 09.9). -/
def Mod.holds (m : Mod) (k : Nat) : Bool := m.inHold k && m.fld F.MC_CTL_FAILED k == 0 && m.fld F.MC_CTL_ENABLE k == 1

/-- MC_STATUS.STATE (09 Table 09.9). -/
def Mod.mcState (m : Mod) (k : Nat) : Nat :=
  if m.fld F.MC_CTL_FAILED k = 1 then 4
  else if m.fld F.MC_CTL_ENABLE k = 0 then 0
  else if m.inHold k then 3
  else if (m.mcOf k).selfRefresh then 2
  else 1

/-- 2 MiB pages of the window that hold a byte of a row's data (09 R277). -/
def rowPages (ch bank row : Nat) : List Nat :=
  let u := rowUnit ch bank row
  let p := u * 1792 / 0x200000
  let q := (u * 1792 + 64 * unitBlocks u - 1) / 0x200000
  if p = q then [p] else [p, q]

/-- A remap trigger (09 R274): ignored when every page of the row is retired; merged with a queued one; lost when 16 are queued. -/
def Mod.remapTrigger (m : Mod) (k ch bank row : Nat) : Mod :=
  if (rowPages ch bank row).all (m.pageRetired k) then m
  else
    let q := (m.mcOf k).remaps
    if q.contains (ch, bank, row) || 16 ≤ q.length then m
    else m.modMc k (fun c => { c with remaps := c.remaps ++ [(ch, bank, row)] })

/-- The remap entry of a row. -/
def Mod.remapEntry (m : Mod) (k ch bank row : Nat) : Option Nat :=
  (List.range 256).find? (fun j => m.fld F.MC_REMAP_VALID k (256 * ch + j) == 1 &&
    m.fld F.MC_REMAP_BANK k (256 * ch + j) == bank && m.fld F.MC_REMAP_ROW k (256 * ch + j) == row)

def Mod.markedPin (m : Mod) (k c : Nat) : Option Nat :=
  if m.fld F.MC_PIN_MARK_VALID k c = 1 then some (m.fld F.MC_PIN_MARK_PIN k c) else none

/-- Hardware marks a pin (09 R255). -/
def Mod.markPin (m : Mod) (k c pin : Nat) : Mod :=
  let m := m.setFld F.MC_PIN_MARK_PIN pin k c
  let m := m.setFld F.MC_PIN_MARK_VALID 1 k c
  let m := m.setFld F.MC_PIN_MARK_AUTO 1 k c
  m.raise 0x0508 (d1 (4 * k + c) ++ d1 pin)

/-- The log entry of a row (09 R271). -/
def Mod.logFind (m : Mod) (k : Nat) (l : LpLoc) : Option Nat :=
  (List.range 16).find? (fun i => m.fld F.MC_LOG_VALID k i == 1 && m.fld F.MC_LOG_CH k i == l.ch &&
    m.fld F.MC_LOG_BANK k i == l.bank && m.fld F.MC_LOG_ROW k i == l.row)

def minOf (l : List Nat) : Nat := l.foldl min (l.headD 0)

/-- A counted correction meets the log (09 R271) and may trigger a remap (R274). While entries have never been hit, the spec does not say
which is the least recently hit: the one with the lowest number is taken (DESIGN CHOICE, log 177). -/
def Mod.logCorrection (m : Mod) (k : Nat) (l : LpLoc) (syms : List Nat) : Mod :=
  let hit := fun (m : Mod) (i : Nat) => m.modMc k (fun c => { c with logOrder := c.logOrder.filter (· != i) ++ [i] })
  match m.logFind k l with
  | some i =>
    let young := m.fld F.MC_LOG_AGE k i < 1440
    let other := syms.any (· != m.fld F.MC_LOG_SYM k i)
    let m := m.satFld F.MC_LOG_HITS 1 k i
    let m := if young then m else m.setFld F.MC_LOG_AGE 0 k i
    let m := if other then m.setFld F.MC_LOG_SECOND 1 k i else m
    let m := hit m i
    if young && other then m.remapTrigger k l.ch l.bank l.row else m
  | none =>
    let i := (m.mcOf k).logOrder.headD 0
    let m := m.setFld F.MC_LOG_CH l.ch k i
    let m := m.setFld F.MC_LOG_BANK l.bank k i
    let m := m.setFld F.MC_LOG_ROW l.row k i
    let m := m.setFld F.MC_LOG_SYM (minOf syms) k i
    let m := m.setFld F.MC_LOG_SECOND (b2n (decide (2 ≤ syms.length))) k i
    let m := m.setFld F.MC_LOG_HITS 1 k i
    let m := m.setFld F.MC_LOG_AGE 0 k i
    let m := m.setFld F.MC_LOG_VALID 1 k i
    hit m i

/-- An uncorrectable decode is counted and reported (09 R273). -/
def Mod.uncorrectable (m : Mod) (k : Nat) (l : LpLoc) (addr requester : Nat) : Mod :=
  (m.satFld F.MC_COUNT_UE 1 k l.ch).raise 0x0501 (d8 addr ++ d1 (4 * k + l.ch) ++ d1 l.bank ++ d4 l.row ++ d1 requester)

/-- Decode one block that is read (09 R254, R255, R270-R274): marks, counts, log, triggers. Answers whether it decoded. -/
def Mod.decodeRead (m : Mod) (k o : Nat) (errs : List Nat) (requester : Nat) : Mod × Bool :=
  let l := lpMap o
  let d := decodeBlock (m.markedPin k l.ch) (m.fld F.MC_CTL_AUTO_MARK k == 1) l.slot errs
  let m := match d.mark with
    | some p => m.markPin k l.ch p
    | none => m
  if d.ok then
    if d.counted.isEmpty then (m, true)
    else
      let m := m.satFld F.MC_COUNT_CE 1 k l.ch
      let m := m.logCorrection k l d.counted
      (if 2 ≤ d.counted.length then m.remapTrigger k l.ch l.bank l.row else m, true)
  else
    let m := m.uncorrectable k l (k * 0x1000000000 + o) requester
    (m.remapTrigger k l.ch l.bank l.row, false)

/-- Wrong symbols of the block at a local address. -/
def Mem.wrongAt (x : Mem) (a : Nat) : List Nat := (x.wrong.get? (a / 64 * 64)).getD []

/-- Wrong symbols that a command finds in blocks: they stay until the blocks are written (log 178). -/
def Mod.noteErrs (m : Mod) (errs : List BlockErr) : Mod :=
  errs.foldl (fun m e => { m with mem := { m.mem with wrong := m.mem.wrong.set (e.addr / 64 * 64) (e.syms.map Fin.val).eraseDups } }) m

/-! ## One request at its package -/

/-- Read a piece of one block (09 R257, R273; retired pages R277). -/
def Mod.lpReadPiece (m : Mod) (k o n : Nat) (requester : Nat) : Mod × Status × List Byte :=
  let a := k * 0x1000000000 + o
  if m.pageRetired k (o / 0x200000) then let (m, b) := m.drawBytes n; (m, .retired, b)
  else if (m.mem.poison.get? (a / 64 * 64)).isSome then (m, .uncorrectable, m.mem.readAt a n)
  else
    let (m, ok) := m.decodeRead k o (m.mem.wrongAt a) requester
    if ok then (m, .ok, m.mem.readAt a n)
    else let (m, b) := m.drawBytes n; (m, .uncorrectable, b)

/-- Write a piece of one block (09 R257): a whole block replaces stored poison; a part of an uncorrectable block leaves poison. What is
written holds no wrong symbol. -/
def Mod.lpWritePiece (m : Mod) (k o : Nat) (data : List (Option Byte)) (requester : Nat) : Mod × Status :=
  let a := k * 0x1000000000 + o
  let blk := a / 64 * 64
  let put := fun (m : Mod) (x : Mem) => { m with mem := { x.writeAt a data with wrong := x.wrong.del blk } }
  if m.pageRetired k (o / 0x200000) then (m, .retired)
  else if data.all Option.isNone then (m, .ok)
  else if data.length = 64 ∧ data.all Option.isSome then (put m { m.mem with poison := m.mem.poison.del blk }, .ok)
  else if (m.mem.poison.get? blk).isSome then (put m m.mem, .uncorrectable)
  else
    let (m, ok) := m.decodeRead k o (m.mem.wrongAt a) requester
    if ok then (put m m.mem, .ok) else (put m { m.mem with poison := m.mem.poison.set blk () }, .uncorrectable)

/-- An access to a package that serves it, block by block; the first failing block in address order gives the status
(09 R273). A failed package answers ST_RETIRED, a disabled one ST_RANGE (Table 09.9). An access ends self-refresh (R265). -/
def Mod.lpAccess (m : Mod) (k o : Nat) (op : MemOp) (requester : Nat) : Mod × Status × List Byte :=
  if m.fld F.MC_CTL_FAILED k = 1 then let (m, b) := m.drawBytes (opLen op); (m, .retired, b)
  else if m.fld F.MC_CTL_ENABLE k = 0 then let (m, b) := m.drawBytes (opLen op); (m, .range, b)
  else
    let m := m.modMc k (fun c => { c with selfRefresh := false })
    match op with
    | .read n =>
      (blocksOf o n).foldl (fun (acc : Mod × Status × List Byte) p =>
        let (m, st, d) := acc.1.lpReadPiece k p.1 p.2 requester
        (m, firstBad acc.2.1 st, acc.2.2 ++ d)) (m, .ok, [])
    | .write data =>
      let r := (blocksOf o data.length).foldl (fun (acc : Mod × Status) p =>
        let (m, st) := acc.1.lpWritePiece k p.1 ((data.drop (p.1 - o)).take p.2) requester
        (m, firstBad acc.2 st)) (m, .ok)
      (r.1, r.2, [])

/-- An access, or an 8-byte update in place of the quantity at its address, which writes nothing when the read fails (06 R199, 12 R338). -/
def Mod.lpPerform (m : Mod) (k o : Nat) (op : MemOp) (atom : Option AtomOp) (requester : Nat) : Mod × Status × List Byte :=
  match atom with
  | none => m.lpAccess k o op requester
  | some x =>
    match m.lpAccess k o (.read 8) requester with
    | (m, .ok, old) =>
      let (m, st, _) := m.lpAccess k o (.write ((toBytes 8 (atomResult x (ofBytes old))).map some)) requester
      (m, st, old)
    | r => r

/-- A line at its home becomes poison in memory (09 R257, 11 R314, 18 R469). -/
def Mod.poisonLine (m : Mod) (a : Nat) : Mod :=
  match lpddrAt a with
  | some _ => { m with mem := { m.mem with poison := m.mem.poison.set (a / 64 * 64) () } }
  | none => { m with mem := m.mem.poisonAt (a / 64 * 64) 64 }

/-! ## Regulation -/

/-- The 64-bit tick count (10 R281). -/
def Mod.ticks (m : Mod) : Nat := m.fld F.REG_NOW_NOW + 0x10000 * m.fld F.REG_NOW_HIGH

def Mod.ovs (m : Mod) (k : Nat) : Bool := bit (m.fld F.REG_STATUS_OVS_MASK) k

/-- Configured reservation of a class (10 Table 10.5). -/
def Mod.resOf (m : Mod) (k c : Nat) : Nat :=
  match c with
  | 0 => m.fld F.REG_RES_STREAM 0 k
  | 1 => m.fld F.REG_RES_FABRIC 0 k
  | 2 => m.fld F.REG_RES_MGMT 0 k
  | 3 => m.fld F.REG_RES_OCHRE 0 k
  | _ => m.fld F.REG_RES_TEST 0 k

/-- Effective reservation of a class (10 R290). -/
def Mod.effRes (m : Mod) (k c : Nat) : Nat :=
  if m.ovs k && c == 4 then 0 else m.resOf k c * m.fld F.REG_EFF_SCALE 0 k / 65536

/-- Effective latency target of a class 1-4 (10 R290). -/
def Mod.effTarget (m : Mod) (k c : Nat) : Nat :=
  let conf := m.fld F.REG_CLASS_TARGET 0 (c - 1)
  let scale := m.fld F.REG_EFF_SCALE 0 k
  if scale = 0 then 0xFFF else min 0xFFF (ceilDiv (conf * 65536) scale)

/-- Slack of a deadline as a signed 16-bit value (10 R282). -/
def Mod.slack (m : Mod) (deadline : Nat) : Int := signed 16 (deadline + 0x10000 - m.fld F.REG_NOW_NOW)

/-- Priority of a waiting STREAM request (10 R282). -/
def Mod.streamPrio (m : Mod) (deadline : Nat) (late : Bool) : Nat :=
  if late then 7
  else if m.slack deadline ≤ (m.fld F.REG_STREAM_URGENT : Int) then 6
  else m.fld F.REG_STREAM_BASE

/-- Priority of a class 1-4 at a controller (10 R283). -/
def Mod.classPrio (m : Mod) (k c : Nat) : Nat :=
  if c = 4 ∧ m.fld F.REG_STATUS_OVERSUB = 1 then 0 else
  let avg := m.fld F.REG_LAT_AVG 0 (4 * k + c - 1)
  let t := m.effTarget k c
  let up := b2n (decide (t < 2 * avg)) + b2n (decide (3 * t < 4 * avg)) + b2n (decide (9 * t < 10 * avg)) + b2n (decide (t < avg))
  min 7 (m.fld F.REG_CLASS_BASE 0 (c - 1) + up)

/-- A request arrives: its deadline and target (10 R282, R283, R291). A STREAM request whose slack is gone is late. -/
def Mod.lpWaitOf (m : Mod) (k id : Nat) (r : LpReq) (nc : Option NcReq) (fill : Option DirReq) : LpWait :=
  let c := r.cls.val
  let target := if c = 0 then 0 else m.effTarget k c
  { id := id, req := r,
    deadline := if c = 0 then r.deadline.val else (m.fld F.REG_NOW_NOW + target) % 0x10000,
    late := c == 0 && (r.lateAtIssue || decide (m.slack r.deadline.val ≤ 0)), tick := m.ticks, target := target, nc := nc, fill := fill }

/-- The die whose stream engine makes a request of an operation: they are dealt to the dies of the partition in turn (DESIGN CHOICE, log
179). -/
def Mod.dealtDie (m : Mod) (q key : Nat) : Nat := let ds := m.partition q; nth ds (key / 32 % max 1 ds.length) 0

/-- The rate limiter a request passes (10 R288): CP port 0-15, MP 16, fabric port 17 + p, sequencer fetch 27, scrub 28. -/
def Mod.limiterOf (m : Mod) : Src → Nat
  | .agent (.tc d _) => d.val
  | .agent (.sqFetch _) => 27
  | .agent _ | .manager _ _ => 16
  | .fabric _ _ p | .adder p | .bcast p => 17 + p.val
  | .scrub => 28
  | .op q _ key => if key % 8 = 5 then 27 else m.dealtDie q.val key

/-- Outstanding requests a source may have at a controller's level (10 R288). -/
def Mod.limitAt (m : Mod) (level : Nat) : Option Nat :=
  match level with
  | 0 => none
  | 1 => some (m.fld F.REG_LIMIT_L1)
  | 2 => some (m.fld F.REG_LIMIT_L2)
  | _ => some (m.fld F.REG_LIMIT_L3)

/-- A limiter lets one more request pass to a controller: always the first one of its source (10 R288). -/
def Mod.limitPasses (m : Mod) (k out : Nat) : Bool :=
  match m.limitAt (m.mcOf k).level with
  | none => true
  | some n => out < max 1 n

/-- Channel of an address of a package. -/
def chanOf (a : Nat) : Nat := (lpMap (a % 0x1000000000)).ch

/-- Requests of a channel at its controller: those in its queue, and those that wait through a HOLD (10 R287). -/
def Mod.chanQueue (m : Mod) (k c : Nat) : List LpWait :=
  nth (m.mcOf k).queues c [] ++ (m.mcOf k).hold.filter (fun w => chanOf w.req.addr == c)

/-- A request may come to its controller: the channel has room (10 R287) and its limiter lets it pass (R288). -/
def Mod.lpAccepts (m : Mod) (k c : Nat) (r : LpReq) : Bool :=
  let mc := m.mcOf k
  let out := ((mc.queues.flatten ++ mc.hold).filter (fun w => m.limiterOf w.req.src == m.limiterOf r.src)).length
  (m.chanQueue k c).length < 128 && m.limitPasses k out

/-- A request comes to its controller, or waits at its source behind earlier ones of the channel. While the package is in HOLD it waits
apart from the queue, which HOLD's end serves first (09 R264). -/
def Mod.lpEnter (m : Mod) (k c id : Nat) (r : LpReq) (nc : Option NcReq) (fill : Option DirReq) : Mod :=
  if (m.mcOf k).backlog.all (fun b => b.ch != c || m.limiterOf b.req.src != m.limiterOf r.src) && m.lpAccepts k c r then
    let w := m.lpWaitOf k id r nc fill
    if m.holds k && (nc.isSome || fill.isSome) then m.modMc k (fun mc => { mc with hold := mc.hold ++ [w] })
    else m.modMc k (fun mc => { mc with queues := modNth mc.queues c (· ++ [w]) })
  else m.modMc k (fun mc => { mc with backlog := mc.backlog ++ [{ id := id, ch := c, req := r, nc := nc, fill := fill }] })

/-- A new request for a channel, numbered in arrival order. -/
def Mod.lpQueue (m : Mod) (k c : Nat) (r : LpReq) (nc : Option NcReq) (fill : Option DirReq) : Mod :=
  { m.lpEnter k c m.lpNext r nc fill with lpNext := m.lpNext + 1 }

/-- Requests arrive at a channel in order. -/
def Mod.lpArrive (m : Mod) (k c : Nat) (rs : List LpReq) : Mod := rs.foldl (fun m r => m.lpQueue k c r none none) m

/-- What a channel may serve next: one queued request, or the pieces Ochre issues for one row. -/
structure Cand where
  reserved : Bool
  prio : Nat
  late : Bool
  deadline : Nat
  openHit : Bool
  order : Nat
  wait : Option LpWait
  /-- Ochre: the row unit whose pieces are served, and whether the age limit chose it -/
  unit : Nat
  aged : Bool
  deriving DecidableEq, Repr

/-- Deadline d1 is earlier than d2 (10 R284). -/
def earlier (d1 d2 : Nat) : Bool :=
  let x := (d2 + 0x10000 - d1) % 0x10000
  1 ≤ x && x < 0x8000

/-- `a` is chosen before `b` (10 R284, its six keys in turn). -/
def Cand.before (a b : Cand) : Bool :=
  if a.reserved != b.reserved then a.reserved
  else if a.prio != b.prio then b.prio < a.prio
  else if a.late != b.late then a.late
  else if a.late && b.late then a.order < b.order
  else if earlier a.deadline b.deadline then true
  else if earlier b.deadline a.deadline then false
  else if a.openHit != b.openHit then a.openHit
  else a.order < b.order

/-- The open row of a bank. -/
def Mod.openRow (m : Mod) (k c bank : Nat) : Option OpenRow := (m.mcOf k).rows.get? (c * 32 + bank)

def Mod.openHit (m : Mod) (k c : Nat) (l : LpLoc) : Bool :=
  match m.openRow k c l.bank with
  | some r => r.row == l.row
  | none => false

/-- The candidate a queued request is. -/
def Mod.candOf (m : Mod) (k c : Nat) (w : LpWait) : Cand :=
  let cls := w.req.cls.val
  { reserved := 0 < nth (m.mcOf k).credit cls 0,
    prio := if cls = 0 then m.streamPrio w.deadline w.late else m.classPrio k cls,
    late := w.late, deadline := w.deadline,
    openHit := m.openHit k c (lpMap (w.req.addr % 0x1000000000)), order := w.id, wait := some w, unit := 0, aged := false }

/-- Blocks that Ochre still has to read in channel c of package k, with their request. -/
def Mod.ochPieces (m : Mod) (k c : Nat) : List (OchWait × Nat) :=
  m.och.flatMap (fun w => (w.left.filter (fun b =>
    match lpddrAt b with
    | some (k', o) => k' == k && (lpMap o).ch == c
    | none => false)).map (fun b => (w, b)))

/-- The candidate of each bank's row that Ochre issues next: the row of an aged request, else the row with the most waiting
pieces (09 R259). Of rows with equally many the spec names none: all of them stand for the choice of 10 R284 (DESIGN CHOICE, log 180). -/
def Mod.ochCands (m : Mod) (k c : Nat) : List Cand :=
  let ps := m.ochPieces k c
  let unit := fun (p : OchWait × Nat) => (p.2 % 0x1000000000) / 64 / 28
  let units := (ps.map unit).eraseDups
  let size := fun u => (ps.filter (fun p => unit p == u)).length
  let agedU := fun u => ps.any (fun p => unit p == u && p.1.aged)
  let bankOfUnit := fun (u : Nat) => (u / 4) % 32
  let best := fun u => units.all (fun v => bankOfUnit v != bankOfUnit u || v == u ||
    (if agedU u != agedU v then agedU u else size v ≤ size u))
  (units.filter best).filterMap (fun u =>
    match ps.find? (fun p => unit p == u) with
    | none => none
    | some p => some {
        reserved := 0 < nth (m.mcOf k).credit 3 0, prio := m.classPrio k 3, late := false, deadline := p.1.deadline,
        openHit := m.openHit k c (lpMap (p.2 % 0x1000000000)), order := p.1.id, wait := none, unit := u, aged := agedU u })

/-- Pieces of the rows that Ochre has issued into a channel's queue, as far as it has room (10 R284, R287). -/
def Mod.ochIssued (m : Mod) (k c : Nat) : Nat :=
  let units := ((m.ochCands k c).map Cand.unit)
  min (128 - (m.chanQueue k c).length) (((m.ochPieces k c).filter (fun p => units.contains ((p.2 % 0x1000000000) / 64 / 28))).length)

/-- A bank can accept a command: no refresh of it holds the slot (09 R261, 10 R284). -/
def Mod.bankReady (m : Mod) (k c bank : Nat) : Bool := !(m.mcOf k).refreshing.contains (c * 32 + bank)

/-- The request a channel chooses (10 R284), of those whose bank can accept the command. Ochre issues into the queue while it has room. -/
def Mod.choose (m : Mod) (k c : Nat) : Option Cand :=
  let cs := ((nth (m.mcOf k).queues c []).filter (fun w => m.bankReady k c (lpMap (w.req.addr % 0x1000000000)).bank)).map (m.candOf k c) ++
    (if (m.chanQueue k c).length < 128 then (m.ochCands k c).filter (fun x => m.bankReady k c ((x.unit / 4) % 32)) else [])
  cs.foldl (fun best x => match best with
    | none => some x
    | some b => if x.before b then some x else some b) none

/-- The check burst of a block meets the bank's buffer (09 R255, Table 09.3): answers whether a check burst is read. A write makes its
block's check bytes valid and dirty; a write of part of a block reads them first. Dirty bytes go back to the row in one masked write when
the buffer is needed for another burst, or the row closes. -/
def Mod.checkBurst (m : Mod) (k c : Nat) (l : LpLoc) (write part : Bool) : Mod × Bool :=
  let burst := l.slot / 8
  let group := (List.range 8).map (fun i => burst * 8 + i)
  let here := match m.openRow k c l.bank with
    | some r => if r.row = l.row ∧ r.burst = some burst then some r else none
    | none => none
  let valid := (here.map OpenRow.valid).getD []
  let dirty := (here.map OpenRow.dirty).getD []
  let reads := (!write || part) && !valid.contains l.slot
  let valid' := if reads then group else if write then (l.slot :: valid).eraseDups else valid
  let dirty' := if write then (l.slot :: dirty).eraseDups else dirty
  (m.modMc k (fun mc => { mc with rows := sortKeys (mc.rows.set (c * 32 + l.bank) ⟨l.row, some burst, valid', dirty'⟩) }), reads)

/-- A row closes: its dirty check bytes are written back (09 R255). -/
def Mod.closeRow (m : Mod) (k c bank : Nat) : Mod := m.modMc k (fun mc => { mc with rows := mc.rows.del (c * 32 + bank) })

/-- A miss of a class (10 R291); while the regulator is OVERSUBSCRIBED it counts for event 0x0602 too (Table 10.2). -/
def Mod.miss (m : Mod) (cls : Nat) : Mod :=
  let m := m.addFld F.REG_MISS_COUNT 1 0 cls
  if m.fld F.REG_STATUS_OVERSUB = 1 then { m with regul := { m.regul with missed := modNth m.regul.missed cls (· + 1) } } else m

/-- Service bookkeeping of a class at a controller (10 R283, R285, R291): bursts from its credit, the moving average, misses. -/
def Mod.served (m : Mod) (k cls bursts latency target : Nat) (late : Bool) : Mod :=
  let m := m.modMc k (fun mc => { mc with credit := modNth mc.credit cls (· - bursts) })
  if cls = 0 then (if late then m.miss 0 else m)
  else
    let i := 4 * k + cls - 1
    let avg := m.fld F.REG_LAT_AVG 0 i
    let avg' := ((avg : Int) + Int.tdiv ((latency : Int) - avg) 16).toNat
    let m := m.setFld F.REG_LAT_AVG (min avg' 0xFFFF) 0 i
    if target < latency then m.miss cls else m

/-- Data bursts of one request (09 Table 09.3): a block read 1, a whole block written 1, a part of one written 2. -/
def burstsOf (o : Nat) : MemOp → Nat
  | .read n => (blocksOf o n).length
  | .write d => ((blocksOf o d.length).map (fun p =>
      if ((d.drop (p.1 - o)).take p.2).all Option.isSome ∧ p.2 = 64 then 1 else 2)).sum

/-- The check bursts of a request's blocks (09 R255). -/
def Mod.requestBursts (m : Mod) (k o : Nat) (op : MemOp) : Mod :=
  match op with
  | .read n => (blocksOf o n).foldl (fun m p => (m.checkBurst k (lpMap p.1).ch (lpMap p.1) false false).1) m
  | .write d => (blocksOf o d.length).foldl (fun m p =>
      (m.checkBurst k (lpMap p.1).ch (lpMap p.1) true !(p.2 == 64 && ((d.drop (p.1 - o)).take p.2).all Option.isSome)).1) m

/-- A request is served (10 R283): its access, its check bursts, its class's bookkeeping. An update in place is a read of its block and a
masked write. -/
def Mod.serve1 (m : Mod) (k : Nat) (w : LpWait) : Mod × Status × List Byte :=
  let o := w.req.addr % 0x1000000000
  let atom := w.nc.bind NcReq.atom
  let (m, st, d) := m.lpPerform k o w.req.op atom w.req.cls.val
  let op := if atom.isSome then .write (List.replicate 8 (some 0)) else w.req.op
  let m := (m.requestBursts k o op).served k w.req.cls.val (burstsOf o op) (m.ticks - w.tick) w.target w.late
  (match w.nc with
   | some r => m.hinted r.addr (opLen r.op) st r.hint
   | none => m, st, if w.nc.any NcReq.quiet then [] else d)

/-- A request leaves its queue and completes. -/
def Mod.serveWait (m : Mod) (k c : Nat) (w : LpWait) : Mod :=
  let m := m.modMc k (fun mc => { mc with queues := modNth mc.queues c (fun q => q.filter (fun x => x.id != w.id)) })
  let (m, st, d) := m.serve1 k w
  m.emit (.compl w.req.src st d)

/-- Serve every Ochre piece of one row in one activation (09 R259): each block is read once for the pieces that share it. -/
def Mod.serveOchre (m : Mod) (k c : Nat) (cand : Cand) : Mod :=
  let ps := (m.ochPieces k c).filter (fun p => (p.2 % 0x1000000000) / 64 / 28 == cand.unit)
  let blks := (ps.map Prod.snd).eraseDups
  let m := m.addFld F.OCH_COUNT_COUNT (ps.length - 1) 0 1
  let m := if cand.aged then m.addFld F.OCH_COUNT_COUNT 1 0 3 else m
  let m := blks.foldl (fun m b =>
    let o := b % 0x1000000000
    let (m, readCheck) := m.checkBurst k c (lpMap o) false false
    let m := if readCheck then m.addFld F.OCH_COUNT_COUNT 1 0 2 else m
    let (m, st, _) := m.lpAccess k o (.read 64) 3
    let m := (m.och.filter (fun w => w.left.contains b)).foldl (fun m w =>
      let s := max w.addr b
      let n := min (w.addr + w.size) (b + 64) - s
      m.emit (.piece w.src s (m.mem.readAt s n))) m
    { m with och := m.och.map (fun w =>
        if w.left.contains b then { w with left := w.left.filter (· != b), status := firstBad w.status st } else w) }) m
  let fin := m.och.filter (fun w => w.left.isEmpty)
  let m := fin.foldl (fun m w =>
    let m := m.served k 3 0 (m.ticks - w.tick) w.target false
    m.emit (.compl w.src w.status (m.mem.readAt w.addr w.size))) m
  let m := m.modMc k (fun mc => { mc with credit := modNth mc.credit 3 (· - blks.length) })
  { m with och := m.och.filter (fun w => !w.left.isEmpty) }

/-- The thermal step allows the channel a command in this slot: every slot at step 0, one of 2 at step 1, one of 4 at step 2 (09 Table 09.4;
which of them is the model's choice, log 181); none in HOLD. -/
def Mod.slotOpen (m : Mod) (k c : Nat) : Bool :=
  match m.fld F.MC_THERM_STEP k with
  | 0 => true
  | 1 => 1 ≤ nth (m.mcOf k).slots c 0
  | 2 => 3 ≤ nth (m.mcOf k).slots c 0
  | _ => false

/-- A slot of the channel passes: `used` when a command takes it. -/
def Mod.slotPass (m : Mod) (k c : Nat) (used : Bool) : Mod :=
  m.modMc k (fun mc => { mc with slots := modNth mc.slots c (fun n => if used then 0 else min 3 (n + 1)),
                                 refreshing := mc.refreshing.filter (fun b => b / 32 != c) })

/-- The slots of a channel are counted only while a thermal step withholds some. -/
def Mod.slotCount (m : Mod) (k c : Nat) (used : Bool) : Mod :=
  if m.fld F.MC_THERM_STEP k = 0 ∧ (m.mcOf k).refreshing.isEmpty = true ∧ (m.mcOf k).slots.all (· == 0) = true then m else m.slotPass k c used

/-- Ochre has room for one more request, and its limiter lets it pass to the controller (09 R259, 10 R288). -/
def Mod.ochAccepts (m : Mod) (k : Nat) : Bool :=
  decide (m.och.length < 4096) && m.limitPasses k (m.och.filter (fun w => w.addr / 0x1000000000 == k)).length

/-- A narrow read of a working package enters Ochre and is split into blocks (09 R259). -/
def Mod.ochEnter (m : Mod) (src : Src) (k addr size : Nat) : Mod :=
  let t := m.effTarget k 3
  let w : OchWait := {
    id := m.lpNext, src := src, addr := addr, size := size,
    left := (blocksOf addr size).map (fun p => p.1 / 64 * 64), status := .ok, aged := false,
    deadline := (m.fld F.REG_NOW_NOW + t) % 0x10000, tick := m.ticks, target := t }
  ({ m with och := m.och ++ [w], lpNext := m.lpNext + 1 }).addFld F.OCH_COUNT_COUNT 1 0 0

/-- A narrow read enters Ochre (09 R258, R259); while it is full, or its limiter holds it, the read waits at its source. -/
def Mod.ochRequest (m : Mod) (src : Src) (addr size : Nat) : Mod :=
  match lpddrAt addr with
  | none => m.emit (.compl src .range [])
  | some (k, o) =>
    if size = 0 ∨ 0xDE0000000 < o + size then m.emit (.compl src .range [])
    else if m.fld F.MC_CTL_FAILED k = 1 then m.emit (.compl src .retired [])
    else if m.fld F.MC_CTL_ENABLE k = 0 then m.emit (.compl src .range [])
    else if m.ochAccepts k then m.ochEnter src k addr size
    else { m with ochSrc := m.ochSrc ++ [(m.lpNext, src, addr, size)], lpNext := m.lpNext + 1 }

/-- Narrow reads that wait at their sources try again, in order. -/
def Mod.ochAdmit (m : Mod) : Mod :=
  let ws := m.ochSrc
  if ws.isEmpty then m else ws.foldl (fun m w => m.ochRequest w.2.1 w.2.2.1 w.2.2.2) { m with ochSrc := [] }

/-- Everything a failed package was still to serve completes with ST_RETIRED (09 R268). -/
def Mod.retireAll (m : Mod) (k : Nat) : Mod :=
  let mc := m.mcOf k
  let och := fun (w : OchWait) => w.addr / 0x1000000000 == k
  let gone := m.och.filter och
  let m := (m.modMc k (fun c => { c with queues := [[], [], [], []] }))
  let m := mc.queues.flatten.foldl (fun m w => m.emit (.compl w.req.src .retired [])) { m with och := m.och.filter (fun w => !och w) }
  gone.foldl (fun m w => m.emit (.compl w.src .retired [])) m

/-- A command slot of a channel (10 R284): new requests arrive, and the chosen one is served, when the thermal step allows a command
(09 R262). Requests of a failed package complete with ST_RETIRED (R268). -/
def Mod.lpSlot (m : Mod) (k c : Nat) (arrivals : List LpReq) (errs : List BlockErr) : Mod :=
  let m := (m.noteErrs errs).lpArrive k c arrivals
  if m.fld F.MC_CTL_FAILED k = 1 then m.retireAll k
  else if m.inHold k then m
  else if !m.slotOpen k c then m.slotPass k c false
  else
    match m.choose k c with
    | none => m.slotCount k c false
    | some x =>
      let m := m.slotCount k c true
      match x.wait with
      | some w => m.serveWait k c w
      | none => (m.serveOchre k c x).ochAdmit

/-- A held request exceeds OCH_CTL.AGE (09 R259). -/
def Mod.ochAge (m : Mod) (id : Nat) : Mod :=
  { m with och := m.och.map (fun w => if w.id = id then { w with aged := true } else w) }

/-! ## Thermal steps and HOLD -/

/-- Enter temperature of step s + 1 and leave temperature of step s (09 Table 09.4), °C. -/
def enterTemp (s : Nat) : Int := if s = 0 then 85 else 95
def leaveTemp (s : Nat) : Int := if s = 1 then 80 else if s = 2 then 90 else 100

/-- A capacity change reaches the regulator: 0 thermal step, 1 package FAILED, 2 page retirement (10 R289, R290). -/
def Mod.capChange (m : Mod) (k cause : Nat) : Mod :=
  { m with regul := { m.regul with changes := m.regul.changes ++ [(k, cause)] } }

/-- A record that the hub also sends to the domain manager (09 R263). -/
def Mod.raiseToManager (m : Mod) (code : Nat) (data : List Byte) : Mod :=
  let seq := m.evSeq
  let d := m.fresh
  let m := m.raise code data
  if m.fld F.FAB_ROLE_STATE = 2 ∧ m.fld F.FAB_ROLE_ROLE ≠ 2 ∧ m.fld F.FAB_ROLE_MANAGER ≠ m.fld F.FAB_NODE_ID then
    m.emit (.toManager (m.fld F.FAB_ROLE_MANAGER)
      { code := code, flags := 0, seq := seq, time := Config.freeTime d, node := m.recordNode, data := padTo 16 data })
  else m

/-- The package moves to a thermal step (09 R262-R264); the requests that waited through a HOLD go on at the end of the command. -/
def Mod.setStep (m : Mod) (k new : Nat) (temp : Int) : Mod :=
  let old := m.fld F.MC_THERM_STEP k
  let m := m.setFld F.MC_THERM_STEP new k
  let m := m.modMc k (fun c => { c with lowReports := 0 })
  let m := if new = 3 then m.modMc k (fun c => { c with selfRefresh := true, holdExpired := false }) else m
  let m := m.raiseToManager 0x0505 (d1 k ++ d1 old ++ d1 new ++ d2 (unsigned 16 (temp * 16)))
  let m := m.capChange k 0
  if old = 3 then m.modMc k (fun c => { c with selfRefresh := false }) else m

/-- A temperature report (09 R262, Table 09.4). -/
def Mod.tempReport (m : Mod) (k : Nat) (temp : Int) : Mod :=
  let s := m.fld F.MC_THERM_STEP k
  let m := m.setFld F.MC_THERM_TEMP (unsigned 8 temp) k
  if 105 < temp then (if s = 3 then m.modMc k (fun c => { c with lowReports := 0 }) else m.setStep k 3 temp)
  else if s < 2 ∧ enterTemp s < temp then m.setStep k (s + 1) temp
  else if 1 ≤ s ∧ temp ≤ leaveTemp s then
    if (m.mcOf k).lowReports = 1 then m.setStep k (s - 1) temp
    else m.modMc k (fun c => { c with lowReports := 1 })
  else m.modMc k (fun c => { c with lowReports := 0 })

/-- A line fill ends without its line (09 R264): a local agent's access completes with the status, a member gets poisoned data. -/
def Mod.fillFails (m : Mod) (line : Nat) (r : DirReq) (st : Status) : Mod :=
  match r with
  | .rdS (.agent a) | .rdX (.agent a) | .upg (.agent a) =>
    { m with net := m.net ++ [{ kind := .data, src := none, dst := some a, line := line, why := st }] }
  | .rdS (.member i) | .rdX (.member i) | .upg (.member i) => m.emit (.coh i.val .data line (List.replicate 64 0) .s true)
  | _ => m

/-- A request that has waited in HOLD to its limit leaves its place: the number of the request, wherever it waits. -/
def Mod.takeHeld (m : Mod) (k id : Nat) : Option (Mod × Src × Nat × Option DirReq) :=
  let mc := m.mcOf k
  match (mc.hold ++ mc.queues.flatten).find? (fun w => w.id == id) with
  | some w => some (m.modMc k (fun c => { c with
      hold := c.hold.filter (fun x => x.id != id), queues := c.queues.map (fun q => q.filter (fun x => x.id != id)) }),
      w.req.src, w.req.addr, w.fill)
  | none =>
    match mc.backlog.find? (fun b => b.id == id) with
    | some b => some (m.modMc k (fun c => { c with backlog := c.backlog.filter (fun x => x.id != id) }), b.req.src, b.req.addr, b.fill)
    | none =>
      match m.och.find? (fun w => w.id == id && w.addr / 0x1000000000 == k) with
      | some w => some ({ m with och := m.och.filter (fun x => x.id != id) }, w.src, w.addr, none)
      | none =>
        match m.ochSrc.find? (fun w => w.1 == id && w.2.2.1 / 0x1000000000 == k) with
        | some w => some ({ m with ochSrc := m.ochSrc.filter (fun x => x.1 != id) }, w.2.1, w.2.2.1, none)
        | none => none

/-- A request has waited in HOLD to its limit: it completes with ST_THERMAL (09 R264). -/
def Mod.holdTimeout (m : Mod) (k id : Nat) : Mod :=
  if !m.inHold k then m else
  match m.takeHeld k id with
  | none => m
  | some (m', src, a, fill) =>
    let fab := match src with
      | .fabric _ _ _ => true
      | _ => false
    let m' := m'.satFld F.MC_THERM_HOLD_EXPIRED 1 k
    let m' := if (m.mcOf k).holdExpired then m'
      else (m'.modMc k (fun c => { c with holdExpired := true })).raise 0x0506 (d1 k ++ d1 (b2n fab))
    match fill with
    | some r => m'.fillFails (a / 64 * 64) r .thermal
    | none => m'.emit (.compl src .thermal [])

/-! ## Scrub, remap, retirement -/

/-- Scrub reads one row unit in class TEST (09 R272, R273, 10 Table 10.1): a corrected block is written back, a block that does not decode
is written as stored poison. -/
def Mod.scrub (m : Mod) (k u : Nat) (errs : List BlockErr) : Mod :=
  let m := m.noteErrs errs
  if m.fld F.MC_CTL_SCRUB_EN k = 0 ∨ m.fld F.MC_CTL_ENABLE k = 0 ∨ m.fld F.MC_CTL_FAILED k = 1 ∨ m.inHold k = true then m
  else
    let m := (List.range (unitBlocks u)).foldl (fun m s =>
      let o := (u * 28 + s) * 64
      let a := k * 0x1000000000 + o
      if m.pageRetired k (o / 0x200000) || (m.mem.poison.get? a).isSome then m
      else
        let wrong := m.mem.wrongAt a
        let (m, ok) := m.decodeRead k o wrong 4
        if !ok then m.poisonLine a
        else if wrong.isEmpty then m else { m with mem := { m.mem with wrong := m.mem.wrong.del a } }) m
    m.served k 4 (unitBlocks u) 0 (m.effTarget k 4) false

/-- retire_pages (09 R277): cause 0 spares, 1 table exhausted. -/
def Mod.retirePages (m : Mod) (k ch bank row cause : Nat) : Mod :=
  let pages := (rowPages ch bank row).filter (fun p => !m.pageRetired k p)
  let free := (List.range 128).filter (fun i => m.fld F.MC_RETIRE_VALID k i == 0)
  if free.length < pages.length then m.raise 0x0507 (d1 (4 * k + ch) ++ d1 bank ++ d4 row)
  else
    let m := (pages.zip free).foldl (fun m pi =>
      let m := m.setFld F.MC_RETIRE_PAGE pi.1 k pi.2
      let m := m.setFld F.MC_RETIRE_VALID 1 k pi.2
      let m := m.lose (100000 + k * 32768 + pi.1)
      m.raise 0x0504 (d8 (k * 0x1000000000 + pi.1 * 0x200000) ++ d1 cause)) m
    m.capChange k 2

/-- Copy of a row to a spare (09 R275, R491): every uncorrectable block is counted, reported and becomes stored poison. -/
def Mod.remapCopy (m : Mod) (k ch bank row : Nat) : Mod × List Nat :=
  let u := rowUnit ch bank row
  (List.range (unitBlocks u)).foldl (fun (acc : Mod × List Nat) s =>
    let m := acc.1
    let o := (u * 28 + s) * 64
    let a := k * 0x1000000000 + o
    let l := lpMap o
    if (m.mem.poison.get? a).isSome then (m, acc.2 ++ [a])
    else
      let d := decodeBlock (m.markedPin k ch) (m.fld F.MC_CTL_AUTO_MARK k == 1) l.slot (m.mem.wrongAt a)
      let m := match d.mark with
        | some p => m.markPin k ch p
        | none => m
      if d.ok then (m, acc.2) else (m.uncorrectable k l a 0xFF, acc.2 ++ [a])) (m, [])

/-- read_verify of a spare (09 R491): clean when every block decodes with no correction outside the marked pin; a block written as stored
poison (`bad`) does not count. `errs`: the wrong symbols of the spare's blocks, by the address of the block each holds. -/
def Mod.readVerify (m : Mod) (k ch bank row : Nat) (bad : List Nat) (errs : List BlockErr) : Mod × Bool :=
  let u := rowUnit ch bank row
  (List.range (unitBlocks u)).foldl (fun (acc : Mod × Bool) s =>
    let m := acc.1
    let a := k * 0x1000000000 + (u * 28 + s) * 64
    match errs.find? (fun e => e.addr / 64 * 64 == a) with
    | none => acc
    | some e =>
      if bad.contains a then acc
      else
        let d := decodeBlock (m.markedPin k ch) (m.fld F.MC_CTL_AUTO_MARK k == 1) s (e.syms.map Fin.val).eraseDups
        (match d.mark with
         | some p => m.markPin k ch p
         | none => m, acc.2 && d.ok && d.counted.isEmpty)) (m, true)

/-- A verified spare takes over its row: its blocks hold no wrong symbol of the old location; uncorrectable ones are stored poison. -/
def Mod.spareTakes (m : Mod) (k ch bank row : Nat) (bad : List Nat) (errs : List BlockErr) : Mod :=
  let u := rowUnit ch bank row
  let lo := k * 0x1000000000 + u * 1792
  let old := fun (a : Nat) => decide (lo ≤ a ∧ a < lo + 64 * unitBlocks u)
  let m := if m.mem.wrong.any (fun e => old e.1) then
      { m with mem := { m.mem with wrong := m.mem.wrong.filter (fun e => !old e.1) } } else m
  (bad.foldl (fun m a => m.poisonLine a) m).noteErrs (errs.filter (fun e => old (e.addr / 64 * 64) && !bad.contains (e.addr / 64 * 64)))

/-- The attempts of a remap (09 R275); `spare`: the wrong symbols that the blocks of each attempt's spare show. -/
def Mod.remapAttempts (m : Mod) (k ch bank row : Nat) (spare : List (Nat × BlockErr)) : List Nat → Mod
  | [] => m.retirePages k ch bank row 0
  | t :: ts =>
    let next := m.fld F.MC_SPARE_NEXT_NEXT k (32 * ch + bank)
    if next = 2340 then m.retirePages k ch bank row 0
    else
      let m := m.setFld F.MC_SPARE_NEXT_NEXT (next + 1) k (32 * ch + bank)
      let (m, bad) := m.remapCopy k ch bank row
      let errs := (spare.filter (fun e => e.1 == t)).map Prod.snd
      let (m, clean) := m.readVerify k ch bank row bad errs
      if !clean then Mod.remapAttempts m k ch bank row spare ts
      else
        let m := m.spareTakes k ch bank row bad errs
        match m.remapEntry k ch bank row with
        | none =>
          match (List.range 256).find? (fun j => m.fld F.MC_REMAP_VALID k (256 * ch + j) == 0) with
          | none => m
          | some j =>
            let j := 256 * ch + j
            let m := m.setFld F.MC_REMAP_BANK bank k j
            let m := m.setFld F.MC_REMAP_ROW row k j
            let m := m.setFld F.MC_REMAP_SPARE next k j
            let m := m.setFld F.MC_REMAP_VALID 1 k j
            m.raise 0x0502 (d1 (4 * k + ch) ++ d1 bank ++ d4 row ++ d2 next)
        | some j =>
          let j := 256 * ch + j
          let old := m.fld F.MC_REMAP_SPARE k j
          let m := m.setFld F.MC_REMAP_SPARE next k j
          m.raise 0x0503 (d1 (4 * k + ch) ++ d1 bank ++ d4 row ++ d2 old ++ d2 next)

/-- The oldest queued remap runs (09 R275, R276); it does not start while the package is in HOLD. -/
def Mod.rowRemap (m : Mod) (k : Nat) (errs : List BlockErr) (spare : List (Nat × BlockErr)) : Mod :=
  let m := m.noteErrs errs
  match (m.mcOf k).remaps with
  | [] => m
  | (ch, bank, row) :: rest =>
    if m.inHold k then m
    else
      let m := m.modMc k (fun c => { c with remaps := rest })
      if (m.remapEntry k ch bank row).isNone && m.remapUsed k ch == 256 then m.retirePages k ch bank row 1
      else m.remapAttempts k ch bank row spare [0, 1, 2]

/-- Per-bank refresh (09 R261, 10 R280): the bank's open row closes, the refresh takes a slot of the channel, and the bank accepts no
command in the next one (log 181). -/
def Mod.refreshBank (m : Mod) (k c bank : Nat) : Mod :=
  let m := m.closeRow k c bank
  m.modMc k (fun mc => { mc with slots := modNth mc.slots c (fun _ => 0), refreshing := (c * 32 + bank) :: mc.refreshing.filter (· != c * 32 + bank) })

/-- MC_CTL.LOG_CLEAR (09 Table 09.9). -/
def Mod.logClear (m : Mod) (k : Nat) : Mod :=
  ((List.range 16).foldl (fun m i => m.setFld F.MC_LOG_VALID 0 k i) m).modMc k (fun c => { c with logOrder := List.range 16 })

/-! ## Training -/

/-- A write of MC_TRAIN_CMD (09 R266, Table 09.10): ST_BUSY while the controller is enabled or a step runs; OP 0 is no step. -/
def Mod.mcTrain (m : Mod) (k op mask : Nat) : Mod × Status :=
  let st := if op = 0 then .ok else if m.fld F.MC_CTL_ENABLE k = 1 ∨ m.fld F.MC_TRAIN_STATUS_BUSY k = 1 then Status.busy else .ok
  let m := m.setFld F.MC_TRAIN_STATUS_RESULT st.toNat k
  if st = .ok ∧ op ≠ 0 then
    ((m.setFld F.MC_TRAIN_STATUS_BUSY 1 k).modMc k (fun c => { c with training := some (op, mask) }), st)
  else (m, st)

/-- A training step ends (09 R266-R269): PASS and FAIL of the selected channels, the failing pins of a DQ step, new result words of
the trained channels; training overwrites the package, and writes the FREE bytes of its rows 0 (Table 09.2). -/
def Mod.trainDone (m : Mod) (k pass : Nat) (pins : List Nat) : Mod :=
  match (m.mcOf k).training with
  | none => m
  | some (op, mask) =>
    let m := m.modMc k (fun c => { c with training := none })
    let m := m.setFld F.MC_TRAIN_STATUS_BUSY 0 k
    let m := m.setFld F.MC_TRAIN_STATUS_PASS (pass &&& mask) k
    let m := m.setFld F.MC_TRAIN_STATUS_FAIL (mask - (pass &&& mask)) k
    let m := if op = 4 ∨ op = 5 then
        (bitsOf 4 mask).foldl (fun m c => m.setFld F.MC_TRAIN_DQFAIL_PINS (nth pins c 0) k 0 c) m
      else m
    let m := if 1 ≤ op ∧ op ≤ 5 then
        (bitsOf 4 mask).foldl (fun m c => (List.range 64).foldl (fun m j =>
          let (m, d) := m.draw
          m.setFld F.MC_TRAIN_PARAM_VALUE (Config.freeNat d) k (64 * c + j)) m) m
      else m
    if op = 7 then m else (m.losePackage k).modMc k (fun c => { c with freeZero := true })

/-! ## Regulator -/

/-- A waiting STREAM request whose slack has reached 0 is late (10 R282). -/
def Mod.markLate (m : Mod) (w : LpWait) : LpWait :=
  if w.req.cls.val = 0 then (if m.slack w.deadline ≤ 0 then { w with late := true } else w) else w

/-- A tick of the deadline counter (10 R281, R282). -/
def Mod.deadlineTick (m : Mod) : Mod :=
  let cycles := ceilDiv (512 - m.regul.acc) 7
  let m := { m with regul := { m.regul with acc := m.regul.acc + 7 * cycles - 512 } }
  let t := (m.ticks + 1) % 2 ^ 64
  let m := m.setFld F.REG_NOW_NOW t
  let m := m.setFld F.REG_NOW_HIGH (t / 0x10000)
  { m with mc := m.mc.map (fun c => { c with queues := c.queues.map (fun q => q.map m.markLate), hold := c.hold.map m.markLate }) }

/-- A reservation window starts (10 R285). -/
def Mod.windowStart (m : Mod) (k : Nat) : Mod :=
  m.modMc k (fun c => { c with credit := [0, 1, 2, 3, 4].map (fun x => 7 * m.effRes k x) })

/-- A write of REG_RESk (10 R286): five fields summing to more than 204 are refused. -/
def Mod.resWrite (m : Mod) (k v : Nat) : Mod × Status :=
  let sum := bits v 0 8 + bits v 8 8 + bits v 16 8 + bits v 24 8 + bits v 32 8
  let st := if 204 < sum then Status.access else .ok
  let m := m.setFld F.REG_STATUS_RESULT st.toNat
  if st = .ok then
    (m.setReg (F.REG_RES_STREAM.addr 0 k) (BitVec.ofNat 64 (bits v 0 40)), st)
  else (m, st)

/-- Requests that a channel holds (10 R287): queued ones, those of a HOLD, and the pieces that Ochre has issued. -/
def Mod.chanLoad (m : Mod) (k c : Nat) : Nat := (m.chanQueue k c).length + m.ochIssued k c

/-- A controller broadcasts its queue level, taken from its fullest channel queue (10 R287). -/
def Mod.levelBroadcast (m : Mod) (k : Nat) : Mod :=
  let n := (List.range 4).foldl (fun a c => max a (m.chanLoad k c)) 0
  let lvl := if 9 * 128 ≤ 10 * n then 3 else if 3 * 128 ≤ 4 * n then 2 else if 128 ≤ 2 * n then 1 else 0
  m.modMc k (fun c => { c with level := lvl })

/-- Effective capacity of a controller (10 R289). -/
def Mod.effCap (m : Mod) (k : Nat) : Nat :=
  if m.fld F.MC_CTL_FAILED k = 1 then 0
  else
    let n := 256 * (28416 - m.retireUsed k)
    match m.fld F.MC_THERM_STEP k with
    | 0 => n / 28416
    | 1 => n / (2 * 28416)
    | 2 => n / (4 * 28416)
    | _ => 0

/-- EFF, SCALE and whether controller k is oversubscribed (10 R290). -/
def Mod.capOf (m : Mod) (k : Nat) : Nat × Nat × Bool :=
  let eff := m.effCap k
  let limit := 204 * eff / 256
  let four := m.resOf k 0 + m.resOf k 1 + m.resOf k 2 + m.resOf k 3
  let above := decide (limit < four + m.resOf k 4)
  if !above then (eff, 0x10000, false)
  else if eff = 0 then (eff, 0, true)
  else if four ≤ limit then (eff, 0x10000, true)
  else (eff, limit * 65536 / four, true)

/-- The regulator recomputes after capacity changes (10 R289, R290). -/
def Mod.recompute (m : Mod) : Mod :=
  match m.regul.changes with
  | [] => m
  | c :: cs =>
    let caps := (List.range 24).map m.capOf
    let was := m.fld F.REG_STATUS_OVERSUB
    let mask := maskOf ((List.range 24).filter (fun k => (nth caps k (0, 0, false)).2.2))
    let m := (List.range 24).foldl (fun m k =>
      let x := nth caps k (0, 0, false)
      (m.setFld F.REG_EFF_EFF x.1 0 k).setFld F.REG_EFF_SCALE x.2.1 0 k) m
    let m := m.setFld F.REG_STATUS_OVS_MASK mask
    let m := m.setFld F.REG_STATUS_OVERSUB (b2n (mask != 0))
    let first := cs.foldl (fun a b => if b.1 < a.1 then b else a) c
    let m := { m with regul := { m.regul with changes := [] } }
    if was = 0 ∧ mask ≠ 0 then
      ({ m with regul := { m.regul with missed := [0, 0, 0, 0, 0] } }).raise 0x0601 (d4 mask ++ d1 first.2 ++ d1 first.1)
    else if was = 1 ∧ mask = 0 then
      m.raise 0x0602 ((List.range 5).flatMap (fun c => dCount (nth m.regul.missed c 0)))
    else m

/-! ## Register rules of MC_, OCH_ and REG_ -/

/-- Refusals of writes of MC_ and OCH_ registers (09 R279, Tables 09.9-09.12); `v` is the value written, `old` the value held. -/
def Mod.mcCheck (m : Mod) (n : RegName) (k old v : Nat) : Status :=
  let en := m.fld F.MC_CTL_ENABLE k == 1
  match n with
  | .mcCtl =>
    if bits v 8 8 = 0 then .access
    else if bit old 1 && !bit v 1 && en then .busy else .ok
  | .mcTherm => if bits v 16 8 = 0 ∨ 50 < bits v 16 8 then .access else .ok
  | .mcRetire => if bit v 15 && 28416 ≤ bits v 0 15 then .access else if en then .busy else .ok
  | .mcSpareNext => if 2340 < bits v 0 12 then .access else if en then .busy else .ok
  | .mcRemap =>
    if bit v 63 && (259804 ≤ bits v 5 18 || 2340 ≤ bits v 23 12) then .access else if en then .busy else .ok
  | .ochCtl => if bits v 0 16 = 0 then .access else .ok
  | _ => .ok

/-- What an accepted write of an MC_ register does besides its fields. -/
def Mod.mcAfter (m : Mod) (n : RegName) (k i old v : Nat) : Mod :=
  match n with
  | .mcCtl =>
    let m := if bit v 4 then m.logClear k else m
    if bit old 1 != bit v 1 then m.capChange k 1 else m
  | .mcPinMark => m.setFld F.MC_PIN_MARK_AUTO 0 k i
  | .mcRetire => if bit old 15 != bit v 15 then m.capChange k 2 else m
  | _ => m

/-- Refusals of writes of REG_ registers (10 R292, Table 10.5). -/
def regulCheck (n : RegName) (v : Nat) : Status :=
  match n with
  | .regStream => if 5 < bits v 0 3 ∨ bits v 8 8 = 0 then .access else .ok
  | .regLimit =>
    let l1 := bits v 0 8
    let l2 := bits v 8 8
    let l3 := bits v 16 8
    if l1 = 0 ∨ l2 = 0 ∨ l3 = 0 ∨ l1 < l2 ∨ l2 < l3 then .access else .ok
  | .regClass => if bits v 0 12 = 0 then .access else .ok
  | _ => .ok

end Sys2Proof.Machine
end

