-- ==== Sys2Proof/Machine/Operands.lean ====
section
/-! DEFINITION. Address forms and memory operands: the 64-bit address of 01 R24, cacheable lines (11 R294), the directory's part of
an access (11 R300), and the memory's. -/

namespace Sys2Proof.Machine

open Sys2Proof

/-- What a 64-bit address names (01 R24). -/
inductive Target where
  | here (a : Nat)
  | remote (node a : Nat)
  | outside
  deriving DecidableEq, Repr

/-- This module's node ID. -/
def Mod.node (m : Mod) : Nat := m.fld F.FAB_NODE_ID

/-- 01 R24. -/
def Mod.decodeAddr (m : Mod) (x : Nat) : Target :=
  let hi := bits x 62 2
  let mid := bits x 48 14
  if hi = 0 then (if mid = 0 then .here (bits x 0 48) else .outside)
  else if hi = 1 then (if mid = m.node then .here (bits x 0 48) else .remote mid (bits x 0 48))
  else .outside

/-- The bit-set (`some true`) or bit-clear (`some false`) alias an address lies in (01 Table 01.6), and the aliased address. -/
def aliasOf (a : Nat) : Option (Bool × Nat) :=
  if 0x500000000000 ≤ a ∧ a < 0x600000000000 then some (true, a - 0x100000000000)
  else if 0x600000000000 ≤ a ∧ a < 0x700000000000 then some (false, a - 0x200000000000)
  else none

/-- A whole access of `n` bytes lies in populated memory: one LPDDR window or one array. -/
def memPopulated (a n : Nat) : Bool :=
  match lpddrAt a, lpddrAt (a + n - 1) with
  | some (k, _), some (k', _) => k == k'
  | _, _ =>
    match sramAt a, sramAt (a + n - 1) with
    | some (r, _), some (r', _) => r == r'
    | _, _ => false

/-- Cacheable local memory: populated LPDDR and the hub buffer (11 R294). -/
def cacheableHere (a : Nat) : Bool :=
  (lpddrAt a).isSome || (match sramAt a with
    | some (r, _) => r == 16
    | none => false)

/-! ## Directory primitives (11) -/

def lineOf (a : Nat) : Nat := a / 64 * 64

def Mod.dirFind (m : Mod) (line : Nat) : Option DirEntry := m.dir.find? (fun e => e.line == line)

/-- Put an entry back, as the most recently used (11 R297). -/
def Mod.dirPut (m : Mod) (e : DirEntry) : Mod := { m with dir := m.dir.filter (fun x => x.line != e.line) ++ [e] }

def Mod.dirFree (m : Mod) (line : Nat) : Mod := { m with dir := m.dir.filter (fun x => x.line != line) }

def Mod.lineFind (m : Mod) (agent line : Nat) : Option Line := m.lines.find? (fun l => l.agent == agent && l.addr == line)

def Mod.lineDrop (m : Mod) (agent line : Nat) : Mod :=
  { m with lines := m.lines.filter (fun l => l.agent != agent || l.addr != line) }

def Mod.linePut (m : Mod) (l : Line) : Mod := { m.lineDrop l.agent l.addr with lines := (m.lineDrop l.agent l.addr).lines ++ [l] }

def Mod.send (m : Mod) (msg : CohMsg) : Mod := { m with net := m.net ++ [msg] }

/-- Take the oldest message of a kind between an agent and the directory about a line. -/
def Mod.recv (m : Mod) (p : CohMsg → Bool) : Option (CohMsg × Mod) :=
  match m.net.find? p with
  | none => none
  | some msg => some (msg, { m with net := m.net.eraseP p })

/-- Lines of the bytes [a, a + n). -/
def linesOf (a n : Nat) : List Nat := (blocksOf a n).map (fun p => lineOf p.1)

/-- A directory entry's 2 MiB page holds entries: its presence count is above 0 (11 R301). -/
def Mod.pagePresent (m : Mod) (a : Nat) : Bool := m.dir.any (fun e => !e.proxy && e.line / 0x200000 == a / 0x200000)

/-- A snoop to a holder: to a local agent, or to a member module (11 R310). -/
def Mod.snoop (m : Mod) (h : Holder) (k : MsgKind) (line : Nat) : Mod :=
  match h with
  | .agent a => m.send { kind := k, src := none, dst := some a, line := line }
  | .member i => m.emit (.coh i.val k line [] .i false)

def DirEntry.sharers (e : DirEntry) : List Holder := e.agents.map Holder.agent ++ e.members.map Holder.member

def DirEntry.dropHolder (e : DirEntry) (h : Holder) : DirEntry :=
  { e with owner := if e.owner = some h then none else e.owner,
           agents := e.agents.filter (fun a => Holder.agent a != h),
           members := e.members.filter (fun i => Holder.member i != h) }

def DirEntry.addSharer (e : DirEntry) (h : Holder) : DirEntry :=
  match h with
  | .agent a => { e with agents := e.agents.filter (· != a) ++ [a] }
  | .member i => { e with members := e.members.filter (· != i) ++ [i] }

/-- The data of a line at its home, read from memory (11 R308), and how the read ended. -/
def Mod.homeRead (m : Mod) (line : Nat) (ag : Agent) : Mod × List Byte × Status :=
  match lpddrAt line with
  | some (k, _) =>
    let w := m.lpWaitOf k m.lpNext { src := .agent ag, cls := 2, addr := line, op := .read 64, deadline := 0, lateAtIssue := false } none none
    let (m, st, d) := m.serve1 k w
    (m, d, st)
  | none =>
    match sramAt line with
    | some (arr, off) =>
      let (m, st, d) := m.yAccess ag arr off (.read 64)
      (m, d, st)
    | none => (m, List.replicate 64 0, .ok)

/-- The core of a caching agent (11 Table 11.1); AC0 stands for the management cluster. -/
def agentCore (a : Nat) : Agent := if a = 64 then .ac 0 else .tc (Fin.ofNat 16 (a / 4)) (Fin.ofNat 4 (a % 4))

/-- One line is poisoned at its home and logged (11 R314). -/
def Mod.poisonHome (m : Mod) (line : Nat) : Mod :=
  let m := m.poisonLine line
  let m := if m.fld F.DIR_POISON_LOG_VALID = 1 then m.setFld F.DIR_POISON_LOG_OVERRUN 1 else m
  (m.setFld F.DIR_POISON_LOG_ADDR line).setFld F.DIR_POISON_LOG_VALID 1

/-- Data written to a line at its home in memory that serves it. Poisoned data is written as poison (11 R314, 18 R469); the first such
line after a hard reset of an application core raises event 0x0701 with the count that the reset marked. -/
def Mod.homeStore (m : Mod) (line : Nat) (data : List Byte) (poison : Bool) : Mod :=
  let d := (padTo 64 data).map some
  let m := match lpddrAt line with
    | some (k, _) =>
      (m.serve1 k (m.lpWaitOf k m.lpNext { src := .agent (.ac 0), cls := 2, addr := line, op := .write d, deadline := 0, lateAtIssue := false }
        none none)).1
    | none =>
      match sramAt line with
      | some (arr, off) => (m.yAccess (.ac 0) arr off (.write d)).1
      | none => m
  if poison then
    let m := m.poisonHome line
    if m.poisonDue = 0 then m else ({ m with poisonDue := 0 } : Mod).raise 0x0701 (d1 64 ++ dCount m.poisonDue ++ d8 line)
  else m

/-- The package of a line is in HOLD: its memory serves nothing (09 R264). -/
def Mod.lineHolds (m : Mod) (line : Nat) : Bool :=
  match lpddrAt line with
  | some (k, _) => m.holds k
  | none => false

/-- Data comes to its home while the package is in HOLD: it waits there, with the answer it belongs to. -/
def Mod.parkData (m : Mod) (x : HomeData) : Mod :=
  match lpddrAt x.line with
  | some (k, _) => m.modMc k (fun mc => { mc with homeData := mc.homeData ++ [x] })
  | none => m

/-- Data written to a line at its home; in HOLD it waits (09 R264). -/
def Mod.homeWrite (m : Mod) (line : Nat) (data : List Byte) (poison : Bool) : Mod :=
  if m.lineHolds line then m.parkData ⟨line, none, data, poison⟩ else m.homeStore line data poison

/-- The agent's cached line goes away or to S, with its dirty data written home: what a recall does once answered. A writeback in
flight is written and acknowledged (11 R308, R309). -/
def Mod.recallLocal (m : Mod) (a : Fin 65) (line : Nat) (toI : Bool) : Mod :=
  match m.lineFind a.val line with
  | none => m
  | some l =>
    match l.st with
    | .m =>
      let m := m.homeWrite line l.data l.poison
      if toI then m.lineDrop a.val line else m.linePut { l with st := .s, l1 := none }
    | .e => if toI then m.lineDrop a.val line else m.linePut { l with st := .s }
    | .s => if toI then m.lineDrop a.val line else m
    | .sm => if toI then m.linePut { l with st := .im } else m
    | .wbPend =>
      match m.recv (fun x => x.kind == .wbData && x.src == some a && x.line == line) with
      | some (w, m) => (m.homeWrite line w.data w.poison).send { kind := .wbAck, src := none, dst := some a, line := line }
      | none => m
    | _ => m

/-- A request that waits in the directory's retry queue is about a line. -/
def waitsFor (line : Nat) (r : Nat × DirReq) : Bool :=
  r.1 == line || (match r.2 with
    | .nc x => (linesOf x.addr (opLen x.op)).contains line
    | _ => false)

/-- A write to a line waits at its package's controller or at its array: the line stays with it (11 R299). -/
def Mod.lineInFlight (m : Mod) (line : Nat) : Bool :=
  let hits := fun (a : Nat) (op : MemOp) (atom : Bool) => (isWrite op || atom) && decide (line < a + opLen op ∧ a < line + 64)
  match lpddrAt line with
  | some (k, _) =>
    let mc := m.mcOf k
    (mc.queues.flatten ++ mc.hold).any (fun w => hits w.req.addr w.req.op (w.nc.any (fun r => r.atom.isSome))) ||
      mc.backlog.any (fun b => hits b.req.addr b.req.op (b.nc.any (fun r => r.atom.isSome))) || mc.homeData.any (fun x => x.line == line)
  | none =>
    match sramAt line with
    | some (arr, _) => (m.sramOf arr).ywait.any (fun w => hits (sramBase arr + w.off) w.op w.atom.isSome)
    | none => false

/-- The holders of a line allow an access now, with local recalls and invalidations only. -/
def Mod.lineReady (m : Mod) (e : DirEntry) (write : Bool) : Bool :=
  let stable := fun (a : Fin 65) => match m.lineFind a.val e.line with
    | some l => l.st != .isE && l.st != .im
    | none => true
  e.busy.isNone &&
  (match e.owner with
   | some (.agent a) => stable a
   | some (.member _) => false
   | none => true) &&
  (!write || (e.members.isEmpty && e.agents.all stable))

/-- The directory's part of a non-caching access to one line that is ready (11 R300). -/
def Mod.lineYield (m : Mod) (e : DirEntry) (write : Bool) : Mod :=
  if write then
    let m := match e.owner with
      | some (.agent a) => m.recallLocal a e.line true
      | _ => m
    let m := e.agents.foldl (fun m a => m.recallLocal a e.line true) m
    m.dirFree e.line
  else
    match e.owner with
    | some (.agent a) =>
      let held := (m.lineFind a.val e.line).any (fun l => l.st == .m || l.st == .e)
      let m := m.recallLocal a e.line false
      if held then m.dirPut { e with owner := none, agents := [a] } else m.dirFree e.line
    | _ => m

/-- The directory prepares a non-caching access of bytes (11 R299, R300): `none` when every line of it may go on, else the first line that
has to wait: for its holders, for a write of it in flight, or behind the requests `ahead` of this one that wait for it. -/
def Mod.cohPrepare (m : Mod) (a n : Nat) (write : Bool) (ahead : List (Nat × DirReq)) : Mod × Option Nat :=
  let es := m.dir.filter (fun e => !e.proxy && e.line + 64 > a && e.line < a + n)
  let blocked := fun (l : Nat) => ahead.any (waitsFor l) || es.any (fun e => e.line == l && (m.lineInFlight l || !m.lineReady e write))
  match (if ahead.isEmpty then es.map (·.line) else linesOf a n).find? blocked with
  | some l => (m, some l)
  | none => (es.foldl (fun m e => m.lineYield e write) m, none)

/-- Directory lookups of a non-caching access: its lines in pages whose presence count is not 0 (11 R301, Table 11.10). -/
def Mod.lookups (m : Mod) (a n : Nat) : Mod :=
  let k := ((linesOf a n).filter (fun l => cacheableHere l && m.pagePresent l)).length
  if k = 0 then m else m.addFld F.DIR_COUNT_COUNT k 0 0

/-! ## One access to local memory -/

/-- How an access ends: completed, or waiting for a line or for the end of a HOLD. -/
inductive Reply where
  | done (st : Status) (data : List Byte)
  | waits
  deriving DecidableEq, Repr

/-- Request class of an agent at an LPDDR controller (10 Table 10.1). -/
def classOf : Agent → Nat
  | .dma _ | .atomic _ => 0
  | .fabric | .fabMgmt => 1
  | .march => 4
  | _ => 2

/-- The request a controller gets. -/
def NcReq.lp (r : NcReq) : LpReq :=
  { src := r.src, cls := Fin.ofNat 5 (if r.test then 4 else classOf r.ag), addr := r.addr, op := r.op, deadline := Fin.ofNat 65536 r.dl.1,
    lateAtIssue := r.dl.2 }

/-- A channel serves a request in the slot in which it arrives: nothing waits there before it, the thermal step allows the command, and
its bank can accept it. -/
def Mod.chanFree (m : Mod) (k c bank : Nat) : Bool :=
  let mc := m.mcOf k
  (m.chanQueue k c).isEmpty && mc.backlog.all (fun b => b.ch != c) && (m.ochPieces k c).isEmpty && m.slotOpen k c && m.bankReady k c bank

/-- The package's part of a request (populated, the directory done). -/
def Mod.lpddrPerform (m : Mod) (k : Nat) (r : NcReq) : Mod × Reply :=
  if m.fld F.MC_CTL_FAILED k = 1 ∨ m.fld F.MC_CTL_ENABLE k = 0 then
    let (m, st, d) := m.lpAccess k (r.addr % 0x1000000000) r.op (classOf r.ag)
    (m, .done st d)
  else if r.ochre && !isWrite r.op && r.atom.isNone then (m.ochRequest r.src r.addr (opLen r.op), .waits)
  else
    let l := lpMap (r.addr % 0x1000000000)
    if !m.holds k && m.chanFree k l.ch l.bank then
      let (m, st, d) := (m.slotCount k l.ch true).serve1 k (m.lpWaitOf k m.lpNext r.lp (some r) none)
      (m, .done st d)
    else (m.lpQueue k l.ch r.lp (some r) none, .waits)

/-- The array's part of a request: an access of the S port's user, or one of the Y port, which waits behind earlier ones of its sub-banks
(08 R226, R229). -/
def Mod.sramPerform (m : Mod) (arr off : Nat) (r : NcReq) : Mod × Reply :=
  if r.sport then
    let (m, st, d) := m.sAccess arr off r.op
    (m.hinted r.addr (opLen r.op) st r.hint, .done st d)
  else if arr < 16 && m.portSlate arr && !ownDie r.ag arr then (m, .done .fenced [])
  else if m.yBehind arr off (opLen r.op) then
    (m.modSram arr (fun a => { a with ywait := a.ywait ++
      [{ src := r.src, ag := r.ag, off := off, op := r.op, atom := r.atom, quiet := r.quiet, hint := r.hint }] }), .waits)
  else
    let (m, st, d) := m.yPerform r.ag arr off r.op r.atom
    (m.hinted r.addr (opLen r.op) st r.hint, .done st (if r.quiet then [] else d))

/-- The memory's part of an access: LPDDR, where it may wait in its channel or for the end of a HOLD (09 R264; 10 R284, R287), or an array,
where it may wait for its sub-bank (08 R229); a die in Slate is fenced (14 Table 14.5). -/
def Mod.memPerform (m : Mod) (r : NcReq) : Mod × Reply :=
  match lpddrAt r.addr with
  | some (k, _) => m.lpddrPerform k r
  | none =>
    match sramAt r.addr with
    | some (arr, off) => m.sramPerform arr off r
    | none => (m, .done .range [])

end Sys2Proof.Machine
end

