-- ==== Sys2Proof/Machine/Coherence.lean ====
section
/-! DEFINITION. Coherence (11): the directory's transactions and retry queue, the agents' line states, Pushes, remote coherence
through proxy entries, and the loss of a holder. -/

namespace Sys2Proof.Machine

open Sys2Proof

/-- The line state a Data message grants. -/
def grantState : Grant → LState
  | .s => .s | .e => .e | .m => .m

/-! ## Completion of a core's access -/

/-- Agent ID of a core (11 Table 11.1); the real-time cores cache nothing. -/
def cacheOf : Agent → Option (Fin 65)
  | .ac _ => some 64
  | .tc d j => some (Fin.ofNat 65 (4 * d.val + j.val))
  | _ => none

/-- Status of poisoned data by its home (18, Poison): LPDDR ST_UNCORRECTABLE, on-chip ST_DATA_LOST. -/
def poisonStatus (a : Nat) : Status := if (lpddrAt (bits a 0 48)).isSome then .uncorrectable else .dataLost

def amoResult (fn : AmoFn) (size old x : Nat) : Nat :=
  let w := 8 * size
  let o := old % 2 ^ w
  let x := x % 2 ^ w
  match fn with
  | .swap => x
  | .add => (o + x) % 2 ^ w
  | .xor => o ^^^ x
  | .and => o &&& x
  | .or => o ||| x
  | .min => if signed w o ≤ signed w x then o else x
  | .max => if signed w x ≤ signed w o then o else x
  | .minu => min o x
  | .maxu => max o x

/-- Which application core's L1 then holds the line modified. -/
def l1Of : Agent → Option Nat
  | .ac i => some i.val
  | _ => none

/-- A core's access completes in a line that allows it (11 Table 11.4; 18 R470): loads and fetches take its bytes, stores and AMOs
leave it in M; used poison is a fault. -/
def Mod.completeAccess (m : Mod) (l : Line) (x : CoreAccess) : Mod :=
  let off := x.addr % 64
  match x.op with
  | .read n =>
    if l.poison then m.coreFault x.ag x.kind x.addr (poisonStatus l.addr)
    else m.emit (.core x.ag .ok ((l.data.drop off).take n))
  | .write d =>
    match x.amo with
    | some (fn, v) =>
      if l.poison then m.coreFault x.ag 2 x.addr (poisonStatus l.addr)
      else
        let old := (l.data.drop off).take d.length
        let new := toBytes d.length (amoResult fn d.length (ofBytes old) v.toNat)
        (m.linePut { l with st := .m, data := splice l.data off new, l1 := l1Of x.ag }).emit (.core x.ag .ok old)
    | none =>
      let m := m.linePut { l with st := .m, data := splice l.data off (d.map (fun b => b.getD 0)), l1 := l1Of x.ag }
      let m := if l.poison then m.coreFault x.ag 3 x.addr (poisonStatus l.addr) else m
      m.emit (.core x.ag .ok [])

/-! ## Agents answer snoops -/

/-- An agent answers a snoop (0 RecallS, 1 RecallI, 2 Inv) from a line's state (11 Table 11.4). -/
def Mod.answerSnoop (m : Mod) (a : Fin 65) (line k : Nat) : Mod :=
  let toHome := fun (m : Mod) (kind : MsgKind) => m.send { kind := kind, src := some a, dst := none, line := line }
  match m.lineFind a.val line with
  | none => toHome m (if k = 2 then .invAck else .recallAck .notHeld)
  | some l =>
    match l.st with
    | .isE | .im => m.linePut { l with snoop := some k }
    | .sm => if k = 2 then toHome (m.linePut { l with st := .im }) .invAck else m.linePut { l with snoop := some k }
    | .wbPend => toHome m .wbPend
    | .m =>
      if k = 2 then toHome (m.lineDrop a.val line) .invAck
      else
        let m := if k = 0 then m.linePut { l with st := .s, l1 := none } else m.lineDrop a.val line
        (toHome m (.recallAck .dirtyFollows)).send
          { kind := .recallData, src := some a, dst := none, line := line, data := l.data, poison := l.poison }
    | .e =>
      let m := if k = 0 then m.linePut { l with st := .s } else m.lineDrop a.val line
      toHome m (if k = 2 then .invAck else .recallAck .clean)
    | .s =>
      if k = 2 then toHome (m.lineDrop a.val line) .invAck
      else toHome (if k = 1 then m.lineDrop a.val line else m) (.recallAck .clean)
    | .i => toHome m (if k = 2 then .invAck else .recallAck .notHeld)

/-- A granted line completes the access that asked for it, then answers a snoop it held (11 R306). -/
def Mod.grantLine (m : Mod) (l : Line) : Mod :=
  let held := l.snoop
  let l' := { l with access := none, snoop := none }
  let m := m.linePut l'
  let m := match l.access with
    | some x => m.completeAccess l' x
    | none => m
  match held with
  | some k => m.answerSnoop (Fin.ofNat 65 l.agent) l.addr k
  | none => m

/-- A line could not be read: the access that asked for it ends with that status, the line is dropped, and a snoop it held is answered
(11 R306, 18 R470). -/
def Mod.grantFails (m : Mod) (l : Line) (st : Status) : Mod :=
  let m := m.lineDrop l.agent l.addr
  let m := match l.access with
    | some x => m.uncachedDone x st []
    | none => m
  match l.snoop with
  | some k => m.answerSnoop (Fin.ofNat 65 l.agent) l.addr k
  | none => m

/-! ## Directory transactions -/

/-- Member index of a node of the module's domain (11 R310, R316); the line's home when it is not this module. -/
def lineNode (line : Nat) : Option Nat := if bits line 62 2 = 1 then some (bits line 48 14) else none

def homeMember (line : Nat) : Nat := match lineNode line with
  | some n => n % 64
  | none => 0

/-- The holder that stands for the home of another module's line. -/
def homeHolder (line : Nat) : Holder := .member (Fin.ofNat 64 (homeMember line))

/-- Who reads a line for a holder (08 R232, 18 Table 18.2). -/
def holderReader : Holder → Agent
  | .agent a => agentCore a.val
  | .member _ => .fabric

/-- Poisoned data (11 R314, 18 R469): the home could read the line only as an error. -/
def isPoison (st : Status) : Bool := st == .uncorrectable || st == .dataLost

/-- Data or a grant to the requester of a line (11 Table 11.3). A line that could not be read at all goes with its status to a local agent,
and poisoned to a member. -/
def Mod.sendData (m : Mod) (h : Holder) (line : Nat) (g : LState) : Mod :=
  let (m, d, st) := m.homeRead line (holderReader h)
  match h with
  | .agent a => m.send { kind := .data, src := none, dst := some a, line := line, data := d, grant := g, poison := isPoison st,
                         why := if isPoison st then .ok else st }
  | .member i =>
    let (m, d) := if d.length < 64 then m.drawBytes 64 else (m, d)
    m.emit (.coh i.val .data line d g (st != .ok))

def Mod.sendGrantM (m : Mod) (h : Holder) (line : Nat) : Mod :=
  match h with
  | .agent a => m.send { kind := .grantM, src := none, dst := some a, line := line }
  | .member i => m.emit (.coh i.val .grantM line [] .m false)

/-- A request writes its line. -/
def NcReq.writes (r : NcReq) : Bool := isWrite r.op || r.atom.isSome

/-- The set of a line: a hash whose function the spec does not give (11 R295). -/
def dirSetOf (line : Nat) : Nat := Config.dirSet line % 65536

/-- Entries of the set of a line (11 R295). -/
def Mod.setWays (m : Mod) (line : Nat) : List DirEntry := m.dir.filter (fun e => dirSetOf e.line == dirSetOf line)

/-- All 16 ways of a set are in use (11 R295). Below 16 entries in all, no set is full. -/
def Mod.setFull (m : Mod) (line : Nat) : Bool :=
  if m.dir.length < 16 then false else decide (16 ≤ (m.setWays line).length)

/-! ### The retry queue (11 R298) -/

/-- A request enters the retry queue; when that fills it for the first time since it was empty, event 0x0702. -/
def Mod.retryEnter (m : Mod) (line : Nat) (req : DirReq) : Mod :=
  let m := ({ m with retry := m.retry ++ [(line, req)] } : Mod).addFld F.DIR_COUNT_COUNT 1 0 2
  if 512 ≤ m.retry.length ∧ m.retryFilled = false then
    ({ m with retryFilled := true } : Mod).raise 0x0702 (d2 (dirSetOf (m.retry.headD (0, .evict)).1))
  else m

/-- A request has to wait: in the retry queue, or at its source while the queue holds 512. -/
def Mod.toRetry (m : Mod) (line : Nat) (req : DirReq) : Mod :=
  if 512 ≤ m.retry.length then { m with reqSrc := m.reqSrc ++ [(line, req)] } else m.retryEnter line req

/-- The queue has lost requests: those that wait at their sources enter it, oldest first. -/
def Mod.retryRefill (m : Mod) : Mod :=
  let m := if m.retry.isEmpty then { m with retryFilled := false } else m
  let n := 512 - m.retry.length
  if m.reqSrc.isEmpty then m
  else (m.reqSrc.take n).foldl (fun m r => m.retryEnter r.1 r.2) { m with reqSrc := m.reqSrc.drop n }

/-- A request that the directory had taken up waits for another of its lines: it goes back before every other (11 R299). -/
def Mod.requeue (m : Mod) (line : Nat) (req : DirReq) : Mod :=
  let q := (line, req) :: m.retry
  ({ m with retry := q.take 512, reqSrc := q.drop 512 ++ m.reqSrc } : Mod).addFld F.DIR_COUNT_COUNT 1 0 2

/-! ### One transaction -/

/-- A non-caching request has been to memory: a write or an atomic is answered with NcAck (11 R305). -/
def Mod.ncAnswer (m : Mod) (r : NcReq) (x : Reply) : Mod :=
  match x with
  | .waits => m
  | .done st d => if r.writes then { m with ncAcks := m.ncAcks ++ [(r.src, st, d)] } else m.emit (.compl r.src st d)

/-- A non-caching request takes its effect once the line it waited for is free of conflicting holders; another of its lines may still
have to wait. -/
def Mod.ncPerform (m : Mod) (r : NcReq) : Mod :=
  match m.cohPrepare r.addr (opLen r.op) r.writes [] with
  | (m, some l) => m.requeue l (.nc r)
  | (m, none) =>
    let (m, x) := m.memPerform r
    m.ncAnswer r x

/-- An entry without holders is free, unless a snoop of the line's home waits for it. -/
def Mod.leave (m : Mod) (e : DirEntry) : Mod :=
  if e.owner.isNone && e.sharers.isEmpty && e.held.isNone then m.dirFree e.line else m.dirPut e

/-- The module answers a snoop of a line's remote home: 0 RecallS, 1 RecallI, 2 Inv (11 R310). -/
def Mod.answerHome (m : Mod) (line k : Nat) (a : AckKind) : Mod :=
  m.emit (.coh (homeMember line) (if k = 2 then .invAck else .recallAck a) line [] .i false)

/-- A transaction's snoops are all answered and its data written: it ends (11 R299). -/
def Mod.finishTxn (m : Mod) (e : DirEntry) (t : DirTxn) : Mod :=
  let e := { e with busy := none }
  match t.req with
  | .rdS h =>
    if (e.owner.isNone || e.owner == some h) && e.sharers.all (· == h) then
      (m.dirPut { e with owner := some h, agents := [], members := [] }).sendData h e.line .e
    else (m.dirPut (e.addSharer h)).sendData h e.line .s
  | .rdX h => (m.dirPut { e with owner := some h, agents := [], members := [] }).sendData h e.line .m
  | .upg h => (m.dirPut { e with owner := some h, agents := [], members := [] }).sendGrantM h e.line
  | .nc r => (if r.writes then m.dirFree e.line else m.leave e).ncPerform r
  | .evict =>
    match e.held with
    | some k => (m.dirFree e.line).answerHome e.line k .notHeld
    | none => m.dirFree e.line
  | .snoop k =>
    let gone := k != 0 || (e.owner.isNone && e.sharers.isEmpty)
    (if gone then m.dirFree e.line else m.dirPut e).answerHome e.line k (if t.got.isEmpty then .clean else .dirtyFollows)
  | .push _ | .absorbed => m.leave e

/-- A proxy line needs its home: the request goes there, and the entry waits for the answer (11 R310). -/
def Mod.askHome (m : Mod) (e : DirEntry) (req : DirReq) : Mod :=
  let k := match req with
    | .rdS _ => MsgKind.rdS
    | .upg _ => .upg
    | _ => .rdX
  (m.dirPut { e with busy := some { req := req, await := [homeHolder e.line], data := [], push := none } }).emit
    (.coh (homeMember e.line) k e.line [] .i false)

/-- The module owns a line of another module: the dirty data of one of its agents goes to another, and the home is not asked (11 R310;
log 182). -/
def Mod.proxyServe (m : Mod) (e : DirEntry) (h : Holder) (data : List Byte) (poison : Bool) : Mod :=
  let m := m.dirPut { e with owner := some h, agents := [], busy := none }
  match h with
  | .agent a => m.send { kind := .data, src := none, dst := some a, line := e.line, data := data, grant := .m, poison := poison }
  | .member _ => m

/-- The end of a transaction reads or writes its line in memory. -/
def DirReq.needsMemory : DirReq → Bool
  | .rdS _ | .rdX _ | .nc _ | .push _ => true
  | _ => false

/-- End a transaction that waits for nothing: a home line is served, once its package serves requests (09 R264); a line of another module
is asked of its home, unless the module's own data serves it. A snoop from that home goes first (11 R305). -/
def Mod.endIfDone (m : Mod) (e : DirEntry) : Mod :=
  match e.busy with
  | none => m.dirPut e
  | some t =>
    if !(t.await.isEmpty && t.data.isEmpty && t.push.isNone) then m.dirPut e
    else if !e.proxy then (if m.lineHolds e.line && t.req.needsMemory then m.dirPut e else m.finishTxn e t)
    else
      match t.req with
      | .rdS h | .rdX h | .upg h =>
        match t.line with
        | some (d, p) => m.proxyServe e h d p
        | none => if e.held.isSome then (m.requeue e.line t.req).dirPut { e with busy := none } else m.askHome e t.req
      | _ => m.finishTxn e t

/-- The directory accepts a request for a line that is not BUSY: it snoops the holders that stand in the way (11 R299, R300, R307). Of a
line of another module a local owner is recalled to I, so that its data can serve the request. -/
def Mod.startTxn (m : Mod) (e : DirEntry) (req : DirReq) : Mod :=
  let begin_ := fun (m : Mod) (req : DirReq) (snoop : MsgKind) (hs : List Holder) =>
    (hs.foldl (fun m h => m.snoop h snoop e.line) m).endIfDone { e with busy := some { req := req, await := hs, data := [], push := none } }
  let others := fun (h : Holder) => e.sharers.filter (· != h)
  let owners := e.owner.toList
  match req with
  | .rdS h => begin_ m req (if e.proxy then .recallI else .recallS) (owners.filter (· != h))
  | .rdX h => if e.owner.isSome then begin_ m req .recallI (owners.filter (· != h)) else begin_ m req .inv (others h)
  | .upg h =>
    if e.sharers.contains h && e.owner.isNone then begin_ m req .inv (others h)
    else
      let m := m.addFld F.DIR_COUNT_COUNT 1 0 5
      if e.owner.isSome then begin_ m (.rdX h) .recallI (owners.filter (· != h)) else begin_ m (.rdX h) .inv (others h)
  | .nc r =>
    if r.writes then
      (if e.owner.isSome then begin_ m req .recallI owners else begin_ m req .inv e.sharers)
    else begin_ m req .recallS owners
  | .evict => if e.owner.isSome then begin_ m req .recallI owners else begin_ m req .inv e.sharers
  | .snoop k =>
    if e.owner.isSome then begin_ m req (if k = 0 then .recallS else .recallI) owners
    else if k = 0 then begin_ m req .recallS [] else begin_ m req .inv e.sharers
  | .push _ | .absorbed => m.leave e

/-! ### Requests that reach the directory -/

def Mod.dirBusy (m : Mod) (line : Nat) : Bool := (m.dirFind line).any (fun e => e.busy.isSome)

/-- An entry for a line that has none. -/
def newEntry (line : Nat) : DirEntry :=
  { line := line, proxy := (lineNode line).isSome, owner := none, agents := [], members := [], busy := none }

/-- A full set: its least recently used way that is not BUSY is evicted (11 R297). -/
def Mod.makeRoom (m : Mod) (line : Nat) : Mod :=
  match (m.setWays line).find? (fun e => e.busy.isNone) with
  | some v => (m.addFld F.DIR_COUNT_COUNT 1 0 1).startTxn v .evict
  | none => m

/-- The whole line is read and sent to the target of its write's hint (11 R304). A line that cannot be read is not pushed. -/
def Mod.pushStart (m : Mod) (line target : Nat) : Mod :=
  let (m, d, st) := m.homeRead line (agentCore target)
  if st = .ok ∨ isPoison st = true then
    (m.dirPut { newEntry line with busy := some { req := .push target, await := [], data := [], push := some target } }).send
      { kind := .push, src := none, dst := some (Fin.ofNat 65 target), line := line, data := d, grant := .e, poison := isPoison st }
  else m

/-- The directory takes up a request of a line that may start: with its entry, or with a new one, for which a way of the set may have to
be evicted first (11 R297, R298). A line that has holders again gets no Push. -/
def Mod.accept (m : Mod) (line : Nat) (req : DirReq) : Mod :=
  match m.dirFind line, req with
  | some _, .push _ => m
  | some e, _ => m.startTxn e req
  | none, _ =>
    let m := if m.setFull line then m.makeRoom line else m
    if m.setFull line then m.toRetry line req
    else match req with
      | .push t => m.pushStart line t
      | _ => m.startTxn (newEntry line) req

/-- A line fill of a package in HOLD waits there (09 R264), as a request of the core or member for its 64 bytes. An upgrade needs no data. -/
def Mod.fillOf (m : Mod) (line : Nat) (req : DirReq) : Option (Nat × LpReq) :=
  match lpddrAt line with
  | none => none
  | some (k, _) =>
    let fill := fun (h : Holder) =>
      let src := match h with
        | .agent _ => Src.agent (holderReader h)
        | .member i => .fabric (Fin.ofNat 16384 (m.node / 64 * 64 + i.val)) 0 0
      some (k, ({ src := src, cls := if src == .agent (holderReader h) then 2 else 1, addr := line, op := .read 64, deadline := 0,
                  lateAtIssue := false } : LpReq))
    if !m.holds k then none
    else match req with
      | .rdS h | .rdX h => fill h
      | .upg h => if (m.dirFind line).any (fun e => e.owner.isNone && e.sharers.contains h) then none else fill h
      | _ => none

/-- A request about a line at the directory (11 R299): behind a BUSY line, earlier requests or a write in flight it waits in the retry
queue; while that is full every new one waits at its source (R298). -/
def Mod.dirTake (m : Mod) (line : Nat) (req : DirReq) : Mod :=
  if 512 ≤ m.retry.length || m.dirBusy line || (m.retry ++ m.reqSrc).any (waitsFor line) || m.lineInFlight line then m.toRetry line req
  else match m.fillOf line req with
    | some (k, r) => m.lpQueue k (chanOf line) r none (some req)
    | none => m.accept line req

/-- A request of a caching agent or a member reaches the directory, which looks its line up (Table 11.10). -/
def Mod.dirRequest (m : Mod) (line : Nat) (req : DirReq) : Mod := (m.addFld F.DIR_COUNT_COUNT 1 0 0).dirTake line req

/-- A non-caching request finds a line that has to wait (11 R299): it starts the line's transaction, or waits behind others. -/
def Mod.ncWait (m : Mod) (line : Nat) (ahead : List (Nat × DirReq)) (r : NcReq) : Mod :=
  match m.dirFind line with
  | some e =>
    if e.busy.isNone && !ahead.any (waitsFor line) && !m.lineInFlight line then m.startTxn e (.nc r) else m.toRetry line (.nc r)
  | none => m.toRetry line (.nc r)

/-- The oldest waiting request of a line leaves the retry queue, when its line is free and no earlier request waits for it (11 R298, R299);
one that needs a way of a full set has the least recently used way evicted. -/
def Mod.retryRelease (m : Mod) (line : Nat) : Mod :=
  let mine := fun (r : Nat × DirReq) => r.1 == line
  let pre := m.retry.takeWhile (fun r => !mine r)
  match m.retry.drop pre.length with
  | [] => m
  | (_, req) :: post =>
    let taken := fun (m : Mod) => ({ m with retry := pre ++ post } : Mod).retryRefill
    if m.dirBusy line || pre.any (waitsFor line) || m.lineInFlight line then m
    else match req with
      | .nc r =>
        match m.cohPrepare r.addr (opLen r.op) r.writes pre with
        | (_, some l) =>
          if l = line then (match m.dirFind line with
            | some e => (taken m).startTxn e req
            | none => m)
          else { m with retry := pre ++ (l, req) :: post }
        | (_, none) =>
          if (lpddrAt r.addr).any (fun p => m.holds p.1) then m
          else (taken m).ncPerform r
      | _ =>
        if m.lineHolds line && req.needsMemory then
          match m.fillOf line req with
          | some (k, q) => (taken m).lpQueue k (chanOf line) q none (some req)
          | none => m
        else if (m.dirFind line).isNone && m.setFull line then
          if (m.setWays line).any (fun e => e.busy.any (fun t => t.req == .evict)) then m
          else
            let m' := m.makeRoom line
            if m'.setFull line then m' else (taken m').accept line req
        else (taken m).accept line req

/-! ## Answers at the directory -/

/-- An answer that a WbData has made void is ignored (11 R309). -/
def Mod.unstale (m : Mod) (h : Holder) (line : Nat) : Option Mod :=
  if m.stale.contains (h, line) then some { m with stale := m.stale.erase (h, line) } else none

/-- A holder answers its snoop; `gone` when it no longer holds the line, `dirty` when its data follows, unless it came first. -/
def Mod.holderAnswer (m : Mod) (line : Nat) (h : Holder) (gone dirty : Bool) : Mod :=
  match m.unstale h line with
  | some m => m
  | none =>
    match m.dirFind line with
    | none => m
    | some e =>
      match e.busy with
      | none => m
      | some t =>
        if !t.await.contains h then m
        else
          let t := { t with await := t.await.filter (· != h), data := if dirty && !t.got.contains h then t.data ++ [h] else t.data }
          let wasOwner := e.owner == some h
          let e := if gone then e.dropHolder h
            else if wasOwner then ({ e with owner := none }).addSharer h else e
          m.endIfDone { e with busy := some t }

/-- A recall of the transaction leaves its holder in S: RecallS. -/
def DirEntry.keepsS (e : DirEntry) : Bool :=
  match e.busy with
  | none => false
  | some t =>
    match t.req with
    | .rdS _ => !e.proxy
    | .nc r => !r.writes
    | .snoop k => k == 0
    | _ => false

/-- RecallAck from a holder (11 R306, R309). -/
def Mod.recallAnswer (m : Mod) (line : Nat) (h : Holder) (k : AckKind) : Mod :=
  let keep := (m.dirFind line).any DirEntry.keepsS
  match k with
  | .clean => m.holderAnswer line h (!keep) false
  | .dirtyFollows => m.holderAnswer line h (!keep) true
  | .notHeld => m.holderAnswer line h true false

/-- Dirty data for a line of another module goes to its home (11 R311). -/
def Mod.dirtyHome (m : Mod) (line : Nat) (data : List Byte) (poison : Bool) (k : MsgKind) : Mod :=
  match lineNode line with
  | some n => m.emit (.coh (n % 64) k line data .i poison)
  | none => m.homeWrite line data poison

/-- A transaction that a local agent's request for another module's line opened: dirty data of the old owner serves it (11 R310). -/
def DirEntry.servesData (e : DirEntry) (t : DirTxn) : Bool :=
  e.proxy && (match t.req with
    | .rdS _ | .rdX _ | .upg _ => t.line.isNone
    | _ => false)

/-- Dirty data of a holder is taken: kept for the request it serves, or written at its home. -/
def Mod.takeDirty (m : Mod) (e : DirEntry) (t : DirTxn) (data : List Byte) (poison : Bool) (k : MsgKind) : Mod × DirTxn :=
  if e.servesData t then (m, { t with line := some (data, poison) }) else (m.dirtyHome e.line data poison k, t)

/-- RecallData is taken (11 R308): it may come before its RecallAck, or, from a module that has evicted its proxy entry, unasked (R311). -/
def Mod.recallTaken (m : Mod) (line : Nat) (h : Holder) (data : List Byte) (poison : Bool) : Mod :=
  match m.dirFind line with
  | none => m
  | some e =>
    match e.busy with
    | none => if e.owner == some h then (m.dirtyHome line data poison .recallData).leave (e.dropHolder h) else m
    | some t =>
      if t.data.contains h || t.await.contains h then
        let (m, t) := m.takeDirty e t data poison .recallData
        m.endIfDone { e with busy := some { t with data := t.data.filter (· != h), got := t.got ++ [h] } }
      else if e.owner == some h then (m.dirtyHome line data poison .recallData).dirPut (e.dropHolder h)
      else m

/-- WbData is taken: written, acknowledged, and it ends an open recall to its sender, whose own answer is then ignored (11 R309). Data of a
holder that the directory has given up is not written (R313). -/
def Mod.wbTaken (m : Mod) (line : Nat) (h : Holder) (data : List Byte) (poison : Bool) : Mod :=
  let ack := fun (m : Mod) => match h with
    | .agent a => m.send { kind := .wbAck, src := none, dst := some a, line := line }
    | .member i => m.emit (.coh i.val .wbAck line [] .i false)
  match m.dirFind line with
  | none => ack m
  | some e =>
    match e.busy with
    | none => if e.owner == some h then (ack (m.dirtyHome line data poison .wbData)).leave (e.dropHolder h) else ack m
    | some t =>
      if !(t.await.contains h || t.data.contains h || e.owner == some h) then ack m
      else
        let open_ := t.await.contains h
        let (m, t) := if open_ || t.data.contains h then m.takeDirty e t data poison .wbData else (m.dirtyHome line data poison .wbData, t)
        let m := if open_ then { m with stale := m.stale ++ [(h, line)] } else m
        (ack m).endIfDone { e.dropHolder h with busy := some { t with await := t.await.filter (· != h), data := t.data.filter (· != h) } }

/-- RecallData arrives; in a package in HOLD it waits (09 R264). -/
def Mod.recallDataIn (m : Mod) (line : Nat) (h : Holder) (data : List Byte) (poison : Bool) : Mod :=
  if m.lineHolds line then m.parkData ⟨line, some (h, false), data, poison⟩ else m.recallTaken line h data poison

/-- WbData arrives; in a package in HOLD it waits. -/
def Mod.wbDataIn (m : Mod) (line : Nat) (h : Holder) (data : List Byte) (poison : Bool) : Mod :=
  if m.lineHolds line then m.parkData ⟨line, some (h, true), data, poison⟩ else m.wbTaken line h data poison

/-- WbPend: the directory waits for the holder's WbData (11 R309). -/
def Mod.wbPendIn (m : Mod) (line : Nat) (h : Holder) : Mod :=
  match m.unstale h line with
  | some m => m
  | none =>
    match m.dirFind line with
    | none => m
    | some e =>
      match e.busy with
      | none => m
      | some t =>
        if !t.await.contains h then m
        else m.dirPut { e with busy := some { t with await := t.await.filter (· != h), data := t.data ++ [h] } }

/-! ## Loss of holders -/

/-- Poison lines lost with a holder and raise 0x0701 once (11 R314). -/
def Mod.poisonLines (m : Mod) (who : Nat) (lines : List Nat) : Mod :=
  let m := lines.foldl (fun m l => m.poisonHome l) m
  match lines with
  | [] => m
  | l :: _ => m.raise 0x0701 (d1 who ++ dCount lines.length ++ d8 l)

def DirReq.holder : DirReq → Option Holder
  | .rdS h | .rdX h | .upg h => some h
  | .push t => some (.agent (Fin.ofNat 65 t))
  | _ => none

/-- Remove a holder from every entry: transactions that wait for it take its answer as not-held, its own requests are absorbed (11 R313,
R315). -/
def Mod.removeHolder (m : Mod) (h : Holder) : Mod :=
  m.dir.foldl (fun m e0 =>
    match m.dirFind e0.line with
    | none => m
    | some e =>
      let e := e.dropHolder h
      match e.busy with
      | some t =>
        let t := { t with await := t.await.filter (· != h), data := t.data.filter (· != h),
                          req := if t.req.holder = some h then .absorbed else t.req,
                          push := if t.push.any (fun a => h == .agent (Fin.ofNat 65 a)) then none else t.push }
        m.endIfDone { e with busy := some t }
      | none => m.leave e) { m with stale := m.stale.filter (fun s => s.1 != h) }

/-- Requests that wait at the directory are absorbed (11 R313). -/
def Mod.dropRetries (m : Mod) (p : DirReq → Bool) : Mod :=
  ({ m with retry := m.retry.filter (fun r => !p r.2), reqSrc := m.reqSrc.filter (fun r => !p r.2) } : Mod).retryRefill

/-- Lines that a holder owns, or whose dirty data is still to come from it. -/
def Mod.ownedBy (m : Mod) (h : Holder) (proxy : Bool) : List Nat :=
  (m.dir.filter (fun e => e.proxy == proxy && (e.owner == some h || e.busy.any (fun t => t.data.contains h)))).map (·.line)

/-- Caching agents are reset or lost in one event (11 R315, Table 11.7): their dirty lines are written back (`clean`), or every line they
owned is poisoned, one of another module at its home; then they are removed everywhere. -/
def Mod.loseAgents (m : Mod) (as : List (Fin 65)) (clean : Bool) : Mod :=
  let lost := fun (a : Fin 65) => as.contains a
  let mine := m.lines.filter (fun l => as.any (fun a => a.val == l.agent))
  let wbs := m.net.filter (fun x => x.src.any lost && (x.kind == .wbData || x.kind == .recallData))
  let m :=
    if clean then
      let m := wbs.foldl (fun m x => m.dirtyHome x.line x.data x.poison .wbData) m
      (mine.filter (fun l => l.st == .m)).foldl (fun m l => m.dirtyHome l.addr l.data l.poison .wbData) m
    else
      let m := m.poisonLines (as.headD 0).val (as.flatMap (fun a => m.ownedBy (.agent a) false)).eraseDups
      (as.flatMap (fun a => m.ownedBy (.agent a) true)).eraseDups.foldl (fun m l => m.dirtyHome l (List.replicate 64 0) true .wbData) m
  let m := { m with lines := m.lines.filter (fun l => !as.any (fun a => a.val == l.agent)),
                    net := m.net.filter (fun x => !x.src.any lost && !x.dst.any lost),
                    coreq := m.coreq.filter (fun x => !(cacheOf x.ag).any lost) }
  as.foldl (fun m a => (m.dropRetries (fun r => r.holder == some (.agent a))).removeHolder (.agent a)) m

def Mod.loseAgent (m : Mod) (a : Fin 65) (clean : Bool) : Mod := m.loseAgents [a] clean

/-- A non-caching request came from a member of the domain. -/
def Mod.ncOf (m : Mod) (i : Fin 64) : DirReq → Bool
  | .nc r => match r.src with
    | .fabric n _ _ => n.val == m.node / 64 * 64 + i.val
    | _ => false
  | _ => false

/-- A member of the domain is fenced (11 R313, R314). -/
def Mod.loseMember (m : Mod) (i : Fin 64) : Mod :=
  let h := Holder.member i
  (((m.poisonLines i.val (m.ownedBy h false)).dropRetries (fun r => r.holder == some h || m.ncOf i r))).removeHolder h

/-- A hard reset of an application core: the shared L2 marks poisoned every line that the core's L1 held modified (11 Table 11.7). -/
def Mod.poisonL1 (m : Mod) (core : Nat) : Mod :=
  let hit := fun (l : Line) => decide (l.agent = 64 ∧ l.l1 = some core)
  { m with poisonDue := if m.lines.any hit then (m.lines.filter hit).length else m.poisonDue,
           lines := m.lines.map (fun l => if hit l then { l with poison := true, l1 := none } else l) }

/-- A clean reset of an application core: its L1 writes its dirty lines into the shared L2 (11 Table 11.7). -/
def Mod.flushL1 (m : Mod) (core : Nat) : Mod :=
  { m with lines := m.lines.map (fun l => if l.agent = 64 ∧ l.l1 = some core then { l with l1 := none } else l) }

/-! ## What a command reaches -/

/-- A request of class REQ reaches the home: from a local agent it is the message in flight; from a member it comes through the
fabric. -/
def Mod.reqArrives (m : Mod) (h : Holder) (line : Nat) (k : MsgKind) (req : DirReq) : Mod :=
  match h with
  | .agent a =>
    match m.recv (fun x => x.kind == k && x.src == some a && x.line == line) with
    | none => m
    | some (_, m) => m.dirRequest line req
  | .member _ => m.dirRequest line req

/-- An agent's copy of another module's line is invalidated at once, because its own upgrade is on its way to the home (11 R306). One whose
data is on its way uses it once. -/
def Mod.dropSharer (m : Mod) (line : Nat) (a : Fin 65) : Mod :=
  match m.lineFind a.val line with
  | some l => if l.st = .isE then m.linePut { l with snoop := some 2 } else m.recallLocal a line true
  | none => m

/-- A snoop from the line's remote home meets the module's proxy entry (11 R305, R306, R310): behind an open transaction it waits for what
that waits for, answers or data; an Inv behind an upgrade that the home has not granted is answered at once (Table 11.4). -/
def Mod.homeSnoops (m : Mod) (line k : Nat) : Mod :=
  match m.dirFind line with
  | none => m.answerHome line k .notHeld
  | some e =>
    match e.busy with
    | none => m.startTxn e (.snoop k)
    | some t =>
      let upg := match t.req with
        | .upg _ => t.await.contains (homeHolder line)
        | _ => false
      if k = 2 && upg then
        ((e.agents.foldl (fun m a => m.dropSharer line a) m).dirPut { e with agents := [] }).answerHome line k .clean
      else m.dirPut { e with held := some k }

/-- A snoop reaches a local agent (the message in flight), or this module's hub from the line's remote home (11 R310). -/
def Mod.snoopArrives (m : Mod) (dst : Option (Fin 65)) (line k : Nat) (kind : MsgKind) : Mod :=
  match dst with
  | some a =>
    match m.recv (fun x => x.kind == kind && x.dst == some a && x.line == line) with
    | none => m
    | some (_, m) => m.answerSnoop a line k
  | none => m.homeSnoops line k

/-- An answer of a holder reaches the directory: the message in flight of a local agent, or one from a member. -/
def Mod.answerArrives (m : Mod) (h : Holder) (line : Nat) (p : MsgKind → Bool) (f : Mod → MsgKind → Mod) (remote : MsgKind) : Mod :=
  match h with
  | .agent a =>
    match m.recv (fun x => p x.kind && x.src == some a && x.line == line) with
    | none => m
    | some (x, m) => f m x.kind
  | .member _ => f m remote

/-- Data or a grant reaches an agent (11 R306). -/
def Mod.dataArrives (m : Mod) (a : Fin 65) (line : Nat) (kind : MsgKind) : Mod :=
  match m.recv (fun x => x.kind == kind && x.dst == some a && x.line == line) with
  | none => m
  | some (x, m) =>
    match m.lineFind a.val line with
    | none => m
    | some l =>
      if kind = .grantM then (if l.st = .sm then m.grantLine { l with st := .m } else m)
      else if l.st = .isE ∨ l.st = .im ∨ l.st = .sm then
        if x.why = .ok then m.grantLine { l with st := x.grant, data := x.data, poison := x.poison } else m.grantFails l x.why
      else m

/-- Data or a grant from the remote home reaches this module's hub (11 R310): the asking agent gets it. -/
def Mod.proxyGrant (m : Mod) (line : Nat) (data : List Byte) (g : LState) (poison : Bool) (grantOnly : Bool) : Mod :=
  match m.dirFind line with
  | none => m
  | some e =>
    match e.busy with
    | none => m
    | some t =>
      let give := fun (h : Holder) (e : DirEntry) (g : LState) =>
        match h with
        | .agent a =>
          (m.dirPut e).send { kind := if grantOnly then .grantM else .data, src := none, dst := some a, line := line,
                              data := data, grant := g, poison := poison }
        | .member _ => m.dirPut e
      if !t.await.contains (homeHolder line) then m
      else
        let e := { e with busy := none }
        match t.req with
        | .rdS h => if g = .s then give h (e.addSharer h) .s else give h { e with owner := some h, agents := [] } g
        | .rdX h | .upg h => give h { e with owner := some h, agents := [] } .m
        | _ => m.leave e

/-- An answer to a Push reaches the directory (11 R304). -/
def Mod.pushAnswer (m : Mod) (a : Fin 65) (line : Nat) (kind : MsgKind) (accepted : Bool) : Mod :=
  match m.recv (fun x => x.kind == kind && x.src == some a && x.line == line) with
  | none => m
  | some (_, m) =>
    match m.dirFind line with
    | none => m
    | some e =>
      if (e.busy.bind (·.push)) = some a.val then
        (if accepted then (m.dirPut { e with owner := some (.agent a), busy := none }).addFld F.DIR_COUNT_COUNT 1 0 3
         else (m.dirFree line).addFld F.DIR_COUNT_COUNT 1 0 4)
      else m

/-- Start the eviction of every proxy entry (11 R312). -/
def Mod.remoteEnClear (m : Mod) : Mod :=
  if m.fld F.DIR_CTL_REMOTE_EN = 0 then m
  else
    let m := m.setFld F.DIR_STATUS_DRAINING 1
    (m.dir.filter (fun e => e.proxy && e.busy.isNone)).foldl (fun m e => m.startTxn e .evict) m

/-! ## What goes on by itself at the end of a command -/

/-- Hinted lines whose write has been acknowledged are pushed (11 R303, R304), once their package serves requests. -/
def Mod.pushHinted (m : Mod) : Mod :=
  if m.pushDue.isEmpty then m
  else
    let push := fun (m : Mod) (p : Nat × Nat) =>
      if m.fld F.DIR_CTL_HINT_EN = 0 ∨ 64 < p.2 ∨ cacheableHere p.1 = false then m else m.accept p.1 (.push p.2)
    (m.pushDue.filter (fun p => !m.lineHolds p.1)).foldl push { m with pushDue := m.pushDue.filter (fun p => m.lineHolds p.1) }

/-- Snoops of remote homes that waited for a proxy's transaction go on (11 R305); while the directory drains, proxy entries that have come
to rest are evicted (Table 11.10). -/
def Mod.dirSettle (m : Mod) : Mod :=
  let m := (m.dir.filter (fun e => e.busy.isNone && e.held.isSome)).foldl (fun m e => m.startTxn { e with held := none } (.snoop (e.held.getD 0))) m
  if m.fld F.DIR_STATUS_DRAINING = 1 then (m.dir.filter (fun e => e.proxy && e.busy.isNone)).foldl (fun m e => m.startTxn e .evict) m else m

end Sys2Proof.Machine
end

