-- ==== Sys2Proof/Machine/Access.lean ====
section
/-! DEFINITION. Accesses of agents that do not cache: reads, writes, atomics and alias writes of local memory by their address forms (01 R24,
R25; 08 R233-R235; 11 R300), and what goes on by itself at the end of a command when requests wait. -/

namespace Sys2Proof.Machine

open Sys2Proof

/-! ## One request -/

/-- The request's package is in HOLD (09 R264). -/
def Mod.heldBack (m : Mod) (r : NcReq) : Bool := (lpddrAt r.addr).any (fun p => m.holds p.1)

/-- The directory's part of a request of populated memory, then the memory's (11 R299, R300). In a package in HOLD it waits before both. -/
def Mod.ncTry (m : Mod) (r : NcReq) : Mod × Reply :=
  match lpddrAt r.addr, m.heldBack r with
  | some (k, _), true => (m.lpQueue k (chanOf r.addr) r.lp (some r) none, .waits)
  | _, _ =>
    let ahead := m.retry ++ m.reqSrc
    match m.cohPrepare r.addr (opLen r.op) r.writes ahead with
    | (m, some l) => (m.ncWait l ahead r, .waits)
    | (m, none) => m.memPerform r

/-- A request reaches the hub: its lookups (11 R301), and its wait at its source while the retry queue is full (R298); a page without
entries skips the directory. -/
def Mod.ncIssue (m : Mod) (r : NcReq) : Mod × Reply :=
  let n := opLen r.op
  let full := decide (512 ≤ m.retry.length) && (linesOf r.addr n).any (fun l => cacheableHere l && m.pagePresent l)
  let m := m.lookups r.addr n
  if full then ({ m with reqSrc := m.reqSrc ++ [(lineOf r.addr, .nc r)] }, .waits) else m.ncTry r

/-- An access to local LPDDR or on-chip memory (not an alias, not a register). `hint`: the target of a write hint (11 R303); `ochre`: a
narrow read that goes through Ochre (09 R258); `sport`: an access of the S port's user (03 R68). -/
def Mod.memAccess (m : Mod) (src : Src) (ag : Agent) (a : Nat) (op : MemOp) (dl : Nat × Bool := (0, false)) (hint : Option Nat := none)
    (ochre : Bool := false) (sport : Bool := false) : Mod × Reply :=
  let n := opLen op
  if n = 0 then (m, .done .access [])
  else if !memPopulated a n then (m, .done .range [])
  else m.ncIssue { src := src, ag := ag, op := op, addr := a, hint := hint, dl := dl, ochre := ochre, sport := sport }

/-- An 8-byte atomic at local memory (06 R199; 12 R338); `quiet`: one that returns no data (08 R235). -/
def Mod.memAtom (m : Mod) (src : Src) (ag : Agent) (a : Nat) (op : AtomOp) (quiet : Bool := false) : Mod × Reply :=
  if a % 8 ≠ 0 then (m, .done .protocol [])
  else if !memPopulated a 8 then (m, .done .range [])
  else m.ncIssue { src := src, ag := ag, op := .read 8, addr := a, atom := some op, quiet := quiet }

/-- A write to a bit-set or bit-clear alias (08 R233-R235): 8 bytes, 8-byte aligned, otherwise ST_ACCESS; it returns no data. -/
def Mod.aliasWrite (m : Mod) (src : Src) (ag : Agent) (a size data : Nat) : Mod × Reply :=
  match aliasOf a with
  | none => (m, .done .range [])
  | some (set, target) =>
    if !memPopulated target 1 then (m, .done .range [])
    else if size ≠ 8 ∨ a % 8 ≠ 0 then (m, .done .access [])
    else m.memAtom src ag target { fn := if set then .set else .clear, operand := BitVec.ofNat 64 data, compare := 0 } true

/-- An access to local memory by its address form: populated memory, or an alias of it (a read of an alias is a read of the aliased
bytes; 08 R233). Register regions are not memory. -/
def Mod.localMem (m : Mod) (src : Src) (ag : Agent) (a : Nat) (op : MemOp) (dl : Nat × Bool := (0, false)) (hint : Option Nat := none)
    (ochre : Bool := false) (sport : Bool := false) : Mod × Reply :=
  match aliasOf a with
  | none => m.memAccess src ag a op dl hint ochre sport
  | some (_, target) =>
    match op with
    | .read _ => m.memAccess src ag target op dl none ochre
    | .write d =>
      if d.all Option.isSome then m.aliasWrite src ag a d.length (ofBytes (d.map (fun b => b.getD 0)))
      else
        -- a byte mask that selects exactly one aligned quantity (08 R233, 12 R338)
        match (List.range (d.length / 8)).find? (fun i => (nth d (8 * i) none).isSome) with
        | some i =>
          let q := (d.drop (8 * i)).take 8
          if q.all Option.isSome && (d.filter Option.isSome).length == 8 then
            m.aliasWrite src ag (a + 8 * i) 8 (ofBytes (q.map (fun b => b.getD 0)))
          else (m, .done .access [])
        | none => (m, .done .access [])

/-! ## Requests that waited -/

/-- A request that waited through a HOLD is served (09 R264): a line fill goes to the directory, a non-caching request through it. -/
def Mod.heldServe (m : Mod) (k : Nat) (w : LpWait) : Mod :=
  let serve := fun (m : Mod) =>
    let (m, st, d) := m.serve1 k w
    m.emit (.compl w.req.src st d)
  match w.fill, w.nc with
  | some req, _ => m.dirTake (lineOf w.req.addr) req
  | none, some r =>
    let ahead := m.retry ++ m.reqSrc
    match m.cohPrepare r.addr (opLen r.op) r.writes ahead with
    | (m, some l) => m.ncWait l ahead r
    | (m, none) => if r.ochre && !r.writes then m.ochRequest r.src r.addr (opLen r.op) else serve m
  | none, none => serve m

/-- A request that waited at its source tries again (10 R287, R288): unless its package is in HOLD its directory part comes first. -/
def Mod.admit1 (m : Mod) (k : Nat) (b : LpHeld) : Mod :=
  let enter := fun (m : Mod) => m.lpEnter k b.ch b.id b.req b.nc b.fill
  if m.holds k then enter m
  else match b.fill, b.nc with
    | some req, _ => m.dirTake (lineOf b.req.addr) req
    | none, some r =>
      let ahead := m.retry ++ m.reqSrc
      match m.cohPrepare r.addr (opLen r.op) r.writes ahead with
      | (m, some l) => m.ncWait l ahead r
      | (m, none) => if r.ochre && !r.writes then m.ochRequest r.src r.addr (opLen r.op) else enter m
    | none, none => enter m

/-- Requests of a package that wait at their sources try again, in order. -/
def Mod.admitAll (m : Mod) (k : Nat) : Mod :=
  let bs := (m.mcOf k).backlog
  if bs.isEmpty then m else bs.foldl (fun m b => m.admit1 k b) (m.modMc k (fun mc => { mc with backlog := [] }))

/-- Dirty data that waited through a HOLD is taken. -/
def Mod.takeHomeData (m : Mod) (x : HomeData) : Mod :=
  match x.from_ with
  | none => m.homeStore x.line x.data x.poison
  | some (h, true) => m.wbTaken x.line h x.data x.poison
  | some (h, false) => m.recallTaken x.line h x.data x.poison

/-- A transaction that waits for its package alone. -/
def DirEntry.waitsHome (e : DirEntry) : Bool := !e.proxy && e.busy.any (fun t => t.await.isEmpty && t.data.isEmpty && t.push.isNone)

/-- A HOLD has ended: its dirty data is written, transactions that wait for the package end, and the requests that waited are served in
arrival order within their priority (09 R264). -/
def Mod.endHold (m : Mod) (k : Nat) : Mod :=
  if m.holds k then m
  else
    let mc := m.mcOf k
    let m := mc.homeData.foldl (fun m x => m.takeHomeData x) (m.modMc k (fun c => { c with hold := [], homeData := [] }))
    let m := (m.dir.filter (fun e => e.waitsHome && (lpddrAt e.line).any (fun p => p.1 == k))).foldl (fun m e => m.endIfDone e) m
    let prio := fun (w : LpWait) => if w.req.cls.val = 0 then m.streamPrio w.deadline w.late else m.classPrio k w.req.cls.val
    ([7, 6, 5, 4, 3, 2, 1, 0].flatMap (fun p => mc.hold.filter (fun w => prio w == p))).foldl (fun m w => m.heldServe k w) m

/-- No request waits for what the end of a command can give it. -/
def Mod.memQuiet (m : Mod) : Bool :=
  m.mc.all (fun c => c.backlog.isEmpty && c.hold.isEmpty && c.homeData.isEmpty) &&
  m.dir.all (fun e => !e.waitsHome && e.held.isNone) && m.ochSrc.isEmpty && m.pushDue.isEmpty && m.coreq.isEmpty &&
  m.fld F.DIR_STATUS_DRAINING == 0

/-- What goes on by itself at the end of a command: packages that have left HOLD, requests that wait at their sources, Pushes of hinted
writes, snoops that waited for a proxy entry. -/
def Mod.memSettle (m : Mod) : Mod :=
  if m.memQuiet then m
  else
    let m := (List.range 24).foldl (fun m k => (m.endHold k).admitAll k) m
    m.ochAdmit.pushHinted.dirSettle

end Sys2Proof.Machine
end

