-- ==== Sys2Proof/Machine/Fabric.lean ====
section
/-! DEFINITION. The Indigo fabric (12): membership, protocol violations, inbound packets, joins, fences and managers, the global request
table's timers, and drains. -/

namespace Sys2Proof.Machine

open Sys2Proof

/-! ## Protocol violations (12 Table 12.7) -/

/-- A violation is counted and logged; the first of each code since VALID was last cleared raises 0x0808 (12 R354). -/
def Mod.violation (m : Mod) (code port : Nat) (src ty : Nat) : Mod :=
  let m := m.addFld F.FAB_COUNT_COUNT 1 0 3
  let m := (((m.setFld F.FAB_VIOL_LOG_CODE code).setFld F.FAB_VIOL_LOG_PORT port).setFld F.FAB_VIOL_LOG_SRC src).setFld F.FAB_VIOL_LOG_TYPE ty
  let m := m.setFld F.FAB_VIOL_LOG_VALID 1
  if bit m.fab.violSeen code then m
  else (m.modFab (fun f => { f with violSeen := f.violSeen ||| 2 ^ code })).raise 0x0808 (d8 (m.reg (F.FAB_VIOL_LOG_CODE.addr 0 0)).toNat)

/-- Payload bytes of the head flit that 12 Table 12.4 assigns, as (offset, size); the others are reserved. -/
def assignedBytes (p : Packet) : List (Nat × Nat) :=
  let ty := p.ty.toNat
  let addr := [(0, 6)]
  let path := if p.srcrt ∨ ty = 0x62 then [(0x30, 8)] else []
  let own :=
    if ty = 0x01 ∨ ty = 0x03 ∨ ty = 0x60 then addr
    else if ty = 0x02 then addr ++ [(0x18, 1)]
    else if ty = 0x04 ∨ ty = 0x61 then addr ++ [(8, 8)]
    else if ty = 0x05 then addr ++ [(8, 8), (0x18, 1)] ++ (if p.byteAt 0x18 = 2 then [(0x10, 8)] else [])
    else if ty = 0x06 ∨ ty = 0x07 then addr ++ [(0x19, 1)]
    else if ty = 0x08 then [(0x20, 2), (0x24, 4)]
    else if ty = 0x09 ∨ ty = 0x0A then [(0, 32)]
    else if ty = 0x40 then [(0, 32)]
    else if ty = 0x41 then [(0, 64)]
    else if ty = 0x64 then [(0, 2)]
    else if ty = 0x65 ∨ ty = 0x66 then [(0, 2)] ++ (if p.vc.val = 4 then [(0x1A, 1)] else [])
    else if ty = 0x70 then addr ++ [(0x19, 1), (0x1A, 1)]
    else if 0x10 ≤ ty ∧ ty ≤ 0x1D then addr
    else []
  own ++ path

/-- A reserved field of the packet is not 0 (12 Table 12.7 code 2). -/
def reservedSet (p : Packet) : Bool :=
  p.reserved ||
  !((List.range 64).all (fun i => (assignedBytes p).any (fun r => r.1 ≤ i && i < r.1 + r.2) || p.byteAt i == 0)) ||
  ((p.ty.toNat == 0x64 || p.ty.toNat == 0x65 || p.ty.toNat == 0x66) && decide (0x4000 ≤ leAt p.head 0 2))

/-- LEN and BLOCKS are in range for the type, and LEN agrees with the body flits received (12 Tables 12.3, 12.4, 12.7). -/
def lengthOk (p : Packet) : Bool :=
  let n := p.len.toNat
  let b := p.byteAt 0x19
  let ty := p.ty.toNat
  p.body.length == 64 * n &&
  (if ty = 0x03 ∨ ty = 0x04 ∨ ty = 0x67 then n == 1
   else if ty = 0x06 then n == 0 && 1 ≤ b && b ≤ 64
   else if ty = 0x07 ∨ ty = 0x70 then 1 ≤ n && n ≤ 64 && b == n
   else if ty = 0x09 then 1 ≤ n && n ≤ 64
   else if ty = 0x0A then n ≤ 1
   else if 0x1B ≤ ty ∧ ty ≤ 0x1D then n == 1
   else if ty = 0x41 then n ≤ 63
   else n == 0)

/-- ADDR is aligned as the type requires, no bulk request crosses a 4 KiB boundary, and SIZE and AOP have values (12 R336, Table 12.4). -/
def alignOk (p : Packet) : Bool :=
  let ty := p.ty.toNat
  let a := p.addr
  let s := p.byteAt 0x18
  if ty = 0x02 then 3 ≤ s && s ≤ 5 && a % 2 ^ s == 0
  else if ty = 0x05 then decide (s ≤ 4)
  else if ty = 0x01 ∨ ty = 0x03 ∨ ty = 0x04 then a % 64 == 0
  else if ty = 0x06 ∨ ty = 0x07 then a % 64 == 0 && a / 4096 == (a + 64 * p.byteAt 0x19 - 1) / 4096
  else true

/-- Indices of FAB_FAILOVER that are used, in order (12 Table 12.10). -/
def Mod.failoverList (m : Mod) : List Nat :=
  ((List.range 8).filter (fun j => m.fld F.FAB_FAILOVER_VALID 0 0 j == 1)).map (fun j => m.fld F.FAB_FAILOVER_INDEX 0 0 j)

/-- A packet that breaks a rule of 12 Table 12.7 on its own, by code (checked in the table's order). -/
def Mod.violationOf (m : Mod) (port : Nat) (p : Packet) : Option Nat :=
  let ty := p.ty.toNat
  let mgr := m.fld F.FAB_ROLE_MANAGER
  let tree := p.byteAt 0x1A
  if !(classesOf ty).contains p.vc.val then some 1
  else if reservedSet p || !lengthOk p || !alignOk p then some 2
  else if m.fenced p.src.val && ty != 0x62 && !(ty == 0x66 && leAt p.head 0 2 == p.src.val && p.src.val == mgr) then some 6
  else if m.fld F.FAB_ROLE_STATE = 2 ∧ ty ≠ 0x62 ∧ p.src.val ≠ m.fld F.FAB_NODE_ID ∧ m.fld F.FAB_ROUTE_VALID 0 p.src.val = 0 ∧
      ¬((ty = 0x40 ∨ ty = 0x41) ∧ p.dst.val = mgr) then some 6
  else if p.vc.val = 4 ∧ (16 ≤ tree ∨ m.fld F.FAB_TREE_VALID 0 tree = 0 ∨ m.fld F.FAB_TREE_PARENT 0 tree ≠ port) then some 9
  else if p.srcrt ∧ p.dst.val ≠ m.fld F.FAB_NODE_ID ∧
      (p.pathLen ≤ p.pathPos ∨ 12 < p.pathLen ∨ 10 ≤ p.pathEntry p.pathPos ∨ m.laneState (p.pathEntry p.pathPos) ≠ 6) then some 10
  else none

/-- The home answers a request; while JOINING, out of the port the request came through (12 R321). -/
def Mod.answer (m : Mod) (port : Nat) (p : Packet) (st : Status) (data : List Byte) (lines : Bool) : Mod :=
  if m.fld F.FAB_ROLE_STATE = 1 then
    (m.addFld F.FAB_COUNT_COUNT 1 0 0).sendOn port
      (mkPacket (if lines then 3 else 2) (if lines then 0x41 else 0x40) p.src.val p.dst.val p.tag.val st.toNat (data.take 64) (data.drop 64))
  else m.response p.dst.val p.src.val p.tag.val st data lines

/-- A violating packet is discarded, or a request with a code that says so is answered (12 Table 12.7). -/
def Mod.violate (m : Mod) (code port : Nat) (p : Packet) : Mod :=
  let m := (m.freeFlits port p).violation code port p.src.val p.ty.toNat
  if code = 2 && isRequest p.ty.toNat then m.answer port p .protocol [] false
  else if code = 5 then m.addFld F.FAB_COUNT_COUNT 1 0 5
  else m

/-- A packet for another node goes on: HOPS falls, by PATH or by the route table (12 R328, R329). -/
def Mod.forward (m : Mod) (port : Nat) (p : Packet) : Mod :=
  if p.hops.toNat ≤ 1 then m.violate 5 port p
  else
    let p' := { p with hops := p.hops - 1 }
    if p.srcrt then
      let q := p.pathEntry p.pathPos
      ((m.freeFlits port p).addFld F.FAB_COUNT_COUNT 1 0 2).sendOn q { stepPath p' with sub := m.subAfter q (some port) p.sub }
    else m.passOn (some port) p'

/-- The module accepts a packet in its membership state (12 R321, Table 12.1). -/
def Mod.accepts (m : Mod) (p : Packet) : Bool :=
  let st := m.fld F.FAB_ROLE_STATE
  st == 2 || (st == 1 && (p.ty.toNat == 0x63 ||
    (m.fab.provisional && p.srcrt && (p.ty.toNat == 0x60 || p.ty.toNat == 0x61) && p.src.val == m.fld F.FAB_ROLE_MANAGER)))

/-- A request waits at its source (10 R287, R288; 11 R298). -/
def Mod.atSource (m : Mod) (src : Src) : Bool :=
  m.mc.any (fun c => c.backlog.any (fun b => b.req.src == src)) || m.ochSrc.any (fun x => x.2.1 == src) ||
  m.reqSrc.any (fun r => match r.2 with
    | .nc x => x.src == src
    | _ => false)

/-- The request of a packet that came through a port waits at its source. -/
def Mod.keeps (m : Mod) (port : Nat) (p : Packet) : Bool :=
  m.atSource (if p.ty.toNat = 0x70 then .bcast (Fin.ofNat 10 port) else .fabric p.src p.tag (Fin.ofNat 10 port))

/-- The receive buffers of a packet that this module has taken: kept while its request waits at its source (10 R288). -/
def Mod.freeTaken (m : Mod) (port : Nat) (p : Packet) : Mod :=
  if m.keeps port p then m.modFab (fun f => { f with kept := f.kept ++ [(port, p)] })
  else m.freeFlits port p

/-- Requests that have left their source give their receive buffers back. -/
def Mod.freeKept (m : Mod) : Mod := m.fab.kept.foldl (fun m x => m.freeTaken x.1 x.2) (m.modFab (fun f => { f with kept := [] }))

/-- The JOIN as a member sends it on to its manager: with its ingress port appended to PATH (12 R321). -/
def Mod.joinOn (m : Mod) (port : Nat) (p : Packet) : Packet :=
  let k := p.pathPos
  let path := putBits (leAt p.head 0x30 6) (4 * k) 4 port
  { p with head := splice (splice p.head 0x30 (toBytes 6 path)) 0x36 [BitVec.ofNat 8 (k + 1), BitVec.ofNat 8 (k + 1)],
           dst := if k = 0 then Fin.ofNat 16384 (m.fld F.FAB_ROLE_MANAGER) else p.dst, hops := p.hops - 1 }

/-- A JOIN for this module: the manager answers it. -/
def Mod.joinHere (m : Mod) (p : Packet) : Bool :=
  decide (m.fld F.FAB_ROLE_ROLE = 2 ∧ (p.pathPos = 0 ∨ p.dst.val = m.fld F.FAB_NODE_ID))

/-- A JOIN that this member sends on to its manager, and not its own manager's (12 R321, R322). -/
def Mod.joinPasses (m : Mod) (p : Packet) : Bool :=
  decide (p.ty.toNat = 0x62 ∧ p.pathPos < 12 ∧ m.joinHere p = false ∧ p.src.val ≠ m.fld F.FAB_ROLE_MANAGER ∧ 1 < p.hops.toNat)

/-- A packet arrives through an ACTIVE port: discarded, a violation, for another node, or for this module (12 R321, R354). -/
def Mod.arrive (m : Mod) (port : Nat) (p : Packet) (f : Mod → Mod) : Mod :=
  if m.laneState port ≠ 6 then m
  else if !m.accepts p then m.freeFlits port p
  else
    match m.violationOf port p with
    | some c => m.violate c port p
    | none =>
      if m.joinPasses p then m.passOn (some port) (m.joinOn port p)
      else if p.dst.val = m.fld F.FAB_NODE_ID ∨ p.vc.val = 4 ∨ p.ty.toNat = 0x62 then (f (m.addFld F.FAB_COUNT_COUNT 1 0 1)).freeTaken port p
      else m.forward port p

/-! ## Broadcast trees (12 R344) -/

/-- A BCAST packet is copied to the children of its tree. -/
def Mod.copyToChildren (m : Mod) (port : Option Nat) (p : Packet) : Mod :=
  ((List.range 10).filter (fun q => bit (m.fld F.FAB_TREE_CHILDREN 0 (p.byteAt 0x1A)) q)).foldl (fun m q =>
    (m.addFld F.FAB_COUNT_COUNT 1 0 (if port.isSome then 2 else 0)).sendOn q { p with sub := m.subAfter q port p.sub }) m

/-- A notice on tree 0, when this module is its root (12 R344, R351). -/
def Mod.broadcast (m : Mod) (ty n : Nat) : Mod :=
  if m.fld F.FAB_TREE_VALID 0 0 = 1 ∧ m.fld F.FAB_TREE_PARENT 0 0 = 0xF then
    m.copyToChildren none (mkPacket 4 ty 0 (m.fld F.FAB_NODE_ID) 0 0 (toBytes 2 n) [])
  else m

/-- A notice to every peer manager (12 R324, R351, R353). -/
def Mod.tellPeers (m : Mod) (ty n : Nat) : Mod :=
  m.fab.peers.foldl (fun m x => m.sendPacket (mkPacket 5 ty x (m.fld F.FAB_NODE_ID) 0 0 (toBytes 2 n) [])) m

/-- A manager that hears a unicast notice from another domain knows the sender as a peer (12 R324; DESIGN CHOICE, log 202). -/
def Mod.meetPeer (m : Mod) (p : Packet) : Mod :=
  if m.fld F.FAB_ROLE_ROLE = 2 ∧ p.vc.val = 5 ∧ p.src.val / 64 ≠ m.fld F.FAB_NODE_ID / 64 ∧ m.fab.peers.contains p.src.val = false then
    m.modFab (fun f => { f with peers := f.peers ++ [p.src.val] })
  else m

/-! ## Isolation and fences (12 Table 12.1, R350-R353) -/

/-- Accesses of cores that wait for lines of other nodes fail, and those lines go (12 Table 12.1, R350). -/
def Mod.failRemoteLines (m : Mod) (which : Nat → Bool) (all : Bool) (st : Status) : Mod :=
  let hit := fun (l : Line) => match lineNode l.addr with
    | some n => which n && (all || l.access.isSome)
    | none => false
  let late := fun (x : CoreAccess) => (lineNode x.addr).any which
  let fault := fun (m : Mod) (x : CoreAccess) => (m.coreFault x.ag x.kind x.addr st).emit (.core x.ag st [])
  let m := (m.lines.filter hit).foldl (fun m l => match l.access with
    | some x => fault m x
    | none => m) m
  let m := (m.coreq.filter late).foldl fault m
  { m with lines := m.lines.filter (fun l => !hit l), coreq := m.coreq.filter (fun x => !late x) }

/-- The module becomes ISOLATED (12 Table 12.1): open requests to other nodes complete with ST_LINK_DOWN, lines of other modules go. -/
def Mod.isolate (m : Mod) : Mod :=
  let m := m.failEntries (fun _ => true) .linkDown
  let m := m.failRemoteLines (fun _ => true) true .linkDown
  let far := fun (l : Nat) => (lineNode l).isSome
  let m := { m with dir := m.dir.filter (fun e => !e.proxy), net := m.net.filter (fun x => !far x.line),
                    retry := m.retry.filter (fun r => !far r.1), reqSrc := m.reqSrc.filter (fun r => !far r.1),
                    stale := m.stale.filter (fun r => !far r.2) }
  let m := (m.setFld F.FAB_ROLE_STATE 0).modFab (fun f => { f with provisional := false, joins := [], session := none })
  m.raise 0x0803 (d2 (m.fld F.FAB_NODE_ID))

/-- What a fence does to requests and coherence (12 R350, 11 R313). -/
def Mod.fenceNode (m : Mod) (n : Nat) : Mod :=
  let m := (m.setFence n true).failEntries (fun e => e.node == n) .nodeLost
  let m := m.failRemoteLines (· == n) false .nodeLost
  if n / 64 = m.fld F.FAB_NODE_ID / 64 then m.loseMember (Fin.ofNat 64 (n % 64)) else m

/-- Modules of the failover list that are not fenced, as node IDs (12 R323). -/
def Mod.successors (m : Mod) : List Nat :=
  (m.failoverList.map (fun i => m.fld F.FAB_NODE_ID / 64 * 64 + i)).filter (fun n => !m.fenced n)

/-- Report a lost node to a module; the report stays open until it is answered (12 R323, R350). -/
def Mod.tellNodeDown (m : Mod) (n dst : Nat) : Mod :=
  if dst = m.fld F.FAB_NODE_ID then m.modFab (fun f => { f with confirming := f.confirming ++ [(n, dst)] })
  else
    let m := m.modFab (fun f => { f with reported := f.reported.filter (fun r => r.1 != n) ++ [(n, dst)] })
    m.sendPacket (mkPacket 5 0x64 dst (m.fld F.FAB_NODE_ID) 0 0 (toBytes 2 n) [])

/-- The last port to neighbour `n` is lost with its heartbeat (12 R350). -/
def Mod.localFence (m : Mod) (n : Nat) : Mod :=
  let m := (m.fenceNode n).raise 0x0802 (d2 n)
  if m.fld F.FAB_ROLE_ROLE = 2 then m.tellNodeDown n (m.fld F.FAB_NODE_ID)
  else if m.fld F.FAB_ROLE_MANAGER ≠ n then m.tellNodeDown n (m.fld F.FAB_ROLE_MANAGER)
  else match m.successors.head? with
    | some s => m.tellNodeDown n s
    | none => m

/-- A FENCE notice (12 R351): about this module it isolates it. -/
def Mod.hallFence (m : Mod) (n : Nat) : Mod :=
  let m := m.modFab (fun f => { f with reported := f.reported.filter (fun r => r.1 != n) })
  if n = m.fld F.FAB_NODE_ID then m.isolate else (m.fenceNode n).raise 0x0803 (d2 n)

/-- An UNFENCE notice (12 R353). -/
def Mod.hallUnfence (m : Mod) (n : Nat) : Mod :=
  ((m.setFence n false).modFab (fun f => { f with reported := f.reported.filter (fun r => r.1 != n) })).raise 0x0804 (d2 n)

/-! ## Membership (12 Table 12.1, R318-R323) -/

/-- JOIN on every ACTIVE port. -/
def Mod.sendJoins (m : Mod) : Mod :=
  ((List.range 10).filter (fun p => m.laneState p == 6)).foldl (fun m p =>
    (m.addFld F.FAB_COUNT_COUNT 1 0 0).sendOn p (mkPacket 5 0x62 0 (m.fld F.FAB_NODE_ID) 0 0 [] [])) m

/-- Start joining; an ISOLATED manager rejoins as a worker (12 R322). -/
def Mod.startJoin (m : Mod) : Mod :=
  let m := if m.fld F.FAB_ROLE_ROLE = 2 then m.setFld F.FAB_ROLE_ROLE 1 else m
  ((m.setFld F.FAB_ROLE_STATE 1).modFab (fun f => { f with provisional := false })).sendJoins

/-- FAB_CTL.ENABLE := 1 (12 Table 12.1, R322, Table 12.10). A manager that already has a domain map announces itself. -/
def Mod.fabEnable (m : Mod) : Mod × Status :=
  if m.fld F.FAB_NODE_LOCK = 0 then (m, .access)
  else
    let m := (m.setFld F.FAB_CTL_ENABLE 1).modFab (fun f => { f with refused := false })
    if m.fld F.FAB_ROLE_STATE ≠ 0 then (m, .ok)
    else if m.fld F.FAB_ROLE_ROLE = 2 then
      let me := m.fld F.FAB_NODE_ID
      let m := m.setFld F.FAB_ROLE_STATE 2
      ((m.fab.domainMap.foldl (fun m e => m.sendPacket (mkPacket 5 0x66 e.1 me 0 0 (toBytes 2 me) [])) m).tellPeers 0x66 me, .ok)
    else if m.fld F.FAB_ROLE_ROLE = 1 then (m.startJoin, .ok)
    else (m, .ok)

/-- FAB_CTL.ENABLE := 0 (12 Table 12.1). -/
def Mod.fabDisable (m : Mod) : Mod × Status :=
  let m := m.setFld F.FAB_CTL_ENABLE 0
  (if m.fld F.FAB_ROLE_STATE = 0 then m else m.isolate, .ok)

/-- A port has reached ACTIVE (12 Table 12.1). -/
def Mod.portActive (m : Mod) : Mod :=
  if m.fld F.FAB_CTL_ENABLE = 1 ∧ m.fld F.FAB_ROLE_STATE = 0 ∧ m.fab.refused = false ∧
      (m.fld F.FAB_ROLE_ROLE = 1 ∨ m.fld F.FAB_ROLE_ROLE = 2) then m.startJoin
  else m

/-- The PATH of a JOIN with its last port, to be followed in reverse (12 R321), in a head flit. -/
def joinPath (p : Packet) (port : Nat) (head : List Byte) : List Byte :=
  let k := p.pathPos
  splice head 0x30 (toBytes 6 (putBits (leAt p.head 0x30 6) (4 * k) 4 port) ++ [BitVec.ofNat 8 (k + 1), BitVec.ofNat 8 k])

/-- A JOIN_ACK of a join, along PATH in reverse (12 R321). -/
def Mod.joinAck (m : Mod) (p : Packet) (port : Nat) (st : Status) : Mod :=
  m.launch port { mkPacket 5 0x63 p.src.val (m.fld F.FAB_NODE_ID) 0 st.toNat (joinPath p port p.head) [] with srcrt := true }

/-- The nodes of the domain as the manager knows them (12 R320, R323): those of its map and those that DIR_DOMAIN_MEMBERS names, without
this module. -/
def Mod.domainNodes (m : Mod) : List Nat :=
  let me := m.fld F.FAB_NODE_ID
  let named := ((List.range 64).filter (fun i => bit (m.fld F.DIR_DOMAIN_MEMBERS_MEMBERS) i)).map (fun i => me / 64 * 64 + i)
  (m.fab.domainMap.map (·.1) ++ named.filter (fun n => !m.fab.domainMap.any (fun e => e.1 == n))).filter (· != me)

/-- Nodes of other domains that the manager's own route table reaches (12 R324). -/
def Mod.farNodes (m : Mod) : List Nat :=
  let base := F.FAB_ROUTE_VALID.addr 0 0
  ((m.regs.filter (fun r => decide (base ≤ r.1 ∧ r.1 < base + 8 * 16384))).map (fun r => (r.1 - base) / 8)).filter
    (fun n => m.fld F.FAB_ROUTE_VALID 0 n == 1 && n / 64 != m.fld F.FAB_NODE_ID / 64)

/-- FAB_ROUTE entries of nodes, as the manager's firmware chooses them for a member: VALID with free candidates (12 R320, R332). -/
def Mod.routeWords (m : Mod) (nodes : List Nat) : Mod × List (Nat × Nat) :=
  nodes.foldl (fun (m, ws) n =>
    let (m, d) := m.draw
    (m, ws ++ [(F.FAB_ROUTE_C0.addr 0 n, 0x10000 + Config.freeNat d % 0x10000)])) (m, [])

/-- FAB_TREE entries as the manager's firmware chooses them for a member: tree 0 VALID, the rest free (12 R320, R323, R344). -/
def Mod.treeWords (m : Mod) : Mod × List (Nat × Nat) :=
  (List.range 16).foldl (fun (m, ws) t =>
    let (m, d) := m.draw
    (m, ws ++ [(F.FAB_TREE_PARENT.addr 0 t, (Config.freeNat d % 0x10000) ||| (if t = 0 then 0x8000 else 0))])) (m, [])

/-- The manager's registers whose values its members hold too (12 R320). -/
def Mod.sharedWords (m : Mod) : List (Nat × Nat) :=
  [F.FAB_FAILOVER_INDEX.addr 0 0, F.DIR_DOMAIN_MEMBERS_MEMBERS.addr 0 0].map (fun a => (a, (m.reg a).toNat))

/-- An MWR of the manager's firmware (12 R320): source-routed along a JOIN's PATH when one is given. -/
def Mod.memberWrite (m : Mod) (dst joiner use : Nat) (via : Option (Packet × Nat)) (w : Nat × Nat) : Mod :=
  let head := toBytes 8 w.1 ++ toBytes 8 w.2
  let x := mkPacket 5 0x61 dst (m.fld F.FAB_NODE_ID) 0 0 head []
  let x := match via with
    | some (p, port) => { x with srcrt := true, head := joinPath p port x.head }
    | none => x
  m.issue (.manager (Fin.ofNat 16384 joiner) (Fin.ofNat 8 use)) dst x true

/-- The domain map goes to every module of FAB_FAILOVER (12 R320). -/
def Mod.copyMap (m : Mod) : Mod :=
  let me := m.fld F.FAB_NODE_ID
  ((m.failoverList.map (fun i => me / 64 * 64 + i)).filter (· != me)).foldl (fun m n => m.emit (.mapCopy n m.fab.domainMap)) m

/-- The manager starts to answer a JOIN (12 R320, R321): a provisional JOIN_ACK, the joiner's tables, the joiner in the tables of the
other members. -/
def Mod.managerJoin (m : Mod) (port : Nat) (p : Packet) : Mod :=
  let n := p.src.val
  if m.fab.joins.any (fun j => j.node == n) then m.joinAck p port .busy
  else if m.fab.domainMap.any (fun e => e.1 == n) && !m.fenced n then m.joinAck p port .access
  else
    let me := m.fld F.FAB_NODE_ID
    let m := m.joinAck p port .busy
    let m := m.modFab (fun f => { f with domainMap := f.domainMap.filter (fun e => e.1 != n) ++
      [(n, (List.range p.pathPos).map p.pathEntry ++ [port])] })
    let m := if n / 64 = me / 64 then
        m.setFld F.DIR_DOMAIN_MEMBERS_MEMBERS (putBits (m.fld F.DIR_DOMAIN_MEMBERS_MEMBERS) (n % 64) 1 1) else m
    let m := m.copyMap
    let others := m.domainNodes.filter (· != n)
    let (m, routes) := m.routeWords (me :: others ++ m.farNodes)
    let (m, trees) := m.treeWords
    let own := routes ++ trees ++ m.sharedWords
    let theirs := m.sharedWords.drop 1
    let m := m.modFab (fun f => { f with joins := f.joins ++
      [{ node := n, port := port, packet := p, left := own.length + others.length * (1 + theirs.length) }] })
    let m := own.foldl (fun m w => m.memberWrite n n 0 (some (p, port)) w) m
    others.foldl (fun m x =>
      let (m, r) := m.routeWords [n]
      (r ++ theirs).foldl (fun m w => m.memberWrite x n 0 none w) m) m

/-- A register write of a join has completed; after the last one the joiner's fence bit is cleared across the hall, and the join is
confirmed (12 R321, R353). -/
def Mod.joinWritten (m : Mod) (n : Nat) : Mod :=
  match m.fab.joins.find? (fun j => j.node == n) with
  | none => m
  | some j =>
    if 1 < j.left then m.modFab (fun f => { f with joins := f.joins.map (fun x => if x.node = n then { x with left := x.left - 1 } else x) })
    else
      let m := m.modFab (fun f => { f with joins := f.joins.filter (fun x => x.node != n) })
      let m := if m.fenced n then ((m.broadcast 0x66 n).tellPeers 0x66 n).setFence n false else m
      (m.raise 0x0804 (d2 n)).joinAck j.packet j.port .ok

/-- A new manager rewrites the trees and the route entries of the members; its own tree 0 is rooted at itself (12 R323). -/
def Mod.rebuildDomain (m : Mod) : Mod :=
  let me := m.fld F.FAB_NODE_ID
  let nodes := m.domainNodes
  let (m, own) := m.treeWords
  let m := own.foldl (fun m w => m.setReg w.1 (BitVec.ofNat 64 (if w.1 = F.FAB_TREE_PARENT.addr 0 0 then w.2 ||| 0xF else w.2))) m
  let (m, routes) := m.routeWords nodes
  let m := routes.foldl (fun m w => m.setReg w.1 (BitVec.ofNat 64 w.2)) m
  nodes.foldl (fun m x =>
    let (m, routes) := m.routeWords (me :: nodes.filter (· != x) ++ m.farNodes)
    let (m, trees) := m.treeWords
    (trees ++ routes).foldl (fun m w => m.memberWrite x x 1 none w) m) m

/-- A JOIN that does not go on: the manager answers it; one with a full PATH, from the member's own manager, or without hops is discarded
(12 R321, R322, R328). -/
def Mod.joinArrives (m : Mod) (port : Nat) (p : Packet) : Mod :=
  if p.pathPos < 12 ∧ m.joinHere p = true then m.managerJoin port p
  else
    let m := if p.pathPos < 12 ∧ p.src.val ≠ m.fld F.FAB_ROLE_MANAGER ∧ p.hops.toNat ≤ 1 then m.violation 5 port p.src.val 0x62 else m
    m.addFld F.FAB_COUNT_COUNT 1 0 5

/-- A JOIN_ACK reaches the joiner (12 Table 12.1). -/
def Mod.joinAckArrives (m : Mod) (p : Packet) : Mod :=
  if m.fld F.FAB_ROLE_STATE ≠ 1 then m
  else if p.status.toNat = Status.busy.toNat then
    (m.setFld F.FAB_ROLE_MANAGER p.src.val).modFab (fun f => { f with provisional := true })
  else if p.status.toNat = Status.ok.toNat then (m.setFld F.FAB_ROLE_MANAGER p.src.val).setFld F.FAB_ROLE_STATE 2
  else if p.status.toNat = Status.access.toNat then
    ((m.setFld F.FAB_ROLE_STATE 0).modFab (fun f => { f with refused := true, provisional := false })).raise 0x0806 (d2 (m.fld F.FAB_NODE_ID))
  else m

/-- A NODE_DOWN reaches the manager, or a module of the failover list told about the loss of its own manager (12 R323, R351). -/
def Mod.nodeDownArrives (m : Mod) (p : Packet) : Mod :=
  let n := leAt p.head 0 2
  if m.fld F.FAB_ROLE_ROLE = 2 ∨ (n = m.fld F.FAB_ROLE_MANAGER ∧ m.failoverList.contains (m.fld F.FAB_NODE_ID % 64) = true) then
    m.modFab (fun f => { f with confirming := f.confirming ++ [(n, p.src.val)] })
  else m

/-- An UNFENCE arrives: the old manager's return (12 R322), a new manager's announcement (R323), or a node's return (R353). -/
def Mod.unfenceArrives (m : Mod) (port : Nat) (p : Packet) : Mod :=
  let n := leAt p.head 0 2
  let s := p.src.val
  let old := m.fld F.FAB_ROLE_MANAGER
  if n = s ∧ s / 64 = m.fld F.FAB_NODE_ID / 64 then
    if s = old then (m.hallUnfence n).raise 0x0805 (d2 old ++ d2 s)
    else if m.failoverList.contains (s % 64) then
      let m := if m.fenced s then m.setFence s false else m
      (m.setFld F.FAB_ROLE_MANAGER s).raise 0x0805 (d2 old ++ d2 s)
    else m.violation 6 port s 0x66
  else
    let m := m.hallUnfence n
    if m.fld F.FAB_ROLE_ROLE = 2 ∧ p.vc.val = 5 then m.broadcast 0x66 n else m

/-- The end of a confirmation (12 R351, R323): the node is alive, or it is fenced across the hall; the loss of the own manager makes
this module the manager, which fences it at its peers and here (DEDUCED, log 207). -/
def Mod.confirm (m : Mod) (n : Nat) (alive : Bool) : Mod :=
  match m.fab.confirming.find? (fun c => c.1 == n) with
  | none => m
  | some (_, reporter) =>
    let m := m.modFab (fun f => { f with confirming := f.confirming.filter (fun c => c.1 != n) })
    let me := m.fld F.FAB_NODE_ID
    if alive then
      if reporter = me then m.hallUnfence n else m.sendPacket (mkPacket 5 0x66 reporter me 0 0 (toBytes 2 n) [])
    else if m.fld F.FAB_ROLE_ROLE = 2 then ((m.broadcast 0x65 n).tellPeers 0x65 n).hallFence n
    else if n = m.fld F.FAB_ROLE_MANAGER then
      let m := (((m.hallFence n).setFld F.FAB_ROLE_ROLE 2).setFld F.FAB_ROLE_MANAGER me).tellPeers 0x65 n
      let m := (m.domainNodes.filter (· != n)).foldl (fun m x => m.sendPacket (mkPacket 5 0x66 x me 0 0 (toBytes 2 me) [])) m
      ((m.raise 0x0805 (d2 n ++ d2 me)).rebuildDomain).modFab (fun f => { f with takeover := true })
    else m

/-- No answer to NODE_DOWN within 1 ms: the next module of the failover list is told (12 R323). -/
def Mod.nodeDownNext (m : Mod) (n : Nat) : Mod :=
  match m.fab.reported.find? (fun r => r.1 == n) with
  | none => m
  | some (_, dst) =>
    let ss := m.successors
    let next := if ss.contains dst then (ss.dropWhile (· != dst)).drop 1 else ss
    match next.head? with
    | some s => (m.modFab (fun f => { f with reported := f.reported.filter (fun r => r.1 != n) })).tellNodeDown n s
    | none => m

/-- An event record from another module (18 R463). -/
def Mod.eventArrives (m : Mod) (bs : List Byte) : Mod :=
  let r : EventRec := { code := leAt bs 0 2, flags := leAt bs 2 2 ||| 1, seq := m.evSeq, time := BitVec.ofNat 48 (leAt bs 8 6),
                        node := leAt bs 14 2, data := padTo 16 (bs.drop 16) }
  ({ m with evSeq := (m.evSeq + 1) % 2 ^ 32 }).deliver r

/-- A response meets the table (12 R336, R347, R348; Table 12.7 code 8). -/
def Mod.responseArrives (m : Mod) (port : Nat) (p : Packet) : Mod :=
  match m.fab.grt.find? (fun e => e.idx == p.tag.val) with
  | none => m.violation 8 port p.src.val p.ty.toNat
  | some e =>
    if e.node ≠ p.src.val then m.violation 8 port p.src.val p.ty.toNat
    else
      let m := m.modFab (fun f => { f with grt := f.grt.filter (fun x => x.idx != e.idx) })
      if e.quarantined then m.addFld F.FAB_COUNT_COUNT 1 0 4
      else m.emit (.compl e.src (statusOf p.status.toNat) ((p.head ++ p.body).take (if p.ty.toNat = 0x40 then 32 else 4096)))

/-! ## Drains (12 R335) -/

/-- A write of FAB_PORTp: its plain fields, then the start or the end of a drain. -/
def Mod.portWrite (m : Mod) (p v : Nat) : Mod × Status :=
  let m := ((m.setFld F.FAB_PORT_ROUTE_EN (bits v 0 1) 0 p).setFld F.FAB_PORT_DIM (bits v 1 3) 0 p).setFld F.FAB_PORT_DATELINE (bits v 4 1) 0 p
  if bit v 5 then
    if m.fab.draining.contains p then (m, .ok)
    else ((m.modFab (fun f => { f with draining := f.draining ++ [p] })).modLane p (fun l => { l with barDue := l.barDue ++ [false] }), .ok)
  else if bit v 0 then
    ((m.modFab (fun f => { f with draining := f.draining.filter (· != p) })).setFld F.FAB_PORT_DRAINED 0 0 p, .ok)
  else (m, .ok)

end Sys2Proof.Machine
end

