-- ==== Sys2Proof/Machine/Flags.lean ====
section
/-! DEFINITION. Number formats and arithmetic (04): exact values, the element formats, rounding and output conversion, the FP32+6
accumulator, vector-unit operations, transcendental functions (03 R77, R78) and the four arithmetic flags (R115). -/

namespace Sys2Proof.Machine

open Sys2Proof

/-- The arithmetic flags of an operation (04 R115). -/
structure AFlags where
  nan : Bool := false
  ovf : Bool := false
  sat : Bool := false
  lost : Bool := false
  deriving DecidableEq, Repr

def AFlags.or (a b : AFlags) : AFlags :=
  { nan := a.nan || b.nan, ovf := a.ovf || b.ovf, sat := a.sat || b.sat, lost := a.lost || b.lost }

def AFlags.all (l : List AFlags) : AFlags := l.foldl AFlags.or {}

/-- A value: NaN, an infinity, or (−1)^neg × m × 2^e exactly. -/
inductive Num where
  | nan
  | inf (neg : Bool)
  | fin (neg : Bool) (m : Nat) (e : Int)
  deriving DecidableEq, Repr

namespace Num

def zero (neg : Bool := false) : Num := .fin neg 0 0
def ofInt (x : Int) : Num := .fin (decide (x < 0)) x.natAbs 0

def isNan : Num → Bool
  | .nan => true
  | _ => false

def isFin : Num → Bool
  | .fin _ _ _ => true
  | _ => false

def isZero : Num → Bool
  | .fin _ m _ => m == 0
  | _ => false

def neg : Num → Num
  | .nan => .nan
  | .inf s => .inf (!s)
  | .fin s m e => .fin (!s) m e

def abs : Num → Num
  | .nan => .nan
  | .inf _ => .inf false
  | .fin _ m e => .fin false m e

/-- Times 2^k. -/
def scale (x : Num) (k : Int) : Num :=
  match x with
  | .fin s m e => .fin s m (e + k)
  | x => x

/-- The integer (−1)^s × m × 2^(e − q), for q ≤ e. -/
def units (s : Bool) (m : Nat) (e q : Int) : Int :=
  let n : Int := (m <<< (e - q).toNat : Nat)
  if s then -n else n

/-- Exact sum, with the special cases of IEEE 754-2019; an exact zero sum is +0 unless both addends are −0 (04 R104). -/
def add (a b : Num) : Num :=
  match a, b with
  | .nan, _ => .nan
  | _, .nan => .nan
  | .inf s, .inf t => if s = t then .inf s else .nan
  | .inf s, _ => .inf s
  | _, .inf t => .inf t
  | .fin s m e, .fin t n f =>
    if m = 0 ∧ n = 0 then .fin (s && t) 0 0
    else
      let q := min e f
      let x := units s m e q + units t n f q
      .fin (decide (x < 0)) x.natAbs q

/-- Exact product, with the special cases of IEEE 754-2019. -/
def mul (a b : Num) : Num :=
  match a, b with
  | .nan, _ => .nan
  | _, .nan => .nan
  | .inf s, .inf t => .inf (s != t)
  | .inf s, .fin t n _ => if n = 0 then .nan else .inf (s != t)
  | .fin s m _, .inf t => if m = 0 then .nan else .inf (s != t)
  | .fin s m e, .fin t n f => .fin (s != t) (m * n) (e + f)

def sum (l : List Num) : Num :=
  match l with
  | [] => .zero
  | x :: xs => xs.foldl add x

/-- The order of values, −0 below +0; NaN is below nothing here. -/
def lt (a b : Num) : Bool :=
  match a, b with
  | .nan, _ => false
  | _, .nan => false
  | .inf s, .inf t => s && !t
  | .inf s, _ => s
  | _, .inf t => !t
  | .fin s m e, .fin t n f =>
    if m = 0 ∧ n = 0 then s && !t
    else
      let q := min e f
      decide (units s m e q < units t n f q)

/-- MAX and MIN return NaN when either operand is NaN (06 Table 06.10). -/
def max (a b : Num) : Num := if a.isNan || b.isNan then .nan else if a.lt b then b else a
def min (a b : Num) : Num := if a.isNan || b.isNan then .nan else if b.lt a then b else a

/-- The ranking of TOPK and SORT: NaN above +∞, −0 below +0 (06 R185). -/
def below (a b : Num) : Bool := if a.isNan then false else if b.isNan then true else a.lt b

end Num

/-! ## Formats (04 Tables 04.1, 04.2) -/

/-- A floating-point format: width, mantissa bits, bias, code of the largest finite magnitude, and whether infinities and NaNs exist. -/
structure FFmt where
  w : Nat
  mb : Nat
  bias : Nat
  maxc : Nat
  hasInf : Bool
  hasNan : Bool

def fp32 : FFmt := { w := 32, mb := 23, bias := 127, maxc := 0x7F7FFFFF, hasInf := true, hasNan := true }
def bf16 : FFmt := { w := 16, mb := 7, bias := 127, maxc := 0x7F7F, hasInf := true, hasNan := true }
/-- The accumulator format FP32+6 (04 R102). -/
def fp38 : FFmt := { w := 38, mb := 29, bias := 127, maxc := 0xFF * 2 ^ 29 - 1, hasInf := true, hasNan := true }

/-- The floating-point element format of a code without its MX bit. -/
def floatFmt : Nat → Option FFmt
  | 0x0 => some fp32
  | 0x1 => some bf16
  | 0x2 => some { w := 16, mb := 10, bias := 15, maxc := 0x7BFF, hasInf := true, hasNan := true }
  | 0x3 => some { w := 8, mb := 3, bias := 7, maxc := 0x7E, hasInf := false, hasNan := true }
  | 0x4 => some { w := 8, mb := 2, bias := 15, maxc := 0x7B, hasInf := true, hasNan := true }
  | 0x5 => some { w := 6, mb := 2, bias := 3, maxc := 0x1F, hasInf := false, hasNan := false }
  | 0x6 => some { w := 6, mb := 3, bias := 1, maxc := 0x1F, hasInf := false, hasNan := false }
  | 0x7 => some { w := 4, mb := 1, bias := 1, maxc := 0x7, hasInf := false, hasNan := false }
  | _ => none

/-- The width of an integer format. -/
def intFmt : Nat → Option Nat
  | 0x8 => some 8
  | 0x9 => some 4
  | 0xA => some 32
  | _ => none

/-- MX block-scaled codes (04 R94). -/
def isMx (fmt : Nat) : Bool := 0x13 ≤ fmt && fmt ≤ 0x17

/-- Codes of 04 Table 04.1. -/
def fmtListed (fmt : Nat) : Bool := decide (fmt ≤ 0x0A) || fmt == 0x0C || isMx fmt

/-- Element width in bits. -/
def fmtWidth (fmt : Nat) : Nat :=
  match floatFmt (fmt % 16) with
  | some f => f.w
  | none => (intFmt (fmt % 16)).getD 8

def isInt (fmt : Nat) : Bool := (intFmt fmt).isSome

/-- The value a magnitude code stands for when every code is an ordinary number (04 R95, R110). -/
def FFmt.ordinary (f : FFmt) (neg : Bool) (c : Nat) : Num :=
  let e := c / 2 ^ f.mb
  let frac := c % 2 ^ f.mb
  let base : Int := -(f.bias : Int) - f.mb
  if e = 0 then .fin neg frac (base + 1) else .fin neg (2 ^ f.mb + frac) (base + e)

/-- 04 R95. -/
def FFmt.decode (f : FFmt) (code : Nat) : Num :=
  let neg := bit code (f.w - 1)
  let c := code % 2 ^ (f.w - 1)
  if c ≤ f.maxc then f.ordinary neg c
  else if f.hasInf ∧ c = f.maxc + 1 then .inf neg
  else .nan

/-- Code of the canonical NaN (04 Table 04.3). -/
def FFmt.nanCode (f : FFmt) : Nat := if f.hasInf then f.maxc + 1 + 2 ^ (f.mb - 1) else f.maxc + 1

/-- Value of an element code of a format that is not MX; E8M0 has no sign and no mantissa (04 R95, R489). -/
def elemValue (fmt code : Nat) : Num :=
  if fmt % 16 = 0xC then (if code = 0xFF then .nan else .fin false 1 ((code : Int) - 127))
  else
    match floatFmt (fmt % 16) with
    | some f => f.decode code
    | none => .ofInt (signed (fmtWidth fmt) code)

/-! ## Rounding (04 R109, R110, R113) -/

/-- Rounding modes; stochastic with the low 24 bits of its random value. -/
inductive RMode where
  | rne
  | rtz
  | sr (r : Nat)
  deriving DecidableEq, Repr

/-- ⌊m ÷ 2^s⌋ or that plus 1, as the mode rounds. -/
def roundShift (mode : RMode) (m s : Nat) : Nat :=
  let lo := m >>> s
  let rem := m % 2 ^ s
  match mode with
  | .rne => if 2 ^ s < 2 * rem ∨ (2 ^ s = 2 * rem ∧ lo % 2 = 1) then lo + 1 else lo
  | .rtz => lo
  | .sr r => if 2 ^ 24 ≤ (rem * 2 ^ 24) >>> s + r then lo + 1 else lo

/-- Magnitude code of m × 2^e rounded to a format's precision, with an unbounded range above its maximum (04 R110). -/
def FFmt.roundCode (f : FFmt) (mode : RMode) (m : Nat) (e : Int) : Nat :=
  if m = 0 then 0
  else
    let qmin : Int := 1 - (f.bias : Int) - f.mb
    let q := max ((Nat.log2 m : Int) + e - f.mb) qmin
    let n := if q ≤ e then m <<< (e - q).toNat else roundShift mode m (q - e).toNat
    (q - qmin).toNat * 2 ^ f.mb + n

/-- Round a value to a format by nearest even; beyond the largest finite value it is infinite. -/
def FFmt.round (f : FFmt) (x : Num) : Num :=
  match x with
  | .fin s m e =>
    let c := f.roundCode .rne m e
    if f.maxc < c then .inf s else f.ordinary s c
  | x => x

/-- Round to FP32 (04 R106). -/
def r32 (x : Num) : Num := fp32.round x

/-- Code of a value that the format holds exactly. -/
def FFmt.encode (f : FFmt) (x : Num) : Nat :=
  match x with
  | .nan => f.nanCode
  | .inf s => (if f.hasInf then f.maxc + 1 else f.maxc) + (b2n s) * 2 ^ (f.w - 1)
  | .fin s m e => min (f.roundCode .rne m e) f.maxc + (b2n s) * 2 ^ (f.w - 1)

/-- Conversion to a floating-point output (04 R110, R112, Table 04.5); `inf` is the overflow mode. -/
def FFmt.convert (f : FFmt) (mode : RMode) (inf : Bool) (x : Num) : Nat × AFlags :=
  let sgn := fun (s : Bool) => (b2n s) * 2 ^ (f.w - 1)
  let beyond := if inf && f.hasNan then f.maxc + 1 else f.maxc
  -- E4M3 writes an overflow under INF as a NaN, which counts as one (R115)
  let nan := inf && f.hasNan && !f.hasInf
  match x with
  | .nan => if f.hasNan then (f.nanCode, { nan := true }) else (0, { nan := true, lost := true })
  | .inf s => (beyond + sgn s, { nan := nan })
  | .fin s m e =>
    let c := f.roundCode mode m e
    if c ≤ f.maxc then (c + sgn s, {})
    else if mode = .rtz then (f.maxc + sgn s, {})
    else (beyond + sgn s, { ovf := true, nan := nan })

/-- Conversion to an integer output (04 R111). -/
def convertInt (w : Nat) (mode : RMode) (x : Num) : Nat × AFlags :=
  let top : Int := 2 ^ (w - 1)
  let clamp := fun (v : Int) => if v < -top then (unsigned w (-top), ({ sat := true } : AFlags))
    else if top - 1 < v then (unsigned w (top - 1), { sat := true }) else (unsigned w v, {})
  match x with
  | .nan => (0, { nan := true, lost := true })
  | .inf s => clamp (if s then -top - 1 else top)
  | .fin s m e =>
    let n := if 0 ≤ e then m <<< e.toNat else roundShift mode m (-e).toNat
    clamp (if s then -(n : Int) else n)

/-- One element in a format that is not MX (04 R109-R112). -/
def convertElem (fmt : Nat) (mode : RMode) (inf : Bool) (x : Num) : Nat × AFlags :=
  match floatFmt fmt with
  | some f => f.convert mode inf x
  | none => convertInt (fmtWidth fmt) mode x

/-- 04 R113. -/
def mix64 (z : Nat) : Nat :=
  let z := Nat.xor z (z >>> 30)
  let z := (z * 0xbf58476d1ce4e5b9) % 2 ^ 64
  let z := Nat.xor z (z >>> 27)
  let z := (z * 0x94d049bb133111eb) % 2 ^ 64
  Nat.xor z (z >>> 31)

/-- Low 24 bits of the random value of one output element (04 R113, R114). -/
def srDraw (seed count slot index : Nat) : Nat :=
  mix64 (Nat.xor (Nat.xor (Nat.xor seed (count * 0x9e3779b97f4a7c15 % 2 ^ 64)) (slot * 2 ^ 56)) index) % 2 ^ 24

/-! ## MX blocks (04 R98, R100, R118, R119) -/

/-- Value of an element under a block scale. -/
def mxValue (fmt code scale : Nat) : Num :=
  if scale = 0xFF then .nan else (elemValue fmt code).scale ((scale : Int) - 127)

/-- Exponent of the largest normal value of an MX element format (04 R118). -/
def mxEmax (fmt : Nat) : Int :=
  match fmt % 16 with
  | 3 => 8
  | 4 => 15
  | 5 => 4
  | _ => 2

/-- ⌊log₂⌋ of the magnitude of a value that is not zero. -/
def Num.log2Floor : Num → Int
  | .fin _ m e => (Nat.log2 m : Int) + e
  | _ => 0

/-- Quantise one block, its elements with their rounding modes: scale code and element codes (04 R118, R119). -/
def mxBlock (fmt : Nat) (xs : List (RMode × Num)) : Nat × List Nat × AFlags :=
  let f := (floatFmt (fmt % 16)).getD fp32
  let vs := xs.map (·.2)
  if vs.any (fun x => match x with
      | .fin _ _ _ => false
      | _ => true) then (0xFF, vs.map (fun _ => 0), { nan := true })
  else if vs.all Num.isZero then (0, vs.map f.encode, {})
  else
    let amax := vs.foldl (fun a x => Num.max a x.abs) .zero
    let x := (Num.log2Floor amax - mxEmax fmt + 127).toNat
    let x := min x 254
    let one := fun (p : RMode × Num) => ({ f with hasNan := false } : FFmt).convert p.1 false (p.2.scale (127 - (x : Int)))
    (x, xs.map (fun p => (one p).1), AFlags.all (xs.map (fun p => (one p).2)))

/-! ## Accumulators (04 R102-R105) -/

/-- Add an exact group sum to the FP32+6 accumulator; OVERFLOW when the sum becomes infinite. -/
def accStep (a : Num × AFlags) (group : Num) : Num × AFlags :=
  let x := a.1.add group
  let y := fp38.round x
  (y, match x, y with
    | .fin _ _ _, .inf _ => { a.2 with ovf := true }
    | _, .nan => { a.2 with nan := true }
    | _, _ => a.2)

/-- Clamp to INT32, setting INT_SAT. -/
def clamp32 (x : Int) (f : AFlags) : Int × AFlags :=
  if x < -2 ^ 31 then (-2 ^ 31, { f with sat := true })
  else if 2 ^ 31 - 1 < x then (2 ^ 31 - 1, { f with sat := true })
  else (x, f)

/-- Read-out of an FP32+6 accumulator (03 R62). -/
def readOut (a : Num × AFlags) : Num × AFlags :=
  let y := r32 a.1
  (y, match a.1, y with
    | .fin _ _ _, .inf _ => { a.2 with ovf := true }
    | _, _ => a.2)

/-- One addition of the reduction engine (04 R107): FP32, OVERFLOW when it becomes infinite. -/
def redAdd (a : Num × AFlags) (p : Num) : Num × AFlags :=
  let x := a.1.add p
  let y := r32 x
  (y, match x, y with
    | .fin _ _ _, .inf _ => { a.2 with ovf := true }
    | _, .nan => { a.2 with nan := true }
    | _, _ => a.2)

/-! ## Vector unit (04 R106; 03 R77, R78) -/

def vadd (a b : Num) : Num := r32 (a.add b)
def vsub (a b : Num) : Num := vadd a b.neg
def vmul (a b : Num) : Num := r32 (a.mul b)
def vfma (a b c : Num) : Num := r32 ((a.mul b).add c)

/-- Transcendental functions (03 Table 03.6). -/
inductive TFn where
  | exp2 | log2 | recip | rsqrt | sqrt | tanh | sigmoid | sin | cos
  deriving DecidableEq, Repr

/-- Subnormal values become zero of the same sign (03 R78). -/
def flush (x : Num) : Num :=
  match x with
  | .fin s m e => if m = 0 ∨ (Nat.log2 m : Int) + e < -126 then .zero s else x
  | x => x

def Num.one : Num := .fin false 1 0

/-- The result for zero and infinite inputs, and outside the domain of SIN and COS (03 R78, Table 03.6); none: the unit's own result. -/
def TFn.special (f : TFn) (x : Num) : Option Num :=
  match x with
  | .nan => some .nan
  | .inf s =>
    match f with
    | .exp2 => some (if s then .zero else .inf false)
    | .log2 | .sqrt => some (if s then .nan else .inf false)
    | .recip => some (.zero s)
    | .rsqrt => some (if s then .nan else .zero)
    | .tanh => some (.fin s 1 0)
    | .sigmoid => some (if s then .zero else .one)
    | .sin | .cos => some .nan
  | .fin s m e =>
    if m = 0 then
      match f with
      | .exp2 | .cos => some .one
      | .log2 => some (.inf true)
      | .recip | .rsqrt => some (.inf s)
      | .sqrt | .tanh | .sin => some (.zero s)
      | .sigmoid => some (.fin false 1 (-1))
    else if (f = .sin ∨ f = .cos) ∧ Num.lt (.fin false 65536 0) (.fin false m e) = true then some .nan
    else none

/-! ### The exact functions, to more than 100 bits: fixed-point numbers with 192 fraction bits -/

/-- A finite value as a fixed-point number; smaller fractions are dropped. -/
def toFx (s : Bool) (m : Nat) (e : Int) : Int :=
  let v : Int := ((if -192 ≤ e then m <<< (e + 192).toNat else m >>> (-192 - e).toNat : Nat) : Int)
  if s then -v else v

def fxMul (a b : Int) : Int := a * b / 2 ^ 192

/-- ln 2, log₂ e and π. -/
def fxLn2 : Int := 0xb17217f7d1cf79abc9e3b39803f2f6af40f343267298b62d
def fxLog2e : Int := 0x171547652b82fe1777d0ffda0d23a7d11d6aef551bad2b4b1
def fxPi : Int := 0x3243f6a8885a308d313198a2e03707344a4093822299f31d0

/-- A series: its first term, and each next term from the one before it. -/
def fxSeries (n : Nat) (t0 : Int) (next : Int → Int → Int) : Int :=
  ((List.range n).foldl (fun (s : Int × Int) k => let t := next ((k : Int) + 1) s.2; (s.1 + t, t)) (t0, t0)).1

/-- eˣ for 0 ≤ x < 1, and sin x and cos x for |x| < 1. -/
def fxExp (x : Int) : Int := fxSeries 56 (2 ^ 192) (fun k t => fxMul t x / k)
def fxSin (x : Int) : Int := fxSeries 30 x (fun k t => -(fxMul (fxMul t x) x / (2 * k * (2 * k + 1))))
def fxCos (x : Int) : Int := fxSeries 30 (2 ^ 192) (fun k t => -(fxMul (fxMul t x) x / ((2 * k - 1) * (2 * k))))

/-- ln y for 1 ≤ y < 2, from the powers of (y − 1) ÷ (y + 1). -/
def fxLn (y : Int) : Int :=
  let z := (y - 2 ^ 192) * 2 ^ 192 / (y + 2 ^ 192)
  2 * ((List.range 64).foldl (fun (s : Int × Int) k => (s.1 + s.2 / (2 * (k : Int) + 1), fxMul (fxMul s.2 z) z)) (0, z)).1

/-- 2ᵗ as a fixed-point number from 1 to below 2 and a power of two. -/
def fxExp2 (t : Int) : Int × Int := (fxExp (fxMul (t % 2 ^ 192) fxLn2), t / 2 ^ 192)

def fxNum (x : Int) : Num := .fin (decide (x < 0)) x.natAbs (-192)

/-- sin (x + q × π ÷ 2). -/
def fxTurn (q : Int) (x : Int) : Int :=
  let (k, r) := ((2 * x + fxPi / 2) / fxPi, x - ((2 * x + fxPi / 2) / fxPi) * (fxPi / 2))
  match ((k + q) % 4).toNat with
  | 0 => fxSin r
  | 1 => fxCos r
  | 2 => -fxSin r
  | _ => -fxCos r

/-- The function's value at a finite x that is not 0, where it has one. -/
def TFn.exact (f : TFn) (s : Bool) (m : Nat) (e : Int) : Option Num :=
  let top := (Nat.log2 m : Int) + e
  let a := toFx false m e
  let sgn := fun (v : Num) => if s then v.neg else v
  match f with
  | .exp2 =>
    if 10 ≤ top then some (.fin false 1 (if s then -400 else 400))
    else let (v, n) := fxExp2 (toFx s m e); some (.fin false v.toNat (n - 192))
  | .log2 =>
    if s then none
    else let k := Nat.log2 m; some (fxNum (((k : Int) + e) * 2 ^ 192 + fxMul (fxLn ((m <<< (192 - k) : Nat) : Int)) fxLog2e))
  | .recip => some (.fin s (2 ^ 256 / m) (-256 - e))
  | .sqrt => if s then none else some (.fin false (Nat.sqrt (m <<< (if e % 2 = 0 then 200 else 201))) ((e - (if e % 2 = 0 then 200 else 201)) / 2))
  | .rsqrt =>
    if s then none
    else some (.fin false (2 ^ 400 / Nat.sqrt (m <<< (if e % 2 = 0 then 200 else 201))) (-400 - (e - (if e % 2 = 0 then 200 else 201)) / 2))
  | .tanh =>
    if 6 ≤ top then some (sgn .one)
    else if top < -40 then some (.fin s m e)
    else
      let (v, n) := fxExp2 (fxMul (2 * a) fxLog2e)
      let x := v * 2 ^ n.toNat
      some (sgn (fxNum ((x - 2 ^ 192) * 2 ^ 192 / (x + 2 ^ 192))))
  | .sigmoid =>
    if 8 ≤ top then some (if s then .fin false 1 (-400) else .one)
    else
      let (v, n) := fxExp2 (-(fxMul a fxLog2e))
      let below := 2 ^ 192 + (v.toNat >>> (-n).toNat)
      some (if s then .fin false (v.toNat * 2 ^ 200 / below) (n - 200) else .fin false (2 ^ 392 / below) (-200))
  | .sin => if top < -40 then some (.fin s m e) else some (sgn (fxNum (fxTurn 0 a)))
  | .cos => some (fxNum (fxTurn 1 a))

/-- The maximum error of 03 Table 03.6: `y` lies within it of the exact value `a`, whose own error is far smaller. -/
def TFn.within (f : TFn) (a y : Num) : Bool :=
  let ulp := max (a.log2Floor - 23) (-149)
  let limit := match f with
    | .sin | .cos => Num.fin false (2 ^ 30 + 1) (-52)
    | .tanh | .sigmoid => .fin false (2 ^ 31 + 1) (ulp - 30)
    | _ => .fin false (2 ^ 30 + 1) (ulp - 30)
  !y.isNan && !limit.lt (y.add a.neg).abs

/-- A transcendental unit: the specified cases, else a free value within the maximum error of 03 Table 03.6 (log 61): one that lies outside
it gives way to the nearest FP32 value. -/
def tu (f : TFn) (x : Num) : Num :=
  let x := flush x
  match f.special x, x with
  | some y, _ => y
  | none, .fin s m e =>
    let y := fp32.decode (Config.transcendental f.ctorIdx (BitVec.ofNat 32 (fp32.encode x))).toNat
    flush (match f.exact s m e with
      | some a => if f.within a y then y else r32 a
      | none => y)
  | none, _ => .nan

/-- Value of an FP32 code. -/
def f32 (code : Nat) : Num := fp32.decode code

/-- The row order of sums and maxima: 1,024 lanes, then a tree of pairs (06 R181). -/
def laneSums {α : Type} (d : α) (comb : α → α → α) (xs : List α) : List α :=
  (List.range (min 1024 xs.length)).map (fun l =>
    match (chunks 1024 xs).filterMap (fun c => (c.drop l).head?) with
    | [] => d
    | y :: ys => ys.foldl comb y)

def pairUp {α : Type} (comb : α → α → α) : List α → List α
  | a :: b :: t => comb a b :: pairUp comb t
  | l => l

def treeFuel {α : Type} (d : α) (comb : α → α → α) : Nat → List α → α
  | 0, l => l.headD d
  | _ + 1, [] => d
  | _ + 1, [x] => x
  | n + 1, l => treeFuel d comb n (pairUp comb l)

/-- Combine a row in the lane order; `d` is the result of an empty row. -/
def laneFold {α : Type} (d : α) (comb : α → α → α) (xs : List α) : α := treeFuel d comb 11 (laneSums d comb xs)

def laneOrder (comb : Num → Num → Num) (xs : List Num) : Num := laneFold .zero comb xs

/-- GELU_TANH (06 Table 06.9), one rounding for each step: 0.5 z (1 + tanh(0.7978846 (z + 0.044715 z³))). -/
def geluTanh (z : Num) : Num :=
  let cube := vmul (vmul z z) z
  let t := tu .tanh (vmul (f32 0x3F4C422A) (vfma (f32 0x3D372713) cube z))
  vmul (vmul (f32 0x3F000000) z) (vadd .one t)

/-- log₂ e rounded to FP32 (06 R173). -/
def log2e : Num := f32 0x3FB8AA3B
/-- ln 2 as 0.6931472 rounded to FP32 (06 R173, Table 06.9). -/
def ln2 : Num := f32 0x3F317218

/-- The functions of 06 Table 06.9 on z. -/
def mapFn (code : Nat) (z : Num) : Num :=
  match code with
  | 0 => z
  | 1 => Num.max z .zero
  | 2 => geluTanh z
  | 3 => vmul z (tu .sigmoid z)
  | 4 => tu .sigmoid z
  | 5 => tu .tanh z
  | 6 => tu .exp2 (vmul z log2e)
  | 7 => vmul (tu .log2 z) ln2
  | 8 => tu .rsqrt z
  | 9 => tu .recip z
  | 10 => tu .sqrt z
  | 11 => z.abs
  | 12 => tu .sin z
  | 13 => tu .cos z
  | _ => vmul z z

/-- The functions of 06 Table 06.10 on u and w. -/
def map2Fn (code : Nat) (u w : Num) : Num :=
  match code with
  | 0 => vadd u w
  | 1 => vsub u w
  | 2 => vmul u w
  | 3 => Num.max u w
  | 4 => Num.min u w
  | 5 => vmul u (tu .recip w)
  | 6 => vmul (vmul u (tu .sigmoid u)) w
  | _ => vmul (geluTanh u) w

end Sys2Proof.Machine
end

