-- ==== Sys2Proof/Machine/Tensor.lean ====
section
/-! DEFINITION. Operation and tensor descriptors: fields, checks of 05 Table 05.6, slot use (06 Table 06.1), element addresses, block
scales and fragments (05 R137-R151). -/

namespace Sys2Proof.Machine

open Sys2Proof

/-! ## Operation descriptors (05 Tables 05.2, 05.3) -/

/-- The 128 bytes of an operation descriptor. -/
abbrev Desc := List Byte

def opcodeOf (d : Desc) : Nat := leAt d 0 1
def header (d : Desc) : Nat := leAt d 0 8
def hdr (d : Desc) (lo w : Nat) : Nat := bits (header d) lo w
def foldOf (d : Desc) : Nat := hdr d 8 3
def idempotent (d : Desc) : Bool := hdr d 11 1 == 1
def backedInput (d : Desc) : Bool := hdr d 12 1 == 1
def waitBefore (d : Desc) : Bool := hdr d 13 1 == 1
def signalAfter (d : Desc) : Bool := hdr d 14 1 == 1
def trapOnError (d : Desc) : Bool := hdr d 15 1 == 1
def deadlineClass (d : Desc) : Nat := hdr d 16 2
def rndOf (d : Desc) : Nat := hdr d 18 2
def ovfInf (d : Desc) : Bool := hdr d 20 1 == 1
def noRecord (d : Desc) : Bool := hdr d 21 1 == 1
def tvalid (d : Desc) : Nat := hdr d 24 4
def waitFlagOf (d : Desc) : Nat := hdr d 32 10
def signalFlagOf (d : Desc) : Nat := hdr d 42 10
def slotAddr (d : Desc) (s : Nat) : Nat := leAt d (8 + 8 * s) 8
def waitValue (d : Desc) : Nat := leAt d 0x28 4
def signalAdd (d : Desc) : Nat := leAt d 0x2C 2
def deadlineField (d : Desc) : Nat := bits (leAt d 0x2E 2) 0 15
def pace (d : Desc) : Nat := leAt d 0x30 1
def tagOf (d : Desc) : Nat := leAt d 0x32 2
def signalNode (d : Desc) : Nat := bits (leAt d 0x34 2) 0 14
def signalRemote (d : Desc) : Bool := bit (leAt d 0x34 2) 15
/-- An OPS field, by its descriptor offset. -/
def ops (d : Desc) (off n : Nat) : Nat := leAt d off n

/-- Opcodes of 05 Table 05.8. -/
def opcodes : List Nat :=
  (List.range 11) ++ [0x10, 0x11, 0x12, 0x13, 0x30, 0x31, 0x40, 0x41, 0x50, 0x51, 0x52, 0x53, 0x54, 0x55, 0x56, 0x70, 0x80, 0x81, 0x82,
    0x90, 0x91, 0x92, 0x93, 0xA0, 0xA1, 0xA2, 0xA3, 0xA4, 0xA5, 0xA6, 0xB0]

def isControl (o : Nat) : Bool := decide (o ≤ 0x0A)
/-- NOP, JUMP, LOOP, CALL, RETURN (05 R134). -/
def fetchResolved (o : Nat) : Bool := o == 0 || o == 1 || o == 3 || o == 4 || o == 5
def isContraction (o : Nat) : Bool := 0x10 ≤ o && o ≤ 0x13
def isAttention (o : Nat) : Bool := o == 0x30 || o == 0x31
def isCollective (o : Nat) : Bool := 0xA0 ≤ o && o ≤ 0xA6

/-- 05 R140: the opcode can be idempotent. -/
def replayClass (o : Nat) : Bool := o != 0x82 && !isCollective o && o != 0xB0

/-- Bits of the OPS bytes that an opcode uses, as (offset, size, mask of used bits) (05 Table 05.9, 06 Tables 06.2-06.15). -/
def opsUse (o : Nat) : List (Nat × Nat × Nat) :=
  let contract := [(0x50, 1, 0x7), (0x51, 1, 0xFF), (0x52, 1, 0x3), (0x54, 20, 2 ^ 160 - 1)]
  match o with
  | 0x01 | 0x04 => [(0x50, 8, 2 ^ 64 - 1)]
  | 0x02 => [(0x50, 8, 2 ^ 64 - 1), (0x58, 3, 2 ^ 24 - 1), (0x5C, 4, 2 ^ 32 - 1)]
  | 0x03 => [(0x50, 8, 2 ^ 64 - 1), (0x58, 1, 0xFF), (0x5C, 4, 2 ^ 32 - 1)]
  | 0x0A => [(0x58, 2, 0xFFFF)]
  | 0x10 | 0x11 | 0x12 => contract
  | 0x13 => contract ++ [(0x68, 10, 2 ^ 80 - 1)]
  | 0x30 => [(0x50, 9, 2 ^ 72 - 1), (0x5C, 4, 2 ^ 32 - 1), (0x60, 8, 2 ^ 32 - 1), (0x68, 8, 2 ^ 64 - 1)]
  | 0x31 => [(0x50, 9, 2 ^ 72 - 1), (0x5C, 4, 2 ^ 32 - 1), (0x60, 25, 2 ^ 200 - 1), (0x7C, 4, 2 ^ 32 - 1)]
  | 0x40 => [(0x50, 1, 0x3), (0x51, 1, 0xFF)]
  | 0x41 => [(0x50, 2, 0xFFFF), (0x52, 1, 0x3)]
  | 0x50 | 0x51 => [(0x50, 1, 0xFF), (0x54, 8, 2 ^ 64 - 1)]
  | 0x52 => [(0x50, 1, 0xFF), (0x51, 1, 0x3), (0x54, 4, 2 ^ 32 - 1)]
  | 0x53 => [(0x54, 4, 2 ^ 32 - 1)]
  | 0x54 => [(0x51, 1, 0x1), (0x54, 4, 2 ^ 32 - 1)]
  | 0x55 => [(0x50, 1, 0x1), (0x54, 4, 2 ^ 32 - 1)]
  | 0x56 => [(0x50, 1, 0x3)]
  | 0x70 => [(0x50, 1, 0xFF), (0x51, 1, 0x3F)]
  | 0x80 | 0x81 | 0x82 => [(0x50, 1, 0x1)]
  | 0x91 => [(0x50, 8, 2 ^ 64 - 1)]
  | 0x93 => [(0x50, 1, 0xFF), (0x51, 1, 0x1)]
  | 0xA0 | 0xA1 => [(0x50, 17, 2 ^ 136 - 1), (0x61, 1, 0x1), (0x62, 2, 0xFFFF)]
  | 0xA2 | 0xA3 | 0xA4 | 0xA5 | 0xA6 => [(0x50, 16, 2 ^ 128 - 1), (0x60, 1, 0xFF), (0x61, 1, 0x1), (0x62, 2, 0xFFFF)]
  | 0xB0 => [(0x50, 33, 2 ^ 264 - 1)]
  | _ => []

/-- A reserved field of the descriptor is not 0 (05 Tables 05.2, 05.3; OPS bytes the opcode does not list). -/
def reservedField (d : Desc) : Bool :=
  let used := (opsUse (opcodeOf d)).foldl (fun (v : Nat) (x : Nat × Nat × Nat) => Nat.lor v (x.2.2 <<< (8 * (x.1 - 0x50)))) 0
  let opsBits := leAt d 0x50 48
  hdr d 22 2 != 0 || hdr d 28 4 != 0 || hdr d 52 12 != 0 || bits (leAt d 0x2E 2) 15 1 != 0 || leAt d 0x31 1 != 0 ||
  bits (leAt d 0x34 2) 14 1 != 0 || leAt d 0x36 26 != 0 || Nat.land opsBits used != opsBits

/-- The slots an opcode uses (06 Table 06.1). -/
def slotSet (d : Desc) : Nat :=
  let o := opcodeOf d
  let en := fun (off b : Nat) => bit (ops d off 1) b
  if isContraction o then 7 + (if en 0x52 0 || en 0x52 1 then 8 else 0)
  else match o with
  | 0x30 | 0x31 => 0xF
  | 0x40 => 7 + (if en 0x50 0 then 8 else 0)
  | 0x41 | 0x50 | 0x53 | 0x70 => 3
  | 0x51 => 7
  | 0x52 => 3 + (if en 0x51 0 then 4 else 0) + (if en 0x51 1 then 8 else 0)
  | 0x54 => 3 + (if en 0x51 0 then 4 else 0)
  | 0x55 => 7
  | 0x56 => 3 + (if en 0x50 1 then 4 else 0)
  | 0x80 | 0x81 | 0x82 => 7
  | 0x90 | 0x92 => 3
  | 0x91 => 1
  | 0x93 => 1 + (if en 0x51 0 then 2 else 0)
  | 0xA0 | 0xA1 | 0xA2 | 0xA3 => 3
  | 0xA4 | 0xA5 | 0xA6 => 1
  | _ => 0

/-- Slots that may be tile-relative, and slots that may name another node (06 Table 06.1). -/
def tileSlots (o : Nat) : Nat :=
  match o with
  | 0x10 | 0x11 | 0x12 => 7
  | 0x40 | 0x41 | 0x50 | 0x51 | 0x53 | 0x55 | 0x56 | 0x70 => 0xF
  | 0x52 | 0x54 => 3
  | 0x80 => 6
  | 0x81 | 0x82 => 3
  | 0x90 => 3
  | 0x91 | 0x93 => 1
  | 0x92 => 2
  | _ => 0

def remoteSlots (o : Nat) : Nat :=
  match o with
  | 0x10 | 0x11 | 0x12 | 0x13 => 4
  | 0x80 | 0x91 | 0x92 => 1
  | 0x81 | 0x82 => 4
  | 0x90 => 3
  | _ => 0

/-- The slots an opcode writes. -/
def outSlots (d : Desc) : List Nat :=
  match opcodeOf d with
  | 0x30 | 0x31 => [3]
  | 0x51 | 0x40 | 0x80 | 0x81 | 0x82 | 0x10 | 0x11 | 0x12 | 0x13 => [2]
  | 0x41 | 0x50 | 0x52 | 0x53 | 0x70 | 0x90 | 0x92 | 0xA0 | 0xA1 | 0xA2 | 0xA3 => [1]
  | 0x54 => [1] ++ (if bit (ops d 0x51 1) 0 then [2] else [])
  | 0x55 => [1, 2]
  | 0x56 => [1] ++ (if bit (ops d 0x50 1) 1 then [2] else [])
  | 0x91 | 0xA4 | 0xA6 => [0]
  | 0x93 => if bit (ops d 0x51 1) 0 then [1] else []
  | _ => []

/-! ## Tensor descriptors (05 Table 05.7) -/

structure Tensor where
  slot : Nat
  /-- the node BASE names, when it is another one -/
  node : Option Nat
  base : Nat
  fmt : Nat
  /-- sizes of the NDIM dimensions -/
  sizes : List Nat
  /-- strides of dimensions 1 to NDIM − 1 -/
  strides : List Int
  bdim : Nat
  tileRel : Bool
  scaleAddr : Nat
  bitmapEn : Bool
  bitmapAddr : Nat
  /-- BACKING_EN, and the backing address of BASE (05 R150) -/
  backing : Option Nat
  deriving DecidableEq, Repr

/-- A field of a tensor descriptor. -/
def tfield (b : List Byte) (off n lo w : Nat) : Nat := bits (leAt b off n) lo w

def prodOf (l : List Nat) : Nat := l.foldl (· * ·) 1

/-- Number of elements. -/
def Tensor.count (t : Tensor) : Nat := prodOf t.sizes
def Tensor.size (t : Tensor) (k : Nat) : Nat := nth t.sizes k 1
def Tensor.ndim (t : Tensor) : Nat := t.sizes.length
def Tensor.width (t : Tensor) : Nat := fmtWidth t.fmt

/-- Coordinates of a linear index, dimension 0 fastest. -/
def coords : List Nat → Nat → List Nat
  | [], _ => []
  | n :: ns, i => i % n :: coords ns (i / n)

/-- Linear index of coordinates. -/
def linear : List Nat → List Nat → Nat
  | n :: ns, c :: cs => c + n * linear ns cs
  | _, _ => 0

/-- The tensor a descriptor gives, decoded on a module (05 R24, R145). -/
def Mod.tensor (m : Mod) (slot : Nat) (b : List Byte) : Tensor :=
  let ndim := tfield b 0x10 8 47 3
  let base := leAt b 0 8
  let local_ := base % 2 ^ 48
  { slot := slot,
    node := match m.decodeAddr base with
      | .remote n _ => some n
      | _ => none,
    base := local_, fmt := tfield b 0x10 8 42 5,
    sizes := (List.range (min ndim 6)).map (fun k => 1 + (if k = 0 then tfield b 8 8 42 20 else tfield b (0x1D + 7 * (k - 1)) 7 0 20)),
    strides := (List.range (min ndim 6 - 1)).map (fun k => signed 36 (tfield b (0x1D + 7 * k) 7 20 36)),
    bdim := tfield b 0x10 8 50 3, tileRel := tfield b 0x10 8 53 1 == 1,
    scaleAddr := tfield b 8 8 0 42 * 64, bitmapEn := tfield b 0x10 8 55 1 == 1, bitmapAddr := tfield b 0x10 8 0 42 * 64,
    backing := if tfield b 0x10 8 56 1 = 1 then some (tfield b 0x18 5 0 35 * 64 + base % 64) else none }

/-- Signed sum over dimensions 1 and up of coordinate × stride. -/
def strideSum : List Nat → List Int → Int
  | c :: cs, s :: ss => (c : Int) * s + strideSum cs ss
  | _, _ => 0

/-- Bit address of an element: byte address and bit in it (05 R146). -/
def Tensor.elemAt (t : Tensor) (c : List Nat) : Int × Nat :=
  let b := c.headD 0 * t.width
  ((t.base : Int) + ((b / 8 : Nat) : Int) + strideSum (c.drop 1) t.strides, b % 8)

/-- Lowest and highest byte the tensor's elements touch (05 R148). -/
def Tensor.span (t : Tensor) : Int × Int :=
  let ends := (t.sizes.drop 1).zip t.strides
  let lo := ends.foldl (fun (a : Int) e => if e.2 < 0 then a + ((e.1 - 1 : Nat) : Int) * e.2 else a) 0
  let hi := ends.foldl (fun (a : Int) e => if 0 < e.2 then a + ((e.1 - 1 : Nat) : Int) * e.2 else a) 0
  ((t.base : Int) + lo, (t.base : Int) + hi + (((t.size 0 * t.width + 7) / 8 : Nat) : Int) - 1)

/-- Kind of region of a local byte (05 R148; 01 Table 01.6): LPDDR windows, hub buffer, SRAM window of one die, alias or register
region, none. -/
inductive Region where
  | lpddr | hub | sram (n : Nat) | special | none
  deriving DecidableEq, Repr

def regionOf (a : Int) : Region :=
  if a < 0 then .none
  else if a < 0x18000000000 then .lpddr
  else if a < 0x400000000000 then .none
  else if a < 0x400080000000 then .hub
  else if a < 0x400100000000 then .none
  else if a < 0x400500000000 then .sram ((a.toNat - 0x400100000000) / 0x40000000)
  else if a < 0x500000000000 then .none
  else if a < 0x800000000000 then .special
  else .none

/-- 05 R147: the descriptor's fields are valid on their own. -/
def tensorFieldsOk (b : List Byte) : Bool :=
  let ndim := tfield b 0x10 8 47 3
  let fmt := tfield b 0x10 8 42 5
  let scaleEn := tfield b 0x10 8 54 1 == 1
  let w := fmtWidth fmt
  let size0 := 1 + tfield b 8 8 42 20
  let dims := (List.range 5).map (fun k => (k + 1, tfield b (0x1D + 7 * k) 7 0 20, tfield b (0x1D + 7 * k) 7 20 36))
  1 ≤ ndim && ndim ≤ 6 && fmtListed fmt && (isMx fmt == scaleEn) && decide (tfield b 0x10 8 50 3 < ndim) &&
  dims.all (fun x => decide (x.1 < ndim) || (x.2.1 == 0 && x.2.2 == 0)) &&
  (if w = 4 then size0 % 2 == 0 else if w = 6 then size0 % 4 == 0 else true) &&
  (if 16 ≤ w then leAt b 0 8 % (w / 8) == 0 && dims.all (fun x => x.2.2 % (w / 8) == 0) else true) &&
  bits (leAt b 8 8) 62 2 == 0 && bits (leAt b 0x10 8) 57 7 == 0 && bits (leAt b 0x18 5) 35 5 == 0

/-- The line of an element for block scales: the linear index of its coordinates but BDIM (05 R149). -/
def Tensor.scaleIndex (t : Tensor) (c : List Nat) : Nat :=
  let nb := ceilDiv (t.size t.bdim) 32
  linear (t.sizes.eraseIdx t.bdim) (c.eraseIdx t.bdim) * nb + nth c t.bdim 0 / 32

/-- Number of scale bytes. -/
def Tensor.scaleCount (t : Tensor) : Nat := prodOf (t.sizes.eraseIdx t.bdim) * ceilDiv (t.size t.bdim) 32

/-- Byte ranges of the tensor's lines along dimension 0, the first `n0` elements of each, in element order. -/
def Tensor.lines (t : Tensor) : List (Int × Nat) :=
  (List.range (prodOf (t.sizes.drop 1))).map (fun i =>
    ((t.elemAt (0 :: coords (t.sizes.drop 1) i)).1, (t.size 0 * t.width + 7) / 8))

/-! ## Partitions and folds (01 Table 01.8, R29; 03 R81, R82, R89) -/

/-- The logical order of a partition's active dies (03 R81). -/
def Mod.logical (m : Mod) (q : Nat) : List Nat :=
  ((List.range 16).map (fun p => m.fld F.HUB_TILE_MAP_DIE 0 0 p)).filter (fun d => (m.partition q).contains d && bit m.active d)

/-- Tile rows × columns of a fold code; none: KS (05 Table 05.4, 03 Table 03.7). -/
def foldShape (f : Nat) : Option (Nat × Nat) :=
  match f with
  | 1 => some (4, 4)
  | 2 => some (2, 8)
  | 4 => some (8, 2)
  | 5 => some (1, 16)
  | 6 => some (16, 1)
  | _ => none

/-- The effective shape: the largest product of at most A, and of equal products the one with more rows (03 R89). -/
def effective (r c a : Nat) : Nat × Nat :=
  ((List.range r).flatMap (fun i => (List.range c).map (fun j => (i + 1, j + 1)))).foldl (fun (best x : Nat × Nat) =>
    if a < x.1 * x.2 then best
    else if best.1 * best.2 < x.1 * x.2 ∨ (best.1 * best.2 = x.1 * x.2 ∧ best.1 < x.1) then x else best) (1, 1)

/-- Slice `s` of `x` elements in slices of `len`: first and past-the-last element. -/
def sliceAt (x len s : Nat) : Nat × Nat := (min x (len * s), min x (len * (s + 1)))

/-- K over `n` tiles (03 R82), and M or N over `p` tiles (06 R166). -/
def kSlice (k n s : Nat) : Nat × Nat := sliceAt k (ceilDiv k (32 * n) * 32) s
def mnSlice (x p s : Nat) : Nat × Nat := sliceAt x (ceilDiv x (256 * p) * 256) s

/-- The part of a contraction that one tile computes (03 R80-R83). -/
structure TileWork where
  die : Nat
  k : Nat × Nat
  m : Nat × Nat
  n : Nat × Nat
  deriving DecidableEq, Repr

/-- The tiles of a contraction in logical order, and whether the hub adds their partial sums (03 Table 03.7, R82). -/
def tilesOf (fold : Nat) (os : Bool) (order : List Nat) (mm nn kk : Nat) : List TileWork × Bool :=
  match foldShape fold with
  | none => (order.mapIdx (fun s d => { die := d, k := kSlice kk order.length s, m := (0, mm), n := (0, nn) }), true)
  | some (r, c) =>
    let (r, c) := effective r c order.length
    ((order.take (r * c)).mapIdx (fun p d =>
      { die := d, k := if os then (0, kk) else kSlice kk r (p / c), m := if os then mnSlice mm r (p / c) else (0, mm),
        n := mnSlice nn c (p % c) }), !os && decide (1 < r))

/-! ## Operand pairs (04 Table 04.4) -/

/-- Class of a contraction operand: 0 FP4, 1 FP6 or FP8, 2 BF16 or FP16, 3 INT8 or INT4, 4 FP32, 5 none. -/
def pairClass (fmt : Nat) : Nat :=
  match fmt % 16 with
  | 7 => 0
  | 3 | 4 | 5 | 6 => 1
  | 1 | 2 => 2
  | 8 | 9 => 3
  | 0 => 4
  | _ => 5

/-- e and whether the accumulator is INT32, for an accepted pair. -/
def pairOf (split : Bool) (a b : Nat) : Option (Nat × Bool) :=
  let x := pairClass a
  let y := pairClass b
  if split then (if x = 4 ∧ y = 4 then some (2, false) else none)
  else if x = 3 ∧ y = 3 then some (4, true)
  else if 3 ≤ x ∨ 3 ≤ y then none
  else if x = 2 ∨ y = 2 then some (2, false)
  else if x = 1 ∨ y = 1 then some (4, false)
  else some (8, false)

/-! ## Staging checks (05 Table 05.6; 06 R159-R199) -/

/-- The header and OPS bytes alone (05 Table 05.6). -/
def headerOk (d : Desc) : Bool :=
  let o := opcodeOf d
  let f := foldOf d
  !reservedField d &&
  (if isContraction o then f != 3 && f != 7 else if isAttention o then f == 0 || f == 5 else f == 0) &&
  deadlineClass d != 3 && rndOf d != 3 && tvalid d == slotSet d &&
  (List.range 4).all (fun s => bit (tvalid d) s || slotAddr d s == 0) &&
  !(signalAfter d && signalAdd d == 0)

/-- One tensor of an operation: its fields and its use of TILE_REL, remote addresses and bitmaps (05 R147, R151; 06 R159). -/
def Mod.tensorUseOk (m : Mod) (d : Desc) (t : Tensor) (b : List Byte) : Bool :=
  let o := opcodeOf d
  tensorFieldsOk b && (!t.tileRel || (bit (tileSlots o) t.slot && t.node.isNone)) && (t.node.isNone || bit (remoteSlots o) t.slot) &&
  (t.bitmapEn == (o == 0x11 && t.slot == 1)) &&
  (!t.tileRel || ((match m.decodeAddr (leAt b 0 8) with
    | .here a => decide (0x400100000000 ≤ a ∧ a < 0x400138000000)
    | _ => false) && (!isMx t.fmt || decide (0x400100000000 ≤ t.scaleAddr ∧ t.scaleAddr < 0x400138000000)) &&
    (!t.bitmapEn || decide (0x400100000000 ≤ t.bitmapAddr ∧ t.bitmapAddr < 0x400138000000)) &&
    decide (0x400100000000 ≤ t.span.1 ∧ t.span.2 < 0x400138000000)))

/-- 05 R148, R27: where a tensor lies: ST_OK, ST_PROTOCOL, or ST_ACCESS in an alias or register region. -/
def Mod.tensorPlace (m : Mod) (t : Tensor) (b : List Byte) : Status :=
  let lo := regionOf t.span.1
  let hi := regionOf t.span.2
  if m.decodeAddr (leAt b 0 8) = .outside then .protocol
  else if lo = .special ∨ hi = .special then .access
  else if lo = .none ∨ lo ≠ hi then .protocol
  else .ok

/-- Bytes from the lowest to the highest one that the tensor touches, rounded up to 64 (05 R151). -/
def Tensor.extent (t : Tensor) : Nat := ceilDiv (t.span.2 - t.span.1 + 1).toNat 64 * 64

/-- `n` bytes from an address lie in the populated part of one LPDDR window. -/
def inWindow (a : Int) (n : Nat) : Bool :=
  decide (0 ≤ a) && (match lpddrAt a.toNat, lpddrAt (a.toNat + n - 1) with
    | some (k, _), some (k', _) => k == k'
    | _, _ => false)

/-- Every byte of the backing copy lies in populated LPDDR (05 R150): of each line of the tensor, or of the whole range that the backing of
`frags` fragments takes (R151). -/
def backingOk (t : Tensor) (frags : Nat) : Bool :=
  match t.backing with
  | none => true
  | some b =>
    let lo : Int := (b : Int) + (t.span.1 - t.base)
    if t.tileRel then inWindow lo (frags * t.extent)
    else inWindow lo (t.span.2 - t.span.1 + 1).toNat || t.lines.all (fun l => inWindow ((b : Int) + (l.1 - t.base)) l.2)

def sameShape (a b : Tensor) : Bool := a.sizes == b.sizes

/-- Output size of a window (06 R170); 0 when it is below 1. -/
def windowOut (x padA padB dil k stride : Nat) : Nat :=
  if x + padA + padB < dil * (k - 1) + 1 then 0 else (x + padA + padB - dil * (k - 1) - 1) / stride + 1

/-- Contraction checks (06 Table 06.4, R164-R170). -/
def contractOk (d : Desc) (order : List Nat) (a b c : Tensor) (aux : Option Tensor) : Bool :=
  let o := opcodeOf d
  let mode := ops d 0x50 1
  let mm := ops d 0x5C 4
  let nn := ops d 0x60 4
  let kk := ops d 0x64 4
  let ta := bit mode 1
  let tb := bit mode 2
  let inRange := fun (x : Nat) => 1 ≤ x && x ≤ 16777216
  let ka := if ta then 1 else 0
  let kb := if tb then 1 else 0
  let (tiles, red) := tilesOf (foldOf d) (bit mode 0) order mm nn kk
  let len := fun (p : Nat × Nat) => p.2 - p.1
  let top := fun (g : TileWork → Nat × Nat) => (tiles.map (fun t => len (g t))).foldl max 0
  let fits := fun (t : Tensor) (dim full slice : Nat) => if t.tileRel then decide (slice ≤ t.size dim) else t.size dim == full
  inRange mm && inRange nn && inRange kk && decide (ops d 0x51 1 ≤ 5) && (pairOf (o == 0x12) a.fmt b.fmt).isSome && c.fmt != 0x0C &&
  (match aux with
   | none => true
   | some x => x.sizes == [nn, 2] && decide (x.fmt ≤ 1)) &&
  !(c.node.isSome && ops d 0x58 4 != 0) &&
  (if o = 0x13 then
    let kw := ops d 0x68 1
    let kh := ops d 0x69 1
    let sw := ops d 0x6A 1
    let sh := ops d 0x6B 1
    let dw := ops d 0x6C 1
    let dh := ops d 0x6D 1
    let small := fun (x : Nat) => 1 ≤ x && x ≤ 8
    let ow := windowOut (a.size 1) (ops d 0x6E 1) (ops d 0x70 1) dw kw sw
    let oh := windowOut (a.size 2) (ops d 0x6F 1) (ops d 0x71 1) dh kh sh
    !ta && !tb && 1 ≤ kw && kw ≤ 16 && 1 ≤ kh && kh ≤ 16 && small sw && small sh && small dw && small dh &&
    (List.range 4).all (fun i => decide (ops d (0x6E + i) 1 ≤ 15)) && 1 ≤ ow && 1 ≤ oh &&
    a.ndim == 4 && b.ndim == 4 && c.ndim == 4 && b.sizes == [a.size 0, kw, kh, nn] && c.sizes == [nn, ow, oh, a.size 3] &&
    mm == a.size 3 * oh * ow && kk == a.size 0 * kw * kh &&
    (!isMx a.fmt || (a.bdim == 0 && a.size 0 % 32 == 0)) && (!isMx b.fmt || (b.bdim == 0 && b.size 0 % 32 == 0)) &&
    decide (a.size 0 * kw * fmtWidth a.fmt ≤ 65536 * 8)
  else
    (!isMx a.fmt || a.bdim == ka) && (!isMx b.fmt || b.bdim == kb) &&
    2 ≤ a.ndim && 2 ≤ b.ndim && 2 ≤ c.ndim && a.sizes.drop 2 == c.sizes.drop 2 && b.ndim == c.ndim &&
    ((b.sizes.drop 2).zip (c.sizes.drop 2)).all (fun x => x.1 == x.2 || x.1 == 1) &&
    !((a.tileRel || b.tileRel || c.tileRel) && (decide (2 < a.ndim) || decide (2 < b.ndim) || decide (2 < c.ndim))) &&
    !(c.tileRel && red) && (o != 0x11 || b.bitmapEn) &&
    fits a ka kk (top TileWork.k) && fits a (1 - ka) mm (top TileWork.m) && fits b kb kk (top TileWork.k) && fits b (1 - kb) nn (top TileWork.n) &&
    fits c 0 nn (top TileWork.n) && fits c 1 mm (top TileWork.m))

/-- Attention checks (06 Table 06.6, R172, R176). -/
def attendOk (d : Desc) (q k v o : Tensor) : Bool :=
  let paged := opcodeOf d = 0x31
  let mask := ops d 0x58 1
  let win := ops d 0x5C 4
  let h := q.size 2
  let hkv := k.size 2
  let lse := ops d (if paged then 0x70 else 0x68) 8
  let log2 := ops d 0x78 1
  let maxp := ops d 0x7C 4
  q.ndim == 4 && k.ndim == 4 && v.ndim == 4 && o.ndim == 4 && decide (q.size 0 ≤ 256) && decide (v.size 0 ≤ 256) && k.size 0 == q.size 0 &&
  v.size 2 == hkv && h % hkv == 0 && o.sizes == [v.size 0, q.size 1, h, q.size 3] && decide (mask ≤ 2) &&
  (mask != 2 || (1 ≤ win && win ≤ 16777216)) && decide (lse < 2 ^ 48) && lse % 4 == 0 && o.fmt != 0x0C &&
  (match pairOf false q.fmt k.fmt with
   | some (_, i) => !i
   | none => false) && (pairOf false 1 v.fmt).isSome && (!isMx q.fmt || q.bdim == 0) && (!isMx k.fmt || k.bdim == 0) && (!isMx v.fmt || v.bdim == 1) &&
  (if paged then
    4 ≤ log2 && log2 ≤ 8 && 1 ≤ maxp && maxp ≤ 65536 && k.size 1 == 2 ^ log2 && v.size 1 == 2 ^ log2 && k.size 3 == v.size 3 &&
    ops d 0x60 8 % 64 == 0 && ops d 0x68 8 % 64 == 0 && decide (ops d 0x60 8 < 2 ^ 48) && decide (ops d 0x68 8 < 2 ^ 48)
  else k.size 1 == v.size 1 && k.size 3 == q.size 3 && v.size 3 == q.size 3)

/-- E8M0 in a tensor is accepted by COPY and FILL alone (04 R489). -/
def e8Ok (o : Nat) (t : Nat → Option Tensor) : Bool :=
  let e := fun (s : Nat) => (t s).any (fun x => x.fmt == 0x0C)
  if o = 0x90 then (!e 1 || e 0)
  else if o = 0x91 then true
  else (List.range 4).all (fun s => !e s)

/-- Checks of the other opcodes (06 R178-R199), on their tensors. -/
def otherOk (d : Desc) (t : Nat → Option Tensor) : Bool :=
  let o := opcodeOf d
  let with1 := fun (s : Nat) (f : Tensor → Bool) => (t s).any f
  let with2 := fun (s r : Nat) (f : Tensor → Tensor → Bool) => (t s).any (fun a => (t r).any (fun b => f a b))
  let opt := fun (s : Nat) (f : Tensor → Bool) => (t s).all f
  let onChip := fun (a : Tensor) => a.node.isNone && (match regionOf a.base with
    | .hub => true
    | .sram _ => true
    | _ => false)
  let inLp := fun (a : Tensor) => a.node.isNone && regionOf a.base == .lpddr
  let gsize := ops d 0x58 2
  match o with
  | 0x40 =>
    let sd := ops d 0x51 1
    1 ≤ sd && sd ≤ 5 && with2 0 1 sameShape && with2 0 2 sameShape && with1 0 (fun a => decide (sd < a.ndim)) &&
    opt 3 (fun h => with1 0 (fun a => h.sizes == a.sizes.set sd 1))
  | 0x41 => decide (ops d 0x50 1 ≤ 3) && decide (ops d 0x51 1 ≤ 5) && with2 0 1 sameShape && with1 0 (fun a => decide (ops d 0x51 1 < a.ndim))
  | 0x50 => decide (ops d 0x50 1 ≤ 14) && with2 0 1 sameShape
  | 0x51 => decide (ops d 0x50 1 ≤ 7) && with2 0 2 sameShape &&
      with2 0 1 (fun x y => x.ndim == y.ndim && (x.sizes.zip y.sizes).all (fun p => p.2 == p.1 || p.2 == 1))
  | 0x52 => decide (ops d 0x50 1 ≤ 1) && with2 0 1 sameShape && opt 2 (fun g => with1 0 (fun a => g.sizes == [a.size 0])) &&
      opt 3 (fun g => with1 0 (fun a => g.sizes == [a.size 0]))
  | 0x53 => with2 0 1 sameShape
  | 0x54 => with2 0 1 sameShape && opt 2 (fun x => x.fmt == 0 && x.count == 1)
  | 0x55 =>
    let k := ops d 0x54 4
    1 ≤ k && k ≤ 1024 && with2 0 1 (fun x y => y.fmt == x.fmt && y.sizes == x.sizes.set 0 k && decide (k ≤ x.size 0)) &&
    with2 0 2 (fun x i => i.fmt == 0x0A && i.sizes == x.sizes.set 0 k)
  | 0x56 => with2 0 1 (fun x y => y.fmt == x.fmt && sameShape x y && decide (x.size 0 ≤ 65536)) &&
      opt 2 (fun i => i.fmt == 0x0A && with1 0 (fun x => sameShape x i))
  | 0x70 =>
    let dims := ops d 0x51 1
    dims != 0 && decide (ops d 0x50 1 ≤ 5) &&
    with2 0 1 (fun x y => decide (dims < 2 ^ x.ndim) && y.sizes == x.sizes.mapIdx (fun k n => if bit dims k then 1 else n) &&
      !(isInt x.fmt && ops d 0x50 1 == 5))
  | 0x80 | 0x81 | 0x82 =>
    let tab := if o = 0x80 then 0 else 2
    let dat := if o = 0x80 then 2 else 0
    with1 1 (fun i => i.fmt == 0x0A && i.ndim == 1 && with2 tab dat (fun x y => x.ndim == 2 && y.fmt == x.fmt && y.sizes == [x.size 0, i.size 0] &&
      x.size 0 * x.width % 8 == 0 && decide (x.size 0 * x.width ≤ 8 * 65536) &&
      (o != 0x82 || x.fmt == 0 || x.fmt == 1 || x.fmt == 2 || x.fmt == 0x0A)))
  | 0x90 => with2 0 1 (fun x y => sameShape x y && !(x.node.isSome && y.node.isSome))
  | 0x91 => with1 0 (fun x => !isMx x.fmt)
  | 0x92 => with2 0 1 (fun x y => sameShape x y && x.fmt == y.fmt && (x.node.isSome || inLp x) && onChip y)
  | 0x93 => decide (ops d 0x50 1 ≤ 2) && with1 0 onChip && opt 1 (fun y => with1 0 (fun x => sameShape x y && x.fmt == y.fmt && inLp y && !y.tileRel))
  | 0xB0 => ops d 0x50 8 % 8 == 0 && ops d 0x68 8 % 8 == 0 && decide (ops d 0x70 1 ≤ 4) && decide (ops d 0x68 8 < 2 ^ 48)
  | _ =>
    if isCollective o then
      let rank := ops d 0x5A 2
      2 ≤ gsize && gsize ≤ 16384 && ops d 0x50 8 % 64 == 0 && decide (ops d 0x50 8 < 2 ^ 48) && decide (rank < gsize) &&
      ((o != 0xA0 && o != 0xA1) || decide (ops d 0x60 1 ≤ 2)) && ((o != 0xA4 && o != 0xA5 && o != 0xA6) || decide (ops d 0x62 2 < gsize)) &&
      (match o with
       | 0xA0 => with2 0 1 (fun s r => s.sizes == r.sizes)
       | 0xA1 => with2 0 1 (fun s r => s.ndim == r.ndim && s.sizes == r.sizes.set (r.ndim - 1) (r.size (r.ndim - 1) * gsize))
       | 0xA2 => with2 0 1 (fun s r => s.ndim == r.ndim && r.sizes == s.sizes.set (s.ndim - 1) (s.size (s.ndim - 1) * gsize))
       | 0xA3 => with2 0 1 (fun s r => s.sizes == r.sizes && s.size (s.ndim - 1) % gsize == 0)
       | _ => true)
    else true

end Sys2Proof.Machine
end

