-- ==== Sys2Proof/Machine/Array.lean ====
section
/-! DEFINITION. What each operation of the array computes from its operands (06; 03 R80-R90; 04): results as bytes to write, arithmetic
flags, and the partial sums that pass through the reduction engine. -/

namespace Sys2Proof.Machine

open Sys2Proof

/-- Bytes an operation has read: (address, bytes). -/
abbrev View := List (Nat × List Byte)

def View.byte (v : View) (a : Nat) : Byte :=
  match v.find? (fun e => e.1 ≤ a && a < e.1 + e.2.length) with
  | some e => nth e.2 (a - e.1) 0
  | none => 0

def View.num (v : View) (a n : Nat) : Nat := ofBytes ((List.range n).map (fun i => v.byte (a + i)))

/-- Address offset of a fragment in a die's SRAM (05 R151). -/
def dieDelta (d : Nat) : Nat := d * 0x40000000

/-- Code of an element in the fragment at `delta` (05 R146). -/
def Tensor.code (t : Tensor) (v : View) (delta : Nat) (c : List Nat) : Nat :=
  let (a, b) := t.elemAt c
  bits (v.num (a.toNat + delta) ((b + t.width + 7) / 8)) b t.width

/-- Exact value of an element (04 R95, R98). -/
def Tensor.value (t : Tensor) (v : View) (delta : Nat) (c : List Nat) : Num :=
  if isMx t.fmt then mxValue t.fmt (t.code v delta c) (v.num (t.scaleAddr + delta + t.scaleIndex c) 1)
  else elemValue t.fmt (t.code v delta c)

/-! ## Division among dies (03 R85, 06 R163) -/

/-- How an operation divides one dimension among the dies: chunk `f` of it goes to die `f` of the list. -/
structure Lay where
  dies : List Nat
  dim : Nat
  chunk : Nat
  /-- logical sizes -/
  sizes : List Nat

/-- The division of an operation whose main tensor is `main`; when every tensor is tile-relative, each die holds one fragment of that
shape, otherwise fragment `f` holds chunk `f` in its leading part. -/
def layOf (order : List Nat) (dim : Nat) (allRel : Bool) (main : Tensor) : Lay :=
  let n := main.size dim
  if main.ndim = 1 then { dies := order.take 1, dim := 0, chunk := n, sizes := main.sizes }
  else if allRel then { dies := order, dim := dim, chunk := n, sizes := main.sizes.set dim (n * order.length) }
  else { dies := order, dim := dim, chunk := ceilDiv n order.length, sizes := main.sizes }

/-- Where a tensor holds the element of logical coordinates: offset of its fragment, and coordinates in it; a size of 1 is shared. -/
def Lay.place (l : Lay) (t : Tensor) (c : List Nat) : Nat × List Nat :=
  let x := nth c l.dim 0
  let f := x / l.chunk
  -- a shared tensor of a fragment's shape (the h0 of SCAN_LINEAR beside tile-relative tensors) counts from the fragment
  let c := if t.tileRel || decide (t.size l.dim < nth l.sizes l.dim 1) then c.set l.dim (x % l.chunk) else c
  let c := c.mapIdx (fun k i => if t.size k = 1 then 0 else i)
  (if t.tileRel then dieDelta (nth l.dies f 0) else 0, c)

/-- Value of a tensor at logical coordinates. -/
def Lay.get (l : Lay) (t : Tensor) (v : View) (c : List Nat) : Num :=
  let (d, c) := l.place t c
  t.value v d c

/-! ## Output -/

/-- One output element: offset of its fragment, coordinates in it, linear index for stochastic rounding (04 R113), value. -/
structure OutElem where
  delta : Nat
  loc : List Nat
  idx : Nat
  x : Num

/-- Codes at bit addresses as runs of whole bytes (04 R96). -/
def packRuns : List (Nat × Nat) → Nat → Option (Nat × Nat × Nat) → List (Nat × List Byte)
  | [], w, some (a, n, acc) => [(a / 8, toBytes ((n * w + 7) / 8) acc)]
  | [], _, none => []
  | (a, c) :: es, w, none => packRuns es w (some (a, 1, c))
  | (a, c) :: es, w, some (a0, n, acc) =>
    if a = a0 + n * w ∧ (n * w < 512 ∨ n * w % 8 ≠ 0) then packRuns es w (some (a0, n + 1, acc + c * 2 ^ (n * w)))
    else (a0 / 8, toBytes ((n * w + 7) / 8) acc) :: packRuns es w (some (a, 1, c))

/-- Bytes for element codes at their places. -/
def packCodes (t : Tensor) (es : List (Nat × List Nat × Nat)) : List (Nat × List Byte) :=
  packRuns (es.map (fun (e : Nat × List Nat × Nat) => (((t.elemAt e.2.1).1.toNat + e.1) * 8 + (t.elemAt e.2.1).2, e.2.2))) t.width none

/-- Encode an output tensor's elements: conversion, MX blocks along BDIM (04 R109-R119). -/
def encodeOut (t : Tensor) (mode : Nat → RMode) (inf : Bool) (es : List OutElem) : List (Nat × List Byte) × AFlags :=
  if isMx t.fmt then
    let keys := (es.map (fun e => t.scaleAddr + e.delta + t.scaleIndex e.loc)).eraseDups
    let blocks := keys.map (fun k =>
      let xs := (es.mapIdx (fun i e => (i, e))).filter (fun e => t.scaleAddr + e.2.delta + t.scaleIndex e.2.loc == k)
      let (s, cs, f) := mxBlock t.fmt (xs.map (fun e => (mode e.2.idx, e.2.x)))
      (k, s, (xs.map (·.1)).zip cs, f))
    let codes := sortKeys ((blocks.map (fun (b : Nat × Nat × List (Nat × Nat) × AFlags) => b.2.2.1)).flatten)
    (packCodes t ((es.zip codes).map (fun e => (e.1.delta, e.1.loc, e.2.2))) ++ blocks.map (fun b => (b.1, [BitVec.ofNat 8 b.2.1])),
     AFlags.or { nan := es.any (fun e => e.x.isNan) } (AFlags.all (blocks.map (fun b => b.2.2.2))))
  else
    let rs := es.map (fun e => convertElem t.fmt (mode e.idx) inf e.x)
    (packCodes t ((es.zip rs).map (fun e => (e.1.delta, e.1.loc, e.2.1))), AFlags.all (rs.map (·.2)))

/-- What an operation comes to. -/
structure Res where
  /-- slot, address, bytes -/
  writes : List (Nat × Nat × List Byte) := []
  flags : AFlags := {}
  status : Status := .ok
  /-- tensor slot and address of a failing index or table entry -/
  slot : Nat := 0
  faultAddr : Nat := 0
  /-- outputs are undefined (06 R161) -/
  undef : Bool := false
  /-- the reduction engine takes part: (die, group, partial sums) of each tile that sends them -/
  red : Bool := false
  parts : List (Nat × Nat × Nat) := []
  /-- dies that execute fragments -/
  dies : List Nat := []

/-- An operation with its operands. -/
structure Env where
  d : Desc
  order : List Nat
  t : Nat → Option Tensor
  v : Nat → View
  /-- seed and count of stochastic rounding -/
  seed : Nat
  count : Nat
  /-- free numbers where the spec gives an order no rule (06 R191) -/
  free : Nat → Nat

/-- Rounding mode of the output tensor in a slot (04 R109, R113, R114). -/
def Env.mode (e : Env) (slot idx : Nat) : RMode :=
  match rndOf e.d with
  | 1 => .rtz
  | 2 => .sr (srDraw e.seed e.count slot idx)
  | _ => .rne

def Env.encode (e : Env) (slot : Nat) (t : Tensor) (es : List OutElem) : List (Nat × Nat × List Byte) × AFlags :=
  let (w, f) := encodeOut t (e.mode slot) (ovfInf e.d) es
  (w.map (fun x => (slot, x.1, x.2)), f)

def emptyTensor : Tensor :=
  { slot := 0, node := none, base := 0, fmt := 0, sizes := [1], strides := [], bdim := 0, tileRel := false, scaleAddr := 0,
    bitmapEn := false, bitmapAddr := 0, backing := none }

def Env.tensor (e : Env) (s : Nat) : Tensor := (e.t s).getD emptyTensor

/-- An FP32 parameter. -/
def Env.f32 (e : Env) (off : Nat) : Num := Sys2Proof.Machine.f32 (ops e.d off 4)

/-- Coordinates of every element of a shape, dimension 0 fastest. -/
def allCoords (sizes : List Nat) : List (List Nat) := (List.range (prodOf sizes)).map (coords sizes)

/-- Output elements of a tensor from a function of the logical coordinates. -/
def Lay.outs (l : Lay) (t : Tensor) (sizes : List Nat) (f : List Nat → Num) : List OutElem :=
  (allCoords sizes).mapIdx (fun i c => let (d, loc) := l.place t c; { delta := d, loc := loc, idx := i, x := f c })

def nanIn (l : List Num) : AFlags := { nan := l.any Num.isNan }

/-! ## Contractions (06 R164-R170) -/

def Num.toInt : Num → Int
  | .fin s m e => let n : Int := (m <<< e.toNat : Nat); if s then -n else n
  | _ => 0

/-- The three BF16 parts of an FP32 value (04 R120). -/
def split3 (a : Num) : List Num :=
  match a with
  | .fin s m e =>
    let a0 := if 0x7F7F < bf16.roundCode .rne m e then bf16.ordinary s 0x7F7F else bf16.round a
    let r := a.add a0.neg
    let a1 := bf16.round r
    [a0, a1, bf16.round (r.add a1.neg)]
  | x => [x, .zero, .zero]

/-- The (a, b) values of the groups that one output element accumulates on one tile, in order (04 R102, R103, R121). -/
def groupsOf (split : Bool) (e : Nat) (ks : List Nat) (a b : Nat → Num) : List Num :=
  let sums := fun (f g : Nat → Num) => (chunks e ks).map (fun grp => Num.sum (grp.map (fun k => (f k).mul (g k))))
  if split then
    let part := fun (x : Nat → Num) (i : Nat) (k : Nat) => nth (split3 (x k)) i .zero
    [(2, 0), (1, 1), (0, 2), (1, 0), (0, 1), (0, 0)].flatMap (fun p => sums (part a p.1) (part b p.2))
  else sums a b

/-- One tile's accumulation of one output element, read out (04 R102-R105, 03 R62). -/
def tilePartial (isI : Bool) (groups : List Num) : Num × AFlags :=
  if isI then
    let r := groups.foldl (fun (a : Int × AFlags) g => clamp32 (a.1 + g.toInt) a.2) (0, {})
    (.ofInt r.1, r.2)
  else readOut (groups.foldl accStep (.zero, {}))

/-- The hub's sum of partial sums in ascending logical order (04 R107). -/
def hubSum (isI : Bool) (ps : List (Num × AFlags)) : Num × AFlags :=
  match ps with
  | [] => (.zero, {})
  | p :: rest =>
    let f := AFlags.all ((p :: rest).map (·.2))
    if isI then
      let r := rest.foldl (fun (a : Int × AFlags) q => clamp32 (a.1 + q.1.toInt) a.2) (p.1.toInt, f)
      (.ofInt r.1, r.2)
    else rest.foldl (fun a q => redAdd a q.1) (p.1, f)

/-- Values of A, B and the old C of a contraction: by (k, m or n, batch coordinates, tile). -/
structure Operands where
  a : Nat → Nat → List Nat → TileWork → Num
  b : Nat → Nat → List Nat → TileWork → Num
  /-- coordinates of an output element -/
  c : Nat → Nat → List Nat → List Nat
  batch : List Nat

/-- An operand dimension of a tile-relative tensor counts from its fragment (06 R166). -/
def inFragment (t : Tensor) (x lo : Nat) : Nat := if t.tileRel then x - lo else x

/-- The operands of CONTRACT, CONTRACT_SPARSE and CONTRACT_SPLIT32 (06 R164, R166). -/
def denseOperands (e : Env) : Operands :=
  let A := e.tensor 0
  let B := e.tensor 1
  let ta := bit (ops e.d 0x50 1) 1
  let tb := bit (ops e.d 0x50 1) 2
  let two := fun (tr : Bool) (k x : Nat) => if tr then [x, k] else [k, x]
  let delta := fun (t : Tensor) (w : TileWork) => if t.tileRel then dieDelta w.die else 0
  { a := fun k m bt w => A.value (e.v 0) (delta A w) (two ta (inFragment A k w.k.1) (inFragment A m w.m.1) ++ bt),
    b := fun k n bt w => B.value (e.v 1) (delta B w)
      (two tb (inFragment B k w.k.1) (inFragment B n w.n.1) ++ bt.mapIdx (fun i x => if B.size (i + 2) = 1 then 0 else x)),
    c := fun m n bt => n :: m :: bt,
    batch := (e.tensor 2).sizes.drop 2 }

/-- The operands of CONTRACT_WINDOW (06 R170). -/
def windowOperands (e : Env) : Operands :=
  let X := e.tensor 0
  let W := e.tensor 1
  let Y := e.tensor 2
  let o := fun (i : Nat) => ops e.d (0x68 + i) 1
  let kc := fun (k : Nat) => (k % X.size 0, k / X.size 0 % o 0, k / X.size 0 / o 0)
  let mc := fun (m : Nat) => (m % Y.size 1, m / Y.size 1 % Y.size 2, m / Y.size 1 / Y.size 2)
  { a := fun k m _ _ =>
      let (ci, kx, ky) := kc k
      let (ox, oy, b) := mc m
      let x := ox * o 2 + kx * o 4
      let y := oy * o 3 + ky * o 5
      if x < o 6 ∨ y < o 7 ∨ X.size 1 + o 6 ≤ x ∨ X.size 2 + o 7 ≤ y then .zero
      else X.value (e.v 0) 0 [ci, x - o 6, y - o 7, b],
    b := fun k n _ _ => let (ci, kx, ky) := kc k; W.value (e.v 1) 0 [ci, kx, ky, n],
    c := fun m n _ => let (ox, oy, b) := mc m; [n, ox, oy, b],
    batch := [] }

/-- A block of B's sparsity bitmap is present (04 R123). -/
def blockPresent (e : Env) (k n : Nat) (bt : List Nat) (w : TileWork) : Bool :=
  let B := e.tensor 1
  let tb := bit (ops e.d 0x50 1) 2
  let nn := if B.tileRel then B.size (if tb then 0 else 1) else ops e.d 0x60 4
  let kk := ops e.d 0x64 4
  let i := inFragment B k w.k.1 / 32 * ceilDiv nn 32 + inFragment B n w.n.1 / 32
  let bsizes := B.sizes.drop 2
  let j := linear bsizes (bt.mapIdx (fun i x => if B.size (i + 2) = 1 then 0 else x))
  let base := B.bitmapAddr + (if B.tileRel then dieDelta w.die else 0) + j * ceilDiv (ceilDiv kk 32 * ceilDiv nn 32) 8
  bit ((e.v 1).num (base + i / 8) 1) (i % 8)

/-- The epilogue of one output element (06 R167). -/
def epilogue (e : Env) (acc : Num) (n : Nat) (old : Num) : Num :=
  let epi := ops e.d 0x52 1
  let aux := e.tensor 3
  let s := if bit epi 0 then r32 (aux.value (e.v 3) 0 [n, 0]) else .one
  let b := if bit epi 1 then r32 (aux.value (e.v 3) 0 [n, 1]) else .zero true
  let y := vfma (r32 acc) (vmul (e.f32 0x54) s) b
  let y := mapFn (ops e.d 0x51 1) y
  if ops e.d 0x58 4 = 0 then y else vfma (e.f32 0x58) old y

/-- 04 R106: no epilogue. -/
def noEpilogue (d : Desc) : Bool :=
  ops d 0x52 1 == 0 && ops d 0x51 1 == 0 && ops d 0x54 4 == 0x3F800000 && ops d 0x58 4 == 0

/-- A contraction on its operands. -/
def contractRes (e : Env) (o : Operands) : Res :=
  let oc := opcodeOf e.d
  let C := e.tensor 2
  let mm := ops e.d 0x5C 4
  let nn := ops e.d 0x60 4
  let kk := ops e.d 0x64 4
  let os := bit (ops e.d 0x50 1) 0
  let (tiles, red) := tilesOf (foldOf e.d) os e.order mm nn kk
  let (ee, isI) := (pairOf (oc == 0x12) (e.tensor 0).fmt (e.tensor 1).fmt).getD (2, false)
  let len := fun (p : Nat × Nat) => p.2 - p.1
  let raw := isI && noEpilogue e.d && C.fmt == 0x0A
  let elems := (allCoords ([nn, mm] ++ o.batch)).mapIdx (fun i c =>
    let n := nth c 0 0
    let m := nth c 1 0
    let bt := c.drop 2
    let inside := fun (p : Nat × Nat) (x : Nat) => p.1 ≤ x && x < p.2
    let mine := tiles.filter (fun w => inside w.m m && inside w.n n && decide (0 < len w.k))
    let ps := mine.map (fun w =>
      let ks := (List.range (len w.k)).map (· + w.k.1)
      let ks := if oc = 0x11 then ks.filter (fun k => blockPresent e k n bt w) else ks
      tilePartial isI (groupsOf (oc == 0x12) ee ks (fun k => o.a k m bt w) (fun k => o.b k n bt w)))
    let (acc, f) := hubSum isI ps
    let w := mine.headD { die := 0, k := (0, 0), m := (0, 0), n := (0, 0) }
    let (delta, loc) := if C.tileRel then (dieDelta w.die, [n - w.n.1, m - w.m.1]) else (0, o.c m n bt)
    let y := if raw then acc else epilogue e acc n (if ops e.d 0x58 4 = 0 then .zero else r32 (C.value (e.v 2) delta loc))
    (({ delta := delta, loc := loc, idx := i, x := y } : OutElem), AFlags.or f { nan := y.isNan }))
  let (ws, f) := e.encode 2 C (elems.map (·.1))
  { writes := ws, flags := AFlags.or f (AFlags.all (elems.map (·.2))), red := red,
    parts := if red then (tiles.filter (fun w => 0 < len w.k ∧ 0 < len w.n)).map (fun w => (w.die, w.n.1, mm * len w.n * prodOf o.batch)) else [],
    dies := tiles.map (·.die) }

/-! ## Attention (06 R172-R176) -/

/-- The state of one query row: running maximum, sum, accumulators, and whether a NaN was met. -/
structure Row where
  m : Num := .inf true
  l : Num := .zero
  acc : List Num
  nan : Bool := false
  ovf : Bool := false

def isNegInf (x : Num) : Bool := x == .inf true

/-- 1 ÷ √n rounded to FP32. -/
def invSqrt (n : Nat) : Num :=
  let q := 2 ^ 160 / n
  let r := Nat.sqrt q
  r32 (.fin false (2 * r + (if r * r = q ∧ 2 ^ 160 % n = 0 then 0 else 1)) (-81))

/-- The two update lines of 06 R173 with a block's (or another die's) maximum, weights applied to its sum and accumulators. -/
def Row.merge (r : Row) (mx : Num) (lAdd : Num → Num) (accAdd : Num → List Num) : Row :=
  let mNew := Num.max r.m mx
  if isNegInf mNew then r
  else
    let c := tu .exp2 (vmul (vsub r.m mNew) log2e)
    let l := vadd (vmul r.l c) (lAdd mNew)
    let acc := (r.acc.zip (accAdd mNew)).map (fun p => vadd (vmul p.1 c) p.2)
    { r with m := mNew, l := l, acc := acc, nan := r.nan || l.isNan || mNew.isNan || acc.any Num.isNan }

/-- What an attention reads: positions and values by (position, head, batch). -/
structure AttnIn where
  q : Nat → Nat → Nat → Nat → Num
  k : Nat → Nat → Nat → Nat → Num
  v : Nat → Nat → Nat → Nat → Num
  /-- keys of a batch entry, and position of its query 0 -/
  keys : Nat → Nat
  pos0 : Nat → Nat

/-- Key `j` is allowed to query `i` (06 R173). -/
def allowed (d : Desc) (pos j : Nat) : Bool :=
  match ops d 0x58 1 with
  | 0 => true
  | 1 => decide (j ≤ pos)
  | _ => decide (j ≤ pos) && decide (pos < j + ops d 0x5C 4)

/-- One query row over a range of key blocks (06 R173). -/
def attnRow (e : Env) (a : AttnIn) (i h b : Nat) (blocks : List Nat) : Row :=
  let Q := e.tensor 0
  let V := e.tensor 2
  let hk := h * (e.tensor 1).size 2 / Q.size 2
  let eqk := ((pairOf false Q.fmt (e.tensor 1).fmt).getD (2, false)).1
  let epv := ((pairOf false 1 V.fmt).getD (2, false)).1
  let scale := if ops e.d 0x50 4 = 0 then invSqrt (Q.size 0) else e.f32 0x50
  let pos := fun (i : Nat) => a.pos0 b + i
  let cap := e.f32 0x54
  let unit := (List.range (min 256 (Q.size 1 - i / 256 * 256))).map (· + i / 256 * 256)
  blocks.foldl (fun r kb =>
    let js := (List.range (min 256 (a.keys b - kb * 256))).map (· + kb * 256)
    if !(unit.any (fun i => js.any (fun j => allowed e.d (pos i) j))) then r
    else
      let dots := js.map (fun j => tilePartial false (groupsOf false eqk (List.range (Q.size 0)) (fun x => a.q x i h b) (fun x => a.k x j hk b)))
      let s := dots.map (fun x => vmul x.1 scale)
      let s := if cap.isZero then s else s.map (fun x => vmul cap (tu .tanh (vmul x (tu .recip cap))))
      let bad := s.any Num.isNan
      let s := (s.zip js).map (fun x => if allowed e.d (pos i) x.2 then x.1 else .inf true)
      let mx := s.foldl Num.max (.inf true)
      let p := fun (mNew : Num) => s.map (fun x => tu .exp2 (vmul (vsub x mNew) log2e))
      let sums := fun (mNew : Num) => (List.range (V.size 0)).map (fun x =>
        let pb := (p mNew).map (fun y => bf16.round y)
        tilePartial false (groupsOf false epv (List.range js.length) (fun y => nth pb y .zero) (fun y => a.v x (kb * 256 + y) hk b)))
      let r' := r.merge mx (fun mNew => laneOrder vadd (p mNew)) (fun mNew => (sums mNew).map (·.1))
      { r' with nan := r'.nan || bad || dots.any (fun x => x.2.nan), ovf := r'.ovf || dots.any (fun x => x.2.ovf) ||
          (!isNegInf (Num.max r.m mx) && (sums (Num.max r.m mx)).any (fun x => x.2.ovf)) })
    { acc := List.replicate (V.size 0) .zero }

/-- The merge of the dies' rows (06 R174). -/
def Row.join (r x : Row) : Row :=
  let w := fun (mNew : Num) => tu .exp2 (vmul (vsub x.m mNew) log2e)
  let r' := r.merge x.m (fun mNew => vmul x.l (w mNew)) (fun mNew => x.acc.map (fun y => vmul y (w mNew)))
  -- an addition of the reduction engine that overflows sets OVERFLOW (04 R115)
  let burst := fun (a b c : Num) => a.isFin && b.isFin && !c.isFin && !c.isNan
  { r' with nan := r'.nan || x.nan,
            ovf := r'.ovf || x.ovf || burst r.l x.l r'.l || ((r.acc.zip x.acc).zip r'.acc).any (fun p => burst p.1.1 p.1.2 p.2) }

def positive (x : Num) : Bool := Num.lt (.zero false) x

/-- Key blocks of slice `s` when `nb` of them are divided among `n` dies (06 R174, 03 R82). -/
def attnBlocks (n nb s : Nat) : List Nat :=
  let (lo, hi) := sliceAt nb (ceilDiv nb n) s
  (List.range (hi - lo)).map (· + lo)

/-- Position in the logical order of the die that gets unit `u` of an F4 attention: passes of A units, the odd ones dealt backwards (06
R174). -/
def dealt (n u : Nat) : Nat := if u / n % 2 = 0 then u % n else n - 1 - u % n

/-- Dies that an attention uses: under F4 those that are dealt a unit of 256 query rows, under KS those with keys (06 R174, 03 R82). -/
def attnDies (e : Env) (a : AttnIn) : List Nat :=
  let Q := e.tensor 0
  let n := e.order.length
  if foldOf e.d = 0 then
    ((List.range n).filter (fun s => (List.range (Q.size 3)).any (fun b => attnBlocks n (ceilDiv (a.keys b) 256) s ≠ []))).map (fun s => nth e.order s 0)
  else ((List.range (min n (ceilDiv (Q.size 1) 256 * Q.size 2 * Q.size 3))).map (fun u => nth e.order (dealt n u) 0)).eraseDups

/-- ATTEND and ATTEND_PAGED. -/
def attendRes (e : Env) (a : AttnIn) (lseAddr : Nat) : Res :=
  let Q := e.tensor 0
  let V := e.tensor 2
  let O := e.tensor 3
  let ks := foldOf e.d = 0
  let n := e.order.length
  let row := fun (i h b : Nat) =>
    let nb := ceilDiv (a.keys b) 256
    if ks then
      let parts := ((List.range n).map (attnBlocks n nb)).filter (· ≠ [])
      match parts.map (attnRow e a i h b) with
      | [] => ({ acc := List.replicate (V.size 0) .zero } : Row)
      | r :: rs => rs.foldl Row.join r
    else attnRow e a i h b (List.range nb)
  let rows := (allCoords [Q.size 1, Q.size 2, Q.size 3]).map (fun c => (c, row (nth c 0 0) (nth c 1 0) (nth c 2 0)))
  let outOf := fun (r : Row) (x : Nat) => if positive r.l then vmul (nth r.acc x .zero) (tu .recip r.l) else .zero
  let elems := rows.flatMap (fun r => (List.range (V.size 0)).map (fun x => (r.1, x, outOf r.2 x)))
  let oe := elems.map (fun x =>
    let c := x.2.1 :: x.1
    ({ delta := 0, loc := c, idx := linear O.sizes c, x := x.2.2 } : OutElem))
  let (ws, f) := e.encode 3 O oe
  let lse := if lseAddr = 0 then [] else rows.mapIdx (fun i r =>
    (4, lseAddr + 4 * i, toBytes 4 (fp32.encode (if positive r.2.l then vadd r.2.m (vmul (tu .log2 r.2.l) ln2) else .inf true))))
  { writes := ws ++ lse,
    flags := AFlags.or f { nan := rows.any (fun r => r.2.nan) || oe.any (fun x => x.x.isNan), ovf := rows.any (fun r => r.2.ovf) },
    red := ks, dies := attnDies e a,
    parts := if ks then (attnDies e a).map (fun d =>
        let s := (e.order.findIdx? (· == d)).getD 0
        let mine := (List.range (Q.size 3)).filter (fun b => attnBlocks n (ceilDiv (a.keys b) 256) s ≠ [])
        (d, 0, mine.length * Q.size 1 * Q.size 2 * (V.size 0 + 2))) else [] }

def attendIn (e : Env) : AttnIn :=
  { q := fun x i h b => (e.tensor 0).value (e.v 0) 0 [x, i, h, b], k := fun x j h b => (e.tensor 1).value (e.v 1) 0 [x, j, h, b],
    v := fun x j h b => (e.tensor 2).value (e.v 2) 0 [x, j, h, b], keys := fun _ => (e.tensor 1).size 1, pos0 := fun _ => ops e.d 0x60 4 }

/-- Sequence length and page-table entry of ATTEND_PAGED, and their addresses (06 R176). -/
def Env.seqLen (e : Env) (b : Nat) : Nat := (e.v 4).num (ops e.d 0x68 8 + 4 * b) 4
def Env.pageAddr (e : Env) (b p : Nat) : Nat := ops e.d 0x60 8 + 4 * (b * ops e.d 0x7C 4 + p)

def pagedIn (e : Env) : AttnIn :=
  let lg := ops e.d 0x78 1
  let page := fun (b j : Nat) => (e.v 4).num (e.pageAddr b (j / 2 ^ lg)) 4
  { q := fun x i h b => (e.tensor 0).value (e.v 0) 0 [x, i, h, b],
    k := fun x j h b => (e.tensor 1).value (e.v 1) 0 [x, j % 2 ^ lg, h, page b j],
    v := fun x j h b => (e.tensor 2).value (e.v 2) 0 [x, j % 2 ^ lg, h, page b j],
    keys := e.seqLen, pos0 := fun b => e.seqLen b - (e.tensor 0).size 1 }

/-- A bad length or page number of ATTEND_PAGED: its address (06 R176). -/
def pagedFault (e : Env) : Option Nat :=
  let lg := ops e.d 0x78 1
  (List.range ((e.tensor 0).size 3)).findSome? (fun b =>
    let len := e.seqLen b
    if ops e.d 0x7C 4 * 2 ^ lg < len ∨ len < (e.tensor 0).size 1 then some (ops e.d 0x68 8 + 4 * b)
    else ((List.range (ceilDiv len (2 ^ lg))).find? (fun p => (e.tensor 1).size 3 ≤ (e.v 4).num (e.pageAddr b p) 4)).map (e.pageAddr b))

/-! ## Scans (06 R178, R179) -/

/-- Coordinates along a dimension, in the scan's direction. -/
def alongDim (n : Nat) (rev : Bool) : List Nat := if rev then (List.range n).reverse else List.range n

/-- Scan every line of a shape along a dimension: `step` gives the results in scan order. -/
def scanLines {α : Type} (sizes : List Nat) (dim : Nat) (rev : Bool) (step : List Nat → List (List Nat) → List α) : List (List Nat × α) :=
  let line := fun (c : List Nat) => (alongDim (nth sizes dim 1) rev).map (fun i => c.set dim i)
  (allCoords (sizes.set dim 1)).flatMap (fun c => (line c).zip (step c (line c)))

/-- Running results of a fold, one for each element. -/
def runFold (f : Num → List Nat → Num) : Num → List (List Nat) → List Num
  | _, [] => []
  | x, c :: cs => let y := f x c; y :: runFold f y cs

/-- Results of a scan as output elements in linear order. -/
def Lay.scanOuts (l : Lay) (t : Tensor) (rs : List (List Nat × Num)) : List OutElem :=
  let byIdx := sortKeys (rs.map (fun r => (linear l.sizes r.1, r)))
  byIdx.map (fun r => let (d, loc) := l.place t r.2.1; { delta := d, loc := loc, idx := r.1, x := r.2.2 })

def scanLinearRes (e : Env) : Res :=
  let a := e.tensor 0
  let b := e.tensor 1
  let h := e.tensor 2
  let sd := ops e.d 0x51 1
  let fl := ops e.d 0x50 1
  let l := layOf e.order (if sd = h.ndim - 1 then 0 else h.ndim - 1) (a.tileRel && b.tileRel && h.tileRel) h
  let get := fun (t : Tensor) (s : Nat) (c : List Nat) => r32 (l.get t (e.v s) c)
  let rs := scanLines l.sizes sd (bit fl 1) (fun c0 cs =>
    let h0 := if bit fl 0 then r32 (l.get (e.tensor 3) (e.v 3) c0) else .zero
    runFold (fun x c => vfma (get a 0 c) x (get b 1 c)) h0 cs)
  let (ws, f) := e.encode 2 h (l.scanOuts h rs)
  let ins := (allCoords l.sizes).flatMap (fun c => [get a 0 c, get b 1 c])
  { writes := ws, flags := AFlags.or f (nanIn (ins ++ rs.map (·.2))), dies := l.dies }

/-- A value with the arithmetic flags met on its way. -/
abbrev FVal := Num × AFlags

def FVal.ofInt (x : Int) (f : AFlags) : FVal := (.ofInt (clamp32 x f).1, (clamp32 x f).2)

/-- Addition of a reduction: INT32 with saturation, or FP32 with OVERFLOW when finite addends give an infinity (04 R105, R107, R115). -/
def fAdd (isI : Bool) (x y : FVal) : FVal :=
  if isI then .ofInt (x.1.toInt + y.1.toInt) (x.2.or y.2) else redAdd (x.1, x.2.or y.2) y.1

def fMul (isI : Bool) (x y : FVal) : FVal :=
  if isI then .ofInt (x.1.toInt * y.1.toInt) (x.2.or y.2) else (vmul x.1 y.1, x.2.or y.2)

def fLift (f : Num → Num → Num) (x y : FVal) : FVal := (f x.1 y.1, x.2.or y.2)

/-- The operation of SCAN_ASSOC: in INT32 for integer inputs under ADD and MUL, else in FP32. -/
def assocFn (isI : Bool) (op : Nat) (x y : FVal) : FVal :=
  match op with
  | 0 => if isI then fAdd true x y else fLift vadd x y
  | 1 => fLift Num.max x y
  | 2 => fLift Num.min x y
  | _ => fMul isI x y

def assocIdent (op : Nat) : FVal :=
  (match op with
   | 0 => .zero
   | 1 => .inf true
   | 2 => .inf false
   | _ => .one, {})

/-- Inclusive prefixes of a list. -/
def prefixes (f : FVal → FVal → FVal) : List FVal → List FVal
  | [] => []
  | x :: xs => x :: (xs.foldl (fun (a : FVal × List FVal) y => (f a.1 y, a.2 ++ [f a.1 y])) (x, [])).2

def scanAssocRes (e : Env) : Res :=
  let x := e.tensor 0
  let y := e.tensor 1
  let op := ops e.d 0x50 1
  let sd := ops e.d 0x51 1
  let fl := ops e.d 0x52 1
  let isI := isInt x.fmt && (op == 0 || op == 3)
  let l := layOf e.order (x.ndim - 1) (x.tileRel && y.tileRel) x
  let get := fun (c : List Nat) => ((if isI then l.get x (e.v 0) c else r32 (l.get x (e.v 0) c), {}) : FVal)
  let f := assocFn isI op
  let nd := l.dies.length
  let runs := fun (cs : List (List Nat)) => -- the dies' chunks of a line, in scan order
    if sd = x.ndim - 1 ∧ 1 < x.ndim then
      ((List.range nd).map (fun d => cs.filter (fun c => nth c sd 0 / l.chunk == (if bit fl 1 then nd - 1 - d else d)))).filter (· ≠ [])
    else [cs]
  let lineOut := fun (cs : List (List Nat)) =>
    ((runs cs).foldl (fun (a : Option FVal × List FVal) r =>
      let p := prefixes f (r.map get)
      let p' := if bit fl 0 then assocIdent op :: p.dropLast else p
      let total := p.getLastD (assocIdent op)
      match a.1 with
      | none => (some total, a.2 ++ p')
      | some carry => (some (f carry total), a.2 ++ p'.map (f carry))) (none, [])).2
  let rs := scanLines l.sizes sd (bit fl 1) (fun _ cs => lineOut cs)
  let (ws, g) := e.encode 1 y (l.scanOuts y (rs.map (fun r => (r.1, r.2.1))))
  { writes := ws, dies := l.dies,
    flags := AFlags.or (AFlags.or g (AFlags.all (rs.map (fun r => r.2.2)))) (nanIn ((allCoords l.sizes).map (fun c => (get c).1) ++ rs.map (fun r => r.2.1))) }

/-! ## Element-wise and row operations (06 R180-R186) -/

def mapRes (e : Env) : Res :=
  let x := e.tensor 0
  let y := e.tensor 1
  let l := layOf e.order (x.ndim - 1) (x.tileRel && y.tileRel) x
  let z := fun (c : List Nat) => vfma (e.f32 0x54) (r32 (l.get x (e.v 0) c)) (e.f32 0x58)
  let outs := l.outs y l.sizes (fun c => mapFn (ops e.d 0x50 1) (z c))
  let (ws, f) := e.encode 1 y outs
  { writes := ws, flags := AFlags.or f (nanIn ((allCoords l.sizes).map z)), dies := l.dies }

def map2Res (e : Env) : Res :=
  let x := e.tensor 0
  let y := e.tensor 1
  let z := e.tensor 2
  let l := layOf e.order (z.ndim - 1) (x.tileRel && y.tileRel && z.tileRel) z
  let u := fun (c : List Nat) => vmul (e.f32 0x54) (r32 (l.get x (e.v 0) c))
  let w := fun (c : List Nat) => vmul (e.f32 0x58) (r32 (l.get y (e.v 1) c))
  let outs := l.outs z l.sizes (fun c => map2Fn (ops e.d 0x50 1) (u c) (w c))
  let (ws, f) := e.encode 2 z outs
  { writes := ws, flags := AFlags.or f (nanIn ((allCoords l.sizes).flatMap (fun c => [u c, w c]))), dies := l.dies }

/-- Rows of a layout: the logical coordinates of every row along dimension 0. -/
def Lay.rows (l : Lay) : List (List (List Nat)) :=
  (allCoords (l.sizes.drop 1)).map (fun c => (List.range (nth l.sizes 0 1)).map (fun i => i :: c))

/-- 1 ÷ n rounded once to FP32 (06 R187). -/
def invOf (n : Nat) : Num := r32 (.fin false (2 ^ 80 / n * 2 + (if 2 ^ 80 % n = 0 then 0 else 1)) (-81))

/-- A value ÷ n, rounded once to FP32 (04 R106). -/
def divCount (x : Num) (n : Nat) : Num :=
  match x with
  | .fin s m e => let k := m <<< 80; r32 (.fin s (2 * (k / n) + (if k % n = 0 then 0 else 1)) (e - 81))
  | x => x

/-- A row's mean of values in lane order: the sum ÷ n (06 R182). -/
def rowMean (xs : List Num) : Num := divCount (laneOrder vadd xs) xs.length

def normRes (e : Env) : Res :=
  let x := e.tensor 0
  let y := e.tensor 1
  let fl := ops e.d 0x51 1
  let l := layOf e.order (x.ndim - 1) (x.tileRel && y.tileRel) x
  let res := l.rows.flatMap (fun row =>
    let xs := row.map (fun c => r32 (l.get x (e.v 0) c))
    let q := rowMean (xs.map (fun v => vmul v v))
    let mu := rowMean xs
    let layer := ops e.d 0x50 1 = 1
    let r := if layer then tu .rsqrt (vadd (Num.max (vsub q (vmul mu mu)) .zero) (e.f32 0x54)) else tu .rsqrt (vadd q (e.f32 0x54))
    (row.zip xs).map (fun p =>
      let i := p.1.headD 0
      let v := if layer then vmul (vsub p.2 mu) r else vmul p.2 r
      let v := if bit fl 0 then vmul v (r32 ((e.tensor 2).value (e.v 2) 0 [i])) else v
      let v := if bit fl 1 then vadd v (r32 ((e.tensor 3).value (e.v 3) 0 [i])) else v
      (p.1, v, xs.any Num.isNan || r.isNan)))
  let (ws, f) := e.encode 1 y (res.mapIdx (fun i p => let (d, loc) := l.place y p.1; { delta := d, loc := loc, idx := i, x := p.2.1 }))
  { writes := ws, flags := AFlags.or f { nan := res.any (fun p => p.2.2 || p.2.1.isNan) }, dies := l.dies }

def softmaxRes (e : Env) : Res :=
  let x := e.tensor 0
  let y := e.tensor 1
  let scale := if ops e.d 0x54 4 = 0 then .one else e.f32 0x54
  let l := layOf e.order (x.ndim - 1) (x.tileRel && y.tileRel) x
  let res := l.rows.flatMap (fun row =>
    let s := row.map (fun c => vmul scale (r32 (l.get x (e.v 0) c)))
    let r := (chunks 256 s).foldl (fun (r : Row) b =>
      r.merge (b.foldl Num.max (.inf true)) (fun mNew => laneOrder vadd (b.map (fun v => tu .exp2 (vmul (vsub v mNew) log2e)))) (fun _ => []))
      { acc := [] }
    (row.zip s).map (fun p =>
      (p.1, if isNegInf r.m then .zero else vmul (tu .exp2 (vmul (vsub p.2 r.m) log2e)) (tu .recip r.l), r.nan || s.any Num.isNan)))
  let (ws, f) := e.encode 1 y (res.mapIdx (fun i p => let (d, loc) := l.place y p.1; { delta := d, loc := loc, idx := i, x := p.2.1 }))
  { writes := ws, flags := AFlags.or f { nan := res.any (fun p => p.2.2 || p.2.1.isNan) }, dies := l.dies }

def quantizeRes (e : Env) : Res :=
  let x := e.tensor 0
  let y := e.tensor 1
  let scale := if ops e.d 0x54 4 = 0 then .one else e.f32 0x54
  let l := layOf e.order (x.ndim - 1) (x.tileRel && y.tileRel) x
  let get := fun (c : List Nat) => r32 (l.get x (e.v 0) c)
  let (ws, f) := e.encode 1 y (l.outs y l.sizes (fun c => vmul (get c) scale))
  let xs := (allCoords l.sizes).map get
  let amax := xs.foldl (fun a v => Num.max a v.abs) .zero
  let (wa, fa) := if bit (ops e.d 0x51 1) 0 then e.encode 2 (e.tensor 2) [{ delta := 0, loc := [0], idx := 0, x := amax }] else ([], {})
  { writes := ws ++ wa, flags := AFlags.or (AFlags.or f fa) (nanIn (xs ++ xs.map (fun v => vmul v scale))), dies := l.dies }

/-- Insert an index into a list kept in order: `before a b` says that `a` must come before `b`; ties keep the earlier index first. -/
def insertBy (before : Nat → Nat → Bool) (i : Nat) : List Nat → List Nat
  | [] => [i]
  | j :: js => if before i j then i :: j :: js else j :: insertBy before i js

/-- The code with a NaN made canonical (04 R97). -/
def canonCode (fmt code : Nat) : Nat :=
  match floatFmt (fmt % 16) with
  | some f => if (f.decode code).isNan then f.nanCode else code
  | none => code

/-- TOPK and SORT (06 R185, R186). -/
def orderRes (e : Env) (descending : Bool) (keep : Option Nat) (idxSlot : Bool) : Res :=
  let x := e.tensor 0
  let y := e.tensor 1
  let iT := e.tensor 2
  let l := layOf e.order (x.ndim - 1) (x.tileRel && y.tileRel && (!idxSlot || iT.tileRel)) x
  let kept := fun (row : List (List Nat)) =>
    let vs := row.map (fun c => l.get x (e.v 0) c)
    let at_ := fun (i : Nat) => nth vs i .nan
    let before := fun (i j : Nat) => if descending then (at_ j).below (at_ i) else (at_ i).below (at_ j)
    let all := (List.range row.length).foldl (fun acc i => insertBy before i acc) []
    all.take (keep.getD all.length)
  let met := l.rows.any (fun row => row.any (fun c => (l.get x (e.v 0) c).isNan))
  let vals := l.rows.flatMap (fun row => (kept row).mapIdx (fun k i =>
    let c := k :: (row.headD []).drop 1
    let (d, loc) := l.place x (nth row i [])
    let v := x.value (e.v 0) d loc
    let (yd, yl) := l.place y c
    let (id, il) := l.place iT c
    (v, (yd, yl, x.code (e.v 0) d loc), (id, il, i))))
  let fl : AFlags := { nan := met }
  let idx := if idxSlot then (packCodes iT (vals.map (fun v => v.2.2))).map (fun w => (2, w.1, w.2)) else []
  if isMx y.fmt then
    let (ws, f) := e.encode 1 y (vals.mapIdx (fun i v => { delta := v.2.1.1, loc := v.2.1.2.1, idx := i, x := v.1 }))
    { writes := ws ++ idx, flags := AFlags.or f fl, dies := l.dies }
  else
    { writes := (packCodes y (vals.map (fun v => (v.2.1.1, v.2.1.2.1, canonCode y.fmt v.2.1.2.2)))).map (fun w => (1, w.1, w.2)) ++ idx,
      flags := fl, dies := l.dies }

/-! ## Reduction (06 R187) -/

/-- The combining operation of REDUCE. -/
def redFn (isI : Bool) (op : Nat) (x y : FVal) : FVal :=
  match op with
  | 1 | 4 => fLift Num.max x y
  | 2 => fLift Num.min x y
  | _ => fAdd isI x y

/-- An element before it is combined. SUMSQ rounds the square and then adds it: whether the two are one rounded step the spec does not say
(DESIGN CHOICE, log 183; NORM's Σx², 06 R182, is taken the same way). -/
def redPre (isI : Bool) (op : Nat) (x : Num) : FVal :=
  match op with
  | 3 => fMul isI (x, {}) (x, {})
  | 4 => (if isI && decide (x.toInt = -2 ^ 31) then .ofInt Config.absMin32.toInt else x.abs, {})
  | _ => (x, {})

/-- Combine a logical array along one dimension: lane order along dimension 0, index order elsewhere. -/
def reduceDim (f : FVal → FVal → FVal) (sizes : List Nat) (dim : Nat) (get : List Nat → FVal) (c : List Nat) : FVal :=
  let xs := (List.range (nth sizes dim 1)).map (fun i => get (c.set dim i))
  if dim = 0 then laneFold (.zero, {}) f xs
  else match xs with
    | [] => (.zero, {})
    | y :: ys => ys.foldl f y

/-- Combine along several dimensions in ascending order; only coordinate 0 of a reduced dimension matters in the result. -/
def reduceDims (f : FVal → FVal → FVal) (sizes : List Nat) : List Nat → (List Nat → FVal) → List Nat → FVal
  | [], get => get
  | d :: ds, get => reduceDims f sizes ds (reduceDim f sizes d get)

def reduceRes (e : Env) : Res :=
  let x := e.tensor 0
  let y := e.tensor 1
  let op := ops e.d 0x50 1
  let dims := bitsOf 6 (ops e.d 0x51 1)
  let isI := isInt x.fmt
  let last := x.ndim - 1
  let l := layOf e.order last (x.tileRel && y.tileRel) x
  let get := fun (c : List Nat) => redPre isI op (if isI then l.get x (e.v 0) c else r32 (l.get x (e.v 0) c))
  let f := redFn isI op
  let outer := dims.contains last && decide (1 < x.ndim)
  let osz := l.sizes.mapIdx (fun k n => if dims.contains k then 1 else n)
  let chunkRed := fun (d : Nat) (c : List Nat) =>
    let lo := d * l.chunk
    let n := min (nth l.sizes last 1) (lo + l.chunk) - lo
    reduceDims f (l.sizes.set last n) dims (fun c => get (c.set last (nth c last 0 + lo))) c
  let nd := ceilDiv (nth l.sizes last 1) l.chunk
  let total := fun (c : List Nat) =>
    if outer then
      match (List.range nd).map (fun d => chunkRed d c) with
      | [] => (.zero, {})
      | p :: ps => ps.foldl f p
    else reduceDims f l.sizes dims get c
  let inv := invOf (prodOf (dims.map (fun k => nth l.sizes k 1)))
  let res := (allCoords osz).map (fun c => let r := total c; (c, if op = 5 then (vmul r.1 inv, r.2) else r))
  let outs := res.mapIdx (fun i r => let (d, loc) := l.place y r.1; ({ delta := d, loc := loc, idx := i, x := r.2.1 } : OutElem))
  -- a tile-relative y without an outermost dimension to divide is written in every fragment
  let outs := if outer && y.tileRel then outs.flatMap (fun o => l.dies.map (fun d => { o with delta := dieDelta d })) else outs
  let (ws, g) := e.encode 1 y outs
  { writes := ws, red := outer, parts := if outer then (List.range nd).map (fun f => (nth l.dies f 0, 0, prodOf osz)) else [], dies := l.dies,
    flags := AFlags.or (AFlags.or g (AFlags.all (res.map (fun r => r.2.2)))) (nanIn ((allCoords l.sizes).map (fun c => (get c).1) ++ outs.map (·.x))) }

/-! ## Gather, scatter, moves (06 R188-R194) -/

/-- Index `i` of the index tensor, signed. -/
def Env.index (e : Env) (l : Lay) (i : Nat) : Int :=
  let t := e.tensor 1
  let (d, c) := ({ l with dim := 0 } : Lay).place t [i]
  signed 32 (t.code (e.v 1) d c)

/-- The layout of a gather or scatter: the n data rows are divided. -/
def Env.rowLay (e : Env) (dat : Tensor) : Lay := layOf e.order 1 (dat.tileRel && (e.tensor 1).tileRel) dat

/-- Number of indices over all dies. -/
def rowCount (l : Lay) : Nat := nth l.sizes 1 1

def inTable (tab : Tensor) (x : Int) : Bool := decide (0 ≤ x) && decide (x < (tab.size 1 : Int))

/-- The first out-of-range index when OOR = 0: its address (06 R188, 07 R484). -/
def Env.badIndex (e : Env) (l : Lay) (tab : Tensor) : Option Nat :=
  if bit (ops e.d 0x50 1) 0 then none
  else ((List.range (rowCount l)).find? (fun i => !inTable tab (e.index l i))).map (fun i =>
    let t := e.tensor 1
    let (d, c) := ({ l with dim := 0 } : Lay).place t [i]
    (t.elemAt c).1.toNat + d)

def gatherRes (e : Env) : Res :=
  let tab := e.tensor 0
  let out := e.tensor 2
  let l := e.rowLay out
  match e.badIndex l tab with
  | some a => { status := .range, slot := 1, faultAddr := a, dies := l.dies }
  | none =>
    let cs := allCoords [tab.size 0, rowCount l]
    let src := fun (c : List Nat) => let x := e.index l (nth c 1 0); if inTable tab x then some [c.headD 0, x.toNat] else none
    if isMx out.fmt then
      let (ws, f) := e.encode 2 out (cs.mapIdx (fun i c => let (d, loc) := l.place out c
        { delta := d, loc := loc, idx := i, x := match src c with
          | some s => tab.value (e.v 0) 0 s
          | none => .zero }))
      { writes := ws, flags := f, dies := l.dies }
    else
      let codes := cs.map (fun c => let (d, loc) := l.place out c
        (d, loc, match src c with
          | some s => canonCode out.fmt (tab.code (e.v 0) 0 s)
          | none => 0))
      { writes := (packCodes out codes).map (fun w => (2, w.1, w.2)),
        flags := nanIn (cs.filterMap (fun c => (src c).map (tab.value (e.v 0) 0))), dies := l.dies }

/-- Rows of src with the table row each goes to, in ascending i. -/
def Env.scatterRows (e : Env) (l : Lay) : List (Nat × Nat) :=
  (List.range (rowCount l)).filterMap (fun i => let x := e.index l i; if inTable (e.tensor 2) x then some (i, x.toNat) else none)

def scatterRes (e : Env) : Res :=
  let src := e.tensor 0
  let tab := e.tensor 2
  let l := e.rowLay src
  match e.badIndex l tab with
  | some a => { status := .range, slot := 1, faultAddr := a, dies := l.dies }
  | none =>
    let rows := e.scatterRows l
    let cell := fun (r : Nat × Nat) (x : Nat) => l.place src [x, r.1]
    let outs := rows.map (fun r => (List.range (src.size 0)).map (fun x =>
      let (d, loc) := cell r x
      (r.2, x, src.code (e.v 0) d loc, src.value (e.v 0) d loc)))
    let fl := nanIn ((outs.flatMap id).map (fun o => o.2.2.2))
    if isMx tab.fmt then
      let rs := outs.map (fun row => e.encode 2 tab (row.map (fun o => { delta := 0, loc := [o.2.1, o.1], idx := o.1 * tab.size 0 + o.2.1, x := o.2.2.2 })))
      { writes := rs.flatMap (·.1), flags := AFlags.or fl (AFlags.all (rs.map (·.2))), dies := l.dies }
    else
      { writes := outs.flatMap (fun row => (packCodes tab (row.map (fun o => (0, [o.2.1, o.1], canonCode tab.fmt o.2.2.1)))).map (fun w => (2, w.1, w.2))),
        flags := fl, dies := l.dies }

/-- An order that nothing fixes (06 R191): element `free k` of what is left comes next. -/
def shuffle {α : Type} (free : Nat → Nat) : Nat → List α → List α
  | 0, _ => []
  | n + 1, l =>
    match l[free n % l.length]? with
    | some x => x :: shuffle free n (l.eraseIdx (free n % l.length))
    | none => []

/-- One addition of SCATTER_ADD in the table's format (06 R191). -/
def tableAdd (fmt : Nat) (old new : Num) : Nat × AFlags :=
  if isInt fmt then
    let r := clamp32 (old.toInt + new.toInt) {}
    (unsigned 32 r.1, r.2)
  else
    let (c, f) := convertElem fmt .rne true (old.add new)
    (c, f)

def scatterAddRes (e : Env) : Res :=
  let src := e.tensor 0
  let tab := e.tensor 2
  let l := e.rowLay src
  match e.badIndex l tab with
  | some a => { status := .range, slot := 1, faultAddr := a, dies := l.dies }
  | none =>
    let rows := shuffle e.free (rowCount l) (e.scatterRows l)
    let named := (rows.map (·.2)).eraseDups
    let outs := named.flatMap (fun r => (List.range (tab.size 0)).map (fun x =>
      let adds := (rows.filter (fun p => p.2 == r)).map (fun p => l.get src (e.v 0) [x, p.1])
      let res := adds.foldl (fun (a : Nat × AFlags) v =>
        let (c, f) := tableAdd tab.fmt (elemValue tab.fmt a.1) v
        (c, AFlags.or a.2 f)) (tab.code (e.v 2) 0 [x, r], {})
      ((0, [x, r], res.1), res.2)))
    { writes := (packCodes tab (outs.map (·.1))).map (fun w => (2, w.1, w.2)), flags := AFlags.all (outs.map (·.2)), dies := l.dies }

/-- COPY, PREFETCH and the copy of EVICT from slot `a` to slot `b` (06 R192, R194, R195). -/
def copyRes (e : Env) (a b : Nat) : Res :=
  let x := e.tensor a
  let y := e.tensor b
  let l := layOf e.order (x.ndim - 1) (x.tileRel && y.tileRel) x
  let cs := allCoords l.sizes
  let vals := cs.map (fun c => l.get x (e.v a) c)
  if x.fmt = y.fmt ∧ (!isMx x.fmt ∨ x.bdim = y.bdim) then
    let codes := cs.map (fun c =>
      let (xd, xl) := l.place x c
      let (yd, yl) := l.place y c
      (yd, yl, if x.fmt = 0x0C then x.code (e.v a) xd xl else canonCode y.fmt (x.code (e.v a) xd xl)))
    let scales := if isMx x.fmt then (cs.map (fun c =>
        let (xd, xl) := l.place x c
        let (yd, yl) := l.place y c
        (b, y.scaleAddr + yd + y.scaleIndex yl, [(e.v a).byte (x.scaleAddr + xd + x.scaleIndex xl)]))).eraseDups else []
    { writes := (packCodes y codes).map (fun w => (b, w.1, w.2)) ++ scales, flags := nanIn vals, dies := l.dies }
  else
    let (ws, f) := e.encode b y (l.outs y l.sizes (fun c => r32 (l.get x (e.v a) c)))
    { writes := ws, flags := AFlags.or f (nanIn vals), dies := l.dies }

def fillRes (e : Env) : Res :=
  let x := e.tensor 0
  let l := layOf e.order (x.ndim - 1) x.tileRel x
  let v := ops e.d 0x50 8 % 2 ^ x.width
  let code := if x.fmt = 0x0C then v else canonCode x.fmt v
  { writes := (packCodes x ((allCoords l.sizes).map (fun c => let (d, loc) := l.place x c; (d, loc, code)))).map (fun w => (0, w.1, w.2)),
    flags := { nan := (elemValue x.fmt v).isNan }, dies := l.dies }

/-! ## Overlap (06 R161) -/

def describesSame (a b : Tensor) : Bool :=
  a.node == b.node && a.base == b.base && a.fmt == b.fmt && a.sizes == b.sizes && a.strides == b.strides && a.tileRel == b.tileRel

/-- Byte ranges (first, past the last) that the elements of a tensor and their block scales take, in every fragment of a tile-relative one. -/
def Tensor.bytes (t : Tensor) (order : List Nat) : List (Int × Int) :=
  let one := t.lines.map (fun l => (l.1, l.1 + (l.2 : Int))) ++
    (if isMx t.fmt then [((t.scaleAddr : Int), ((t.scaleAddr + t.scaleCount : Nat) : Int))] else [])
  if t.tileRel then order.flatMap (fun d => one.map (fun r => (r.1 + (dieDelta d : Nat), r.2 + (dieDelta d : Nat)))) else one

/-- Two lists of ranges share a byte. -/
def sharesBytes (a b : List (Int × Int)) : Bool := a.any (fun x => b.any (fun y => decide (x.1 < y.2 ∧ y.1 < x.2)))

/-- Two tensors share a byte. -/
def touches (order : List Nat) (a b : Tensor) : Bool := a.node == b.node && sharesBytes (a.bytes order) (b.bytes order)

/-- An output shares bytes with an input in a way 06 R161 does not allow. -/
def Env.overlaps (e : Env) : Bool :=
  let outs := outSlots e.d
  let o := opcodeOf e.d
  let may := o == 0x50 || o == 0x51 || o == 0x54 || o == 0x90
  outs.any (fun s => (List.range 4).any (fun r => !outs.contains r &&
    (match e.t s, e.t r with
     | some a, some b => touches e.order a b && !(may && describesSame a b)
     | _, _ => false)))

/-- What the operation's array work comes to. -/
def Env.result (e : Env) : Res :=
  if e.overlaps then { undef := true, dies := e.order }
  else
    match opcodeOf e.d with
    | 0x10 | 0x11 | 0x12 => contractRes e (denseOperands e)
    | 0x13 => contractRes e (windowOperands e)
    | 0x30 => attendRes e (attendIn e) (ops e.d 0x68 8)
    | 0x31 =>
      match pagedFault e with
      | some a => { status := .range, slot := 4, faultAddr := a, dies := e.order }
      | none => attendRes e (pagedIn e) (ops e.d 0x70 8)
    | 0x40 => scanLinearRes e
    | 0x41 => scanAssocRes e
    | 0x50 => mapRes e
    | 0x51 => map2Res e
    | 0x52 => normRes e
    | 0x53 => softmaxRes e
    | 0x54 => quantizeRes e
    | 0x55 => orderRes e (bit (ops e.d 0x50 1) 0) (some (ops e.d 0x54 4)) true
    | 0x56 => orderRes e (bit (ops e.d 0x50 1) 0) none (bit (ops e.d 0x50 1) 1)
    | 0x70 => reduceRes e
    | 0x80 => gatherRes e
    | 0x81 => scatterRes e
    | 0x82 => scatterAddRes e
    | 0x90 => copyRes e 0 1
    | 0x91 => fillRes e
    | 0x92 => { copyRes e 0 1 with dies := [] }
    | 0x93 => if bit (ops e.d 0x51 1) 0 then copyRes e 0 1 else { dies := [] }
    | _ => {}

end Sys2Proof.Machine
end

