-- ==== Sys2Proof/Machine/Engine.lean ====
section
/-! DEFINITION. How a resident operation reads its inputs and writes its outputs: the requests of its streams (03 R70; 05 R141; 07
R203), their failures (06 R162; 07 R215-R218, R484) and the reports of tiles and of the reduction engine (01 R19; 03 R86, R87). -/

namespace Sys2Proof.Machine

open Sys2Proof

/-! ## Contexts and operations -/

def Mod.ctx (m : Mod) (q : Nat) : Ctx := nth m.ctxs q {}
def Mod.modCtx (m : Mod) (q : Nat) (f : Ctx → Ctx) : Mod := { m with ctxs := modNth m.ctxs q f }
def Mod.op? (m : Mod) (q seq : Nat) : Option ROp := (m.ctx q).ops.find? (fun o => o.seq == seq)
def Mod.modOp (m : Mod) (q seq : Nat) (f : ROp → ROp) : Mod :=
  m.modCtx q (fun c => { c with ops := c.ops.map (fun o => if o.seq = seq then f o else o) })

/-- The environment an operation computes in. -/
def Mod.envOf (m : Mod) (q : Nat) (op : ROp) : Env :=
  { d := op.desc, order := m.logical q, t := fun s => (op.tensors.get? s).map (m.tensor s),
    v := fun s => (op.got.filter (fun g => g.1.key % 8 == s)).map (fun g => (g.1.addr, g.2)),
    seed := m.fld F.SQ_SR_SEED_SEED q, count := op.srCount.getD 0, free := fun k => Config.freeNat (m.fresh + k) }

/-! ## What an operation reads -/

/-- Join ranges (first, past the last) that continue one another. -/
def coalesce : List (Nat × Nat) → Option (Nat × Nat) → List (Nat × Nat)
  | [], none => []
  | [], some r => [r]
  | x :: xs, none => coalesce xs (some x)
  | x :: xs, some r => if r.1 ≤ x.1 ∧ x.1 ≤ r.2 then coalesce xs (some (r.1, max r.2 x.2)) else r :: coalesce xs (some x)

/-- Byte ranges of elements given by fragment offset and coordinates, in their order, then of their block scales (05 R146, R149). -/
def Tensor.ranges (t : Tensor) (es : List (Nat × List Nat)) : List (Nat × Nat) :=
  coalesce (es.map (fun (x : Nat × List Nat) =>
    let (a, b) := t.elemAt x.2
    (a.toNat + x.1, a.toNat + x.1 + (b + t.width + 7) / 8))) none ++
  (if isMx t.fmt then coalesce (es.map (fun (x : Nat × List Nat) =>
    let a := t.scaleAddr + x.1 + t.scaleIndex x.2
    (a, a + 1))) none else [])

/-- Every element of a tensor that is not tile-relative. -/
def Tensor.all (t : Tensor) : List (Nat × List Nat) := (allCoords t.sizes).map (fun c => (0, c))

/-- The division of an operation's work (06 R163), as its result uses it. -/
def Env.lay (e : Env) : Lay :=
  let t := e.tensor
  match opcodeOf e.d with
  | 0x40 => layOf e.order (if ops e.d 0x51 1 = (t 2).ndim - 1 then 0 else (t 2).ndim - 1) ((t 0).tileRel && (t 1).tileRel && (t 2).tileRel) (t 2)
  | 0x51 => layOf e.order ((t 2).ndim - 1) ((t 0).tileRel && (t 1).tileRel && (t 2).tileRel) (t 2)
  | 0x55 => layOf e.order ((t 0).ndim - 1) ((t 0).tileRel && (t 1).tileRel && (t 2).tileRel) (t 0)
  | 0x56 => layOf e.order ((t 0).ndim - 1) ((t 0).tileRel && (t 1).tileRel && (!bit (ops e.d 0x50 1) 1 || (t 2).tileRel)) (t 0)
  | 0x80 => e.rowLay (t 2)
  | 0x81 | 0x82 => e.rowLay (t 0)
  | _ => layOf e.order ((t 0).ndim - 1) ((t 0).tileRel && (t 1).tileRel) (t 0)

/-- Elements of a tensor at every logical index of the layout. -/
def Env.laid (e : Env) (s : Nat) : List (Nat × List Nat) := (allCoords e.lay.sizes).map (fun c => e.lay.place (e.tensor s) c)

def Env.indexElems (e : Env) : List (Nat × List Nat) :=
  (List.range (rowCount e.lay)).map (fun i => ({ e.lay with dim := 0 } : Lay).place (e.tensor 1) [i])

/-- Rows of the table that in-range indices name. -/
def Env.rowElems (e : Env) (s : Nat) : List (List (Nat × List Nat)) :=
  (List.range (rowCount e.lay)).filterMap (fun i =>
    let x := e.index e.lay i
    if inTable (e.tensor s) x then some ((List.range ((e.tensor s).size 0)).map (fun c => (0, [c, x.toNat]))) else none)

/-- A GATHER whose rows, of up to 256 bytes in local LPDDR, are read through Ochre (06 R189, 09 R258). -/
def Env.narrowRows (e : Env) : Bool :=
  let t := e.tensor 0
  opcodeOf e.d == 0x80 && t.node.isNone && regionOf t.base == .lpddr && decide (t.size 0 * t.width ≤ 8 * 256)

/-- Pages of a pool of ATTEND_PAGED whose contiguous extent for one key head is below 512 bytes (06 R177). -/
def Env.smallPages (e : Env) (s : Nat) : Bool :=
  let t := e.tensor s
  let rows := if nth t.strides 0 0 * 8 = ((t.size 0 * t.width : Nat) : Int) then t.size 1 else 1
  decide (t.size 0 * rows * t.width < 8 * 512)

/-- Elements of a contraction operand: all of it, or each tile's slices of its fragment (06 R166). -/
def Env.sliced (e : Env) (s : Nat) (tiles : List TileWork) (dims : TileWork → (Nat × Nat) × (Nat × Nat)) (keep : TileWork → List Nat → Bool) :
    List (Nat × List Nat) :=
  let t := e.tensor s
  if t.tileRel then
    tiles.flatMap (fun w =>
      let (r, c) := dims w
      ((allCoords [r.2 - r.1, c.2 - c.1]).filter (fun x => keep w [nth x 0 0 + r.1, nth x 1 0 + c.1])).map (fun x => (dieDelta w.die, x)))
  else (t.all.filter (fun x => keep (tiles.headD { die := 0, k := (0, 0), m := (0, 0), n := (0, 0) }) x.2))

/-- Elements of the input of CONTRACT_WINDOW that the output touches (06 R171). -/
def Env.windowElems (e : Env) : List (Nat × List Nat) :=
  let X := e.tensor 0
  let Y := e.tensor 2
  let o := fun (i : Nat) => ops e.d (0x68 + i) 1
  let touched := fun (size out k stride dil pad : Nat) =>
    (List.range size).map (fun x => (List.range out).any (fun p => (List.range k).any (fun j => p * stride + j * dil == x + pad)))
  let xs := touched (X.size 1) (Y.size 1) (o 0) (o 2) (o 4) (o 6)
  let ys := touched (X.size 2) (Y.size 2) (o 1) (o 3) (o 5) (o 7)
  X.all.filter (fun c => nth xs (nth c.2 1 0) false && nth ys (nth c.2 2 0) false)

/-- Key blocks that some query may use (06 R173). -/
def Env.usedBlock (e : Env) (a : AttnIn) (b kb : Nat) : Bool :=
  (List.range ((e.tensor 0).size 1)).any (fun i => (List.range (min 256 (a.keys b - kb * 256))).any (fun j =>
    allowed e.d (a.pos0 b + i) (kb * 256 + j)))

/-- Elements of K or V of ATTEND: the key blocks in use. -/
def Env.attnElems (e : Env) (s : Nat) : List (Nat × List Nat) :=
  let n := ceilDiv ((e.tensor 1).size 1) 256
  let used := (List.range n).map (fun kb => e.usedBlock (attendIn e) 0 kb)
  (e.tensor s).all.filter (fun c => nth used (nth c.2 1 0 / 256) false)

/-- Lengths of ATTEND_PAGED are within their table (06 R176). -/
def Env.lengthOk (e : Env) (b : Nat) : Bool :=
  decide (e.seqLen b ≤ ops e.d 0x7C 4 * 2 ^ ops e.d 0x78 1) && decide ((e.tensor 0).size 1 ≤ e.seqLen b)

/-- Elements of the pages of K or V that are in use. -/
def Env.pageElems (e : Env) (s : Nat) : List (Nat × List Nat) :=
  let lg := ops e.d 0x78 1
  let t := e.tensor s
  (List.range ((e.tensor 0).size 3)).flatMap (fun b =>
    (List.range (e.seqLen b)).flatMap (fun j =>
      if e.usedBlock (pagedIn e) b (j / 256) then
        let p := (e.v 4).num (e.pageAddr b (j / 2 ^ lg)) 4
        (List.range (t.size 2)).flatMap (fun h => (List.range (t.size 0)).map (fun x => (0, [x, j % 2 ^ lg, h, p])))
      else []))

/-- The byte ranges an operation reads, by tensor slot (4: named by an OPS field), at three levels: what level 1 reads depends on the
bytes of level 0, and level 2 on those of level 1. -/
def Env.needs (e : Env) (lvl : Nat) : List (Nat × List (Nat × Nat)) :=
  let d := e.d
  let o := opcodeOf d
  let t := e.tensor
  let of := fun (s : Nat) (es : List (Nat × List Nat)) => (s, (t s).ranges es)
  let laid := fun (s : Nat) => of s (e.laid s)
  let all := fun (s : Nat) => of s (t s).all
  if isContraction o then
    let ta := bit (ops d 0x50 1) 1
    let tb := bit (ops d 0x50 1) 2
    let (tiles, _) := tilesOf (foldOf d) (bit (ops d 0x50 1) 0) e.order (ops d 0x5C 4) (ops d 0x60 4) (ops d 0x64 4)
    let flip := fun (tr : Bool) (x y : Nat × Nat) => if tr then (y, x) else (x, y)
    let b := fun (keep : TileWork → List Nat → Bool) => of 1 (e.sliced 1 tiles (fun w => flip tb w.k w.n) keep)
    let present := fun (w : TileWork) (x : List Nat) =>
      let (k, n) := if tb then (nth x 1 0, nth x 0 0) else (nth x 0 0, nth x 1 0)
      blockPresent e k n (x.drop 2) w
    match lvl with
    | 0 =>
      let epi := ops d 0x52 1
      [if o = 0x13 then of 0 e.windowElems else of 0 (e.sliced 0 tiles (fun w => flip ta w.k w.m) (fun _ _ => true))] ++
      (if o = 0x13 then [all 1]
       else if o = 0x11 then
         -- a tile-relative fragment has a bitmap of its own slice of K (04 R123)
         let at_ := fun (dl k n : Nat) =>
           let len := ceilDiv (ceilDiv k 32 * ceilDiv n 32) 8 * prodOf ((t 1).sizes.drop 2)
           ((t 1).bitmapAddr + dl, (t 1).bitmapAddr + dl + len)
         [(1, if (t 1).tileRel then tiles.map (fun w => at_ (dieDelta w.die) (w.k.2 - w.k.1) ((t 1).size (if tb then 0 else 1)))
              else [at_ 0 (ops d 0x64 4) (ops d 0x60 4)])]
       else [b (fun _ _ => true)]) ++
      (if ops d 0x58 4 = 0 then [] else [of 2 (e.sliced 2 tiles (fun w => (w.n, w.m)) (fun _ _ => true))]) ++
      (if epi % 4 = 0 then [] else [of 3 ((t 3).all.filter (fun c => bit epi (nth c.2 1 0)))])
    | 1 => if o = 0x11 then [b present] else []
    | _ => []
  else match o, lvl with
  | 0x30, 0 => [all 0, of 1 (e.attnElems 1), of 2 (e.attnElems 2)]
  | 0x31, 0 => [all 0, (4, coalesce ((List.range ((t 0).size 3)).map (fun b => (ops d 0x68 8 + 4 * b, ops d 0x68 8 + 4 * b + 4))) none)]
  | 0x31, 1 => [(4, coalesce (((List.range ((t 0).size 3)).filter e.lengthOk).flatMap (fun b =>
      (List.range (ceilDiv (e.seqLen b) (2 ^ ops d 0x78 1))).map (fun p => (e.pageAddr b p, e.pageAddr b p + 4)))) none)]
  | 0x31, 2 => if (pagedFault e).isSome then [] else [of 1 (e.pageElems 1), of 2 (e.pageElems 2)]
  | 0x40, 0 => [laid 0, laid 1] ++ (if bit (ops d 0x50 1) 0 then
      [of 3 ((allCoords (e.lay.sizes.set (ops d 0x51 1) 1)).map (fun c => e.lay.place (t 3) c))] else [])
  | 0x51, 0 => [laid 0, laid 1]
  | 0x52, 0 => [laid 0] ++ (if bit (ops d 0x51 1) 0 then [all 2] else []) ++ (if bit (ops d 0x51 1) 1 then [all 3] else [])
  | 0x41, 0 | 0x50, 0 | 0x53, 0 | 0x54, 0 | 0x55, 0 | 0x56, 0 | 0x70, 0 | 0x90, 0 | 0x92, 0 => [laid 0]
  | 0x93, 0 => if bit (ops d 0x51 1) 0 then [laid 0] else []
  | 0x80, 0 => [of 1 e.indexElems]
  | 0x80, 1 => [(0, if e.narrowRows then (e.rowElems 0).flatMap (fun r => (t 0).ranges r) else (t 0).ranges (e.rowElems 0).flatten)]
  | 0x81, 0 => [of 1 e.indexElems, laid 0]
  | 0x82, 0 => [of 1 e.indexElems, laid 0]
  | 0x82, 1 => if (t 2).node.isSome then [] else [of 2 (e.rowElems 2).flatten]
  | _, 0 =>
    if isCollective o then
      [(4, [(ops d 0x50 8, ops d 0x50 8 + 2 * ops d 0x58 2)])] ++
      (if o = 0xA6 ∨ (o = 0xA4 ∧ ops d 0x62 2 ≠ ops d 0x5A 2) then [] else [all 0])
    else []
  | _, _ => []

/-- Requests for a run of bytes of another node: whole lines, up to 64 of them within 4 KiB, and parts of lines (12, below Table 12.5). -/
def remoteCut (a n : Nat) : List (Nat × Nat) :=
  let lo := ceilDiv a 64 * 64
  let hi := (a + n) / 64 * 64
  if hi ≤ lo then blocksOf a n
  else
    (if a < lo then [(a, lo - a)] else []) ++
    (List.range ((hi - 1) / 4096 - lo / 4096 + 1)).map (fun i =>
      let s := max lo ((lo / 4096 + i) * 4096)
      (s, min hi ((lo / 4096 + i + 1) * 4096) - s)) ++
    (if hi < a + n then [(hi, a + n - hi)] else [])

/-- The requests of one level in stream order, each once for each slot: 64-byte pieces, or the packets of a remote tensor; a GATHER reads
a remote table line by line (06 R189). -/
def Env.pieces (e : Env) (lvl : Nat) : List Piece :=
  (e.needs lvl).flatMap (fun x =>
    let node := if x.1 < 4 then (e.tensor x.1).node else none
    let cut := if node.isSome ∧ opcodeOf e.d ≠ 0x80 then remoteCut
      else if x.1 = 0 ∧ lvl = 1 ∧ e.narrowRows = true then fun a n => [(a, n)] else blocksOf
    let ps := (x.2.flatMap (fun r => cut r.1 (r.2 - r.1))).eraseDups
    (ps.foldl (fun (a : List Piece × Nat) p =>
      (a.1 ++ [{ key := x.1 + 8 * (lvl + 4 * a.1.length), node := node, addr := p.1, len := p.2, off := a.2 }], a.2 + p.2)) ([], 0)).1)

/-- A read that goes through Ochre (06 R177, R189; 09 R258). -/
def Env.narrowRead (e : Env) (p : Piece) : Bool :=
  p.node.isNone && (lpddrAt p.addr).isSome && (match opcodeOf e.d, p.key % 8 with
    | 0x80, 0 => e.narrowRows
    | 0x31, 4 => true
    | 0x31, 1 => e.smallPages 1
    | 0x31, 2 => e.smallPages 2
    | _, _ => false)

/-- Dies whose tiles execute fragments of the operation (06 R163): PREFETCH, collectives and ATOMIC use none. -/
def Env.fragmentDies (e : Env) : List Nat :=
  let o := opcodeOf e.d
  if isContraction o then
    (tilesOf (foldOf e.d) (bit (ops e.d 0x50 1) 0) e.order (ops e.d 0x5C 4) (ops e.d 0x60 4) (ops e.d 0x64 4)).1.map (·.die)
  else if o = 0x92 ∨ o = 0xB0 ∨ isCollective o then []
  else if isAttention o then e.order
  else e.lay.dies

/-- An access of the array's S port (03 R68; 08 R226): a stream engine's to its own die, for a fragment of a tile-relative tensor or when
no other die works; `red`: the reduction engine's to the hub buffer. -/
def Env.ownPort (e : Env) (slot a : Nat) (red : Bool) : Bool :=
  match sramAt a with
  | none => false
  | some (arr, _) =>
    if red then arr == 16
    else arr != 16 && (let ds := e.fragmentDies; ds.contains arr && ((e.tensor slot).tileRel || ds.all (· == arr)))

/-! ## Failures -/

/-- The 64-bit form of an address (01 R24). -/
def globalForm (node : Option Nat) (a : Nat) : Nat :=
  match node with
  | some n => 2 ^ 62 + n * 2 ^ 48 + a
  | none => a

/-- FAULT_ADDR of a failing request within one 64-byte block (07 R484). -/
def Mod.faultByte (m : Mod) (st : Status) (node : Option Nat) (a n : Nat) : Nat :=
  if node.isSome then globalForm node a
  else match st with
  | .dataLost => (((List.range n).map (· + a)).find? (fun x => m.mem.parityBad x)).getD a
  | .uncorrectable => lineOf a
  | _ => a

/-- Byte ranges of the outputs an operation can write in this module. -/
def Mod.outRanges (m : Mod) (q : Nat) (op : ROp) : List (Nat × Nat) :=
  let d := op.desc
  let tens := (outSlots d).filterMap (fun s => (op.tensors.get? s).map (m.tensor s))
  let ts := (tens.filter (fun t => t.node.isNone)).flatMap (fun t =>
    (if t.tileRel then (m.logical q).map dieDelta else [0]).flatMap (fun dl =>
      (t.lines.map (fun (l : Int × Nat) => (l.1.toNat + dl, l.2))) ++ (if isMx t.fmt then [(t.scaleAddr + dl, t.scaleCount)] else [])))
  let n := match op.tensors.get? 0 with
    | some b => let t := m.tensor 0 b; 4 * (t.size 1 * t.size 2 * t.size 3)
    | none => 0
  let extra := fun (a n : Nat) => if a = 0 then [] else [(a, n)]
  ts ++ (match opcodeOf d with
    | 0x30 => extra (ops d 0x68 8) n
    | 0x31 => extra (ops d 0x70 8) n
    | 0xB0 => extra (ops d 0x68 8) 8
    | _ => [])

/-- The operation's outputs are undefined (07 Table 07.6): every byte of them that this module holds takes a free value. -/
def Mod.scramble (m : Mod) (q : Nat) (op : ROp) : Mod :=
  if op.tensors.isEmpty && opcodeOf op.desc != 0xB0 then m
  else (m.outRanges q op).foldl (fun m r =>
    if memPopulated r.1 r.2 then
      let (m, b) := m.drawBytes r.2
      { m with mem := m.mem.writeAt r.1 (b.map some) }
    else m) m

/-- An operation fails: the first status holds, its other requests drain (06 R162); a failure before dispatch is held until then. One
that a check or a descriptor fetch refuses writes nothing (07 R202); a collective that meets a mismatch leaves its outputs undefined
(07 Table 07.6). -/
def Mod.opFail (m : Mod) (q seq : Nat) (st : Status) (detail faultAddr : Nat) (always : Bool := false) : Mod :=
  match m.op? q seq with
  | none => m
  | some op =>
    if op.status ≠ .ok ∨ op.st = .retired then m
    else if op.st = .staged then
      m.modOp q seq (fun o => { o with bad := if o.bad.isNone then some (st, detail, faultAddr) else o.bad })
    else
      let m := m.modOp q seq (fun o => { o with
        status := st, detail := detail, faultAddr := faultAddr, trapAlways := always, st := .failed, tiles := [], parts := [], held := [],
        redDone := true, reloads := [] })
      if op.st = .fetched ∨ op.st = .staging ∨ (st = .protocol ∧ op.coll.isNone = true) then m else m.scramble q op

/-- A parity error that replay cannot recover ends the operation with ST_DATA_LOST (07 R218). -/
def Mod.opLost (m : Mod) (q seq detail faultAddr : Nat) : Mod :=
  (m.satFld F.SQ_REPLAY_LOST 1 q).opFail q seq .dataLost detail faultAddr true

/-! ## Parity (07 R215-R218) -/

/-- An output describes the bytes of an input (06 R161). -/
def Env.inPlace (e : Env) : Bool :=
  let outs := outSlots e.d
  outs.any (fun s => (List.range 4).any (fun r => !outs.contains r && (match e.t s, e.t r with
    | some a, some b => describesSame a b
    | _, _ => false)))

/-- Address of the backing copy of a local byte of a tensor (05 R150, R151). -/
def Env.backingAddr (e : Env) (t : Tensor) (a : Nat) : Option Nat :=
  match t.backing with
  | none => none
  | some b =>
    let span := ceilDiv (t.span.2 - t.span.1 + 1).toNat 64 * 64
    if t.tileRel then
      let die := (a - 0x400100000000) / 0x40000000
      let f := (e.order.findIdx? (· == die)).getD 0
      some (((b + f * span : Nat) : Int) + ((a : Int) - (dieDelta die : Nat) - t.base)).toNat
    else some ((b : Int) + ((a : Int) - t.base)).toNat

/-- The first bad byte of a report. -/
def Mod.firstBadByte (m : Mod) (r : ParityReport) : Nat := m.faultByte .dataLost none r.addr r.len

/-- A parity report reaches the sequencer: reload and replay, or ST_DATA_LOST (07 R216-R218). -/
def Mod.parityReport (m : Mod) (q seq : Nat) (r : ParityReport) : Mod :=
  match m.op? q seq with
  | none => m
  | some op =>
    if op.st ≠ .dispatched ∧ op.st ≠ .reload then m
    else
      let e := m.envOf q op
      let lost := fun (detail : Nat) => m.opLost q seq detail (m.firstBadByte r)
      let stop := fun (rel : List (Nat × Nat × Nat)) =>
        m.modOp q seq (fun o => { o with
          st := .reload, badByte := if o.badByte = 0 then m.firstBadByte r else o.badByte, reloads := o.reloads ++ rel.filter (fun x => !(o.reloads.any (fun y => y.1 == x.1))), tiles := [], parts := [], held := [],
          redWrite := false })
      if op.replayed then lost 1
      else if !(idempotent op.desc && replayClass (opcodeOf op.desc)) || e.inPlace then lost 3
      else if !r.own then stop []
      else if r.aux then lost 5
      else
        match e.t r.slot with
        | none => lost 5
        | some t =>
          if !backedInput op.desc ∨ t.backing.isNone then lost 2
          else stop ((linesOf r.addr r.len).map (fun l => (l, (e.backingAddr t l).getD 0, m.firstBadByte r)))

/-! ## Requests -/

/-- Deadline of a request at a byte offset of its stream, and its late mark (05 R141, Table 05.5). -/
def Mod.deadlineOf (m : Mod) (op : ROp) (b : Nat) : Nat × Bool :=
  let d := op.desc
  if deadlineClass d = 0 then ((m.ticks + 0x7FFF) % 65536, false)
  else
    let base := if op.replayed then (if op.st = .dispatched then op.dispTick.getD m.ticks else m.ticks)
      else if deadlineClass d = 1 then op.stageTick else op.dispTick.getD m.ticks
    let ramp := if pace d = 0 then 0 else b / (pace d * 1024)
    let due := base + min (deadlineField d + ramp) 0x7FFF
    (due % 65536, decide (due ≤ m.ticks))

/-- An access of an operation's channel to local memory; a register region is refused (01 R27). -/
def Mod.opMem (m : Mod) (src : Src) (q a : Nat) (op : MemOp) (dl : Nat × Bool) (hint : Option Nat := none) (ochre : Bool := false)
    (sport : Bool := false) : Mod × Reply :=
  if regionOf a = .special ∧ (aliasOf a).isNone then (m, .done .access [])
  else m.localMem src (.dma (Fin.ofNat 4 q)) a op dl hint ochre sport

def opSrc (q seq key : Nat) : Src := .op (Fin.ofNat 4 q) seq key

/-- SIZE code of the aligned read of 8, 16 or 32 bytes that a GATHER makes (06 R189, 12 Table 12.4). -/
def sizeCode (d : Desc) (a n : Nat) : Option Nat :=
  if a % n ≠ 0 ∨ opcodeOf d ≠ 0x80 then none else if n = 8 then some 3 else if n = 16 then some 4 else if n = 32 then some 5 else none

/-- Head payload of a bulk request of `n` bytes: ADDR and BLOCKS. -/
def bulkHead (a n : Nat) : List Byte := toBytes 8 a ++ List.replicate 17 0 ++ [BitVec.ofNat 8 (n / 64)]

/-- The read packet of a remote piece: BULKR of several lines, RDN of an aligned quantity, else RD64 of its line. -/
def Mod.readPacket (m : Mod) (d : Desc) (node a n : Nat) : Packet :=
  if 64 < n then mkPacket 0 0x06 node m.node 0 0 (bulkHead a n) []
  else match sizeCode d a n with
  | some s => mkPacket 0 0x02 node m.node 0 0 (toBytes 8 a ++ List.replicate 16 0 ++ [BitVec.ofNat 8 s]) []
  | none => mkPacket 0 0x01 node m.node 0 0 (toBytes 8 (lineOf a)) []

/-- The write packet of a remote piece: BULKW of several lines (of any whole line in a collective, 12 R343), WR64 of a line, else WRM. -/
def Mod.writePacket (m : Mod) (coll : Bool) (node a : Nat) (data : List Byte) (hint : Option Nat) : Packet :=
  let line := lineOf a
  let p := if 64 < data.length ∨ (coll = true ∧ data.length = 64) then mkPacket 0 0x07 node m.node 0 0 (bulkHead a data.length) data
    else if data.length = 64 then mkPacket 0 0x03 node m.node 0 0 (toBytes 8 line) data
    else mkPacket 0 0x04 node m.node 0 0 (toBytes 8 line ++ toBytes 8 ((2 ^ data.length - 1) * 2 ^ (a - line))) (List.replicate (a - line) 0 ++ data)
  { p with hint := match hint with
    | some h => BitVec.ofNat 8 (0x80 + h)
    | none => 0 }

/-- The hint of an output write (11 R303). -/
def Mod.hintFor (m : Mod) (q a : Nat) : Option Nat :=
  if m.fld F.DIR_CTL_HINT_EN = 0 then none
  else
    let page := a / 0x200000
    ((List.range 4).find? (fun j => let k := 4 * q + j
      m.fld F.DIR_HINT_VALID 0 k == 1 && decide (m.fld F.DIR_HINT_START 0 k ≤ page ∧ page ≤ m.fld F.DIR_HINT_LAST 0 k))).map
      (fun j => m.fld F.DIR_HINT_AGENT 0 (4 * q + j))

/-- A read of an operation ends without its bytes: an on-chip parity error is reported, any other failure fails the operation; before
dispatch it is held (06 R162; 07 Table 07.1). -/
def Mod.readFailed (m : Mod) (q seq : Nat) (p : Piece) (st : Status) : Mod :=
  match m.op? q seq with
  | none => m
  | some op =>
    let fa := m.faultByte st p.node p.addr p.len
    if op.st = .staged then
      m.modOp q seq (fun o => { o with bad := if o.bad.isNone then some (st, p.key % 8, fa) else o.bad })
    else if st = .dataLost ∧ p.node.isNone then
      let aux := match (m.envOf q op).t (p.key % 8) with
        | some t => decide ((p.addr : Int) < t.span.1) || decide (t.span.2 < (p.addr : Int)) && !t.tileRel ||
            (t.tileRel && (let x : Int := (p.addr : Int) - (dieDelta ((p.addr - 0x400100000000) / 0x40000000) : Nat); decide (x < t.span.1 ∨ t.span.2 < x)))
        | none => true
      m.parityReport q seq { slot := p.key % 8, addr := p.addr, len := p.len, own := true, aux := aux }
    else m.opFail q seq st (p.key % 8) fa

/-- Requests of 64 bytes that a stream engine of a dispatched operation has outstanding through its die's port (03 R70; log 179). -/
def Mod.hubReads (m : Mod) (q : Nat) (op : ROp) (e : Env) (die : Nat) : Nat :=
  ((op.open_.filter (fun p => m.dealtDie q p.key == die && (p.node.isSome || !e.ownPort (p.key % 8) p.addr false))).map
    (fun p => ceilDiv p.len 64)).foldl (· + ·) 0

/-- The stream engine may issue a read now: to its own die always, through the port up to 2,048 requests of 64 bytes (03 R70). -/
def Mod.readRoom (m : Mod) (q : Nat) (op : ROp) (e : Env) (p : Piece) : Bool :=
  op.st != .dispatched || opcodeOf op.desc == 0x92 || (p.node.isNone && e.ownPort (p.key % 8) p.addr false) ||
  decide (m.hubReads q op e (m.dealtDie q p.key) + ceilDiv p.len 64 ≤ 2048)

/-- Issue one read of an operation, while its stream engine may. -/
def Mod.issueRead (m : Mod) (q seq : Nat) (p : Piece) : Mod :=
  match m.op? q seq with
  | none => m
  | some op =>
    let e := m.envOf q op
    if op.status ≠ .ok ∨ op.st = .reload ∨ op.open_.any (fun x => x.key == p.key) ∨ op.got.any (fun x => x.1.key == p.key) ∨
        m.readRoom q op e p = false then m
    else
      match p.node with
      | some n => (m.modOp q seq (fun o => { o with open_ := o.open_ ++ [p] })).issue (opSrc q seq p.key) n (m.readPacket op.desc n p.addr p.len) false
      | none =>
        match m.opMem (opSrc q seq p.key) q p.addr (.read p.len) (m.deadlineOf op p.off) none (e.narrowRead p) (e.ownPort (p.key % 8) p.addr false) with
        | (m, .done .ok b) => m.modOp q seq (fun o => { o with got := o.got ++ [(p, b)] })
        | (m, .done st _) => m.readFailed q seq p st
        | (m, .waits) => m.modOp q seq (fun o => { o with open_ := o.open_ ++ [p] })

/-- Issue the reads of a level; whether all of them have returned. -/
def Mod.readLevel (m : Mod) (q seq lvl : Nat) : Mod × Bool :=
  match m.op? q seq with
  | none => (m, false)
  | some op =>
    let ps := (m.envOf q op).pieces lvl
    let m := ps.foldl (fun m p => m.issueRead q seq p) m
    match m.op? q seq with
    | none => (m, false)
    | some op => (m, op.status == .ok && op.st != .reload && ps.all (fun p => op.got.any (fun g => g.1.key == p.key)))

/-- Issue one write of an operation: within one 64-byte block, or one packet; `i` numbers it, `off` is its place in its stream (05 R141),
`red`: a write of the reduction engine. -/
def Mod.issueWrite (m : Mod) (q seq slot i off : Nat) (node : Option Nat) (a : Nat) (data : List Byte) (red : Bool) : Mod :=
  match m.op? q seq with
  | none => m
  | some op =>
    if op.status ≠ .ok then m
    else
      let key := slot + 8 * (3 + 4 * i)
      let p : Piece := { key := key, node := node, addr := a, len := data.length, off := off }
      let wait := fun (m : Mod) => m.modOp q seq (fun o => { o with open_ := o.open_ ++ [p] })
      let hint := m.hintFor q a
      match node with
      | some n => (wait m).issue (opSrc q seq key) n (m.writePacket false n a data hint) false
      | none =>
        match m.opMem (opSrc q seq key) q a (.write (data.map some)) (m.deadlineOf op off) hint false ((m.envOf q op).ownPort slot a red) with
        | (m, .done .ok _) => m
        | (m, .done st _) => m.opFail q seq st slot (m.faultByte st none a data.length)
        | (m, .waits) => wait m

/-- Issue an operation's writes (slot, node, address, bytes) in stream order. -/
def Mod.issueWrites (m : Mod) (q seq : Nat) (ws : List (Nat × Option Nat × Nat × List Byte)) (red : Bool := false) : Mod :=
  let cut := ws.flatMap (fun (w : Nat × Option Nat × Nat × List Byte) =>
    ((if w.2.1.isSome then remoteCut else blocksOf) w.2.2.1 w.2.2.2.length).map (fun p => (w.1, w.2.1, p.1, (w.2.2.2.drop (p.1 - w.2.2.1)).take p.2)))
  (cut.foldl (fun (s : Mod × Sparse Nat) (w : Nat × Option Nat × Nat × List Byte) =>
    let (m, n) := s.1.draw
    let off := (s.2.get? w.1).getD 0
    (m.issueWrite q seq w.1 n off w.2.1 w.2.2.1 w.2.2.2 red, s.2.set w.1 (off + w.2.2.2.length))) (m, [])).1

/-! ## Additions to a remote table (06 R191) -/

/-- Additions to a table of another node travel as REDC packets of up to 4,096 bytes of a row (12 Table 12.3): the address there as the
identifier, the bytes in the body. -/
def Mod.remoteAdds (m : Mod) (q seq : Nat) (e : Env) : Mod :=
  let src := e.tensor 0
  let tab := e.tensor 2
  let l := e.lay
  let rows := shuffle e.free (rowCount l) (e.scatterRows l)
  let m := { m with fresh := m.fresh + rowCount l }
  let per := 4096 * 8 / src.width
  let cut := rows.flatMap (fun r => (List.range (ceilDiv (src.size 0) per)).map (fun k => (r.1, r.2, k * per, min per (src.size 0 - k * per))))
  cut.foldl (fun (m : Mod) (x : Nat × Nat × Nat × Nat) =>
    let (i, r, first, count) := x
    let (m, n) := m.draw
    let row := (List.range count).map (fun x => let (d, c) := l.place src [first + x, i]; src.code (e.v 0) d c)
    let bytes := toBytes (ceilDiv (count * src.width) 8) (row.foldr (fun c acc => c + acc * 2 ^ src.width) 0)
    let a := (tab.elemAt [first, r]).1.toNat
    let key := 2 + 8 * (3 + 4 * n)
    let f : CollFields := { id := a, rank := 0, groupSize := 0, opcode := 0x82, redOp := 0, flags := 0, peer := 0, count := count,
                            format := tab.fmt, crc := 0 }
    let p := { mkPacket 0 0x09 (tab.node.getD 0) m.node 0 0 [] bytes with coll := some f }
    let m := m.modOp q seq (fun o => { o with open_ := o.open_ ++ [{ key := key, node := tab.node, addr := a, len := bytes.length, off := 0 }] })
    m.issue (opSrc q seq key) (tab.node.getD 0) p false) m

/-! ## Reports (01 R19; 03 R86, R87) -/

/-- Every word of a bank lies within window offsets lo to hi (06 R195, 08 R225). -/
def bankWithin (arr b lo hi : Nat) : Bool := decide (lo ≤ wordOff arr b 0 ∧ wordOff arr b (wordCount arr b - 1) + 63 ≤ hi)

/-- EVICT places in STATE every bank all of whose words lie within T0, or each fragment of it; STATE 0 keeps them (06 R195; 08 R240). -/
def Mod.evictBanks (m : Mod) (q : Nat) (op : ROp) : Mod :=
  match op.tensors.get? 0 with
  | none => m
  | some b =>
    let t := m.tensor 0 b
    let target := ops op.desc 0x50 1
    match sramAt t.span.1.toNat with
    | none => m
    | some (r, lo) =>
      let hi := lo + (t.span.2 - t.span.1).toNat
      if target = 0 ∨ !(bankRange 0 (bankCount r - 1)).any (fun b => bankWithin r b lo hi) then m
      else (if t.tileRel then m.logical q else [r]).foldl (fun m arr => (((List.range (bankCount arr)).filter (fun b => bankWithin arr b lo hi)).foldl (fun m b =>
        if (target == 2 && m.bankProtected arr b) || m.bankState arr b == 3 || m.marchOn arr b then m
        else m.commandBank arr b target) (m.drainY arr)).setBankBusy arr) m

/-- The reduction engine reports once every write it has issued is performed (03 R87). -/
def ROp.redSettled (op : ROp) : ROp :=
  if op.redWrite && op.open_.all (fun p => p.key / 8 % 4 != 3) then { op with redWrite := false, redDone := true } else op

/-- The operation becomes REPORTED once its tiles and the reduction engine have reported and it reads nothing more; an EVICT
then places its banks, after its copy (07 Table 07.1). -/
def Mod.checkReported (m : Mod) (q seq : Nat) : Mod :=
  let m := m.modOp q seq ROp.redSettled
  match m.op? q seq with
  | none => m
  | some op =>
    let evict := opcodeOf op.desc == 0x93
    if op.st = .dispatched ∧ op.status = .ok ∧ op.computed = true ∧ op.tiles = [] ∧ op.redDone = true ∧ op.coll.isNone = true ∧
        (op.open_.all (fun p => p.key / 8 % 4 == 3)) = true ∧ (!evict || op.open_.isEmpty) = true then
      let m := if evict then m.evictBanks q op else m
      m.modOp q seq (fun o => { o with st := .reported })
    else m

/-- Take up the results of an operation's array work: writes, or writes held for the reduction engine; dies that must report. -/
def Mod.takeResult (m : Mod) (q seq : Nat) (r : Res) (node : Nat → Option Nat) : Mod :=
  if r.status ≠ .ok then m.opFail q seq r.status r.slot r.faultAddr
  else
    -- an operation whose results are undefined for another reason writes none of its own (06 R194)
    let r := if (m.op? q seq).any (fun o => o.undef) then { r with undef := true, writes := [] } else r
    let m := m.modOp q seq (fun o => { o with
      computed := true, nan := r.flags.nan, ovf := r.flags.ovf, sat := r.flags.sat, lost := r.flags.lost, tiles := r.dies.eraseDups, redWrite := false,
      parts := r.parts.map (fun p => (p.1, p.2.1, p.2.2, p.2.2)), redDone := !r.red,
      held := if r.red then r.writes.map (fun w => (w.1, node w.1, w.2.1, w.2.2)) else [] })
    let m := if r.undef then
        match m.op? q seq with
        | some op => m.scramble q op
        | none => m
      else m
    let m := if r.red then m else m.issueWrites q seq (r.writes.map (fun w => (w.1, node w.1, w.2.1, w.2.2)))
    m.checkReported q seq

/-- Bytes of partial sums that wait in the reduction engine's staging store for other tiles (03 R87). -/
def Mod.stagedPartials (m : Mod) : Nat :=
  (m.ctxs.flatMap (·.ops)).foldl (fun n op =>
    let groups := (op.parts.map (fun p => p.2.1)).eraseDups
    n + (groups.map (fun g =>
      let ps := op.parts.filter (fun p => p.2.1 == g)
      let arrived := ps.map (fun p => p.2.2.2 - p.2.2.1)
      let low := arrived.foldl min (arrived.headD 0)
      (arrived.map (fun a => 4 * (a - low))).foldl (· + ·) 0)).foldl (· + ·) 0) 0

end Sys2Proof.Machine
end

