-- ==== Sys2Proof/Machine/Collective.lean ====
section
/-! DEFINITION. Collectives (06 R196-R198; 12 R341-R343) and the ATOMIC operation (06 R199). -/

namespace Sys2Proof.Machine

open Sys2Proof

/-! ## What a member knows -/

/-- The recv tensor's slot. -/
def recvSlot (o : Nat) : Nat := if o = 0xA0 ∨ o = 0xA1 ∨ o = 0xA2 ∨ o = 0xA3 then 1 else 0

def collId (d : Desc) : Nat := ops d 0x5C 4
def collRank (d : Desc) : Nat := ops d 0x5A 2
def collPeer (d : Desc) : Nat := ops d 0x62 2
def reduces (o : Nat) : Bool := o == 0xA0 || o == 0xA1

/-- The collective fields of this member's packets (12 R341). -/
def Env.collFields (e : Env) : CollFields :=
  let d := e.d
  let o := opcodeOf d
  let t := e.tensor (recvSlot o)
  { id := collId d, rank := collRank d, groupSize := ops d 0x58 2, opcode := o, redOp := ops d 0x60 1, flags := ops d 0x61 1,
    peer := collPeer d, count := t.count, format := t.fmt,
    crc := crc32 ((List.range (2 * ops d 0x58 2)).map (fun i => (e.v 4).byte (ops d 0x50 8 + i))) }

/-- The fields a READY from another rank must carry (06 R196): the two sides of a pair name each other, and their byte counts agree. -/
def Env.readyOk (e : Env) (f : CollFields) : Bool :=
  let own := e.collFields
  if own.opcode = 0xA5 then
    f.opcode == 0xA6 && f.peer == own.rank && f.rank == own.peer && f.groupSize == own.groupSize && f.crc == own.crc && f.flags == own.flags &&
    ceilDiv (f.count * fmtWidth f.format) 8 == ceilDiv (own.count * fmtWidth own.format) 8
  else
    f.opcode == own.opcode && f.groupSize == own.groupSize && f.redOp == own.redOp && f.flags == own.flags && f.peer == own.peer &&
    f.count == own.count && f.format == own.format && f.crc == own.crc

/-- The fields a REDC or CREDIT of a reduction must carry. -/
def Env.reductionOk (e : Env) (f : CollFields) : Bool :=
  let own := e.collFields
  f.opcode == own.opcode && f.groupSize == own.groupSize && f.redOp == own.redOp && f.flags == own.flags && f.peer == own.peer &&
  f.count == own.count && f.crc == own.crc

/-- Chunk `j` of `g` along the outermost dimension of a shape: first and past-the-last coordinate (06 R196; 12 R342). -/
def chunkOf (sizes : List Nat) (g j : Nat) : Nat × Nat :=
  let n := sizes.getLastD 1
  sliceAt n (ceilDiv n g) j

/-- Coordinates of a chunk, dimension 0 fastest. -/
def chunkCoords (sizes : List Nat) (r : Nat × Nat) : List (List Nat) :=
  let last := sizes.length - 1
  (allCoords (sizes.set last (r.2 - r.1))).map (fun c => c.set last (nth c last 0 + r.1))

/-! ## Contributions (06 R197, 12 R342) -/

/-- Format of contributions on the wire, to which each step is rounded (06 R197). -/
def Env.wireFmt (e : Env) : Nat := if bit (ops e.d 0x61 1) 0 then 0 else (e.tensor 0).fmt

/-- Codes in a format, packed (04 R96). -/
def packWire (fmt : Nat) (cs : List Nat) : List Byte :=
  toBytes (ceilDiv (cs.length * fmtWidth fmt) 8) (cs.foldr (fun c acc => c + acc * 2 ^ fmtWidth fmt) 0)

def unpackWire (fmt n : Nat) (bs : List Byte) : List Nat :=
  let v := ofBytes bs
  (List.range n).map (fun i => bits v (i * fmtWidth fmt) (fmtWidth fmt))

/-- Values at coordinates of the send tensor as they travel, rounded once to the wire format: their codes and, in an MX format, the scales
of their blocks after them (06 R197; log 102). -/
def Env.toWire (e : Env) (cs : List (List Nat)) (xs : List Num) : List Byte × AFlags :=
  let t := e.tensor 0
  let w := e.wireFmt
  if isMx w then
    let es : List (Nat × Nat × Num) := (cs.zip xs).mapIdx (fun i (x : List Nat × Num) => (i, t.scaleIndex x.1, x.2))
    let blocks := ((cs.map t.scaleIndex).eraseDups).map (fun k =>
      let mine := es.filter (fun x => x.2.1 == k)
      let (s, codes, f) := mxBlock w (mine.map (fun x => (RMode.rne, x.2.2)))
      ((s, (mine.map (fun (x : Nat × Nat × Num) => x.1)).zip codes, f) : Nat × List (Nat × Nat) × AFlags))
    (packWire w ((sortKeys (blocks.flatMap (fun b => b.2.1))).map (fun (x : Nat × Nat) => x.2)) ++ blocks.map (fun b => BitVec.ofNat 8 b.1), AFlags.all (blocks.map (fun b => b.2.2)))
  else
    let rs := xs.map (convertElem w .rne true)
    (packWire w (rs.map (·.1)), AFlags.all (rs.map (·.2)))

/-- Values that have travelled. -/
def Env.ofWire (e : Env) (cs : List (List Nat)) (bs : List Byte) : List Num :=
  let t := e.tensor 0
  let w := e.wireFmt
  let codes := unpackWire w cs.length bs
  if isMx w then
    let keys := (cs.map t.scaleIndex).eraseDups
    let scales := bs.drop (ceilDiv (cs.length * fmtWidth w) 8)
    (cs.zip codes).map (fun x => mxValue w x.2 (nth scales ((keys.findIdx? (· == t.scaleIndex x.1)).getD 0) 0).toNat)
  else codes.map (elemValue w)

/-- Coordinates of the chunk of rank `j` in the send tensor. -/
def Env.sendChunk (e : Env) (j : Nat) : List (List Nat) :=
  let t := e.tensor 0
  chunkCoords t.sizes (chunkOf t.sizes (ops e.d 0x58 2) j)

/-- This member's contribution to the chunk of rank `j`, as it travels. -/
def Env.contribution (e : Env) (j : Nat) : List Byte :=
  let cs := e.sendChunk j
  (e.toWire cs (cs.map ((e.tensor 0).value (e.v 0) 0))).1

/-- Combine contributions in ascending rank order, one rounding a step (06 R197). -/
def Env.combine (e : Env) (parts : List (List Byte)) : List Byte × AFlags :=
  let cs := e.sendChunk (collRank e.d)
  let step := fun (a b : Num) => match ops e.d 0x60 1 with
    | 0 => a.add b
    | 1 => Num.max a b
    | _ => Num.min a b
  match parts with
  | [] => ([], {})
  | x :: xs =>
    xs.foldl (fun (a : List Byte × AFlags) y =>
      let ys := e.ofWire cs y
      let (b, f) := e.toWire cs (((e.ofWire cs a.1).zip ys).map (fun p => step p.1 p.2))
      (b, AFlags.or a.2 (AFlags.or f (nanIn ys)))) (x, nanIn (e.ofWire cs x))

/-- The combined chunk as bytes of a recv tensor (this member's or a peer's): the rank's chunk for ALLREDUCE, all of it otherwise. It is
converted with RND and OVF when WIRE_FP32 is 1 or the recv format is another one (06 R197). -/
def Env.placeResult (e : Env) (t : Tensor) (res : List Byte) : List (Nat × List Byte) × AFlags :=
  let cs := if opcodeOf e.d = 0xA0 then chunkCoords t.sizes (chunkOf t.sizes (ops e.d 0x58 2) (collRank e.d)) else allCoords t.sizes
  let convert := bit (ops e.d 0x61 1) 0 || t.fmt != (e.tensor 0).fmt
  encodeOut t (if convert then e.mode 1 else fun _ => .rne) (!convert || ovfInf e.d)
    ((cs.zip (e.ofWire (e.sendChunk (collRank e.d)) res)).map (fun x => { delta := 0, loc := x.1, idx := linear t.sizes x.1, x := x.2 }))

/-! ## Data that moves unchanged (12 R343) -/

/-- Bytes that this member writes into the recv tensor `t` of rank `j` (`j` may be its own); every NaN is canonical (04 R97). -/
def Env.moveBytes (e : Env) (j : Nat) (t : Tensor) : List (Nat × List Byte) :=
  let s := e.tensor 0
  let g := ops e.d 0x58 2
  let r := collRank e.d
  let raw := fun (pairs : List (List Nat × List Nat)) =>
    packCodes t (pairs.map (fun p => (0, p.2, canonCode t.fmt (s.code (e.v 0) 0 p.1)))) ++
    (if isMx t.fmt ∧ isMx s.fmt then (pairs.map (fun (p : List Nat × List Nat) =>
      (t.scaleAddr + t.scaleIndex p.2, [(e.v 0).byte (s.scaleAddr + s.scaleIndex p.1)]))).eraseDups else [])
  match opcodeOf e.d with
  | 0xA2 => raw ((allCoords s.sizes).map (fun c => (c, c.set (s.ndim - 1) (nth c (s.ndim - 1) 0 + r * s.size (s.ndim - 1)))))
  | 0xA3 =>
    let from_ := chunkOf s.sizes g j
    let to_ := chunkOf t.sizes g r
    raw ((chunkCoords s.sizes from_).map (fun c => (c, c.set (s.ndim - 1) (nth c (s.ndim - 1) 0 - from_.1 + to_.1))))
  | _ =>
    if s.fmt = t.fmt then raw ((List.range (min s.count t.count)).map (fun i => (coords s.sizes i, coords t.sizes i)))
    else
      let bs := packWire s.fmt ((allCoords s.sizes).map (fun c => canonCode s.fmt (s.code (e.v 0) 0 c)))
      packCodes t ((allCoords t.sizes).zip (unpackWire t.fmt t.count bs) |>.map (fun x => (0, x.1, canonCode t.fmt x.2)))

/-- Byte ranges of this member's recv tensor that rank `j` writes. -/
def Env.expected (e : Env) (j : Nat) : List (Nat × Nat) :=
  let t := e.tensor (recvSlot (opcodeOf e.d))
  let g := ops e.d 0x58 2
  let cs := match opcodeOf e.d with
    | 0xA0 | 0xA3 => chunkCoords t.sizes (chunkOf t.sizes g j)
    | 0xA2 => let n := t.size (t.ndim - 1) / g; chunkCoords t.sizes (j * n, (j + 1) * n)
    | _ => allCoords t.sizes
  (t.ranges (cs.map (fun c => (0, c)))).flatMap (fun r => blocksOf r.1 (r.2 - r.1))

/-! ## Running a collective -/

/-- Send a packet of a collective: a request that the operation waits for. -/
def Mod.collSend (m : Mod) (q seq slot node ty : Nat) (a len : Nat) (p : Packet) : Mod :=
  let (m, n) := m.draw
  let key := slot + 8 * (3 + 4 * n)
  let m := m.modOp q seq (fun o => { o with open_ := o.open_ ++ [{ key := key, node := some node, addr := a, len := len, off := 0 }] })
  m.issue (opSrc q seq key) node { p with ty := BitVec.ofNat 8 ty } false

/-- Write bytes into a peer's recv tensor: BULKW for whole lines, WRM for a part of one. -/
def Mod.collWrite (m : Mod) (q seq node : Nat) (ws : List (Nat × List Byte)) : Mod :=
  let cut := ws.flatMap (fun (w : Nat × List Byte) => (remoteCut w.1 w.2.length).map (fun p => (p.1, (w.2.drop (p.1 - w.1)).take p.2)))
  cut.foldl (fun m (w : Nat × List Byte) =>
    let p := m.writePacket true node w.1 w.2 (m.hintFor q w.1)
    m.collSend q seq 0 node p.ty.toNat w.1 w.2.length p) m

/-- Forget what the fabric engine holds of a collective. -/
def Mod.collForget (m : Mod) (id : Nat) : Mod :=
  m.modFab (fun f => { f with readies := f.readies.filter (fun r => r.fields.id != id), contributions := f.contributions.filter (fun c => c.id != id),
                              credits := f.credits.filter (fun c => c.1 != id), early := f.early.filter (fun c => c.1.id != id) })

/-- Nodes whose packets came before this member's operation with fields other than its own (06 R196, 12 R341). -/
def Mod.earlyMismatch (m : Mod) (e : Env) : List Nat :=
  let id := collId e.d
  ((m.fab.readies.filter (fun r => r.fields.id == id && !e.readyOk r.fields)).map (·.node) ++
   (m.fab.early.filter (fun x => x.1.id == id && !e.reductionOk x.1)).map (·.2)).eraseDups

/-- Other ranks, in rank order. -/
def Coll.others (c : Coll) : List Nat := (List.range c.members.length).filter (· ≠ c.rank)

/-- Start: the group list gives this member's rank its own node ID; READYs go to every member that will write here, and each peer of a
reduction is granted 256 KiB of staging space (12 R341, R342). Packets that came before are compared now: they have been answered, so a
member whose fields differ gets a READY of this one's, in which it meets the disagreement (06 R196; DESIGN CHOICE, log 184). -/
def Mod.collStart (m : Mod) (q seq : Nat) : Mod :=
  match m.op? q seq with
  | none => m
  | some op =>
    let e := m.envOf q op
    let d := op.desc
    let o := opcodeOf d
    let g := ops d 0x58 2
    let r := collRank d
    let members := (List.range g).map (fun i => (e.v 4).num (ops d 0x50 8 + 2 * i) 2)
    if nth members r 0 ≠ m.node ∨ ((o = 0xA2 ∨ o = 0xA3) ∧ (e.tensor 0).fmt ≠ (e.tensor 1).fmt) then m.opFail q seq .protocol 0 0
    else
      let others := (List.range g).filter (· ≠ r)
      let peer := collPeer d
      let writers := match o with
        | 0xA0 | 0xA2 | 0xA3 => others
        | 0xA4 => if peer = r then [] else [peer]
        | 0xA6 => [peer]
        | _ => []
      let targets := match o with
        | 0xA0 | 0xA2 | 0xA3 => others
        | 0xA4 => if peer = r then others else []
        | 0xA5 => [peer]
        | _ => []
      let expect := writers.flatMap (fun j => (e.expected j).map (fun x => (nth members j 0, x.1, x.2)))
      let c : Coll := { members := members, rank := r, expect := expect, toSend := targets, sent := List.replicate g 0,
                        granted := List.replicate g (if reduces o then 0x40000 else 0), result := none }
      let src := o != 0xA6 && !(o == 0xA4 && peer != r)
      let nan := src && (e.tensor 0).all.any (fun c => ((e.tensor 0).value (e.v 0) 0 c.2).isNan)
      let m := m.modOp q seq (fun x => { x with coll := some c, computed := true, nan := nan, undef := x.undef || e.overlaps })
      let f := e.collFields
      let ready := fun (j : Nat) => { mkPacket 0 0x0A (nth members j 0) m.node 0 0 [] ((op.tensors.get? (recvSlot o)).getD []) with coll := some f }
      let m := writers.foldl (fun m j => m.collSend q seq (recvSlot o) (nth members j 0) 0x0A 0 64 (ready j)) m
      let m := if reduces o then
          others.foldl (fun m j => m.collSend q seq 0 (nth members j 0) 0x0A 0 0 { mkPacket 0 0x0A (nth members j 0) m.node 0 0 [] [] with coll := some f }) m
        else m
      match m.earlyMismatch e with
      | [] => m
      | bad =>
        let told := (writers.map (fun j => nth members j 0))
        let m := (bad.filter (fun n => !told.contains n)).foldl (fun m n => m.collSend q seq (recvSlot o) n 0x0A 0 64
          { mkPacket 0 0x0A n m.node 0 0 [] ((op.tensors.get? (recvSlot o)).getD []) with coll := some f }) m
        m.opFail q seq .protocol 0 0

/-- Send what the granted space allows of this member's contribution to rank `j`. -/
def Mod.collContribute (m : Mod) (q seq : Nat) (e : Env) (j : Nat) : Mod :=
  match (m.op? q seq).bind (·.coll) with
  | none => m
  | some c =>
    let bs := e.contribution j
    let space := ((m.fab.credits.filter (fun x => x.1 == collId e.d && x.2.1 == j)).map (·.2.2)).foldl (· + ·) 0
    let sent := nth c.sent j 0
    let n := min bs.length space - sent
    if n = 0 then m
    else
      let node := nth c.members j 0
      let m := m.modOp q seq (fun o => { o with coll := o.coll.map (fun c => { c with sent := modNth c.sent j (· + n) }) })
      (chunks 4096 ((bs.drop sent).take n)).foldl (fun m x =>
        m.collSend q seq 0 node 0x09 0 x.length { mkPacket 0 0x09 node m.node 0 0 [] x with coll := some e.collFields }) m

/-- Contribution received so far from a rank. -/
def Mod.received (m : Mod) (id rank : Nat) : List Byte :=
  ((m.fab.contributions.filter (fun c => c.id == id && c.rank == rank)).map (·.data)).flatten

/-- Combine this member's chunk once every peer's contribution is complete, and write it here; grant more space while they are not. -/
def Mod.collCombine (m : Mod) (q seq : Nat) (e : Env) : Mod :=
  match (m.op? q seq).bind (·.coll) with
  | none => m
  | some c =>
    if c.result.isSome ∨ !reduces (opcodeOf e.d) then m
    else
      let own := e.contribution c.rank
      let id := collId e.d
      if c.others.all (fun j => decide (own.length ≤ (m.received id j).length)) then
        let (res, f) := e.combine ((List.range c.members.length).map (fun j => if j = c.rank then own else (m.received id j).take own.length))
        let t := e.tensor 1
        let (ws, g) := e.placeResult t res
        let f := AFlags.or f g
        let m := m.modOp q seq (fun o => { o with
          nan := o.nan || f.nan, ovf := f.ovf, sat := f.sat, lost := f.lost,
          coll := o.coll.map (fun c => { c with result := some res }) })
        m.issueWrites q seq (ws.map (fun w => (1, none, w.1, w.2)))
      else
        let need := c.others.filter (fun j => decide (nth c.granted j 0 < own.length))
        if need.isEmpty ∨ !(c.others.all (fun j => decide (min own.length (nth c.granted j 0) ≤ (m.received id j).length))) then m
        else need.foldl (fun m j =>
          let node := nth c.members j 0
          let m := m.modOp q seq (fun o => { o with coll := o.coll.map (fun c => { c with granted := modNth c.granted j (· + 0x40000) }) })
          m.collSend q seq 0 node 0x0A 0 0 { mkPacket 0 0x0A node m.node 0 0 [] [] with coll := some e.collFields }) m

/-- Write into the recv tensor of rank `j` by the descriptor of its READY (12 R341), when it is here. -/
def Mod.collDeliver (m : Mod) (q seq : Nat) (e : Env) (j : Nat) : Mod × Bool :=
  match (m.op? q seq).bind (·.coll) with
  | none => (m, false)
  | some c =>
    let node := nth c.members j 0
    match m.fab.readies.find? (fun r => r.fields.id == collId e.d && r.node == node) with
    | none => (m, false)
    | some r =>
      if !e.readyOk r.fields then (m.opFail q seq .protocol 0 0, false)
      else
        let t := m.tensor 0 r.desc
        let m := m.modOp q seq (fun o => { o with coll := o.coll.map (fun c => { c with toSend := c.toSend.filter (· ≠ j) }) })
        match opcodeOf e.d, c.result with
        | 0xA0, some res => (m.collWrite q seq node (e.placeResult t res).1, true)
        | 0xA0, none => (m, false)
        | _, _ => (m.collWrite q seq node (e.moveBytes j t), true)

/-- Writes into the recv tensors of the ranks in turn; a broadcast stops at the first rank that is not ready (12 R343). -/
def Mod.collDeliverAll (m : Mod) (q seq : Nat) (e : Env) : List Nat → Mod
  | [] => m
  | j :: js =>
    match m.collDeliver q seq e j with
    | (m, true) => m.collDeliverAll q seq e js
    | (m, false) => if opcodeOf e.d = 0xA4 then m else m.collDeliverAll q seq e js

/-- Whatever a running collective can do now. -/
def Mod.collStep (m : Mod) (q seq : Nat) : Mod :=
  match m.op? q seq with
  | none => m
  | some op =>
    match op.coll with
    | none => m
    | some c =>
      if op.status ≠ .ok ∨ op.st ≠ .dispatched then m
      else
        let e := m.envOf q op
        let o := opcodeOf op.desc
        let m := if reduces o then c.others.foldl (fun m j => m.collContribute q seq e j) m else m
        let m := m.collCombine q seq e
        match (m.op? q seq).bind (·.coll) with
        | none => m
        | some c =>
          let m := if o = 0xA0 ∧ c.result.isNone then m else m.collDeliverAll q seq e c.toSend
          match m.op? q seq with
          | none => m
          | some op =>
            match op.coll with
            | none => m
            | some c =>
              let sentAll := !reduces o || c.others.all (fun j => decide ((e.contribution j).length ≤ nth c.sent j 0))
              if op.status = .ok ∧ c.expect = [] ∧ c.toSend = [] ∧ op.open_ = [] ∧ sentAll = true ∧ (!reduces o || c.result.isSome) = true then
                let m := if op.undef then m.scramble q op else m
                ((m.modOp q seq (fun x => { x with coll := none })).collForget (collId op.desc)).checkReported q seq
              else m

/-- Every collective of the module that runs. -/
def Mod.collAll (m : Mod) : Mod :=
  (List.range 4).foldl (fun m q => (m.ctx q).ops.foldl (fun m op => m.collStep q op.seq) m) m

/-- Bytes that a node has written in this module: what running collectives expect of it. -/
def Mod.collWritten (m : Mod) (node a n : Nat) : Mod :=
  (List.range 4).foldl (fun m q => m.modCtx q (fun c => { c with ops := c.ops.map (fun op =>
    { op with coll := op.coll.map (fun c => { c with
      expect := c.expect.filter (fun x => !(x.1 == node && decide (a ≤ x.2.1 ∧ x.2.1 + x.2.2 ≤ a + n))) }) }) })) m

/-- This member's running collective of an identifier: context, operation. -/
def Mod.collOf (m : Mod) (id : Nat) : Option (Nat × ROp) :=
  (List.range 4).findSome? (fun q => ((m.ctx q).ops.find? (fun op =>
    op.coll.isSome && op.status == .ok && collId op.desc == id)).map (fun op => (q, op)))

/-! ## ATOMIC (06 R199) -/

def atomOf (d : Desc) : AtomOp :=
  { fn := match ops d 0x70 1 with
      | 0 => .add
      | 1 => .swap
      | 2 => .cas
      | 3 => .set
      | _ => .clear,
    operand := BitVec.ofNat 64 (ops d 0x58 8), compare := BitVec.ofNat 64 (ops d 0x60 8) }

/-- The old value has arrived: it is written to RESULT_ADDR. -/
def Mod.atomicDone (m : Mod) (q seq : Nat) (old : List Byte) : Mod :=
  match m.op? q seq with
  | none => m
  | some op =>
    let r := ops op.desc 0x68 8
    let m := m.modOp q seq (fun o => { o with computed := true })
    let m := if op.undef then m.scramble q op else if r = 0 then m else m.issueWrites q seq [(4, none, r, old.take 8)]
    m.checkReported q seq

/-- Execute an ATOMIC operation at the home of ADDR. One whose ADDR lies in a bit-set or bit-clear alias window ends with ST_ACCESS, as one
at a register region does: the spec gives no outcome for it (06 R199, 01 R27; DESIGN CHOICE, log 185). -/
def Mod.atomicRun (m : Mod) (q seq : Nat) : Mod :=
  match m.op? q seq with
  | none => m
  | some op =>
    let d := op.desc
    let x := ops d 0x50 8
    let key := 4
    let p := fun (node : Option Nat) (a : Nat) => ({ key := key, node := node, addr := a, len := 8, off := 0 } : Piece)
    if op.open_.any (fun y => y.key == key) then m
    else match op.got.find? (fun g => g.1.key == key) with
    | some g => m.atomicDone q seq g.2
    | none =>
      match m.decodeAddr x with
      | .outside => m.opFail q seq .range 4 x
      | .remote n a =>
        let at_ := atomOf d
        let pk := mkPacket 0 0x05 n m.node 0 0
          (toBytes 8 a ++ toBytes 8 at_.operand.toNat ++ toBytes 8 (if at_.fn = .cas then at_.compare.toNat else 0) ++ [BitVec.ofNat 8 (ops d 0x70 1)]) []
        (m.modOp q seq (fun o => { o with open_ := o.open_ ++ [p (some n) a] })).issue (opSrc q seq key) n pk false
      | .here a =>
        if regionOf a = .special then m.opFail q seq .access 4 a
        else
          match m.memAtom (opSrc q seq key) (.atomic (Fin.ofNat 4 q)) a (atomOf d) with
          | (m, .done .ok old) => (m.modOp q seq (fun o => { o with got := o.got ++ [(p none a, old)] })).atomicDone q seq old
          | (m, .done st _) => m.opFail q seq st 4 (m.faultByte st none a 8)
          | (m, .waits) => m.modOp q seq (fun o => { o with open_ := o.open_ ++ [p none a] })

end Sys2Proof.Machine
end

