-- ==== Sys2Proof/Machine/DieLink.lean ====
section
/-! DEFINITION. Die-to-die links (14): frames and replay, training, width and spare maps, retrains, Slate. -/

namespace Sys2Proof.Machine

open Sys2Proof

/-! ## Bundles -/

def Mod.dportOf (m : Mod) (p : Nat) : DPort := nth m.dports p {}
def Mod.modDport (m : Mod) (p : Nat) (f : DPort → DPort) : Mod := { m with dports := modNth m.dports p f }
def Mod.bundleOf (m : Mod) (p b : Nat) : Bundle := nth (m.dportOf p).bundles b {}
def Mod.modBundle (m : Mod) (p b : Nat) (f : Bundle → Bundle) : Mod := m.modDport p (fun d => { d with bundles := modNth d.bundles b f })

/-- Bundles of a port (01 Table 01.1): 16, and 2 on MP. -/
def bundleCount (p : Nat) : Nat := if p = 16 then 2 else 16

/-- Width code of a direction: 0 FULL, 1 HALF_LOW, 2 HALF_HIGH, 3 DISABLED (14 Table 14.8). -/
def Mod.dirWidth (m : Mod) (p b : Nat) (rx : Bool) : Nat :=
  if rx then m.fld F.D2D_BUNDLE_RX_WIDTH p b else m.fld F.D2D_BUNDLE_TX_WIDTH p b

def Mod.setDirWidth (m : Mod) (p b : Nat) (rx : Bool) (w : Nat) : Mod :=
  if rx then m.setFld F.D2D_BUNDLE_RX_WIDTH w p b else m.setFld F.D2D_BUNDLE_TX_WIDTH w p b

def Bundle.dir (b : Bundle) (rx : Bool) : BundleDir := if rx then b.rx else b.tx
def Bundle.modDir (b : Bundle) (rx : Bool) (f : BundleDir → BundleDir) : Bundle := if rx then { b with rx := f b.rx } else { b with tx := f b.tx }

/-- Index of D2D_SPAREb_d (14 Table 14.7). -/
def spareReg (b : Nat) (rx : Bool) : Nat := 2 * b + b2n rx

/-- Half-bundle units of one direction of a port (14 Table 14.8). -/
def Mod.dirUnits (m : Mod) (p : Nat) (rx : Bool) : Nat :=
  ((List.range (bundleCount p)).map (fun b =>
    if (m.bundleOf p b).trained then (match m.dirWidth p b rx with
      | 0 => 2
      | 1 | 2 => 1
      | _ => 0) else 0)).foldl (· + ·) 0

def Mod.syncUnits (m : Mod) (p : Nat) : Mod :=
  (m.setFld F.D2D_STATUS_TX_UNITS (m.dirUnits p false) p).setFld F.D2D_STATUS_RX_UNITS (m.dirUnits p true) p

/-- The spare map of a direction: spare number and wire (14 Table 14.8). -/
def Mod.spareMap (m : Mod) (p b : Nat) (rx : Bool) : List (Nat × Nat) :=
  ((List.range 4).filter (fun s => m.fld F.D2D_SPARE_VALID p (spareReg b rx) s == 1)).map
    (fun s => (s, m.fld F.D2D_SPARE_TARGET p (spareReg b rx) s))

def Mod.setSpareMap (m : Mod) (p b : Nat) (rx : Bool) (mp : List (Nat × Nat)) : Mod :=
  (List.range 4).foldl (fun m s =>
    let t := mp.find? (fun e => e.1 == s)
    (m.setFld F.D2D_SPARE_VALID (b2n t.isSome) p (spareReg b rx) s).setFld F.D2D_SPARE_TARGET ((t.map (·.2)).getD 0) p (spareReg b rx) s) m

/-- Wires of a half (14 R392): data, parity and FRM. -/
def halfWires (high : Bool) : List Nat :=
  if high then (List.range 32).map (· + 32) ++ [68, 69, 70, 71, 72] else List.range 32 ++ [64, 65, 66, 67, 72]

/-- Width and spare map of a direction (14 R392): failed wires with those already spared, against the spares that pass. -/
def chooseWidth (failed : List Nat) (spares : List Nat) : Nat × List (Nat × Nat) :=
  let low := failed.filter ((halfWires false).contains ·)
  let high := failed.filter ((halfWires true).contains ·)
  if failed.length ≤ spares.length then (0, spares.zip failed)
  else if spares.length < min low.length high.length then (3, [])
  else if low.length ≤ high.length then (1, spares.zip low)
  else (2, spares.zip high)

/-- Events for a direction whose width or spare map changed (14 R490). -/
def Mod.widthEvents (m : Mod) (p b : Nat) (rx : Bool) (oldW : Nat) (oldMap : List (Nat × Nat)) : Mod :=
  let w := m.dirWidth p b rx
  let mp := m.spareMap p b rx
  let failed := m.fld F.D2D_SPARE_FAILED p (spareReg b rx)
  if w = oldW ∧ mp = oldMap then m
  else if w = 3 then m.raise 0x0A04 (d1 p ++ d1 b ++ d1 (b2n rx) ++ d1 (m.dirUnits p rx))
  else if w = 1 ∨ w = 2 then m.raise 0x0A03 (d1 p ++ d1 b ++ d1 (b2n rx) ++ d1 w ++ d1 failed)
  else (mp.filter (fun e => !oldMap.contains e)).foldl (fun m e =>
    m.raise 0x0A02 (d1 p ++ d1 b ++ d1 (b2n rx) ++ d1 e.1 ++ d1 e.2)) m

/-! ## Steps (14 Table 14.3) -/

/-- Steps 1 and 2 on a direction: CLOCK_BAD, and a failure that disables it. -/
def Mod.stepClock (m : Mod) (p : Nat) (t : DirTest) (clock : Bool) : Mod :=
  let b := t.bundle.val
  if clock then
    (m.setFld F.D2D_SPARE_CLOCK_BAD (b2n t.clockBad) p (spareReg b t.rx)).modBundle p b (fun x => x.modDir t.rx (fun d => { d with stepFailed := t.clockBad }))
  else m.modBundle p b (fun x => x.modDir t.rx (fun d => { d with stepFailed := d.stepFailed || t.deskewBad }))

/-- Step 3 on a direction: its failed wires. -/
def Mod.stepIct (m : Mod) (p : Nat) (t : DirTest) : Mod :=
  let b := t.bundle.val
  if ((m.bundleOf p b).dir t.rx).stepFailed then m
  else
    let ws := (List.range 77).filter (fun w => t.failed.any (fun x => x.val == w))
    let m := m.setFld F.D2D_SPARE_SPARE_BAD (maskOf ((ws.filter (73 ≤ ·)).map (· - 73))) p (spareReg b t.rx)
    let m := m.setFld F.D2D_SPARE_FAILED (ws.filter (· ≤ 72)).length p (spareReg b t.rx)
    m.modBundle p b (fun x => x.modDir t.rx (fun d => { d with ict := ws }))

/-- Step 4 on a direction: width and spare map (14 R392, R490). -/
def Mod.stepSpare (m : Mod) (p b : Nat) (rx : Bool) : Mod :=
  let d := (m.bundleOf p b).dir rx
  let oldW := m.dirWidth p b rx
  let oldMap := m.spareMap p b rx
  let m := m.modBundle p b (fun x => { x with trained := true })
  let m :=
    if d.stepFailed ∨ m.fld F.D2D_BUNDLE_EXCLUDE p b = 1 then m.setDirWidth p b rx 3
    else
      let spared := oldMap.map (·.2)
      let f := (List.range 73).filter (fun w => d.ict.contains w || spared.contains w)
      let sp := (List.range 4).filter (fun s => !d.ict.contains (73 + s))
      let (w, mp) := chooseWidth f sp
      if w = 3 then m.setDirWidth p b rx 3 else (m.setDirWidth p b rx w).setSpareMap p b rx mp
  m.widthEvents p b rx oldW oldMap

/-- The training result words of a bundle are new: their values are internal to the link (14 Table 14.8). -/
def Mod.newParams (m : Mod) (p b : Nat) : Mod :=
  let (m, d) := m.draw
  (List.range 16).foldl (fun m j => m.setFld F.D2D_TRAIN_PARAM_VALUE (Config.freeNat (d + j)) p (16 * b + j)) { m with fresh := m.fresh + 15 }

/-- A port with a bundle that is not DISABLED in each direction (14 R393). -/
def Mod.portWorks (m : Mod) (p : Nat) : Bool := decide (0 < m.dirUnits p false) && decide (0 < m.dirUnits p true)

/-- The bring-up of a port ends (14 R393, R397): ACTIVE or FAILED; leaving Slate raises 0x0A06. -/
def Mod.portTrained (m : Mod) (p : Nat) : Mod :=
  let m := m.syncUnits p
  let slate := m.fld F.D2D_STATUS_STATE p == 3
  if m.portWorks p then
    let m := m.setFld F.D2D_STATUS_STATE 2 p
    if slate then m.raise 0x0A06 (d1 p ++ d1 (m.dirUnits p false) ++ d1 (m.dirUnits p true)) else m
  else if slate then m else m.setFld F.D2D_STATUS_STATE 4 p

/-! ## Slate (14 R395, R396) -/

/-- The die's four tile cores, as agents. -/
def tileAgents (d : Nat) : List (Fin 65) := (List.range 4).map (fun j => Fin.ofNat 65 (4 * d + j))

/-- A core that sits on a die. -/
def onDie (port : Nat) (ag : Agent) : Bool :=
  match ag with
  | .tc d _ => d.val == port
  | .ac _ | .rt _ => port == 16
  | _ => false

/-- MP has entered Slate (15 R416, 14 R397): a requested reset of the management die, or its loss; the third loss within 10 minutes
stops the restarts. Its Ethernet link goes down, and what the management die held is gone, a
manager's joins, confirmations and session with it (DEDUCED, log 206). -/
def Mod.mgdLost (m : Mod) (cause : Nat) : Mod :=
  let m : Mod := { m with
    mgdHeld := true, link := false, rot := none, svcRun := none, svcq := [], fab := { m.fab with session := none, joins := [], confirming := [] } }
  if cause = 3 then
    let (m, b) := (m.recordCause 0x09).drawBytes 2
    m.raise 0x0C03 (b ++ d1 0xFF)
  else
    let (m, d) := m.draw
    let n := m.mgdLosses + 1
    let stop := decide (3 ≤ n) && Config.freeNat d % 2 == 1
    let m := ({ m with alert := m.alert ||| 0x20, mgdLosses := n, mgdStopped := m.mgdStopped || stop } : Mod)
    (m.recordCause 0x0E (if stop then 0xFF else 0)).raise 0x0B04 (d1 cause ++ dCount (n - 1))

/-- A port enters Slate (14 R396, Table 14.5; 11 Table 11.7; 03 R91): open requests to the die end with ST_FENCED, its SRAM contents are
lost, lines of its cores are poisoned with one record that names the first of them, their outstanding requests are absorbed, replay
buffers go. -/
def Mod.enterSlate (m : Mod) (p cause : Nat) : Mod :=
  if m.fld F.D2D_STATUS_STATE p = 3 then m
  else
    let m := (m.setFld F.D2D_STATUS_STATE 3 p).setFld F.D2D_STATUS_SLATE_CAUSE cause p
    let m := m.modDport p (fun d => { d with
      training := none,
      bundles := d.bundles.map (fun b => { b with discard := false, naksSent := 0, naksReceived := 0, lastAck := none, expect := 0 }) })
    let m := (List.range (bundleCount p)).foldl (fun m b => m.setFld F.D2D_BUNDLE_RETRAINING 0 p b) m
    let m := (m.setFld F.D2D_TRAIN_STATUS_BUSY 0 p).raise 0x0A05 (d1 p ++ d1 cause)
    let ws := if p < 16 then (m.sramOf p).ywait.filter (fun w => !onDie p w.ag) else []
    let m := if p < 16 then (m.modSram p (fun s => { s with ywait := [], march := none })).loseArray p else m
    let m := ws.foldl (fun m w => m.emit (.compl w.src .fenced [])) m
    let m : Mod := { m with uncached := m.uncached.filter (fun x => !onDie p x.ag) }
    let m : Mod := if p < 16 ∧ cause ≠ 3 then { m with lostDies := m.lostDies ||| 2 ^ p } else m
    let m := if p < 16 ∧ bit m.active p = true then
        { m with active := m.active - 2 ^ p,
                 ctxs := m.ctxs.mapIdx (fun q c => if (m.partition q).contains p then { c with lossDue := c.lossDue ++ [p] } else c) }
      else m
    let m := m.loseAgents (if p < 16 then tileAgents p else [Fin.ofNat 65 64]) false
    if p = 16 then m.mgdLost cause else m

/-! ## Retrains (14 R390, R394) -/

/-- A bundle retrains; cause as in event 0x0A01 (14 R390). -/
def Mod.bundleRetrain (m : Mod) (p b cause : Nat) : Mod :=
  if m.fld F.D2D_STATUS_STATE p ≠ 2 ∨ m.fld F.D2D_BUNDLE_RETRAINING p b = 1 ∨ bundleCount p ≤ b then m
  else
    let m := (m.setFld F.D2D_BUNDLE_RETRAINING 1 p b).satFld F.D2D_BUNDLE_RETRAINS 1 p b
    let m := m.modBundle p b (fun x => { x with naksSent := 0, naksReceived := 0, window := List.replicate 8 0 })
    m.raise 0x0A01 (d1 p ++ d1 b ++ d1 cause)

/-- Step 5 of a retrain is over (14 R391, R392, R394): the bundle carries traffic again, held frames are resent; a port without a
bundle in a direction enters Slate. -/
def Mod.retrainDone (m : Mod) (p : Nat) (ts : List DirTest) : Mod :=
  let bs := (List.range (bundleCount p)).filter (fun b => m.fld F.D2D_BUNDLE_RETRAINING p b == 1 && ts.any (fun t => t.bundle.val == b))
  let m := bs.foldl (fun m b =>
    let mine := ts.filter (fun t => t.bundle.val == b)
    let m := mine.foldl (fun m t => ((m.stepClock p t true).stepClock p t false).stepIct p t) m
    let m := [false, true].foldl (fun m rx => m.stepSpare p b rx) m
    let m := (m.newParams p b).setFld F.D2D_BUNDLE_RETRAINING 0 p b
    let m := m.modBundle p b (fun x => { x with discard := false })
    m.emit (.frameResend p b ((((m.bundleOf p b).lastAck.map (· + 1)).getD 0) % 256))) m
  let m := m.syncUnits p
  if bs.isEmpty ∨ m.portWorks p then m else m.enterSlate p 4

/-! ## Frames (14 R388, R389) -/

/-- A frame is rejected: counted, and answered with NAK; NAK_LIMIT in a row retrain the bundle. -/
def Mod.frameRejected (m : Mod) (p b : Nat) : Mod :=
  let m := (m.satFld F.D2D_BUNDLE_REPLAYS 1 p b).modBundle p b (fun x => { x with discard := true, naksSent := x.naksSent + 1 })
  let m := m.emit (.frameNak p b (m.bundleOf p b).expect)
  if m.fld F.D2D_CTL_NAK_LIMIT p ≤ (m.bundleOf p b).naksSent then m.bundleRetrain p b 1 else m

/-- Parity errors of the payload bytes, by byte lane (14 R390). -/
def Mod.laneErrors (m : Mod) (p b : Nat) (bad : List (Fin 8)) : Mod :=
  bad.foldl (fun m k =>
    let m := m.setFld F.D2D_LANE_ERR_LANE (satAdd 8 (m.fld F.D2D_LANE_ERR_LANE p b k.val) 1) p b k.val
    m.modBundle p b (fun x => { x with window := modNth x.window k.val (· + 1) })) m

/-- A frame arrives at the hub (14 R388, R389). -/
def Mod.frame (m : Mod) (p b : Nat) (f : Frame) : Mod :=
  if m.fld F.D2D_STATUS_STATE p ≠ 2 ∨ m.fld F.D2D_BUNDLE_RETRAINING p b = 1 ∨ m.dirWidth p b true = 3 ∨ bundleCount p ≤ b then m
  else
    let m := m.laneErrors p b f.badLanes
    let wordOk := f.crcGood && f.sync == 0xB8
    let m := if wordOk then
        let m := match f.ack with
          | some n => m.modBundle p b (fun x => { x with lastAck := some n.toNat, naksReceived := 0 })
          | none => m
        if f.cvc.val ≤ 5 then
          m.modDport p (fun d => { d with
            freed := modNth d.freed f.cvc.val (· + (f.total.val + 4096 - nth d.totals f.cvc.val 0) % 4096),
            totals := modNth d.totals f.cvc.val (fun _ => f.total.val) })
        else m
      else m
    let e := (m.bundleOf p b).expect
    if wordOk ∧ f.kind.val ≠ 1 then m
    else if (m.bundleOf p b).discard ∧ f.seq.toNat ≠ e then m
    else if wordOk ∧ f.badLanes.isEmpty ∧ f.seq.toNat = e then
      m.modBundle p b (fun x => { x with expect := (e + 1) % 256, discard := false, naksSent := 0 })
    else m.frameRejected p b

/-- A NAK in a frame word: the transmitter resends from the named frame (14 R389, R390). -/
def Mod.frameNakIn (m : Mod) (p b n : Nat) : Mod :=
  if m.fld F.D2D_STATUS_STATE p ≠ 2 ∨ m.fld F.D2D_BUNDLE_RETRAINING p b = 1 ∨ bundleCount p ≤ b then m
  else
    let m := (m.satFld F.D2D_BUNDLE_REPLAYS 1 p b).modBundle p b (fun x => { x with naksReceived := x.naksReceived + 1, lastAck := some ((n + 255) % 256) })
    let m := m.emit (.frameResend p b n)
    if m.fld F.D2D_CTL_NAK_LIMIT p ≤ (m.bundleOf p b).naksReceived then m.bundleRetrain p b 1 else m

/-- A 1 ms window ends (14 R390). -/
def Mod.laneWindow (m : Mod) (p : Nat) : Mod :=
  let hit := (List.range (bundleCount p)).filter (fun b => (m.bundleOf p b).window.any (fun n => m.fld F.D2D_CTL_LANE_LIMIT p ≤ n))
  let m := m.modDport p (fun d => { d with bundles := d.bundles.map (fun b => { b with window := List.replicate 8 0 }) })
  hit.foldl (fun m b => m.bundleRetrain p b 2) m

/-- Loss of the forwarded clock or of frame on RX bundles (14 R395): all of them is Slate, some of them retrain. -/
def Mod.clockLoss (m : Mod) (p mask : Nat) (frame : Bool) : Mod :=
  let live := (List.range (bundleCount p)).filter (fun b => (m.bundleOf p b).trained && m.dirWidth p b true != 3)
  let hit := live.filter (bit mask)
  if m.fld F.D2D_STATUS_STATE p ≠ 2 ∨ hit.isEmpty then m
  else if hit = live then m.enterSlate p (if frame then 2 else 1)
  else hit.foldl (fun m b => m.bundleRetrain p b 3) m

/-! ## Training commands -/

/-- A write of D2D_TRAIN_CMD (14 Table 14.8): RESULT takes its status. -/
def Mod.d2dTrain (m : Mod) (p op mask : Nat) : Mod × Status :=
  let st := m.fld F.D2D_STATUS_STATE p
  let res : Status :=
    if 2 ^ bundleCount p ≤ mask then .access
    else if (m.dportOf p).training.isSome ∨ st = 1 ∨ st = 2 then .busy
    else if m.fld F.D2D_CTL_ENABLE p = 0 then .access
    else .ok
  let m := m.setFld F.D2D_TRAIN_STATUS_RESULT res.toNat p
  if res ≠ .ok ∨ op = 0 then (m, res)
  else
    let m := (m.modDport p (fun d => { d with training := some (op, mask) })).setFld F.D2D_TRAIN_STATUS_BUSY 1 p
    (if st = 3 then m else m.setFld F.D2D_STATUS_STATE 1 p, .ok)

/-- A training step ends (14 Table 14.3, R391-R393). -/
def Mod.trainStepDone (m : Mod) (p : Nat) (ts : List DirTest) : Mod :=
  match (m.dportOf p).training with
  | none => m
  | some (op, mask) =>
    let m := (m.modDport p (fun d => { d with training := none })).setFld F.D2D_TRAIN_STATUS_BUSY 0 p
    let bs := bitsOf (bundleCount p) mask
    let mine := ts.filter (fun t => bs.contains t.bundle.val)
    let run := fun (k : Nat) => op == k || op == 7
    let m := if run 1 then (mine.foldl (fun m t => m.stepClock p t true) m) else m
    let m := if run 2 then bs.foldl (fun m b => m.newParams p b) (mine.foldl (fun m t => m.stepClock p t false) m) else m
    let m := if run 1 ∨ run 2 then
        mine.foldl (fun m t => if ((m.bundleOf p t.bundle.val).dir t.rx).stepFailed then m.setDirWidth p t.bundle.val t.rx 3 else m) m else m
    let m := if run 3 then mine.foldl (fun m t => m.stepIct p t) m else m
    let m := if run 4 then bs.foldl (fun m b => [false, true].foldl (fun m rx => m.stepSpare p b rx) m) m else m
    let bad := bs.filter (fun b => m.dirWidth p b false == 3 || m.dirWidth p b true == 3)
    let m := (m.setFld F.D2D_TRAIN_STATUS_FAIL (maskOf bad) p).setFld F.D2D_TRAIN_STATUS_PASS (maskOf (bs.filter (fun b => !bad.contains b))) p
    if run 5 then
      let m := if m.fld F.D2D_STATUS_STATE p = 3 then m else m.setFld F.D2D_STATUS_STATE 1 p
      m.portTrained p
    else if m.fld F.D2D_STATUS_STATE p = 1 then m.setFld F.D2D_STATUS_STATE 0 p else m

/-- A write of D2D_BUNDLEb (14 R399, Table 14.8): EXCLUDE, the counts, then RETRAIN. `old`, `v`: register before and as merged. -/
def Mod.bundleWrite (m : Mod) (p b v : Nat) : Mod × Status :=
  let training := m.fld F.D2D_BUNDLE_RETRAINING p b == 1 || (match (m.dportOf p).training with
    | some (_, mask) => bit mask b
    | none => false)
  if training ∧ bits v 5 1 ≠ m.fld F.D2D_BUNDLE_EXCLUDE p b then (m, .busy)
  else
    let m := ((m.setFld F.D2D_BUNDLE_EXCLUDE (bits v 5 1) p b).setFld F.D2D_BUNDLE_RETRAINS (bits v 16 16) p b).setFld F.D2D_BUNDLE_REPLAYS (bits v 32 32) p b
    (if bit v 6 then m.bundleRetrain p b 4 else m, .ok)

end Sys2Proof.Machine
end

