-- ==== Sys2Proof/Machine/Sequencer.lean ====
section
/-! DEFINITION. Sequencer contexts: fetch, control flow, flags, staging, dispatch, retirement, completion records, aborts, traps, replay
and the loss of a die (05; 07). -/

namespace Sys2Proof.Machine

open Sys2Proof

/-! ## Flags (05 R142, R156, R157) -/

def Mod.flag (m : Mod) (i : Nat) : Nat := m.fld F.HUB_FLAG_VALUE 0 i

/-- The wait of a descriptor passes now (05 R142). -/
def Mod.waitHolds (m : Mod) (d : Desc) : Bool := decide ((m.flag (waitFlagOf d) + 2 ^ 32 - waitValue d) % 2 ^ 32 < 2 ^ 31)

/-- Every wait that holds passes, whichever contexts hold them (05 R157). -/
def Mod.passWaits (m : Mod) : Mod :=
  { m with ctxs := m.ctxs.map (fun c => { c with ops := c.ops.map (fun o =>
      if o.st = .fetched ∧ waitBefore o.desc = true ∧ m.waitHolds o.desc = true then { o with waitPassed := true } else o) }) }

def Mod.setFlag (m : Mod) (i v : Nat) : Mod := (m.setFld F.HUB_FLAG_VALUE v 0 i).passWaits
def Mod.addFlag (m : Mod) (i v : Nat) : Mod := m.setFlag i (m.flag i + v)

/-! ## Context state (05 Table 05.15) -/

/-- 01 R28: the partition does not exist in the layout, or its active die mask holds no die. -/
def Mod.ctxDisabled (m : Mod) (q : Nat) : Bool :=
  (m.logical q).isEmpty || (m.partition q).any (fun d => bit m.active d && bit m.heldDies d)

/-- The oldest operation waits on a flag. -/
def Ctx.waiting (c : Ctx) : Bool :=
  match c.ops with
  | o :: _ => o.st == .fetched && waitBefore o.desc && !o.waitPassed
  | [] => false

/-- SQ_STATUS.STATE. -/
def Mod.ctxState (m : Mod) (q : Nat) : Nat :=
  let c := m.ctx q
  if c.aborting then 6
  else if c.trapped then 5
  else if m.ctxDisabled q || m.fld F.SQ_CTL_ENABLE q == 0 then 0
  else if c.halted then 4
  else if c.waiting then 3
  else if c.ops.all (fun o => o.status == .aborted) && c.inFetch.isNone && c.stack.isEmpty && c.trapAt.isNone && m.fld F.SQ_RING_HEAD_HEAD q == m.fld F.SQ_RING_TAIL_TAIL q then 1
  else 2

/-- A record needs a free slot of the completion ring (05 R158). -/
def Mod.cplFree (m : Mod) (q : Nat) : Bool :=
  decide ((m.fld F.SQ_CPL_TAIL_TAIL q + 2 ^ 32 - m.fld F.SQ_CPL_HEAD_HEAD q) % 2 ^ 32 < 2 ^ m.fld F.SQ_CPL_BASE_LOG2_SLOTS q)

/-- The operation writes a completion record (07 R206). -/
def ROp.needsRecord (o : ROp) : Bool := o.status != .ok || !noRecord o.desc

/-- The operation can complete but for its record: retired, or failed and drained. -/
def ROp.ready (o : ROp) : Bool := !o.recWait && (o.st == .retired || (o.st == .failed && o.open_.isEmpty))

/-- SQ_STATUS.CPL_FULL. -/
def Mod.cplFull (m : Mod) (q : Nat) : Bool :=
  match (m.ctx q).ops with
  | o :: _ => o.ready && o.needsRecord && !m.cplFree q
  | [] => false

/-- SQ_STATUS as a read returns it. -/
def Mod.sqStatus (m : Mod) (q : Nat) : Nat :=
  let c := m.ctx q
  m.ctxState q + min c.ops.length 4 * 8 + b2n (!c.stack.isEmpty) * 64 + c.stack.length * 128 + b2n (m.cplFull q) * 2048

def Mod.setPc (m : Mod) (q pc : Nat) : Mod := (m.modCtx q (fun c => { c with pc := pc })).setFld F.SQ_PC_ADDR pc q

def Mod.clearLoops (m : Mod) (q : Nat) : Mod := (List.range 4).foldl (fun m k => m.setFld F.SQ_LOOP_COUNT 0 q k) m

/-! ## Rings -/

/-- A ring lies wholly in local LPDDR or the hub buffer, aligned to its size (05 R126, Table 05.18). -/
def ringOk (base size : Nat) : Bool := base % size == 0 && memPopulated base size &&
  ((lpddrAt base).isSome || (match sramAt base with
    | some (r, _) => r == 16
    | none => false))

/-- 05 R128. -/
def Mod.ringTail (m : Mod) (q v : Nat) : Mod × Status :=
  let lg := m.fld F.SQ_RING_BASE_LOG2_SLOTS q
  let tail := v % 2 ^ 32
  if m.ctxDisabled q || (m.ctx q).dieLost || lg == 0 || m.fld F.SQ_CPL_BASE_LOG2_SLOTS q == 0 ||
      decide (2 ^ lg < (tail + 2 ^ 32 - m.fld F.SQ_RING_HEAD_HEAD q) % 2 ^ 32) then (m, .access)
  else (m.setFld F.SQ_RING_TAIL_TAIL tail q, .ok)

/-- Refusals shared by SQ_RING_BASE and SQ_CPL_BASE (05 Tables 05.16, 05.18). -/
def Mod.baseCheck (m : Mod) (q base lg slot lo hi : Nat) : Status :=
  if lg ≠ 0 ∧ (lg < lo ∨ hi < lg ∨ ringOk base (slot * 2 ^ lg) = false) then .access
  else if (m.ctx q).ops ≠ [] ∨ m.fld F.SQ_RING_HEAD_HEAD q ≠ m.fld F.SQ_RING_TAIL_TAIL q then .busy
  else .ok

/-- A write of SQ_RING_BASE (05 R126). LOG2_SLOTS is the 4-bit field of Table 05.16: the 16 that R126 also gives does not fit in it, so 15 is
the largest size a write can set (DESIGN CHOICE, log 186; the same of SQ_CPL_BASE, R158). -/
def Mod.ringBase (m : Mod) (q v : Nat) : Mod × Status :=
  let lg := bits v 48 4
  match m.baseCheck q (bits v 7 41 * 128) lg 128 6 16 with
  | .ok =>
    let m := (m.setFld F.SQ_RING_BASE_ADDR (bits v 7 41) q).setFld F.SQ_RING_BASE_LOG2_SLOTS lg q
    ((m.setFld F.SQ_RING_HEAD_HEAD 0 q).setFld F.SQ_RING_TAIL_TAIL 0 q, .ok)
  | st => (m, st)

def Mod.cplBase (m : Mod) (q v : Nat) : Mod × Status :=
  let lg := bits v 48 4
  match m.baseCheck q (bits v 5 43 * 32) lg 32 4 16 with
  | .ok =>
    let m := (m.setFld F.SQ_CPL_BASE_ADDR (bits v 5 43) q).setFld F.SQ_CPL_BASE_LOG2_SLOTS lg q
    ((m.setFld F.SQ_CPL_TAIL_TAIL 0 q).setFld F.SQ_CPL_HEAD_HEAD 0 q, .ok)
  | st => (m, st)

def Mod.cplHead (m : Mod) (q v : Nat) : Mod × Status :=
  let head := v % 2 ^ 32
  if 2 ^ m.fld F.SQ_CPL_BASE_LOG2_SLOTS q < (m.fld F.SQ_CPL_TAIL_TAIL q + 2 ^ 32 - head) % 2 ^ 32 then (m, .access)
  else (m.setFld F.SQ_CPL_HEAD_HEAD head q, .ok)

/-! ## Fetch (05 R127-R135) -/

/-- Where a fetched address may lie (05 R132, Table 05.1); the local address. The rows of 01 Table 01.6 with no content from
0x7100_1000_0000 to 0x7EFF_FFFF_FFFF lie in what 01 R27 calls the register regions, and end with ST_ACCESS; what lies from 0x8000_0000_0000
is in no region, and ends with ST_RANGE (DESIGN CHOICE, log 187). -/
def Mod.fetchPlace (m : Mod) (a align : Nat) : Except Status Nat :=
  if a % align ≠ 0 then .error .access
  else match m.decodeAddr a with
    | .remote _ _ => .error .access
    | .outside => .error .range
    | .here l =>
      match regionOf l with
      | .lpddr | .hub => if memPopulated l align then .ok l else .error .range
      | .none => .error .range
      | _ => if regionOf l = .special ∨ memPopulated l 1 = true then .error .access else .error .range

/-- Read a descriptor with coherent reads (05 R129, R132). -/
def Mod.fetchRead (m : Mod) (q seq key a n align : Nat) : Mod × Reply :=
  match m.fetchPlace a align with
  | .error st => (m, .done st [])
  | .ok l => m.memAccess (opSrc q seq key) (.sqFetch (Fin.ofNat 4 q)) l (.read n)

/-- Key of the read of the fetch in flight. -/
def Ctx.fetchKey (c : Ctx) : Nat := 5 + 8 * (8 + c.fetches)

/-- The fetch in flight is discarded; its read, when it waits, drains (07 R208, R209). -/
def Ctx.dropFetch (c : Ctx) : Ctx :=
  { c with inFetch := none, fetchWait := false,
           staleFetches := if c.inFetch.isSome && c.fetchWait then c.staleFetches ++ [c.fetches] else c.staleFetches }

/-- The fetch unit may read the next descriptor (05 R127, R128, R133-R135). -/
def Mod.fetchOk (m : Mod) (q : Nat) : Bool :=
  let c := m.ctx q
  m.fld F.SQ_CTL_ENABLE q == 1 && !m.ctxDisabled q && m.state != .parked && !c.stopped && !c.halted && !c.trapped && !c.aborting &&
  !c.paused && c.inFetch.isNone && c.trapAt.isNone && decide (c.ops.length < 4) && m.fld F.SQ_RING_BASE_LOG2_SLOTS q != 0 &&
  (!c.stack.isEmpty || m.fld F.SQ_RING_HEAD_HEAD q != m.fld F.SQ_RING_TAIL_TAIL q)

/-- Address of the next descriptor, and whether it is a ring slot. -/
def Mod.nextFetch (m : Mod) (q : Nat) : Nat × Bool :=
  if (m.ctx q).stack.isEmpty then
    (m.fld F.SQ_RING_BASE_ADDR q * 128 + 128 * (m.fld F.SQ_RING_HEAD_HEAD q % 2 ^ m.fld F.SQ_RING_BASE_LOG2_SLOTS q), true)
  else ((m.ctx q).pc, false)

def Mod.fetchStart (m : Mod) (q : Nat) : Mod :=
  if m.fetchOk q then m.modCtx q (fun c => { c with inFetch := some (m.nextFetch q), fetchWait := false, fetches := c.fetches + 1 }) else m

/-- A TARGET inside the context's own submission ring (05 R153). -/
def Mod.inOwnRing (m : Mod) (q target : Nat) : Bool :=
  let base := m.fld F.SQ_RING_BASE_ADDR q * 128
  match m.decodeAddr target with
  | .here a => decide (base ≤ a ∧ a < base + 128 * 2 ^ m.fld F.SQ_RING_BASE_LOG2_SLOTS q)
  | _ => false

/-- The fetch-time checks of a control operation (05 R130, R153, R154, Table 05.6); a ninth level of CALL is one of them. -/
def Mod.controlOk (m : Mod) (q : Nat) (d : Desc) (ring : Bool) : Bool :=
  let o := opcodeOf d
  let w := waitBefore d
  let s := signalAfter d
  let target := !m.inOwnRing q (ops d 0x50 8)
  foldOf d == 0 && !idempotent d && !backedInput d && deadlineClass d == 0 && rndOf d == 0 && !ovfInf d && tvalid d == 0 &&
  (match o with
   | 0x00 => !w && !s
   | 0x01 => !w && !s && !ring && target
   | 0x02 => !w && !s && !ring && target && decide (ops d 0x58 2 ≤ 1023) && decide (ops d 0x5A 1 ≤ 3)
   | 0x03 => !w && !s && !ring && target && decide (ops d 0x58 1 ≤ 3) && ops d 0x5C 4 != 0
   | 0x04 => !w && !s && target && decide ((m.ctx q).stack.length < 8)
   | 0x05 => !w && !s && !ring
   | 0x08 => w && !s
   | 0x09 => s && !w
   | _ => true)

/-- A LOOP is resolved at fetch (05 R154); where fetch goes next. -/
def Mod.loopNext (m : Mod) (q : Nat) (d : Desc) (a : Nat) : Mod × Nat :=
  let k := ops d 0x58 1
  let c := m.fld F.SQ_LOOP_COUNT q k
  let c := (if c = 0 then ops d 0x5C 4 else c) - 1
  (m.setFld F.SQ_LOOP_COUNT c q k, if c ≠ 0 then ops d 0x50 8 else a + 128)

/-- A fetch-resolved operation acts (05 R134, Table 05.10). -/
def Mod.resolve (m : Mod) (q : Nat) (d : Desc) (a : Nat) (ring : Bool) : Mod :=
  match opcodeOf d with
  | 0x01 => m.setPc q (ops d 0x50 8)
  | 0x03 => let (m, pc) := m.loopNext q d a; m.setPc q pc
  | 0x04 => (m.modCtx q (fun c => { c with stack := (if ring then none else some (a + 128)) :: c.stack })).setPc q (ops d 0x50 8)
  | 0x05 =>
    match (m.ctx q).stack with
    | some r :: rest => (m.modCtx q (fun c => { c with stack := rest })).setPc q r
    | _ => m.modCtx q (fun c => { c with stack := [] })
  | _ => if ring then m else m.setPc q (a + 128)

/-- Put an operation into a resident slot with the next sequence number (07 Table 07.1, Table 07.8). -/
def Mod.admitOp (m : Mod) (q : Nat) (op : ROp) : Mod :=
  (m.modCtx q (fun c => { c with ops := c.ops ++ [{ op with seq := m.fld F.SQ_SEQ_NEXT q }] })).addFld F.SQ_SEQ_NEXT 1 q

/-- A descriptor arrives, or its read fails (05 R133, R134; 07 R202). -/
def Mod.finishFetch (m : Mod) (q : Nat) (st : Status) (d : Desc) : Mod :=
  match (m.ctx q).inFetch with
  | none => m
  | some (a, ring) =>
    let m := m.modCtx q (fun c => { c with inFetch := none, fetchWait := false })
    if ring ∧ m.fld F.SQ_RING_HEAD_HEAD q = m.fld F.SQ_RING_TAIL_TAIL q then m
    else if st ≠ .ok then
      (m.admitOp q { seq := 0, addr := a, ring := ring, desc := [], st := .failed, status := st, detail := if st = .dataLost then 6 else 5,
                     faultAddr := a, trapAlways := true }).modCtx q (fun c => { c with stopped := true })
    else
      let m := if ring then m.addFld F.SQ_RING_HEAD_HEAD 1 q else m
      let o := opcodeOf d
      let ok := opcodes.contains o && (!isControl o || m.controlOk q d ring)
      if fetchResolved o then
        if ok then m.resolve q d a ring
        else m.modCtx q (fun c => { c with trapAt := some (.protocol, o, a, ring), stopped := true })
      else if !ok then
        (m.admitOp q { seq := 0, addr := a, ring := ring, desc := d, st := .failed, status := .protocol, trapAlways := true }).modCtx q
          (fun c => { c with stopped := true })
      else
        let m := m.admitOp q { seq := 0, addr := a, ring := ring, desc := d, waitPassed := waitBefore d && m.waitHolds d }
        let m := if ring then m else m.setPc q (a + 128)
        if o = 0x02 ∨ o = 0x06 ∨ o = 0x0A then m.modCtx q (fun c => { c with paused := true }) else m

/-- The read of the descriptor in flight is made; while its line or package is not free it waits. -/
def Mod.fetchComplete (m : Mod) (q : Nat) : Mod :=
  match (m.ctx q).inFetch with
  | none => m
  | some (a, _) =>
    if (m.ctx q).fetchWait then m
    else match m.fetchRead q (m.fld F.SQ_SEQ_NEXT q) (m.ctx q).fetchKey a 128 128 with
      | (m, .waits) => m.modCtx q (fun c => { c with fetchWait := true })
      | (m, .done st d) => m.finishFetch q st d

/-- The descriptor in flight arrives when it has this opcode. -/
def Mod.fetchOpcode (m : Mod) (q opcode : Nat) : Mod :=
  match (m.ctx q).inFetch with
  | none => m
  | some (a, _) =>
    if (m.ctx q).fetchWait then m
    else match m.fetchRead q (m.fld F.SQ_SEQ_NEXT q) (m.ctx q).fetchKey a 128 128 with
      | (m', .done .ok d) => if opcodeOf d = opcode then m'.finishFetch q .ok d else m
      | _ => m

/-! ## Range comparison (07 R204) -/

/-- A byte range: the node, the die of an SRAM range (none: no SRAM; some none: every die), lowest and highest byte. -/
structure ByteRange where
  node : Option Nat
  die : Option (Option Nat)
  lo : Int
  hi : Int
  deriving DecidableEq, Repr

/-- Bytes lo to hi; those of tile-relative tensors are offsets within the SRAM window of every die. -/
def rangeOf (node : Option Nat) (tileRel : Bool) (lo hi : Int) : ByteRange :=
  match regionOf lo with
  | .sram n =>
    let b : Int := (0x400100000000 + n * 0x40000000 : Nat)
    { node := node, die := some (if tileRel then none else some n), lo := lo - b, hi := hi - b }
  | _ => { node := node, die := none, lo := lo, hi := hi }

/-- `n` bytes of an OPS address field. -/
def fieldRange (a n : Nat) : List ByteRange := if a = 0 ∨ n = 0 then [] else [rangeOf none false a ((a : Int) + (n : Int) - 1)]

def Tensor.byteRange (t : Tensor) : ByteRange := rangeOf t.node t.tileRel t.span.1 t.span.2

/-- A tensor's elements, and its block scales. -/
def Tensor.byteRanges (t : Tensor) : List ByteRange :=
  t.byteRange :: (if isMx t.fmt then [rangeOf t.node t.tileRel t.scaleAddr ((t.scaleAddr : Int) + (t.scaleCount : Int) - 1)] else [])

def ByteRange.meets (a b : ByteRange) : Bool :=
  a.node == b.node && decide (a.lo ≤ b.hi) && decide (b.lo ≤ a.hi) &&
  (match a.die, b.die with
   | none, none => true
   | some (some x), some (some y) => x == y
   | some _, some _ => true
   | _, _ => false)

/-- Ranges that OPS fields name (06 Tables 06.6, 06.14, 06.15): what they say is written, or also what is read. -/
def Mod.fieldRanges (m : Mod) (op : ROp) (outs : Bool) : List ByteRange :=
  let d := op.desc
  let o := opcodeOf d
  let lse := match op.tensors.get? 0 with
    | some b => let t := m.tensor 0 b; 4 * (t.size 1 * t.size 2 * t.size 3)
    | none => 0
  let batch := match op.tensors.get? 0 with
    | some b => (m.tensor 0 b).size 3
    | none => 0
  if o = 0x30 then fieldRange (ops d 0x68 8) lse
  else if o = 0x31 then
    fieldRange (ops d 0x70 8) lse ++
      (if outs then [] else fieldRange (ops d 0x60 8) (4 * batch * ops d 0x7C 4) ++ fieldRange (ops d 0x68 8) (4 * batch))
  else if o = 0xB0 then
    fieldRange (ops d 0x68 8) 8 ++ (match m.decodeAddr (ops d 0x50 8) with
      | .here a => [rangeOf none false a ((a : Int) + 7)]
      | .remote n a => [rangeOf (some n) false a ((a : Int) + 7)]
      | .outside => [])
  else if isCollective o && !outs then fieldRange (ops d 0x50 8) (2 * ops d 0x58 2)
  else []

/-- Ranges of an operation: of its outputs, or of all it reads and writes. -/
def Mod.opRanges (m : Mod) (op : ROp) (outs : Bool) : List ByteRange :=
  (op.tensors.filter (fun x => !outs || (outSlots op.desc).contains x.1)).flatMap (fun x => (m.tensor x.1 x.2).byteRanges) ++ m.fieldRanges op outs

/-- Operations before `seq` in program order. -/
def Ctx.before (c : Ctx) (seq : Nat) : List ROp := c.ops.takeWhile (fun o => o.seq != seq)

/-- An earlier operation that has not retired writes a range that meets one of these. -/
def Mod.clash (m : Mod) (q seq : Nat) (rs : List ByteRange) : Bool :=
  ((m.ctx q).before seq).any (fun o => o.st != .retired && (m.opRanges o true).any (fun x => rs.any x.meets))

/-- A FENCE that has not completed stands before the operation (05 R136). -/
def Mod.fencedOff (m : Mod) (q seq : Nat) : Bool := ((m.ctx q).before seq).any (fun o => opcodeOf o.desc == 0x07)

/-! ## Execution -/

/-- The operation's inputs are here: it computes (06). -/
def Mod.opCompute (m : Mod) (q seq : Nat) : Mod :=
  match m.op? q seq with
  | none => m
  | some op =>
    let e := m.envOf q op
    let o := opcodeOf op.desc
    let node := fun (s : Nat) => (e.t s).bind (·.node)
    if isCollective o then (m.collStart q seq).collStep q seq
    else if o = 0x82 ∧ (node 2).isSome then
      match e.badIndex e.lay (e.tensor 2) with
      | some a => m.opFail q seq .range 1 a
      | none => ((m.remoteAdds q seq e).takeResult q seq { dies := e.lay.dies, flags := nanIn ((e.laid 0).map (fun x => (e.tensor 0).value (e.v 0) x.1 x.2)) } node)
    else
      let m := if o = 0x82 then { m with fresh := m.fresh + rowCount e.lay } else m
      m.takeResult q seq e.result node

/-- Earlier operations that have not retired and that touch the destination of a PREFETCH (06 R194). -/
def Mod.prefetchMeets (m : Mod) (q : Nat) (op : ROp) : List ROp :=
  match op.tensors.get? 1 with
  | none => []
  | some b =>
    let dst := m.tensor 1 b
    ((m.ctx q).before op.seq).filter (fun o => o.st != .retired && o.status == .ok &&
      (o.tensors.any (fun x => touches (m.logical q) (m.tensor x.1 x.2) dst) || (m.fieldRanges o false).any dst.byteRange.meets))

/-- A PREFETCH starts: when an earlier operation touches its destination the results of both are undefined (06 R194). -/
def Mod.prefetchStarts (m : Mod) (q : Nat) (op : ROp) : Mod :=
  let met := m.prefetchMeets q op
  if met.isEmpty then m
  else
    let hit := fun (o : ROp) => o.seq == op.seq || met.any (fun x => x.seq == o.seq)
    (met.filter (·.computed)).foldl (fun m o => m.scramble q o)
      (m.modCtx q (fun c => { c with ops := c.ops.map (fun o => if hit o then { o with undef := true } else o) }))

/-- A die's repair mapping is not applied: the fragment sent to it is held (03 R66). -/
def Mod.fragmentHeld (m : Mod) (q : Nat) (op : ROp) : Bool := (m.envOf q op).fragmentDies.any (fun d => m.fld F.ECD_REPAIR_CTL_LOCK d == 0)

/-- Run an operation as far as its inputs allow; while a fragment is held nothing of it is computed (03 R66; log 188). -/
def Mod.opRun (m : Mod) (q seq : Nat) : Mod :=
  match m.op? q seq with
  | none => m
  | some op =>
    let early := op.st == .staged && opcodeOf op.desc == 0x92 && deadlineClass op.desc != 2 && op.bad.isNone
    let m := if opcodeOf op.desc = 0x92 ∧ op.undef = false ∧ op.computed = false then m.prefetchStarts q op else m
    if op.computed ∨ op.status ≠ .ok ∨ (op.st ≠ .dispatched ∧ early = false) ∨ m.fragmentHeld q op = true then m
    else if opcodeOf op.desc = 0xB0 then m.atomicRun q seq
    else match m.readLevel q seq 0 with
      | (m, false) => m
      | (m, true) =>
        match m.readLevel q seq 1 with
        | (m, false) => m
        | (m, true) =>
          match m.readLevel q seq 2 with
          | (m, false) => m
          | (m, true) => m.opCompute q seq

/-- Bytes an operation holds in the stage store. -/
def ROp.stored (o : ROp) : Nat :=
  if o.st = .staged ∧ opcodeOf o.desc ≠ 0x92 then ((o.open_ ++ o.got.map (·.1)).map (·.len)).foldl (· + ·) 0 else 0

/-- Head reads of a STAGED operation: of each level whose place the bytes read before it give, the first 1 MiB of each stream (07 R203). -/
def Mod.headPieces (m : Mod) (q : Nat) (op : ROp) : List Piece :=
  let o := opcodeOf op.desc
  if isControl o ∨ o = 0xB0 ∨ deadlineClass op.desc = 2 ∨ (o = 0x92 : Prop) then []
  else
    let e := m.envOf q op
    let here := fun (ps : List Piece) => ps.all (fun p => op.got.any (fun g => g.1.key == p.key))
    let p0 := e.pieces 0
    let p1 := if here p0 then e.pieces 1 else []
    (p0 ++ p1 ++ (if here p0 && here p1 then e.pieces 2 else [])).filter (fun p =>
      decide (p.key % 8 < 4) && decide (p.off + p.len ≤ 0x100000) && (p.node.isSome || (lpddrAt p.addr).isSome) &&
      !m.clash q op.seq ((e.t (p.key % 8)).toList.flatMap Tensor.byteRanges))

/-- Issue the head reads of STAGED operations in program order, while the 4 MiB stage store has room (07 R203). -/
def Mod.issueHeads (m : Mod) (q : Nat) : Mod :=
  (((m.ctx q).ops.filter (fun o => o.st == .staged && o.status == .ok)).foldl (fun (s : Mod × Bool) op =>
    (s.1.headPieces q op).foldl (fun (s : Mod × Bool) p =>
      let used := ((s.1.ctx q).ops.map ROp.stored).foldl (· + ·) 0
      let done := (s.1.op? q op.seq).any (fun o => o.bad.isSome || (o.open_ ++ o.got.map (·.1)).any (fun x => x.key == p.key))
      if s.2 || done then s
      else if 0x400000 < used + p.len then (s.1, true)
      else (s.1.issueRead q op.seq p, false)) s) (m, false)).1

/-! ## Staging (07 Table 07.1) -/

/-- The operation that stages next: the oldest one not yet staging, with its wait passed and no FENCE before it. -/
def Mod.stageNext (m : Mod) (q : Nat) : Option ROp :=
  match (m.ctx q).ops.find? (fun o => o.st == .fetched) with
  | none => none
  | some o => if (waitBefore o.desc && !o.waitPassed) || (m.fencedOff q o.seq && !isControl (opcodeOf o.desc)) then none else some o

/-- A control operation passes through STAGING and STAGED at once (07 R200). -/
def Mod.stagingStart (m : Mod) (q : Nat) : Mod :=
  if (m.ctx q).trapped || (m.ctx q).aborting then m
  else match m.stageNext q with
  | none => m
  | some op =>
    let m := m.modOp q op.seq (fun o => { o with st := .staging, stageTick := m.ticks })
    if isControl (opcodeOf op.desc) then
      if headerOk op.desc then m.modOp q op.seq (fun o => { o with st := .staged }) else m.opFail q op.seq .protocol 0 0
    else m

/-- Read the tensor descriptors in slot order, up to the first that fails or waits. -/
def Mod.readTensors (m : Mod) (q seq : Nat) : List Nat → Mod
  | [] => m
  | s :: ss =>
    match m.op? q seq with
    | none => m
    | some op =>
      if (op.tensors.get? s).isSome then m.readTensors q seq ss
      else if op.open_ ≠ [] ∨ op.bad.isSome = true then m
      else
        match m.fetchRead q seq (5 + 8 * s) (slotAddr op.desc s) 64 64 with
        | (m, .waits) => m.modOp q seq (fun o => { o with open_ := [{ key := 5 + 8 * s, node := none, addr := slotAddr op.desc s, len := 64, off := 0 }] })
        | (m, .done .ok b) => (m.modOp q seq (fun o => { o with tensors := o.tensors ++ [(s, b)] })).readTensors q seq ss
        | (m, .done st _) => m.modOp q seq (fun o => { o with bad := some (st, if st = .dataLost then 6 else 5, slotAddr op.desc s) })

/-- The staging checks on the tensors of an operation (05 Table 05.6; 06). -/
def Mod.stagingCheck (m : Mod) (q : Nat) (op : ROp) : Status :=
  let d := op.desc
  let o := opcodeOf d
  let e := m.envOf q op
  let t := e.t
  let frags := if isContraction o then
      (tilesOf (foldOf d) (bit (ops d 0x50 1) 0) e.order (ops d 0x5C 4) (ops d 0x60 4) (ops d 0x64 4)).1.length
    else e.order.length
  let one := fun (s : Nat) => match op.tensors.get? s, t s with
    | some b, some x =>
      if !m.tensorUseOk d x b then .protocol
      else firstBad (m.tensorPlace x b) (if backedInput d && !backingOk x frags then .protocol else .ok)
    | _, _ => .ok
  let st := [0, 1, 2, 3].foldl (fun st s => firstBad st (one s)) .ok
  if st ≠ .ok then st
  else
    let x := e.tensor
    let ok := e8Ok o t && (if isContraction o then contractOk d e.order (x 0) (x 1) (x 2) (t 3)
      else if isAttention o then attendOk d (x 0) (x 1) (x 2) (x 3) else otherOk d t)
    if ok then .ok else .protocol

/-- Staging completes (07 Table 07.1): a fault of a tensor descriptor stops the fetch unit (05 R133). An ST_ACCESS that a check finds has no
failing request, and the spec gives its FAULT_ADDR and DETAIL no value: the address of T0's descriptor, and 0 (07 R484; DESIGN CHOICE, log
189). -/
def Mod.stagingComplete (m : Mod) (q : Nat) : Mod :=
  match (m.ctx q).ops.find? (fun o => o.st == .staging) with
  | none => m
  | some op =>
    let seq := op.seq
    if !headerOk op.desc then m.opFail q seq .protocol 0 0
    else
      let m := m.readTensors q seq ((List.range 4).filter (fun s => bit (tvalid op.desc) s))
      match m.op? q seq with
      | none => m
      | some op =>
        match op.bad with
        | some (st, detail, fa) => (m.opFail q seq st detail fa true).modCtx q (fun c => { c with stopped := true })
        | none =>
          if op.open_ ≠ [] then m
          else match m.stagingCheck q op with
            | .ok => ((m.modOp q seq (fun o => { o with st := .staged })).opRun q seq).issueHeads q
            | st => m.opFail q seq st 0 (if st = .access then slotAddr op.desc 0 else 0)

/-! ## Dispatch (07 R204) -/

def Mod.canDispatch (m : Mod) (q : Nat) (op : ROp) : Bool :=
  let c := m.ctx q
  op.st == .staged && op.status == .ok && !c.trapped && !c.aborting &&
  (c.before op.seq).all (fun o => o.st == .reported || o.st == .retired || o.st == .failed) &&
  !m.clash q op.seq (m.opRanges op false) && !m.fencedOff q op.seq && !m.cplFull q &&
  !(m.state == .idle && bit (m.fld F.PWR_IDLE_GATED) q)

/-- Dispatch and run the oldest operation of an opcode that may go. -/
def Mod.opRow (m : Mod) (q opcode : Nat) : Mod :=
  match (m.ctx q).ops.find? (fun o => o.st == .staged && opcodeOf o.desc == opcode) with
  | none => m
  | some op =>
    if !m.canDispatch q op then m
    else
      let first := op.srCount.isNone && rndOf op.desc == 2
      let c := m.fld F.SQ_SR_COUNT_COUNT q
      let m := if first then m.addFld F.SQ_SR_COUNT_COUNT 1 q else m
      let m := m.modOp q op.seq (fun o => { o with
        st := .dispatched, dispTick := some m.ticks, srCount := if first then some c else o.srCount })
      match op.bad with
      | some (st, detail, fa) => m.opFail q op.seq st detail fa
      | none => ((m.opRun q op.seq).checkReported q op.seq).issueHeads q

/-! ## Control operations (05 Table 05.10) -/

/-- The oldest operation, when it is STAGED and has this opcode, acts. -/
def Mod.controlRow (m : Mod) (q opcode : Nat) : Mod :=
  match (m.ctx q).ops with
  | [] => m
  | op :: _ =>
    if op.st ≠ .staged ∨ opcodeOf op.desc ≠ opcode ∨ (m.ctx q).trapped = true ∨ (m.ctx q).aborting = true then m
    else
      let d := op.desc
      let diff := (m.flag (ops d 0x58 2) + 2 ^ 32 - ops d 0x5C 4) % 2 ^ 32
      let holds := match ops d 0x5A 1 with
        | 0 => decide (diff < 2 ^ 31)
        | 1 => diff == 0
        | 2 => diff != 0
        | _ => decide (2 ^ 31 ≤ diff)
      m.modOp q op.seq (fun o => { o with
        st := .reported, computed := true, next := if opcode = 0x02 then some (if holds then ops d 0x50 8 else op.addr + 128) else none })

/-! ## Completion (07 R206, R484; Table 07.2) -/

/-- Deadline-counter ticks from the last dispatch. -/
def Mod.opTicks (m : Mod) (o : ROp) : Nat :=
  match o.dispTick with
  | none => 0
  | some t => min (o.retTick.getD m.ticks - t) 0xFFFFFFFF

/-- The 32 bytes of a completion record. -/
def Mod.record (m : Mod) (o : ROp) (trapped : Bool) : List Byte :=
  d4 o.seq ++ d1 o.status.toNat ++ d1 (opcodeOf o.desc) ++ d2 (tagOf o.desc) ++ d8 (o.addr % 2 ^ 48 + b2n o.ring * 2 ^ 63) ++
  d1 (b2n o.nan + 2 * b2n o.ovf + 4 * b2n o.sat + 8 * b2n o.lost + 16 * b2n o.replayed + 32 * b2n trapped + 64 * b2n o.signalled +
      128 * b2n o.detached) ++
  d1 (if o.status = .ok ∨ o.status = .aborted ∨ o.status = .alreadyDone ∨ o.status = .protocol then 0 else o.detail) ++ d2 0 ++
  d4 (m.opTicks o) ++ d8 o.faultAddr

/-- An operation completes: its slot is freed, and what waited for it goes on (05 R135, Table 05.10). -/
def Mod.completeOp (m : Mod) (q : Nat) (op : ROp) : Mod :=
  let o := opcodeOf op.desc
  let m := m.modCtx q (fun c => { c with ops := c.ops.filter (fun x => x.seq != op.seq) })
  let m := if isCollective o then m.collForget (collId op.desc) else m
  let running := !(m.ctx q).trapped && !(m.ctx q).aborting
  let m := if op.desc.isEmpty || !running then m
    else if o = 0x06 ∧ op.status = .ok then m.modCtx q (fun c => { c with halted := true })
    else if o = 0x02 then (m.setPc q (op.next.getD (op.addr + 128))).modCtx q (fun c => { c with paused := false })
    else if o = 0x06 ∨ o = 0x0A then m.modCtx q (fun c => { c with paused := false })
    else m
  m.issueHeads q

/-- Write an operation's record into the next slot and complete the operation; a write that waits completes it later. -/
def Mod.writeRecord (m : Mod) (q : Nat) (op : ROp) (trapped : Bool) : Mod :=
  if !op.needsRecord then m.completeOp q op
  else
    let slot := m.fld F.SQ_CPL_TAIL_TAIL q % 2 ^ m.fld F.SQ_CPL_BASE_LOG2_SLOTS q
    let a := m.fld F.SQ_CPL_BASE_ADDR q * 32 + 32 * slot
    match m.memAccess (opSrc q op.seq (5 + 8 * 4)) (.sqFetch (Fin.ofNat 4 q)) a (.write ((m.record op trapped).map some)) with
    | (m, .waits) => m.modOp q op.seq (fun o => { o with recWait := true,
                                                         open_ := [{ key := 5 + 8 * 4, node := none, addr := a, len := 32, off := 0 }] })
    | (m, .done _ _) => (m.addFld F.SQ_CPL_TAIL_TAIL 1 q).completeOp q op

/-- The completion of an operation traps its context (07 R212, Table 07.6). -/
def ROp.traps (o : ROp) : Bool :=
  if o.status = .ok then opcodeOf o.desc == 0x0A && !o.desc.isEmpty
  else o.status != .aborted && o.status != .alreadyDone && (o.trapAlways || o.status == .dataLost || o.status == .dieLost || trapOnError o.desc)

/-- Enter TRAPPED (07 R212): later operations abort, but for those that a die loss has ended (R219); the stack and the loops clear, the
registers and the event. -/
def Mod.enterTrap (m : Mod) (q st opcode code addr : Nat) (ring : Bool) : Mod :=
  let keeps := fun (o : ROp) => o.st == .retired || o.status == .aborted || o.status == .dieLost
  let later := (m.ctx q).ops.filter (fun o => !keeps o)
  let m := later.foldl (fun m o => m.scramble q o) m
  let m := m.modCtx q (fun c => { c.dropFetch with
    ops := c.ops.map (fun o => if keeps o then o else { o with
      st := .failed, status := .aborted, detail := 0, faultAddr := 0, tiles := [], parts := [], held := [], coll := none })
    stack := [], paused := false, stopped := false, trapAt := none, trapped := true,
    dieLost := c.dieLost || st == Status.dieLost.toNat })
  let m := m.clearLoops q
  let m := ((m.setFld F.SQ_TRAP_STATUS st q).setFld F.SQ_TRAP_OPCODE opcode q).setFld F.SQ_TRAP_CODE code q
  let m := (m.setFld F.SQ_TRAP_ADDR_ADDR addr q).setFld F.SQ_TRAP_ADDR_RING (b2n ring) q
  m.raise 0x0301 (d1 q ++ d1 st ++ d1 opcode ++ d8 (m.reg (F.SQ_TRAP_ADDR_ADDR.addr q 0)).toNat)

/-- The context traps at its oldest operation, or at a fetch-resolved one that has become the oldest (07 R212; 05 R130). -/
def Mod.contextTrap (m : Mod) (q : Nat) : Mod :=
  let c := m.ctx q
  match c.ops with
  | op :: _ =>
    if op.ready && op.traps && (!op.needsRecord || m.cplFree q) && !c.aborting && !c.trapped then
      let code := if op.status = .ok then ops op.desc 0x58 2 else 0
      let m := m.writeRecord q op true
      -- the trapping operation itself keeps its status while its record waits
      let own := (m.ctx q).ops.filter (fun o => o.seq == op.seq)
      let m := (m.modCtx q (fun c => { c with ops := c.ops.filter (fun o => o.seq != op.seq) })).enterTrap q op.status.toNat (opcodeOf op.desc) code op.addr op.ring
      m.modCtx q (fun c => { c with ops := own ++ c.ops })
    else m
  | [] =>
    match c.trapAt with
    | some (st, o, a, ring) => if c.aborting || c.trapped then m else m.enterTrap q st.toNat o 0 a ring
    | none => m

/-- Write the record of the oldest operation, or trap at it. -/
def Mod.recordRow (m : Mod) (q : Nat) : Mod :=
  match (m.ctx q).ops with
  | [] => m
  | op :: _ =>
    if !op.ready || (op.needsRecord && !m.cplFree q) then m
    else if op.traps ∧ (m.ctx q).aborting = false ∧ (m.ctx q).trapped = false then m.contextTrap q
    else m.writeRecord q op false

/-! ## Retirement (07 R201) -/

/-- The commit point retires the oldest operation when it meets its row of Table 07.1; a remote signal is sent first (05 R143). -/
def Mod.commit (m : Mod) (q : Nat) : Mod :=
  match (m.ctx q).ops with
  | [] => m
  | op :: _ =>
    let d := op.desc
    if op.st ≠ .reported ∨ op.status ≠ .ok ∨ op.open_ ≠ [] then m
    else if signalAfter d ∧ op.signalled = false ∧ signalRemote d = true ∧ signalNode d ≠ m.node then
      let p := mkPacket 0 0x08 (signalNode d) m.node 0 0 (List.replicate 0x20 0 ++ d2 (signalFlagOf d) ++ d2 0 ++ d4 (signalAdd d)) []
      (m.modOp q op.seq (fun o => { o with open_ := [{ key := 6, node := some (signalNode d), addr := 0, len := 0, off := 0 }] })).issue
        (opSrc q op.seq 6) (signalNode d) p false
    else
      let m := if signalAfter d ∧ op.signalled = false then m.addFlag (signalFlagOf d) (signalAdd d) else m
      let op := { op with st := .retired, retTick := some m.ticks, signalled := op.signalled || signalAfter d }
      let m := m.modOp q op.seq (fun _ => op)
      if op.replayed then
        let m := m.satFld F.SQ_REPLAY_RECOVERED 1 q
        m.raise 0x0303 (d1 q ++ d8 op.badByte ++ dCount (m.fld F.SQ_REPLAY_RECOVERED q))
      else m

/-- The oldest operation retires; with NO_RECORD it is complete (07 Table 07.1). -/
def Mod.retire (m : Mod) (q : Nat) : Mod :=
  let m := m.commit q
  match (m.ctx q).ops with
  | op :: _ => if op.st = .retired ∧ op.needsRecord = false ∧ op.traps = false then m.completeOp q op else m.issueHeads q
  | [] => m

/-! ## Aborts (07 R207-R211) -/

/-- HEAD := TAIL, the stack empties (07 R208). -/
def Mod.discardRing (m : Mod) (q : Nat) : Mod :=
  (m.modCtx q (fun c => { c.dropFetch with stack := [], trapAt := none, paused := false, stopped := false, halted := false })).setFld
    F.SQ_RING_HEAD_HEAD (m.fld F.SQ_RING_TAIL_TAIL q) q

/-- Every resident operation that is not COMPLETE is aborted or already done (07 R207). -/
def Mod.abortOps (m : Mod) (q : Nat) : Mod :=
  let lost := (m.ctx q).ops.filter (fun o => o.st != .retired)
  let m := lost.foldl (fun m o => m.scramble q o) m
  m.modCtx q (fun c => { c with
    aborting := true, aborted := lost.length, detachedNow := 0,
    ops := c.ops.map (fun o => if o.st = .retired then { o with status := .alreadyDone }
      else { o with
        st := .failed, status := .aborted, detail := 0, faultAddr := 0, signalled := false, tiles := [], parts := [], held := [], coll := none }) })

/-- The abort is taken (07 Table 07.4). -/
def Mod.abortTaken (m : Mod) (q : Nat) : Mod :=
  if !(m.ctx q).abortReq then m
  else
    let st := m.ctxState q
    let m := m.modCtx q (fun c => { c with abortReq := false })
    match st with
    | 0 | 6 => m
    | 1 | 4 => (m.discardRing q).clearLoops q
    | 5 =>
      let m := (m.discardRing q).clearLoops q
      m.modCtx q (fun c => { c with trapped := c.dieLost })
    | _ =>
      -- the oldest operation retires first when nothing keeps it from doing so in this HCLK
      let doorbell := match (m.ctx q).ops with
        | op :: _ => signalAfter op.desc && !op.signalled && signalRemote op.desc && signalNode op.desc != m.node
        | [] => false
      let m := if doorbell then m else m.commit q
      (m.abortOps q).discardRing q

/-- Records of the aborted operations, oldest first, while there are free slots. -/
def Mod.drainRecords (m : Mod) (q : Nat) : Nat → Mod
  | 0 => m
  | n + 1 => (m.recordRow q).drainRecords q n

/-- The drain has ended (07 R210). -/
def Mod.abortComplete (m : Mod) (q : Nat) : Mod :=
  let c := m.ctx q
  if !c.aborting || !c.ops.all (fun o => o.ready || o.st == .retired) || !c.staleFetches.isEmpty then m
  else
    let m := m.drainRecords q 4
    let c := m.ctx q
    if c.ops ≠ [] then m
    else
      let m := (m.modCtx q (fun c => { c with aborting := false })).clearLoops q
      m.raise 0x0302 (d1 q ++ dCount c.aborted ++ dCount c.detachedNow)

/-- An operation that an abort, a trap or a die loss has ended, whose requests are still open (07 R210, R211, R219). -/
def Ctx.drains (c : Ctx) (o : ROp) : Bool :=
  o.st == .failed && !o.recWait && !o.open_.isEmpty && (c.aborting || c.trapped || o.status == .aborted || o.status == .dieLost)

/-- Requests still open 16 µs after an abort or trap are detached, a discarded fetch among them (07 R209, R210). -/
def Mod.detach (m : Mod) (q : Nat) : Mod :=
  let c := m.ctx q
  let gone := (c.ops.filter c.drains).flatMap (fun o => o.open_.map (fun p => (o.seq, p.key))) ++
    c.staleFetches.map (fun k => (m.fld F.SQ_SEQ_NEXT q, 5 + 8 * (8 + k)))
  let m := m.modCtx q (fun c => { c with
    detachedNow := c.detachedNow + gone.length, detached := c.detached ++ gone, staleFetches := [],
    ops := c.ops.map (fun o => if c.drains o then { o with open_ := [], detached := true } else o) })
  m.setFld F.SQ_DETACHED_COUNT (m.fld F.SQ_DETACHED_COUNT q + gone.length) q

/-- A detached request completes (07 R210). -/
def Mod.detachedDone (m : Mod) (q : Nat) : Mod :=
  let n := m.fld F.SQ_DETACHED_COUNT q
  if n = 0 then m
  else
    let m := m.setFld F.SQ_DETACHED_COUNT (n - 1) q
    if n = 1 then m.raise 0x0304 (d1 q) else m

/-! ## Reports and requests -/

/-- A tile's fragment completes (01 R19): its partial sums have all arrived, and its repair map is locked. -/
def Mod.tileReport (m : Mod) (q die : Nat) : Mod :=
  match (m.ctx q).ops.find? (fun o => o.st == .dispatched && o.computed && o.tiles.contains die) with
  | none => m
  | some op =>
    if op.parts.any (fun p => p.1 == die && p.2.2.1 != 0) || m.fld F.ECD_REPAIR_CTL_LOCK die == 0 then m
    else (m.modOp q op.seq (fun o => { o with tiles := o.tiles.filter (· ≠ die) })).checkReported q op.seq

/-- Partial sums of a die reach the staging store while it has room (03 R86, R87). -/
def Mod.partialArrives (m : Mod) (q die n : Nat) : Mod :=
  match (m.ctx q).ops.find? (fun o => o.st == .dispatched && o.parts.any (fun p => p.1 == die && p.2.2.1 != 0)) with
  | none => m
  | some op =>
    if m.fld F.ECD_REPAIR_CTL_LOCK die = 0 then m
    else
    let m' := m.modOp q op.seq (fun o => { o with parts := o.parts.map (fun p => if p.1 = die then (p.1, p.2.1, p.2.2.1 - n, p.2.2.2) else p) })
    if 0x800000 < m'.stagedPartials then m else m'

/-- The reduction engine writes every output; it reports once each write is performed (03 R87). -/
def Mod.reductionDone (m : Mod) (q : Nat) : Mod :=
  match (m.ctx q).ops.find? (fun o => o.st == .dispatched && o.computed && !o.redDone && !o.redWrite) with
  | none => m
  | some op =>
    if op.parts.any (fun p => p.2.2.1 != 0) then m
    else
      let ws := op.held
      let m := m.modOp q op.seq (fun o => { o with held := [], redWrite := true })
      (m.issueWrites q op.seq ws true).checkReported q op.seq

/-- Fragments held for want of a repair mapping go on (03 R66). -/
def Mod.fragmentsReleased (m : Mod) : Mod :=
  (List.range 4).foldl (fun m q => ((m.ctx q).ops.filter (fun o => o.st == .dispatched)).foldl (fun m o =>
    (m.opRun q o.seq).checkReported q o.seq) m) m

/-- A stream engine reports a parity error of the operation that executes (03 R71): in an array's own bytes it is counted and logged there,
with port S (08 R232). -/
def Mod.streamParity (m : Mod) (q : Nat) (r : ParityReport) : Mod :=
  match (m.ctx q).ops.find? (fun o => o.st == .dispatched || o.st == .reload) with
  | none => m
  | some op =>
    let m := match r.own, sramAt (m.firstBadByte r) with
      | true, some (arr, off) => m.parityError arr off none
      | _, _ => m
    m.parityReport q op.seq r

/-- Keys of the backing read and of the write of the reload of a block. -/
def reloadRead (block : Nat) : Nat := 4 + 8 * (2 + 4 * (block / 64))
def reloadWrite (block : Nat) : Nat := 4 + 8 * (3 + 4 * (block / 64))

/-- The bytes of a backing copy go into their block (07 R217). -/
def Mod.reloadStore (m : Mod) (q seq block : Nat) (b : List Byte) : Mod :=
  match m.op? q seq with
  | none => m
  | some op =>
    let p : Piece := { key := reloadWrite block, node := none, addr := block, len := 64, off := 0 }
    match m.opMem (opSrc q seq p.key) q block (.write ((padTo 64 b).map some)) (m.deadlineOf op 0) with
    | (m, .done .ok _) => m
    | (m, .done st _) => m.opFail q seq st 4 (m.faultByte st none block 64)
    | (m, .waits) => m.modOp q seq (fun o => { o with open_ := o.open_ ++ [p] })

/-- One block of a reload: its backing copy is read (07 R217). -/
def Mod.reloadBlock (m : Mod) (q seq : Nat) (x : Nat × Nat × Nat) : Mod :=
  match m.op? q seq with
  | none => m
  | some op =>
    if op.st ≠ .reload then m
    else
      let p : Piece := { key := reloadRead x.1, node := none, addr := x.2.1, len := 64, off := x.2.2 }
      match m.opMem (opSrc q seq p.key) q x.2.1 (.read 64) (m.deadlineOf op 0) with
      | (m, .done .ok b) => m.reloadStore q seq x.1 b
      | (m, .done _ _) => m.opLost q seq 4 x.2.2
      | (m, .waits) => m.modOp q seq (fun o => { o with open_ := o.open_ ++ [p] })

/-- A reload goes on: its blocks are read; once every one has been written the operation returns to STAGED (07 R217). -/
def Mod.reloadGo (m : Mod) (q seq : Nat) : Mod :=
  let rel := ((m.op? q seq).map (·.reloads)).getD []
  let m := rel.foldl (fun m x => m.reloadBlock q seq x) (m.modOp q seq (fun o => { o with reloads := [] }))
  match m.op? q seq with
  | none => m
  | some op =>
    if op.st ≠ .reload ∨ op.open_ ≠ [] then m
    else (m.modOp q seq (fun o => { o with
      st := .staged, reloading := false, replayed := true, computed := false, redDone := true, redWrite := false, got := [], reloads := [], nan := false,
      ovf := false, sat := false, lost := false })).issueHeads q

/-- The operation's requests have drained: its blocks are reloaded (07 R217). A request that waits ends the reload when it completes. -/
def Mod.reloadDone (m : Mod) (q : Nat) : Mod :=
  match (m.ctx q).ops.find? (fun o => o.st == .reload) with
  | none => m
  | some op =>
    if op.open_ ≠ [] then m else (m.modOp q op.seq (fun o => { o with reloading := true })).reloadGo q op.seq

/-- A request of a reload completes. -/
def Mod.reloadReply (m : Mod) (q seq : Nat) (p : Piece) (st : Status) (d : List Byte) : Mod :=
  if p.key / 8 % 4 = 2 then
    (if st = .ok then m.reloadStore q seq (p.key / 32 * 64) d else m.opLost q seq 4 p.off).reloadGo q seq
  else
    (if st = .ok then m else m.opFail q seq st 4 (m.faultByte st none p.addr p.len)).reloadGo q seq

/-- The bytes of a piece from the data of its completion: a remote line holds it at its offset; the old value of an atomic comes first (12
R338). -/
def pieceData (desc : Desc) (p : Piece) (d : List Byte) : List Byte :=
  if opcodeOf desc = 0xB0 then d.take p.len
  else if p.node.isSome ∧ (sizeCode desc p.addr p.len).isNone then (d.drop (p.addr % 64)).take p.len else d.take p.len

/-- A request that an operation waits for completes (06 R162). -/
def Mod.requestDone (m : Mod) (q : Nat) (op : ROp) (p : Piece) (st : Status) (d : List Byte) : Mod :=
  let seq := op.seq
  let m := m.modOp q seq (fun o => { o with open_ := o.open_.filter (fun x => x.key != p.key) })
  if p.key % 8 = 5 then
    if op.recWait then
      (m.addFld F.SQ_CPL_TAIL_TAIL 1 q).completeOp q op
    else if op.st ≠ .staging then m
    else if st = .ok then m.modOp q seq (fun o => { o with tensors := o.tensors ++ [(p.key / 8, d)] })
    else m.modOp q seq (fun o => { o with bad := some (st, if st = .dataLost then 6 else 5, p.addr) })
  else if op.status ≠ .ok then m
  else if op.st = .reload then
    if op.reloading then m.reloadReply q seq p st d
    -- reports that come before the stop completes are handled in the same reload
    else if st = .dataLost ∧ p.node.isNone = true ∧ p.key / 8 % 4 ≠ 3 then m.readFailed q seq p st
    else m
  else if p.key % 8 = 6 then
    if st = .ok then m.modOp q seq (fun o => { o with signalled := true })
    else m.modOp q seq (fun o => { o with st := .failed, status := st, detail := 0, faultAddr := globalForm p.node 0 })
  else if p.key / 8 % 4 = 3 then
    let m := if st = .ok then m else m.opFail q seq st (p.key % 8) (m.faultByte st p.node p.addr p.len)
    ((m.collStep q seq).checkReported q seq).issueHeads q
  else
    let m := if st = .ok then m.modOp q seq (fun o => { o with got := o.got ++ [(p, pieceData op.desc p d)] }) else m.readFailed q seq p st
    ((m.opRun q seq).checkReported q seq).issueHeads q

/-- Take the oldest completion for a context. -/
def Mod.memoryDone (m : Mod) (q : Nat) : Mod :=
  match m.opDone.find? (fun x => x.1 == q) with
  | none => m
  | some (_, seq, key, st, d) =>
    let m := { m with opDone := m.opDone.eraseP (fun x => x.1 == q) }
    let c := m.ctx q
    if c.detached.contains (seq, key) then (m.modCtx q (fun c => { c with detached := c.detached.erase (seq, key) })).detachedDone q
    else if key % 8 = 5 ∧ 64 ≤ key then
      if c.fetchWait ∧ key = c.fetchKey then m.finishFetch q st d
      else m.modCtx q (fun c => { c with staleFetches := c.staleFetches.erase (key / 8 - 8) })
    else
      match m.op? q seq with
      | none => m
      | some op =>
        if key = 7 then m.opFail q seq st 0 0
        else match op.open_.find? (fun p => p.key == key) with
          | some p => m.requestDone q op p st d
          | none => m

/-! ## A die lost (07 R219, R220) -/

def Mod.sqDieLost (m : Mod) (q die : Nat) : Mod :=
  let c := m.ctx q
  if !c.lossDue.contains die then m
  else
    let m := m.modCtx q (fun c => { c with lossDue := c.lossDue.filter (· ≠ die) })
    let hit := fun (o : ROp) => o.st == .dispatched || o.st == .reported || o.st == .reload
    if c.trapped then m.modCtx q (fun c => { c with dieLost := true })
    else if c.ops.any hit then
      let m := (c.ops.filter hit).foldl (fun m o => m.scramble q o) m
      m.modCtx q (fun c => { c with ops := c.ops.map (fun o => if hit o then { o with
        st := .failed, status := .dieLost, detail := die, faultAddr := 0, trapAlways := true, tiles := [], parts := [], held := [], coll := none,
        redDone := true } else o) })
    else
      let (m, n) := m.draw
      let x := Config.freeNat n
      m.enterTrap q Status.dieLost.toNat 0 0 (x % 2 ^ 48) (bit x 48)

/-! ## SQ_CTL (05 Table 05.14) -/

def Mod.resume (m : Mod) (q : Nat) : Mod :=
  if m.ctxState q = 4 then m.modCtx q (fun c => { c with halted := false, paused := false }) else m

def Mod.sqCtl (m : Mod) (q v : Nat) : Mod × Status :=
  if bit v 0 = false ∧ (m.ctx q).ops ≠ [] ∧ m.fld F.SQ_CTL_ENABLE q = 1 then (m, .busy)
  else
    let m := m.setFld F.SQ_CTL_ENABLE (bits v 0 1) q
    let m := if bit v 1 then m.resume q else m
    (if bit v 2 then m.modCtx q (fun c => { c with abortReq := true }) else m, .ok)

end Sys2Proof.Machine
end

