-- ==== Sys2Proof/Machine/Inbound.lean ====
section
/-! DEFINITION. Requests of other modules at this home (12 R319, R336-R344), the Saffron receiver (16 R428, R429) and the manager's Saffron
session (R430). -/

namespace Sys2Proof.Machine

open Sys2Proof

/-! ## Memory requests (12 R336-R338) -/

/-- The requester an inbound packet stands for. -/
def inboundSrc (port : Fin 10) (p : Packet) : Src := .fabric p.src p.tag port

/-- Register regions take no ordinary fabric request (01 R27, 12 R319); aliases are memory. -/
def registerRegion (a : Nat) : Bool := decide (0x700000000000 ≤ a ∧ a < 0x800000000000)

/-- The target of the packet's write hint (12 R340). -/
def hintTarget (p : Packet) : Option Nat := if bit p.hint.toNat 7 then some (bits p.hint.toNat 0 7) else none

/-- One memory request of another module; `lines`: answered with RSPD; `ochre`: a read of 8, 16 or 32 bytes (09 R258). -/
def Mod.inboundMem (m : Mod) (port : Fin 10) (p : Packet) (op : MemOp) (hint : Option Nat) (lines : Bool) (ochre : Bool := false) : Mod :=
  if registerRegion p.addr then m.answer port.val p .access [] false
  else
    match m.localMem (inboundSrc port p) .fabric p.addr op (0, false) hint ochre with
    | (m, .done st d) => m.answer port.val p st d (lines && st == .ok)
    | (m, .waits) => m

/-- Lines of a bulk access, one after another: the first failing status, the lines' data; `none` when a line has to wait. -/
def Mod.bulkLines (src : Src) (ops : List (Nat × MemOp)) (hint : Option Nat) (m : Mod) : Option (Mod × Status × List (Status × List Byte)) :=
  match ops with
  | [] => some (m, .ok, [])
  | (a, op) :: rest =>
    match m.localMem src .fabric a op (0, false) hint with
    | (_, .waits) => none
    | (m, .done st d) =>
      match Mod.bulkLines src rest hint m with
      | none => none
      | some (m, st', ds) => some (m, firstBad st st', (st, d) :: ds)

/-- BULKR: every line read; the data from the first failing line on is undefined (12 R337). -/
def Mod.bulkRead (m : Mod) (port : Fin 10) (p : Packet) : Mod :=
  let n := p.byteAt 0x19
  if registerRegion p.addr then m.answer port.val p .access [] false
  else
    match Mod.bulkLines (inboundSrc port p) ((List.range n).map (fun i => (p.addr + 64 * i, MemOp.read 64))) none m with
    | none => m.inboundMem port p (.read (64 * n)) none true
    | some (m, st, ds) =>
      let good := ((ds.takeWhile (fun x => x.1 == .ok)).map (·.2)).flatten
      let (m, free) := m.drawBytes (64 * n - good.length)
      m.answer port.val p st (good ++ free) true

/-- BULKW: each line is a separate write; the first failing line gives the status (12 R337). -/
def Mod.bulkWrite (m : Mod) (port : Fin 10) (p : Packet) : Mod :=
  let n := p.byteAt 0x19
  if registerRegion p.addr then m.answer port.val p .access [] false
  else
    let ops := (List.range n).map (fun i => (p.addr + 64 * i, MemOp.write (((p.body.drop (64 * i)).take 64).map some)))
    match Mod.bulkLines (inboundSrc port p) ops (hintTarget p) m with
    | none => m.inboundMem port p (.write (p.body.map some)) (hintTarget p) false
    | some (m, st, _) => m.answer port.val p st [] false

/-- Bytes of a WRM: those its MASK selects (12 Table 12.4). -/
def maskedLine (p : Packet) : List (Option Byte) :=
  (List.range 64).map (fun i => if bit (p.word 8) i then some (nth p.body i 0) else none)

/-- The atomic an ATOM packet carries (12 Table 12.4; 06 Table 06.15). -/
def packetAtom (p : Packet) : AtomOp :=
  { fn := match p.byteAt 0x18 with
      | 0 => .add
      | 1 => .swap
      | 2 => .cas
      | 3 => .set
      | _ => .clear,
    operand := BitVec.ofNat 64 (p.word 8), compare := BitVec.ofNat 64 (p.word 0x10) }

/-- ATOM at its home (12 R338): on memory, not on an alias. -/
def Mod.inboundAtom (m : Mod) (port : Fin 10) (p : Packet) : Mod :=
  if regionOf p.addr = .special then m.answer port.val p .access [] false
  else
    match m.memAtom (inboundSrc port p) .fabric p.addr (packetAtom p) with
    | (m, .done st d) => m.answer port.val p st d false
    | (m, .waits) => m

/-! ## Saffron (16 R428, R429) -/

/-- The receiver's area: LP0's, or the lowest-numbered working package's (16 R428). -/
def Mod.saffronArea (m : Mod) : Nat :=
  ((List.range 24).find? (fun k => m.fld F.MC_CTL_FAILED k == 0)).getD 0 * 0x1000000000 + 0xC00000000

/-- An image verifies (15 R405); `man` reads the manifest, `blk` a block. -/
def Mod.imageOk (m : Mod) (man : Nat → Nat → List Byte) (blk : Nat → List Byte) : Bool :=
  let num := fun (a n : Nat) => ofBytes (man a n)
  let ty := num 6 1
  let n := num 0x10 4
  let key := man 0x28 64
  num 0 4 == 0x46574D51 && num 4 2 == 1 && num 7 1 == 0 && num 0x68 152 == 0 && 1 ≤ n && n ≤ 32256 && num 0x14 4 ≤ 4096 * n &&
  (if ty = 0x10 ∨ (0x10 ≤ ty ∧ ty ≤ 0x1F) then
     match m.operatorKey with
     | none => true
     | some h => Config.shake256 key 64 == h && Config.imageVerify key (man 0 (0x100 + 32 * n)) (man (0x100 + 32 * n) 29792)
   else (1 ≤ ty && ty ≤ 0x0F) && Config.shake256 key 64 == Config.romKeyHash &&
     Config.imageVerify key (man 0 (0x100 + 32 * n)) (man (0x100 + 32 * n) 29792)) &&
  (List.range n).all (fun i => (Config.shake256 (toBytes 4 i ++ padTo 4096 (blk i)) 32) == man (0x100 + 32 * i) 32)

/-- What a receiver knows of its session: number, units received (a bit each), passes, state, missing units. -/
structure Saffron where
  session : Nat
  bitmap : Nat
  pass : Nat
  state : Nat
  missing : Nat

/-- Units a receiver newly finds good among [lo, hi), given `good`. -/
def unitBits (bitmap lo hi : Nat) (good : Nat → Bool) : Nat :=
  (List.range (hi - lo)).foldl (fun b i => if bit b (lo + i) then b else if good (lo + i) then b ||| 2 ^ (lo + i) else b) bitmap

/-- Address of an image slot in the flash window (15 Table 15.3). -/
def slotBase (b : Bool) : Nat := 0x7F0080000000 + (if b then 0x09000000 else 0x01000000)

/-- Bytes of a manifest for `n` blocks, and its 4 KiB units (15 R404; 16 Table 16.3). -/
def manifestLen (n : Nat) : Nat := 30048 + 32 * n
def manifestUnits (n : Nat) : Nat := ceilDiv (manifestLen n) 4096

/-- Bytes go into the flash from the start of a slot, each sector erased first (15 R401). -/
def Mod.programSlot (m : Mod) (base : Nat) (data : List Byte) : Mod :=
  let m := (List.range (ceilDiv data.length 0x10000)).foldl (fun m i => m.lose (unitOf (base + 0x10000 * i))) m
  { m with mem := m.mem.writeAt base (data.map some) }

/-- One pass of the receiver over the area at `b` (16 R429). -/
def Mod.saffronPass (m : Mod) (b : Nat) (s : Saffron) : Saffron :=
  let rd := fun (a n : Nat) => m.mem.readAt (b + a) n
  let unit := fun (u : Nat) => rd (0x10000 + 4096 * u) 4096
  let head := rd 0x10000 32
  let num := fun (i n : Nat) => leAt head i n
  let good := num 0 4 == 0x53464153 && num 0x1C 4 == crc32 (head.take 0x1C)
  let s := if good && decide (s.session < num 4 4) then { s with session := num 4 4, bitmap := 1 } else s
  let s := { s with pass := (s.pass + 1) % 256 }
  if good && num 4 4 == s.session then
    let units := min (num 0x0C 4) 32549
    let table := (List.range 32).map (· + 1)
    let bm := if num 0x18 4 = crc32 (table.flatMap unit) then table.foldl (fun x u => x ||| 2 ^ u) s.bitmap else s.bitmap
    let bm := if table.all (bit bm) then unitBits bm 33 units (fun u => crc32 (unit u) == ofBytes (rd (0x11000 + 4 * (u - 33)) 4)) else bm
    let missing := ((List.range units).filter (fun u => !bit bm u)).length
    let mu := num 0x10 4
    let state := if missing ≠ 0 then 1
      else if m.imageOk (fun a n => rd (0x10000 + 4096 * 33 + a) n) (fun i => unit (33 + mu + i)) then 3 else 4
    { s with bitmap := bm, missing := missing, state := state }
  else s

/-- A Saffron doorbell (16 R429): the receiver's pass over its area, its STATUS and BITMAP written there; an image that has just verified
goes into the flash slot that does not run. -/
def Mod.saffron (m : Mod) : Mod :=
  let b := m.saffronArea
  let st := m.mem.readAt b 64
  let s := m.saffronPass b { session := leAt st 0 4, bitmap := ofBytes (m.mem.readAt (b + 0x2000) 8192), pass := leAt st 4 1,
                             state := leAt st 5 1, missing := leAt st 16 4 }
  let status := toBytes 4 s.session ++ toBytes 1 s.pass ++ toBytes 1 s.state ++ toBytes 2 0 ++ toBytes 8 b ++ toBytes 4 s.missing
  let write := fun (m : Mod) (a : Nat) (d : List Byte) => (m.memAccess (.manager (Fin.ofNat 16384 m.node) 7) (.rt 0) a (.write (d.map some))).1
  let m :=
    if s.state = 3 ∧ (leAt st 5 1 ≠ 3 ∨ leAt st 0 4 ≠ s.session) then
      let n := ofBytes (m.mem.readAt (b + 0x10014) 4)
      let image := b + 0x10000 + 4096 * 33
      m.programSlot (slotBase (m.fld F.MGD_STATUS_SLOT_B == 0))
        (m.mem.readAt image (manifestLen n) ++ m.mem.readAt (image + 4096 * manifestUnits n) (4096 * n))
    else m
  write (write m b (padTo 64 status)) (b + 0x2000) (toBytes 8192 s.bitmap)

/-! ## Doorbells (12 R339) -/

def Mod.doorbell (m : Mod) (port : Fin 10) (p : Packet) : Mod :=
  let flag := leAt p.head 0x20 2
  let add := leAt p.head 0x24 4
  if 1023 < flag ∨ add = 0 then m.answer port.val p .protocol [] false
  else
    let m := m.addFlag flag add
    (if flag = 1023 then m.saffron else m).answer port.val p .ok [] false

/-! ## Collectives (06 R196-R198, 12 R341-R343) -/

/-- A peer's packet names another collective than this member's: the packet is answered with ST_PROTOCOL, and the member's operation
completes with it (12 R341, Table 12.7 code 11). -/
def Mod.collMismatch (m : Mod) (port : Fin 10) (p : Packet) (own : Option (Nat × ROp)) : Mod :=
  let m := m.violation 11 port.val p.src.val p.ty.toNat
  let m := match own with
    | some (q, op) => m.opFail q op.seq .protocol 0 0
    | none => m
  m.answer port.val p .protocol [] false

/-- Bytes of a row of additions. -/
def AddRow.len (e : AddRow) : Nat := ceilDiv (e.count * fmtWidth e.format) 8

/-- The sums of a row and what the table held (06 R191): element by element, one rounding each. -/
def AddRow.sums (e : AddRow) (old : List Byte) : List Byte :=
  let w := fmtWidth e.format
  let new := (List.range e.count).map (fun i =>
    (tableAdd e.format (elemValue e.format (bits (ofBytes old) (i * w) w)) (elemValue e.format (bits (ofBytes e.row) (i * w) w))).1)
  toBytes e.len (new.foldr (fun c acc => c % 2 ^ w + acc * 2 ^ w) 0)

/-- The next access of a row, which may wait: its read, then the write of its sums. -/
def Mod.addWrite (m : Mod) (e : AddRow) (old : List Byte) : Mod × Reply :=
  m.localMem (match e.src with
    | .fabric _ _ p => .adder p
    | s => s) .fabric e.addr (.write ((e.sums old).map some))

/-- The access of a row that has not begun (06 R191). The answer `none`: it waits, and the row is first in line. -/
def Mod.addStart (m : Mod) (e : AddRow) : Mod × Option Status :=
  let src := match e.src with
    | .fabric _ _ p => Src.adder p
    | s => s
  match m.localMem src .fabric e.addr (.read e.len) with
  | (m, .waits) => (m.modFab (fun f => { f with adds := e :: f.adds }), none)
  | (m, .done .ok old) =>
    match m.addWrite e old with
    | (m, .waits) => (m.modFab (fun f => { f with adds := { e with writing := true } :: f.adds }), none)
    | (m, .done st _) => (m, some st)
  | (m, .done st _) => (m, some st)

/-- A row of additions to a table here (06 R191): rows go one after another. -/
def Mod.addRow (m : Mod) (e : AddRow) : Mod × Option Status :=
  if e.len = 0 ∨ e.row.length < e.len ∨ ¬[0x0, 0x1, 0x2, 0xA].contains e.format then (m, some .protocol)
  else if m.fab.adds.isEmpty then m.addStart e
  else (m.modFab (fun f => { f with adds := f.adds ++ [e] }), none)

/-- Rows that wait begin, until one has to wait. -/
def Mod.addNext : Nat → Mod → Mod
  | 0, m => m
  | n + 1, m =>
    match m.fab.adds with
    | [] => m
    | e :: rest =>
      match (m.modFab (fun f => { f with adds := rest })).addStart e with
      | (m, some st) => Mod.addNext n (m.emit (.compl e.src st []))
      | (m, none) => m

/-- The access that the first row waited for has completed. -/
def Mod.addSettle (m : Mod) : Mod :=
  match m.fab.addDone, m.fab.adds with
  | some (st, data), e :: rest =>
    let m := m.modFab (fun f => { f with adds := rest, addDone := none })
    let ended := fun (m : Mod) (st : Status) => (m.emit (.compl e.src st [])).addNext rest.length
    if st ≠ .ok ∨ e.writing then ended m st
    else
      match m.addWrite e data with
      | (m, .waits) => m.modFab (fun f => { f with adds := { e with writing := true } :: f.adds })
      | (m, .done st _) => ended m st
  | _, _ => m.modFab (fun f => { f with addDone := none })

/-- A collective's packet came before this member's operation: its fields are kept until that starts (06 R196). -/
def Mod.cameEarly (m : Mod) (own : Option (Nat × ROp)) (f : CollFields) (src : Nat) : Mod :=
  if own.isSome then m else m.modFab (fun x => { x with early := x.early ++ [(f, src)] })

/-- REDC: a contribution to the reduction this member combines, held in the staging store; or a row of SCATTER_ADD. -/
def Mod.contribute (m : Mod) (port : Fin 10) (p : Packet) : Mod :=
  match p.coll with
  | none => m.collMismatch port p none
  | some f =>
    if f.opcode = 0x82 then
      if registerRegion f.id then m.answer port.val p .access [] false
      else match m.addRow { src := inboundSrc port p, addr := f.id, format := f.format, count := f.count, row := p.body } with
        | (m, some st) => m.answer port.val p st [] false
        | (m, none) => m
    else
      let own := m.collOf f.id
      let agree := match own with
        | some (q, op) => (m.envOf q op).reductionOk f
        | none => true
      if agree then
        let m := (m.cameEarly own f p.src.val).modFab (fun x => { x with contributions := x.contributions ++ [{ id := f.id, rank := f.rank, data := p.body }] })
        (m.answer port.val p .ok [] false).collAll
      else m.collMismatch port p own

/-- READY: stored for the operation that will write there; checked against this member's own fields once both are here. -/
def Mod.readyArrives (m : Mod) (port : Fin 10) (p : Packet) : Mod :=
  match p.coll with
  | none => m.collMismatch port p none
  | some f =>
    let own := m.collOf f.id
    let agree := match own with
      | some (q, op) => (m.envOf q op).readyOk f
      | none => true
    if agree then
      let m := m.modFab (fun x => { x with readies := x.readies ++ [{ fields := f, node := p.src.val, desc := p.body }] })
      (m.answer port.val p .ok [] false).collAll
    else m.collMismatch port p own

/-- CREDIT: a peer grants 256 KiB of staging space. -/
def Mod.creditArrives (m : Mod) (port : Fin 10) (p : Packet) : Mod :=
  match p.coll with
  | none => m.collMismatch port p none
  | some f =>
    let own := m.collOf f.id
    let agree := match own with
      | some (q, op) => (m.envOf q op).reductionOk f
      | none => true
    if agree then
      let m := (m.cameEarly own f p.src.val).modFab (fun x => { x with credits := x.credits ++ [(f.id, f.rank, 0x40000)] })
      (m.answer port.val p .ok [] false).collAll
    else m.collMismatch port p own

/-! ## Broadcast writes (12 R344) -/

/-- BCW: written here when LOCAL is 1, and copied to the children; it has no response. -/
def Mod.broadcastWrite (m : Mod) (port : Fin 10) (p : Packet) : Mod :=
  let n := p.len.toNat
  let m := if m.fld F.FAB_TREE_LOCAL 0 (p.byteAt 0x1A) = 1 ∧ registerRegion p.addr = false then
      (List.range n).foldl (fun m i =>
        (m.localMem (.bcast port) .fabric (p.addr + 64 * i) (.write (((p.body.drop (64 * i)).take 64).map some))).1) m
    else m
  if p.hops.toNat ≤ 1 then m else m.copyToChildren (some port.val) { p with hops := p.hops - 1 }

/-! ## The manager's Saffron session (16 R430) -/

/-- Manifest fields of the image at a flash address: TYPE, BLOCKS. -/
def Mod.imageField (m : Mod) (image off n : Nat) : Nat := ofBytes (m.mem.readAt (image + off) n)

/-- Units of a session over an image (16 Table 16.3). -/
def Mod.sessionUnits (m : Mod) (s : Session) : Nat :=
  let n := m.imageField s.image 0x10 4
  33 + manifestUnits n + n

/-- A unit of the manifest or of the blocks (16 Table 16.3, u ≥ 33). -/
def Mod.imageUnit (m : Mod) (s : Session) (u : Nat) : List Byte :=
  let n := m.imageField s.image 0x10 4
  let len := manifestLen n
  let mu := manifestUnits n
  if u < 33 + mu then padTo 4096 (m.mem.readAt (s.image + 4096 * (u - 33)) (min 4096 (len - 4096 * (u - 33))))
  else m.mem.readAt (s.image + len + 4096 * (u - 33 - mu)) 4096

/-- Units 1 to 32: the CRC table. -/
def Mod.crcTable (m : Mod) (s : Session) : List Byte :=
  padTo (32 * 4096) ((List.range (m.sessionUnits s - 33)).flatMap (fun i => toBytes 4 (crc32 (m.imageUnit s (33 + i)))))

/-- Unit 0: the session record (16 Table 16.4), on tree 0. -/
def Mod.sessionRecord (m : Mod) (s : Session) : List Byte :=
  let n := m.imageField s.image 0x10 4
  let r := toBytes 4 0x53464153 ++ toBytes 4 s.number ++ toBytes 2 m.node ++ toBytes 1 (m.imageField s.image 6 1) ++ toBytes 1 0 ++
    toBytes 4 (m.sessionUnits s) ++ toBytes 4 (manifestUnits n) ++ toBytes 4 n ++ toBytes 4 (crc32 (m.crcTable s))
  padTo 4096 (r ++ toBytes 4 (crc32 r))

def Mod.sessionUnit (m : Mod) (s : Session) (u : Nat) : List Byte :=
  if u = 0 then m.sessionRecord s
  else if u ≤ 32 then ((m.crcTable s).drop (4096 * (u - 1))).take 4096
  else m.imageUnit s u

/-- Address in a Saffron area, by the package that holds it (16 R428). -/
def saffronAddr (package off : Nat) : Nat := package * 0x1000000000 + 0xC00000000 + off

/-- A request of the manager's firmware to a member. -/
def Mod.askReceiver (m : Mod) (x : Receiver) (use ty : Nat) (head body : List Byte) : Mod :=
  m.issue (.manager (Fin.ofNat 16384 x.node) (Fin.ofNat 8 use)) x.node (mkPacket 0 ty x.node m.node 0 0 head body) false

def Mod.modReceiver (m : Mod) (node : Nat) (f : Receiver → Receiver) : Mod :=
  m.modFab (fun b => { b with session := b.session.map (fun s => { s with members := s.members.map (fun x => if x.node = node then f x else x) }) })

/-- dbell(x, flag 1023, 1). -/
def Mod.ringReceiver (m : Mod) (x : Receiver) : Mod :=
  (m.modReceiver x.node (fun x => { x with busy := true, answered := false })).askReceiver x 2 0x08
    (padTo 0x20 [] ++ toBytes 2 1023 ++ toBytes 2 0 ++ toBytes 4 1) []

/-- bulkr of a member's STATUS. -/
def Mod.readReceiver (m : Mod) (x : Receiver) : Mod := m.askReceiver x 3 0x06 (bulkHead (saffronAddr x.package 0) 64) []

/-- Units a member misses (16 R430): all when its STATUS names another session or was not read. -/
def Mod.missingUnits (m : Mod) (s : Session) (x : Receiver) : List Nat :=
  let bm := ofBytes (x.low ++ x.high)
  let all := List.range (m.sessionUnits s)
  if !x.answered || leAt x.status 0 4 != s.number then all else all.filter (fun u => !bit bm u)

/-- A request to a member of the session has completed (16 R430). A member whose area is not in the package that was read is looked for in
the next one (R428). -/
def Mod.receiverDone (m : Mod) (node use : Nat) (st : Status) (data : List Byte) : Mod :=
  match m.fab.session.bind (fun s => s.members.find? (fun x => x.node == node)) with
  | none => m
  | some x =>
    let put := fun (m : Mod) (x : Receiver) => m.modReceiver node (fun _ => x)
    let silent := put m { x with busy := false, answered := false }
    if use = 6 then
      (if 1 < x.left then put m { x with left := x.left - 1 } else (put m { x with left := 0 }).ringReceiver { x with left := 0 })
    else if use = 2 then (if st = .ok then m.readReceiver x else silent)
    else if use = 3 then
      (if st = .retired ∧ x.package < 23 then (put m { x with package := x.package + 1 }).readReceiver { x with package := x.package + 1 }
       else if st ≠ .ok then silent
       else
         let pass := leAt data 4 1
         let x := { x with status := data.take 64, before := some pass, answered := x.before != some pass, left := 2 }
         let half := fun (m : Mod) (i : Nat) => m.askReceiver x (4 + i) 0x06 (bulkHead (saffronAddr x.package (0x2000 + 4096 * i)) 4096) []
         half (half (put m x) 0) 1)
    else
      let x := if use = 4 then { x with low := data } else { x with high := data }
      put m { x with answered := x.answered && st == .ok, left := x.left - 1, busy := decide (1 < x.left) }

/-- bcw: one unit goes down tree 0 to every member's area in LP0. -/
def Mod.sendUnit (m : Mod) (s : Session) (u : Nat) : Mod :=
  if m.fld F.FAB_TREE_VALID 0 0 = 1 ∧ m.fld F.FAB_TREE_PARENT 0 0 = 0xF then
    m.copyToChildren none (mkPacket 4 0x70 0 m.node 0 0 (bulkHead (saffronAddr 0 (0x10000 + 4096 * u)) 4096 ++ [0]) (m.sessionUnit s u))
  else m

/-- bulkw of the units a member misses into its area; its doorbell follows the last one. -/
def Mod.unicast (m : Mod) (s : Session) (x : Receiver) : Mod :=
  let us := m.missingUnits s x
  us.foldl (fun m u => m.askReceiver x 6 0x07 (bulkHead (saffronAddr x.package (0x10000 + 4096 * u)) 4096) (m.sessionUnit s u))
    (m.modReceiver x.node (fun x => { x with busy := true, left := us.length }))

/-- The session ends (16 R430): members that are incomplete or failed are reported, then the session. -/
def Mod.sessionEnds (m : Mod) (s : Session) : Mod :=
  let bad := s.members.filter (fun x => !(m.missingUnits s x).isEmpty || leAt x.status 5 1 != 3)
  let m := bad.foldl (fun m x => m.raise 0x0C06 (d2 x.node ++ d4 (m.missingUnits s x).length ++ d1 (leAt x.status 5 1))) m
  let m := m.modFab (fun f => { f with session := none })
  m.raise 0x0C05 (d4 s.number ++ d2 (s.members.length - bad.length) ++ d2 bad.length)

/-- The session goes on once every member has answered: the first pass and up to three repair passes, the unicast, the end. -/
def Mod.sessionGo (m : Mod) (s : Session) : Mod :=
  let pass := fun (m : Mod) (n : Nat) => m.modFab (fun f => { f with session := f.session.map (fun s => { s with pass := n }) })
  let trees := s.members.filter (fun x => x.package == 0)
  let send := if s.pass = 0 then List.range (m.sessionUnits s)
    else (List.range (m.sessionUnits s)).filter (fun u => trees.any (fun x => (m.missingUnits s x).contains u))
  let rest := s.members.filter (fun x => !(m.missingUnits s x).isEmpty)
  if s.pass < 4 ∧ send ≠ [] then s.members.foldl (fun m x => m.ringReceiver x) (send.foldl (fun m u => m.sendUnit s u) (pass m (s.pass + 1)))
  else if s.pass < 5 ∧ rest ≠ [] then rest.foldl (fun m x => m.unicast s x) (pass m 5)
  else m.sessionEnds s

/-- A session starts over the image at a flash address when this module manages other members (16 R430). -/
def Mod.sessionStart (m : Mod) (image : Nat) : Mod :=
  let nodes := m.domainNodes
  if m.fld F.FAB_ROLE_ROLE ≠ 2 ∨ m.fld F.FAB_ROLE_STATE ≠ 2 ∨ nodes.isEmpty ∨ m.fab.session.isSome then m
  else
    let n := m.imageField image 0x10 4
    if m.imageOk (fun off n => m.mem.readAt (image + off) n) (fun i => m.mem.readAt (image + manifestLen n + 4096 * i) 4096) then
      let own := leAt (m.mem.readAt m.saffronArea 4) 0 4
      let number := max m.fab.lastSession own + 1
      m.modFab (fun f => { f with lastSession := number,
                                  session := some { number := number, image := image, members := nodes.map (fun n => { node := n }) } })
    else m

/-- A new manager starts the session of the old one again, with a higher number, when its own receiver was in one (16 R430). -/
def Mod.sessionTakeover (m : Mod) : Mod :=
  let m := m.modFab (fun f => { f with takeover := false })
  if leAt (m.mem.readAt (m.saffronArea + 5) 1) 0 1 = 1 then
    ([false, true].foldl (fun m b => m.sessionStart (slotBase b)) m)
  else m

/-- A completion of the manager's firmware. -/
def Mod.managedDone (m : Mod) (e : Nat × Nat × Status × List Byte) : Mod :=
  let (node, use, st, data) := e
  if use = 0 then m.joinWritten node
  else if 2 ≤ use ∧ use ≤ 6 then m.receiverDone node use st data
  else m

/-- The fabric engine has something to do at the end of a command. -/
def Mod.fabReady (m : Mod) : Bool :=
  !m.fab.managed.isEmpty || m.fab.addDone.isSome || m.fab.takeover || m.fab.kept.any (fun x => !m.keeps x.1 x.2) ||
  m.fab.session.any (fun s => s.members.all (fun x => !x.busy))

/-- What the fabric engine and the manager's firmware do at the end of a command. -/
def Mod.fabStep (m : Mod) : Mod :=
  let es := m.fab.managed
  let m := es.foldl (fun m e => m.managedDone e) (m.modFab (fun f => { f with managed := [] }))
  let m := if m.fab.addDone.isSome then m.addSettle else m
  let m := if m.fab.takeover then m.sessionTakeover else m
  let m := m.freeKept
  match m.fab.session with
  | some s => if s.members.all (fun x => !x.busy) then m.sessionGo s else m
  | none => m

/-! ## What a command reaches -/

/-- Writes of a node in this module, as the collectives that expect them see them. -/
def Mod.seenWrite (m : Mod) (p : Packet) (n : Nat) : Mod := (m.collWritten p.src.val p.addr n).collAll

end Sys2Proof.Machine
end

