-- ==== Sys2Proof/Machine/Lanes.lean ====
section
/-! DEFINITION. The optical ports (13): emitters, flits, acknowledgement and replay, credits, training, heartbeats, sleep, loopback. -/

namespace Sys2Proof.Machine

open Sys2Proof

/-! ## Light (13 R357-R359) -/

/-- Laser die of a port (01 R16). -/
def laserOf (p : Nat) : Nat := p / 5

/-- Ports a laser die feeds (01 R16). -/
def portsOf (d : Nat) : List Nat := (List.range 5).map (· + 5 * d)

/-- Lanes of a wavelength, as a mask (13 R357). -/
def waveLanes (w : Nat) : Nat := maskOf [w, w + 8, w + 16, w + 24]

/-- Lanes of a port, as a mask, that may take part: not excluded in this attempt and not in LANE_EXCLUDE. -/
def Mod.usableLanes (m : Mod) (p : Nat) : Nat :=
  maskOf ((List.range 32).filter (fun l => !bit (m.laneOf p).excluded l && !bit (m.fld F.LANE_EXCLUDE_LANES p) l))

/-- Largest of 32, 24, 16, 8 that does not exceed a number of lanes; 0 below 8 (13 R376). -/
def widthOf (n : Nat) : Nat := if 32 ≤ n then 32 else if 24 ≤ n then 24 else if 16 ≤ n then 16 else if 8 ≤ n then 8 else 0

/-! ## Port states (13 Table 13.5) -/

/-- LANE_STATUS.RETRY follows the two sides of a retry (13 R368). -/
def Mod.syncRetry (m : Mod) (p : Nat) : Mod :=
  m.setFld F.LANE_STATUS_RETRY (b2n ((m.laneOf p).retryRx.isSome || (m.laneOf p).retryTx.isSome)) p

/-- Every comma of a port is forgotten for a new attempt. -/
def Mod.clearCommas (m : Mod) (p : Nat) : Mod := (List.range 4).foldl (fun m i => m.setReg (F.LANE_COMMA_POS.addr p i) 0) m

/-- The port enters TRAIN for an attempt (13 R371, R373). -/
def Mod.startTrain (m : Mod) (p : Nat) : Mod :=
  let m := (m.clearCommas p).setFld F.LANE_STATUS_STATE 2 p
  (m.modLane p (fun l => { l with excluded := 0, peerSeen := false })).emit (.training p 2)

/-- The port enters DETECT and sends its beacon (13 R372). -/
def Mod.enterDetect (m : Mod) (p : Nat) : Mod := (m.setFld F.LANE_STATUS_STATE 1 p).emit (.training p 1)

/-- An ACTIVE port retrains (13 R377, R370): traffic is held, buffers and numbers stay. -/
def Mod.retrain (m : Mod) (p cause : Nat) : Mod :=
  if m.laneState p ≠ 6 then m
  else
    let m := ((m.setFld F.LANE_STATUS_RETRAINING 1 p).setFld F.LANE_STATUS_ATTEMPTS 0 p).setFld F.LANE_STATUS_CAUSE cause p
    let m := (m.setFld F.LANE_STATUS_TX_ASLEEP 0 p).setFld F.LANE_STATUS_RX_ASLEEP 0 p
    let m := m.modLane p (fun l => { l with retryRx := none, retryTx := none, discard := false, naksSent := 0, naksReceived := 0,
                                            ackDue := false, nakDue := false, hbtDue := false, lastHbt := none })
    let m := (m.syncRetry p).addFld F.LANE_COUNT_COUNT 1 p 5
    (m.raise 0x0902 (d1 p ++ d1 cause ++ d1 0 ++ d1 2)).startTrain p

/-- No port of the module is ACTIVE or retraining. -/
def Mod.allPortsDown (m : Mod) : Bool := (List.range 10).all (fun p => m.laneState p != 6 && m.fld F.LANE_STATUS_RETRAINING p == 0)

/-- A port goes down (13 Table 13.5, 12 R347, R350, Table 12.1): event 0x0801; requests that took the port complete. When it carried
traffic, a lost partner is fenced if this was the last port to it, and the module is isolated if every port is down now. `state`: 7 DOWN,
0 DISABLED, 9 LOOPBACK. -/
def Mod.portDown (m : Mod) (p cause state : Nat) : Mod :=
  let peer := m.fld F.FAB_PORT_PEER 0 p
  let was := m.laneState p == 6 || m.fld F.LANE_STATUS_RETRAINING p == 1
  let m := (m.setFld F.LANE_STATUS_STATE state p).setFld F.LANE_STATUS_CAUSE cause p
  let m := (m.setFld F.LANE_STATUS_RETRAINING 0 p).setFld F.LANE_STATUS_RETRY 0 p
  let m := (m.setFld F.LANE_STATUS_TX_ASLEEP 0 p).setFld F.LANE_STATUS_RX_ASLEEP 0 p
  let m := (m.setFld F.LANE_STATUS_TX_WIDTH 0 p).setFld F.LANE_STATUS_RX_WIDTH 0 p
  let m := (m.modLane p (fun _ => {})).setFld F.FAB_PORT_PEER_VALID 0 0 p
  let m := m.raise 0x0801 (d1 p ++ d2 peer ++ d1 cause)
  let others := (List.range 10).any (fun q => m.fld F.FAB_PORT_PEER_VALID 0 q == 1 && m.fld F.FAB_PORT_PEER 0 q == peer &&
    (m.laneState q == 6 || m.fld F.LANE_STATUS_RETRAINING q == 1))
  let m := if was ∧ cause = 8 ∧ others = false then m.localFence peer else m
  let m := m.failEntries (fun e => e.port == some p) .linkDown
  if was ∧ m.fld F.FAB_ROLE_STATE = 2 ∧ m.allPortsDown = true then m.isolate else m

/-- A port that is not carrying traffic is dark in a state. -/
def Mod.portDark (m : Mod) (p state : Nat) : Mod :=
  let m := (m.setFld F.LANE_STATUS_STATE state p).setFld F.LANE_STATUS_RETRY 0 p
  m.modLane p (fun _ => {})

/-- The port carried traffic: ACTIVE, or retraining after leaving it. -/
def Mod.carrying (m : Mod) (p : Nat) : Bool := m.laneState p == 6 || m.fld F.LANE_STATUS_RETRAINING p == 1

/-- Down with a cause when the port carried traffic, otherwise dark (13 Table 13.5). -/
def Mod.darken (m : Mod) (p cause state : Nat) : Mod :=
  if m.carrying p then m.portDown p cause state else m.portDark p state

/-- An attempt fails (13 Table 13.5). -/
def Mod.attemptFails (m : Mod) (p : Nat) : Mod :=
  let stage := m.laneState p
  let n := m.fld F.LANE_STATUS_ATTEMPTS p + 1
  let m := (m.setFld F.LANE_STATUS_ATTEMPTS n p).setFld F.LANE_RX_MASK_USABLE (m.usableLanes p) p
  let m := m.raise 0x0902 (d1 p ++ d1 (m.fld F.LANE_STATUS_CAUSE p) ++ d1 n ++ d1 stage)
  if m.fld F.LANE_STATUS_RETRAINING p = 1 then
    (if 3 ≤ n then m.portDown p 9 7 else m.startTrain p)
  else if 3 ≤ n then
    let ex := (m.laneOf p).excluded
    (m.raise 0x0905 (d1 p ++ d1 stage ++ d4 ex)).portDark p 8
  else m.enterDetect p

/-- The capability record of a port (13 Table 13.7): SI_REV is 0xA1 (00 R2). -/
def Mod.capRecord (m : Mod) (p rxUse : Nat) (peerSeen : Bool) : List Byte :=
  let b := d2 m.node ++ d1 p ++ d1 (b2n peerSeen + 2 * m.fld F.LANE_STATUS_RETRAINING p) ++ d4 rxUse ++ d4 (m.fld F.LANE_TX_MASK_LIT p) ++
    d2 (m.laneOf p).expect ++ d1 0xA1 ++ d1 0 ++ d4 m.runVersion ++ d4 0 ++ d4 0
  b ++ d4 (crc32 b)

/-- The stage is over for the lanes that stay; fewer than 8 fail the attempt (13 Tables 13.5, 13.6). -/
def Mod.nextStage (m : Mod) (p next : Nat) : Mod :=
  if popCount 32 (m.usableLanes p) < 8 then m.attemptFails p
  else
    let m := m.setFld F.LANE_STATUS_STATE next p
    if next = 5 then m.emit (.capability p (m.capRecord p 0 false)) else m

def Mod.exclude (m : Mod) (p mask : Nat) : Mod := m.modLane p (fun l => { l with excluded := l.excluded ||| mask })

/-- Lanes that are not LOCKED, as a mask (13 R374). -/
def Mod.unlocked (m : Mod) (p : Nat) : Nat :=
  maskOf ((List.range 32).filter (fun l => m.fld F.LANE_COMMA_LOCKED p (l / 8) (l % 8) == 0))

/-- A partner's capability record (13 R376, R370, R365; Table 13.5). -/
def Mod.capability (m : Mod) (p : Nat) (r : CapRecord) : Mod :=
  if m.laneState p ≠ 5 then m
  else
    let usable := m.usableLanes p &&& r.txLit.toNat
    let w := widthOf (popCount 32 usable)
    let rx := maskOf ((bitsOf 32 usable).take w)
    let tx := widthOf (popCount 32 r.rxUse.toNat)
    let m := (m.modLane p (fun l => { l with peerSeen := true })).emit (.capability p (m.capRecord p rx true))
    if w < 8 then m.attemptFails p
    else if !r.peerSeen then m
    else if tx < 8 then m.attemptFails p
    else
      let kept := m.fld F.LANE_STATUS_RETRAINING p == 1
      let m := (m.setFld F.LANE_TX_MASK_USE r.rxUse.toNat p).setFld F.LANE_RX_MASK_USE rx p
      let m := (m.setFld F.LANE_RX_MASK_USABLE (m.usableLanes p) p).setFld F.LANE_STATUS_TX_WIDTH tx p
      let m := (m.setFld F.LANE_STATUS_RX_WIDTH w p).setFld F.LANE_STATUS_STATE 6 p
      let m := m.setFld F.LANE_STATUS_RETRAINING 0 p
      let m := ((m.setFld F.FAB_PORT_PEER r.node.val 0 p).setFld F.FAB_PORT_PEER_PORT r.port.val 0 p).setFld F.FAB_PORT_PEER_VALID 1 0 p
      let l := m.laneOf p
      let again := if kept then l.replay.dropWhile (fun f => f.1 != r.rxNext.val) else []
      let m := if kept then
          (m.modLane p (fun l => { l with replay := again, acked := 0, accepted := 0 })).addFld F.LANE_COUNT_COUNT again.length p 0
        else m.modLane p (fun l => { l with txNext := r.rxNext.val })
      let m := m.raise 0x0901 (d1 p ++ d2 r.node.val ++ d1 tx ++ d1 w ++ d4 rx)
      m.portActive

/-- A training stage reaches its limit (13 Table 13.6): lanes that have not completed it are excluded; EXCHANGE fails the attempt. -/
def Mod.stageTimeout (m : Mod) (p incomplete : Nat) : Mod :=
  let st := m.laneState p
  if st = 2 then (m.exclude p incomplete).nextStage p 3
  else if st = 3 then (m.exclude p (incomplete ||| m.unlocked p)).nextStage p 4
  else if st = 4 then (m.exclude p incomplete).nextStage p 5
  else if st = 5 then m.attemptFails p
  else m

/-! ## Flits, acknowledgement and credits (13 R365-R369) -/

/-- A receiver rejects a flit, or its 1 µs resend: a NAK is sent, and the eighth in a row retrains (13 R367, R368). -/
def Mod.sendNak (m : Mod) (p : Nat) : Mod :=
  let m := (m.modLane p (fun l => { l with nakDue := true, discard := true, retryRx := some l.expect, naksSent := l.naksSent + 1 })).addFld
    F.LANE_COUNT_COUNT 1 p 3
  let m := m.syncRetry p
  if 8 ≤ (m.laneOf p).naksSent then m.retrain p 2 else m

/-- Violations that only flits show: codes 3 and 4 of 12 Table 12.7. -/
def Mod.flitViolation (m : Mod) (p : Nat) (f : Flit) : Option Nat :=
  let l := m.laneOf p
  let head := f.kind.val ≤ 1
  let bad := if head then l.openVc.contains f.vc.val else !l.openVc.contains f.vc.val && !l.skipVc.contains f.vc.val
  let past := (l.held.map (fun h => h - 64)).foldl (· + ·) 0
  if bad then some 3 else if 3328 < past then some 4 else none

/-- An accepted flit: counted, acknowledged in the next block, buffered; then the checks of flits (13 R365, R366; 12 Table 12.7). What is
discarded leaves its buffers at once: a flit up to the next head, and the open packet that a head cut off (DEDUCED, log 203). -/
def Mod.acceptFlit (m : Mod) (p : Nat) (f : Flit) : Mod :=
  let x := f.vc.val * 2 + b2n f.sub
  let m := m.modLane p (fun l => { l with expect := (l.expect + 1) % 4096, accepted := l.accepted + 1, ackDue := true, discard := false,
                                          naksSent := 0, retryRx := none, held := modNth l.held x (· + 1) })
  let m := (m.syncRetry p).addFld F.LANE_COUNT_COUNT 1 p 1
  let v := m.flitViolation p f
  let head := decide (f.kind.val ≤ 1)
  let l := m.laneOf p
  let gone := if v = some 3 then 1 + nth l.part x 0 else if !head && l.skipVc.contains f.vc.val then 1 else 0
  let m := m.modLane p (fun l => { l.freed x gone with
    part := if v = some 3 ∨ f.kind.val = 3 then modNth l.part x (fun _ => 0)
      else if f.kind.val = 1 then modNth l.part x (fun _ => 1)
      else if f.kind.val = 2 ∧ gone = 0 then modNth l.part x (· + 1) else l.part,
    openVc := if v = some 3 then l.openVc.filter (· != f.vc.val)
      else if f.kind.val = 1 then l.openVc ++ [f.vc.val] else if f.kind.val = 3 then l.openVc.filter (· != f.vc.val) else l.openVc,
    skipVc := if v = some 3 then l.skipVc ++ [f.vc.val] else if head then l.skipVc.filter (· != f.vc.val) else l.skipVc })
  match v with
  | some c => (m.violation c p f.src.val f.ty.toNat).retrain p 3
  | none => m

/-- A flit arrives on an ACTIVE port (13 R365, R367). -/
def Mod.flit (m : Mod) (p : Nat) (f : Flit) : Mod :=
  if m.laneState p ≠ 6 then m
  else
    let m := m.addFld F.LANE_COUNT_COUNT f.violations p 6
    let l := m.laneOf p
    if l.discard ∧ ¬(f.sof = true ∧ f.num.val = l.expect) then m
    else if f.crcGood ∧ f.violations = 0 ∧ f.num.val = l.expect then m.acceptFlit p f
    else (m.addFld F.LANE_COUNT_COUNT 1 p 2).sendNak p

/-- ACK N frees every flit up to N; WRAP tells a full buffer from a repeated ACK (13 R366). -/
def Mod.ackIn (m : Mod) (p n : Nat) (wrap : Bool) : Mod :=
  if m.laneState p ≠ 6 then m
  else
    let l := m.laneOf p
    let k := (l.replay.takeWhile (fun f => f.1 != n)).length + 1
    if l.replay.any (fun f => f.1 == n) ∧ bit (l.acked + k) 12 = wrap then
      let m := m.modLane p (fun l => { l with
        replay := l.replay.drop k, acked := (l.acked + k) % 8192, naksReceived := 0,
        retryTx := l.retryTx.filter (fun r => (l.replay.drop k).any (fun f => f.1 == r) || r == l.txNext) })
      m.syncRetry p
    else m

/-- NAK N resends from flit N (13 R367, R368). -/
def Mod.nakIn (m : Mod) (p n : Nat) : Mod :=
  if m.laneState p ≠ 6 then m
  else
    let l := m.laneOf p
    let again := l.replay.dropWhile (fun f => f.1 != n)
    if again.isEmpty ∧ n ≠ l.txNext then m
    else
      let m := ((m.modLane p (fun l => { l with retryTx := some n, naksReceived := l.naksReceived + 1 })).addFld F.LANE_COUNT_COUNT 1 p 4).addFld
        F.LANE_COUNT_COUNT again.length p 0
      let m := m.syncRetry p
      if 8 ≤ (m.laneOf p).naksReceived then m.retrain p 2 else m

/-- CRD: the TOTAL's difference from the last one frees credits (13 R369). -/
def Mod.creditIn (m : Mod) (p x total : Nat) : Mod :=
  if m.laneState p ≠ 6 then m
  else m.modLane p (fun l => { l with used := modNth l.used x (fun u => u - (total + 4096 - nth l.txTotal x 0) % 4096),
                                      txTotal := modNth l.txTotal x (fun _ => total) })

/-- BAR (12 R335): a request is answered once the flits before it have left; an answer ends the drain's wait. -/
def Mod.barIn (m : Mod) (p : Nat) (answer : Bool) : Mod :=
  if m.laneState p ≠ 6 then m
  else if answer then (if m.fab.draining.contains p then m.setFld F.FAB_PORT_DRAINED 1 0 p else m)
  else m.modLane p (fun l => if l.held.all (· == 0) then { l with barDue := l.barDue ++ [true] } else { l with barWait := some l.held })

/-- The block of a segment carries what is due, in the order of 13 R379; a width of 8 lanes has room for all of it. -/
def Mod.segment (m : Mod) (p : Nat) : Mod :=
  if m.laneState p ≠ 6 ∨ m.fld F.LANE_STATUS_TX_ASLEEP p = 1 then m
  else
    let l := m.laneOf p
    let crds := if l.blocks = 15 then List.range 12 else l.crdDue
    let cs : List Ctrl :=
      (if l.nakDue then [.nak l.expect] else []) ++
      (if l.ackDue then [.ack ((l.expect + 4095) % 4096) (bit l.accepted 12)] else []) ++
      (if l.hbtDue then [.hbt (m.fld F.FAB_NODE_ID)] else []) ++
      l.barDue.map .bar ++ crds.map (fun x => .crd (x / 2) (x % 2 == 1) (nth l.total x 0))
    let m := m.modLane p (fun l => { l with nakDue := false, ackDue := false, hbtDue := false, barDue := [], crdDue := [],
                                            blocks := (l.blocks + 1) % 16 })
    cs.foldl (fun m c => m.emit (.control p c)) m

/-! ## Enabling, loopback, sleep -/

/-- LANE_CTL.ENABLE (13 Table 13.5). -/
def Mod.laneEnable (m : Mod) (p : Nat) (on : Bool) : Mod :=
  let m := m.setFld F.LANE_CTL_ENABLE (b2n on) p
  if on then (if m.laneState p = 0 ∧ m.laserOk then (m.setFld F.LANE_STATUS_ATTEMPTS 0 p).enterDetect p else m)
  else if m.laneState p = 0 then m else m.darken p 6 0

/-- LANE_CTL.LOOPBACK (13 R382). -/
def Mod.loopback (m : Mod) (p mode : Nat) : Mod × Status :=
  let st := m.laneState p
  if mode ≠ 0 ∧ st = 6 ∧ m.fld F.FAB_PORT_DRAINED 0 p = 0 then (m, .busy)
  else
    let m := m.setFld F.LANE_CTL_LOOPBACK mode p
    if mode = 0 then (if st = 9 then m.setFld F.LANE_STATUS_STATE 7 p else m, .ok)
    else if st = 9 then (m, .ok)
    else (m.portDown p 12 9, .ok)

/-- LANE_CTL.SLIP_DONE ends firmware symbol lock (13 R374). -/
def Mod.slipDone (m : Mod) (p : Nat) : Mod := if m.laneState p = 3 then (m.exclude p (m.unlocked p)).nextStage p 4 else m

/-- LANE_SLIP.GO (13 R374). -/
def Mod.laneSlip (m : Mod) (p l : Nat) : Mod :=
  if m.laneState p = 3 then
    (m.setFld F.LANE_COMMA_POS ((m.fld F.LANE_COMMA_POS p (l / 8) (l % 8) + 39) % 40) p (l / 8) (l % 8)).setFld F.LANE_COMMA_LOCKED 0 p (l / 8) (l % 8)
  else m

/-- A transmit direction wakes (13 R381). -/
def Mod.txWake (m : Mod) (p : Nat) : Mod := m.setFld F.LANE_STATUS_TX_ASLEEP 0 p

/-- A transmit direction with nothing to send sleeps (13 R380). -/
def Mod.txSleep (m : Mod) (p : Nat) : Mod :=
  let l := m.laneOf p
  if m.laneState p = 6 ∧ m.fld F.LANE_STATUS_TX_ASLEEP p = 0 ∧ l.txq.isEmpty ∧ l.replay.isEmpty ∧ l.ackDue = false ∧ l.nakDue = false ∧ l.crdDue.isEmpty then
    (m.setFld F.LANE_STATUS_TX_ASLEEP 1 p).emit (.control p .slp)
  else m

/-- The lanes of a wavelength go dark or are lit again on the five ports of its die. -/
def Mod.lightWave (m : Mod) (d w : Nat) (lit : Bool) : Mod :=
  (portsOf d).foldl (fun m p =>
    let v := m.fld F.LANE_TX_MASK_LIT p
    m.setFld F.LANE_TX_MASK_LIT (if lit then v ||| waveLanes w else v - (v &&& waveLanes w)) p) m

/-- The emitter of a wavelength is brought up (17 R458). With HUB_BOOT.MODE fast and settings saved, they are applied and checked; without
them, at a cold boot or when the check fails, its heater range is searched and its bias set. What the check, the search and the monitor
give is free. The settings are saved, and the lanes are lit. -/
def Mod.waveUp (m : Mod) (i : Nat) : Mod :=
  let (m, x) := m.draw
  let saved := if m.fld F.HUB_BOOT_MODE = 0 ∧ Config.freeNat x % 2 = 1 then m.laserSaved.find? (fun s => s.1 == i) else none
  let (m, b) := m.draw
  let (m, h) := m.draw
  let (m, mon) := m.draw
  let s := saved.getD (i, Config.freeNat b % 1024, Config.freeNat h % 1024)
  let m := (m.setFld F.PWR_LASER_BIAS s.2.1 0 i).setFld F.PWR_LASER_HEATER s.2.2 0 i
  let m := (m.setFld F.PWR_LASER_MON (Config.freeNat mon % 1024) 0 i).lightWave (i / 8) (i % 8) true
  { m with laserSaved := m.laserSaved.filter (fun x => x.1 != i) ++ [s] }

/-- Laser bring-up (17 R458): every wavelength whose die's rail has no fault and that is not dark for good. The spares stay cold. -/
def Mod.lasersUp (m : Mod) : Mod :=
  ((List.range 16).filter (fun i => m.fld F.PWR_RAIL_FAULT 0 (28 + i / 8) == 0 && !m.dark.contains i)).foldl (fun m i => m.waveUp i) m

/-- Every emitter of a laser die goes out. -/
def Mod.laserDieOff (m : Mod) (d : Nat) : Mod := (portsOf d).foldl (fun m p => m.setFld F.LANE_TX_MASK_LIT 0 p) m

/-- The emitter of a wavelength fails (13 R358): a primary hands over to its spare; a spare leaves the wavelength dark. -/
def Mod.emitterFails (m : Mod) (d w : Nat) : Mod :=
  let widths := (portsOf d).map (fun p => m.fld F.LANE_STATUS_TX_WIDTH p)
  let i := 8 * d + w
  let m := m.lightWave d w false
  let m := (portsOf d).foldl (fun m p => m.retrain p 7) m
  if m.fld F.PWR_LASER_SPARE 0 i = 1 ∨ m.fld F.PWR_LASER_SPARE_FAILED 0 i = 1 ∨ m.dark.contains i then
    let m := (m.setFld F.PWR_LASER_SPARE_FAILED 1 0 i).raise 0x0904 (d1 d ++ d1 w ++ d1 2)
    { m with dark := if m.dark.contains i then m.dark else m.dark ++ [i] }
  else ({ m with warming := m.warming.filter (fun x => x.1 != i) ++ [(i, widths)] } : Mod).raise 0x0904 (d1 d ++ d1 w ++ d1 0)

/-- The spare locks, or 50 ms pass (13 R358). -/
def Mod.spareResult (m : Mod) (d w : Nat) (locked : Bool) : Mod :=
  let i := 8 * d + w
  match m.warming.find? (fun x => x.1 == i) with
  | none => m
  | some (_, widths) =>
    let m : Mod := { m with warming := m.warming.filter (fun x => x.1 != i) }
    if locked then
      let m := (m.setFld F.PWR_LASER_SPARE 1 0 i).lightWave d w true
      let m := (portsOf d).foldl (fun m p =>
        if m.fld F.LANE_STATUS_TX_WIDTH p < nth widths (p % 5) 0 then m.retrain p 7 else m) m
      m.raise 0x0904 (d1 d ++ d1 w ++ d1 1)
    else
      let m := (m.setFld F.PWR_LASER_SPARE_FAILED 1 0 i).raise 0x0904 (d1 d ++ d1 w ++ d1 2)
      { m with dark := m.dark ++ [i] }

/-- LASER_EN_N deasserted, or VLAS lost: every port goes down and stays dark (13 R359, R441, R442); `d`: only the ports of one die. -/
def Mod.interlock (m : Mod) (ports : List Nat) : Mod :=
  ports.foldl (fun m p => if m.laneState p = 0 then m else m.darken p 10 0) m

/-- Every enabled port enters DETECT (13 R359). -/
def Mod.detectAll (m : Mod) (ports : List Nat) : Mod :=
  ports.foldl (fun m p => if m.laneState p = 0 ∧ m.fld F.LANE_CTL_ENABLE p = 1 then (m.setFld F.LANE_STATUS_ATTEMPTS 0 p).enterDetect p else m) m

/-- The emitters are enabled and the ports train (02 R49), once LASER_EN_N has been low for 1 ms and the module is out of reset. -/
def Mod.laserOn (m : Mod) : Mod :=
  if m.laserLow = false ∨ m.laserQual = false ∨ m.pwrgd = false ∨ m.rstN = false ∨ m.laserOk ∨ m.bootStopped then m
  else
    let up := [28, 29].filter (fun r => m.fld F.PWR_RAIL_FAULT 0 r == 0)
    let m : Mod := { up.foldl (fun m r => m.setFld F.PWR_RAIL_ON 1 0 r) m with laserOk := true }
    m.lasersUp.detectAll (List.range 10)

/-- LASER_EN_N has been low for 1 ms (02 R49). -/
def Mod.laserQualified (m : Mod) : Mod := if m.laserLow then ({ m with laserQual := true } : Mod).laserOn else m

end Sys2Proof.Machine
end

