-- ==== Sys2Proof/Machine/Boot.lean ====
section
/-! DEFINITION. Module reset and boot (16 R420-R424, R436; 15 R404-R408), bringing compute dies up (03 R63-R66, R487; 08 R248; 16
R425-R427), and the reset commands (16 R431-R439, Tables 16.5-16.9). -/

namespace Sys2Proof.Machine

open Sys2Proof

/-! ## Free inputs -/

/-- Boot inputs that nothing constrains: a module reset reached by a register write that carries none. -/
def Mod.freeBoot (m : Mod) : Mod × BootIn :=
  let d := m.fresh
  ({ m with fresh := d + 5 },
   { puf := Config.freeNat d % 2 == 1, hubSig := BitVec.ofNat 64 (Config.freeNat (d + 1)), mgdSig := BitVec.ofNat 64 (Config.freeNat (d + 2)),
     mp := Config.freeNat (d + 3) % 2 == 1, hubMarch := Config.freeNat (d + 4) % 2 == 1 })

/-- Results of the dies that nothing constrains: FINISH reached by a register write that carries none. -/
def Mod.freeDies (m : Mod) : Mod × List DieRun :=
  let d := m.fresh
  ({ m with fresh := d + 80 },
   (List.range 16).map (fun n =>
     let x := fun (i : Nat) => Config.freeNat (d + 5 * n + i)
     { die := Fin.ofNat 16 n, link := x 0 % 2 == 1, pes := (List.range (x 1 % 20)).map (fun i => (Fin.ofNat 264 (x 1 / (264 * i + 1)), Fin.ofNat 264 (x 1 / (i + 7)))),
       logic := x 2 % 2 == 1, spares := [], march := x 3 % 2 == 1, missing := x 4 % 256 }))

/-! ## Boot ROM (15 R404-R408) -/

def Mod.slotMan (m : Mod) (b : Bool) (off n : Nat) : List Byte := m.mem.readAt (slotBase b + off) n

/-- A slot's image verifies as management firmware (15 R405, R406): the manifest is followed by its blocks (R404). -/
def Mod.slotVerifies (m : Mod) (b : Bool) : Bool :=
  let n := ofBytes (m.slotMan b 0x10 4)
  m.imageOk (m.slotMan b) (fun i => m.slotMan b (30048 + 32 * n + 4096 * i) 4096) && ofBytes (m.slotMan b 6 1) == 1

/-- Bytes of a measurement (15 Table 15.14). -/
def Mod.meas (m : Mod) (i : Nat) : List Byte := (List.range 8).flatMap (fun j => toBytes 8 (m.reg (F.MGD_MEAS_VALUE.addr 0 (8 * i + j))).toNat)

def Mod.setMeas (m : Mod) (i : Nat) (bs : List Byte) : Mod :=
  (List.range 8).foldl (fun m j => m.setReg (F.MGD_MEAS_VALUE.addr 0 (8 * i + j)) (BitVec.ofNat 64 (leAt bs (8 * j) 8))) m

/-- MEASi := SHAKE256(MEASi ‖ digest), taken to 64 bytes (15 R418, R406). -/
def Mod.extendMeas (m : Mod) (i : Nat) (digest : List Byte) : Mod := m.setMeas i (Config.shake256 (m.meas i ++ digest) 64)

/-- The slots in the order the ROM tries them: highest version first. -/
def Mod.slotOrder (m : Mod) : List Bool :=
  if ofBytes (m.slotMan false 8 4) < ofBytes (m.slotMan true 8 4) then [true, false] else [false, true]

/-- The ROM tries the slots in order (15 R406). -/
def Mod.trySlots (m : Mod) : List Bool → Mod
  | [] => ((m.setFld F.MGD_STATUS_DIR_LOCK 1).setFld F.MGD_STATUS_RECOVERY 1).recordCause 0x0D
  | b :: bs =>
    if m.minSvn ≤ ofBytes (m.slotMan b 0x0C 4) ∧ m.slotVerifies b = true then
      let n := ofBytes (m.slotMan b 0x10 4)
      let m := (m.setFld F.MGD_STATUS_DIR_LOCK 1).extendMeas 0 (Config.shake256 (m.slotMan b 0 (0x100 + 32 * n)) 64)
      { m.setFld F.MGD_STATUS_SLOT_B (b2n b) with runVersion := ofBytes (m.slotMan b 8 4) }
    else
      let (m, check) := m.drawBytes 1
      ((m.setFld F.MGD_STATUS_FALLBACK 1).raise 0x0B01 (d1 (b2n b) ++ check)).trySlots bs

/-- After every reset of the management die (15 R406, R408, R411, R417). -/
def Mod.bootRom (m : Mod) (puf : Bool) : Mod :=
  let fail := m.fld F.MGD_SVC_AUTH_FAIL
  let m := (m.resetRange 0x7F0000000000 0x7F0000010000).setFld F.MGD_SVC_AUTH_FAIL fail
  let (m, d) := m.draw
  let m := m.setReg (F.MGD_BOOT_ID_ID.addr 0 0) (Config.bootId d)
  let m : Mod := { m with
    topSeq := 0, authEvent := false, rot := none, svcRun := none, svcq := [], fab := { m.fab with session := none },
    operatorKey := if m.newOperatorKey.isSome then m.newOperatorKey else m.operatorKey, newOperatorKey := none }
  let m := (m.setFld F.MGD_STATUS_PUF_OK (b2n puf)).setFld F.MGD_STATUS_KEY_SET (b2n (puf && m.serviceKey.isSome))
  let m := if puf then m else m.raise 0x0B02 []
  let m : Mod := match m.svnCommit with
    | none => m
    | some b => { m with svnCommit := none,
                         minSvn := if m.slotVerifies b then max m.minSvn (ofBytes (m.slotMan b 0x0C 4)) else m.minSvn }
  (m.setFld F.MGD_STATUS_MIN_SVN m.minSvn).trySlots m.slotOrder

/-! ## Module reset (16 R436, R438) -/

/-- Everything but the always-on island, its cause log, the SLOT_ID sample, the module flash and what the flash holds returns to its
reset state (16 Table 16.8); memory contents become undefined (08 R238, 09 R269). Rails stay as they are. -/
def Mod.moduleReset (m : Mod) : Mod :=
  let rails := (List.range 30).filter (fun r => m.fld F.PWR_RAIL_ON 0 r == 1)
  let (m, e) := m.draw
  let m : Mod := { m with
    regs := [],
    mem := { cells := m.mem.cells.filter (fun c => decide (0x7F0080000000 ≤ c.1)),
             fills := m.mem.fills.filter (fun f => fixedUnit f.1), epoch := e + 1 },
    evSeq := 0, evStage := [], sram := List.replicate 17 {}, mc := List.replicate 24 {}, lpNext := 0, och := [], ochSrc := [],
    regul := {}, lines := [], dir := [], retry := [], reqSrc := [], stale := [], pushDue := [], poisonDue := 0, retryFilled := false,
    net := [], ncAcks := [], fab := { lastSession := m.fab.lastSession, peers := m.fab.peers }, lanes := List.replicate 10 {}, laserOk := false, warming := [],
    dark := [], opDone := [], coreq := [], uncached := [], dports := List.replicate 17 {}, ctxs := List.replicate 4 {}, active := 0,
    runVersion := 0, topSeq := 0, authEvent := false, rot := none, svcRun := none, svcq := [], svcResets := [], mgdHeld := false,
    mgdStopped := false, mgdLosses := 0, link := false, resets := [], lostDies := 0, heldDies := 0, tests := [], ftests := [],
    bootStopped := false, bistStop := false }
  rails.foldl (fun m r => m.setFld F.PWR_RAIL_ON 1 0 r) m

/-- MFR_STATE (15 Table 15.10). -/
def Mod.stateCode (m : Mod) : Nat :=
  if m.fld F.MGD_STATUS_RECOVERY = 1 then 7
  else match m.state with
    | .off => 0 | .standby | .powerUp => 1 | .boot => 2 | .active => 3 | .idle => 4 | .parked => 5 | .reset => 6

/-- The module state changes: event 0x0D01 (17 R443). `who`: class code of the requester, 0xFF when none (18 Table 18.2). -/
def Mod.toState (m : Mod) (s : ModState) (who : Nat := 0xFF) : Mod :=
  let old := m.stateCode
  let m : Mod := { m with state := s }
  m.raise 0x0D01 (d1 old ++ d1 m.stateCode ++ d1 who)

/-- The signature of the island's boot-set logic BIST of the hub (16) or the management die (17) (19 R478). -/
def Mod.bootSig (m : Mod) (n : Nat) (sig : Word) : Mod :=
  let m := m.setReg (F.DT_SIG_SIG.addr 0 n) sig
  let m := (m.setFld F.DT_STATUS_DONE 1 0 n).setFld F.DT_STATUS_LAST_OP 1 0 n
  m.setFld F.DT_STATUS_PASS (b2n (m.reg (F.DT_EXPECT_EXPECT.addr 0 n) == sig)) 0 n

/-- Every bundle of a port is trained at full width and the port ACTIVE (14 R391, R393). -/
def Mod.linkUp (m : Mod) (p : Nat) : Mod :=
  let m := (m.setFld F.D2D_CTL_ENABLE 1 p).modDport p (fun d => { d with training := none, bundles := d.bundles.map (fun b => { b with trained := true }) })
  m.portTrained p

/-- The state of every bank of an array. -/
def Mod.setBanks (m : Mod) (arr st : Nat) : Mod :=
  (List.range (ceilDiv (bankCount arr) 32)).foldl (fun m i => m.setReg (F.BANK_STATE_ST.addr arr i) (BitVec.ofNat 64 (st * 0x5555555555555555))) m

/-- Add a word to a list of (bank, word) once. -/
def addWord (l : List (Nat × Nat)) (w : Nat × Nat) : List (Nat × Nat) := if l.contains w then l else l ++ [w]

/-- A word that a start-up march maps to a new spare, as the failing read that found it; the failing bit is free. -/
def Mod.marchFound (m : Mod) (ws : List (Nat × Nat)) : Mod × List MarchFail :=
  ws.foldl (fun (m, fs) w =>
    let (m, d) := m.draw
    (m, fs ++ [{ bank := Fin.ofNat 1024 w.1, word := Fin.ofNat 65536 w.2, bit := Fin.ofNat 576 (Config.freeNat d) }])) (m, [])

/-- The start-up march of an array (08 R248): the flash list through SPARE_ADD, every bank in TEST, a destructive march with REPAIR over all
banks, the new spares to the flash list, the banks back in ON. `good`: every word is good then. -/
def Mod.startupMarch (m : Mod) (arr : Nat) (found : List (Nat × Nat)) (good : Bool) : Mod :=
  let listed := nth m.wordLists arr []
  let m := m.modSram arr (fun a => { a with wakes := [], march := none })
  let m := listed.foldl (fun m w => if (m.sramOf arr).spares.contains w then m else (m.spareAdd arr w.1 w.2).1) m
  let (m, fails) := m.marchFound (found.filter (fun w => !listed.contains w && !(m.sramOf arr).spares.contains w))
  let m := (((m.setBanks arr 3).marchStart arr 0 (bankCount arr - 1) false true fails).1).marchEnd arr []
  let m := if good then m else m.setFld F.MARCH_STATUS_FAIL 1 arr
  let m : Mod := { m with wordLists := modNth m.wordLists arr (fun _ => found.foldl addWord listed) }
  m.setBanks arr 0

/-- The boot starts (16 R422, R423; 02 R43, R45): the island tests the hub and the management die, MP trains, and the ROM runs. When the
management firmware runs, the start-up march clears the hub buffer (Table 16.2 stage 3); a buffer that still fails stops the boot (08 R248).
The emitters follow when LASER_EN_N allows them (stage 7). -/
def Mod.bootStart (m : Mod) (cold powerOn : Bool) (b : BootIn) : Mod :=
  let m : Mod := { m with state := if powerOn then .boot else .reset, powerOnBoot := powerOn }
  let m := ((m.setFld F.HUB_BOOT_MODE (b2n cold)).bootSig 16 b.hubSig).bootSig 17 b.mgdSig
  if b.mp then
    let m := (m.linkUp 16).bootRom b.puf
    if m.fld F.MGD_STATUS_RECOVERY = 1 then m
    else
      let m := m.startupMarch 16 (b.hubSpares.map (fun w => (w.1.val, w.2.val))) b.hubMarch
      if b.hubMarch then m.laserOn else { m.recordCause 0x0B with bootStopped := true }
  else { m.recordCause 0x0C with bootStopped := true }

/-- A module reset with its cause, and the boot that follows (16 R436). While MOD_RST_N is low every die stays in reset (02 R45). -/
def Mod.moduleBoot (m : Mod) (cause : Nat) (cold : Bool) (b : BootIn) : Mod :=
  let m := (m.recordCause cause).moduleReset
  if m.rstN then m.bootStart cold false b else { m with state := .reset }

/-- The conversion stages are on. -/
def Mod.powered (m : Mod) : Bool :=
  match m.state with
  | .off | .standby => false
  | _ => true

/-- The conversion stages stop and the module enters STANDBY (17 Table 17.4): everything the stages supply is lost. -/
def Mod.toStandby (m : Mod) (who : Nat := 0xFF) : Mod :=
  let m := (m.toState .standby who).moduleReset
  let m : Mod := { m with pwrgd := false, railGroup := 0, laserOk := false, powerOnBoot := false }
  (List.range 30).foldl (fun m r => m.setFld F.PWR_RAIL_ON 0 0 r) m

/-! ## Repair (03 R63-R66, R487) -/

/-- Insert into an ascending list without repeats. -/
def insertNat (x : Nat) : List Nat → List Nat
  | [] => [x]
  | y :: ys => if x < y then x :: y :: ys else if x = y then y :: ys else y :: insertNat x ys

/-- Covers of a failure set by at most 8 rows and 8 columns: the first failing PE not yet covered takes its row or its column. Every
cover with the fewest lines is among them. -/
def covers : Nat → List (Nat × Nat) → List Nat → List Nat → List (List Nat × List Nat)
  | 0, fs, rows, cols => if fs.isEmpty then [(rows, cols)] else []
  | fuel + 1, fs, rows, cols =>
    match fs with
    | [] => [(rows, cols)]
    | (r, c) :: _ =>
      (if rows.length < 8 then covers fuel (fs.filter (fun f => f.1 != r)) (insertNat r rows) cols else []) ++
      (if cols.length < 8 then covers fuel (fs.filter (fun f => f.2 != c)) rows (insertNat c cols) else [])

/-- Ascending lists in order. -/
def listBelow : List Nat → List Nat → Bool
  | [], [] => false
  | [], _ => true
  | _, [] => false
  | x :: xs, y :: ys => decide (x < y) || (x == y && listBelow xs ys)

/-- The order of 03 R487: fewest lines, fewest columns, lowest rows, lowest columns. -/
def coverBefore (a b : List Nat × List Nat) : Bool :=
  let na := a.1.length + a.2.length
  let nb := b.1.length + b.2.length
  if na ≠ nb then decide (na < nb)
  else if a.2.length ≠ b.2.length then decide (a.2.length < b.2.length)
  else if a.1 ≠ b.1 then listBelow a.1 b.1
  else listBelow a.2 b.2

/-- cover(): the chosen cover, when there is one (03 R66, R487). -/
def cover (fs : List (Nat × Nat)) : Option (List Nat × List Nat) :=
  match covers 16 fs [] [] with
  | [] => none
  | x :: xs => some (xs.foldl (fun a b => if coverBefore b a then b else a) x)

/-- Entries of ECD_REPAIR_ROWi or COLi (03 R487): the listed lines upwards, VALID 0 beyond. -/
def Mod.setRepair (m : Mod) (d : Nat) (f : Fld) (l : List Nat) : Mod :=
  (List.range 8).foldl (fun m i => m.setReg (f.addr d i) (BitVec.ofNat 64 (if i < l.length then 0x8000 + nth l i 0 else 0))) m

/-- Distinct lines in the valid entries (03 Table 03.2). -/
def Mod.listed (m : Mod) (d : Nat) (valid line : Fld) : List Nat :=
  ((List.range 8).filter (fun i => m.fld valid d i == 1)).foldl (fun l i => insertNat (m.fld line d i) l) []

/-- The 8 excluded physical lines (03 R63): the listed ones, then the highest-numbered lines not listed. -/
def excluded (listed : List Nat) : List Nat :=
  listed ++ ((((List.range 264).reverse).filter (fun x => !listed.contains x)).take (8 - listed.length))

/-- Physical line of a logical line (03 R63): the j-th line that is not excluded, counting upwards. -/
def physicalLine (listed : List Nat) (j : Nat) : Option Nat := ((List.range 264).filter (fun x => !(excluded listed).contains x))[j]?

/-- Physical row and column of a logical PE of a die (03 R63). -/
def Mod.physicalPe (m : Mod) (d row col : Nat) : Option (Nat × Nat) :=
  match physicalLine (m.listed d F.ECD_REPAIR_ROW_VALID F.ECD_REPAIR_ROW_ROW) row,
        physicalLine (m.listed d F.ECD_REPAIR_COL_VALID F.ECD_REPAIR_COL_COL) col with
  | some r, some c => some (r, c)
  | _, _ => none

/-- The mapping is applied and locked (03 Table 03.2); fragments held for it go on (R66). -/
def Mod.repairLock (m : Mod) (d : Nat) : Mod := (m.setFld F.ECD_REPAIR_CTL_LOCK 1 d).fragmentsReleased

/-- The failure set of a die: the PEs that fail now and those on its flash list (03 R65). -/
def Mod.failSet (m : Mod) (r : DieRun) : List (Nat × Nat) :=
  let old := nth m.repairLists r.die.val []
  old ++ ((r.pes.map (fun p => (p.1.val, p.2.val))).filter (fun p => !old.contains p)).eraseDups

/-! ## Bringing a compute die up (16 Table 16.2 stages 4, 5) -/

/-- The partition of a die in the layout (01 Table 01.8). -/
def Mod.partitionOf (m : Mod) (d : Nat) : Nat := ((List.range 4).find? (fun q => (m.partition q).contains d)).getD 0

/-- PROT15 of a die names its image area (16 R425, R426). -/
def Mod.imageProt (m : Mod) (d : Nat) : Mod :=
  m.setReg (F.PROT_VALID.addr d 15) (BitVec.ofNat 64 (1 + 0x37F00000 + (0x37FFFFC0 / 64) * 2 ^ 32))

/-- The fan-out to one die ends (16 R426, R427). -/
def Mod.fanOut (m : Mod) (d missing : Nat) : Mod :=
  let m := (m.writeImage d).imageProt d
  if missing = 0 then { m with heldDies := m.heldDies &&& (0xFFFF ^^^ 2 ^ d) }
  else ({ m with heldDies := m.heldDies ||| 2 ^ d }).raise 0x0C07 (d1 d ++ d1 (m.partitionOf d) ++ d4 missing)

/-- Training, repair, start-up march and fan-out of one die, so far as commands have not done them already; the answer says whether
the die is PRESENT (14 R393, 03 R64-R66, R488; 08 R248), which it is not while one of its rails is off (17 R442). -/
def Mod.dieUp (m : Mod) (r : DieRun) : Mod × Bool :=
  let d := r.die.val
  if m.fld F.PWR_RAIL_ON 0 d = 0 ∨ m.fld F.PWR_RAIL_ON 0 (16 + d / 4) = 0 then (m, false)
  else if m.fld F.D2D_STATUS_STATE d ≠ 2 ∧ r.link = false then
    (if m.fld F.D2D_STATUS_STATE d = 3 then m else m.setFld F.D2D_STATUS_STATE 4 d, false)
  else
    let m := if m.fld F.D2D_STATUS_STATE d = 2 then m else m.linkUp d
    match cover (m.failSet r) with
    | none => (m, false)
    | some (rows, cols) =>
      let m := if m.fld F.ECD_REPAIR_CTL_LOCK d = 1 then m
        else ((m.setRepair d F.ECD_REPAIR_ROW_ROW rows).setRepair d F.ECD_REPAIR_COL_COL cols).repairLock d
      if r.logic = false then (m, false)
      else
        let m : Mod := { m with repairLists := modNth m.repairLists d (fun _ => m.failSet r) }
        let m := m.startupMarch d (r.spares.map (fun w => (w.1.val, w.2.val))) r.march
        if r.march then (m.fanOut d r.missing, true) else (m, false)

/-- The dies of a scope come up; PRESENT is written from the results (16 R435). A die without a result is not PRESENT. -/
def Mod.diesUp (m : Mod) (scope : List Nat) (runs : List DieRun) : Mod :=
  scope.foldl (fun m d =>
    let (m, ok) := match runs.find? (fun r => r.die.val == d) with
      | some r => m.dieUp r
      | none => (m, false)
    let present := m.fld F.HUB_DIE_MASK_PRESENT
    m.setFld F.HUB_DIE_MASK_PRESENT (putBits present d 1 (b2n ok))) m

/-- The active die mask of a scope takes its dies that are ACTIVE and PRESENT (01 R29) and not recorded as out of service (03 R92). -/
def Mod.latchActive (m : Mod) (scope : List Nat) : Mod :=
  let s := maskOf scope
  { m with active := (m.active &&& (0xFFFF ^^^ s)) ||| (m.fld F.HUB_DIE_MASK_ACTIVE &&& m.fld F.HUB_DIE_MASK_PRESENT &&& (0xFFFF ^^^ m.outOfService) &&& s) }

/-- Compute dies lost in a scope go out of service (03 R92). -/
def Mod.outOfServiceNow (m : Mod) (scope : List Nat) : Mod :=
  let lost := m.lostDies &&& maskOf scope
  let keep := 0xFFFF ^^^ lost
  let m := m.setFld F.HUB_DIE_MASK_ACTIVE (m.fld F.HUB_DIE_MASK_ACTIVE &&& keep)
  { m with outOfService := m.outOfService ||| lost, cfgActive := m.cfgActive &&& keep, bistPassed := m.bistPassed &&& keep,
           lostDies := m.lostDies &&& (0xFFFF ^^^ maskOf scope) }

/-! ## The end of a boot (16 R424) -/

def Mod.failedPackages (m : Mod) : Nat := maskOf ((List.range 24).filter (fun k => m.fld F.MC_CTL_FAILED k == 1))

def Mod.bootComplete (m : Mod) (runs : List DieRun) : Mod :=
  if (m.state ≠ .boot ∧ m.state ≠ .reset) ∨ m.bootStopped = true ∨ m.mgdHeld = true ∨ m.rstN = false ∨
      m.fld F.MGD_STATUS_RECOVERY = 1 ∨ m.pwrgd = false then m
  else
    let m := if m.fld F.HUB_DIE_MASK_ACTIVE = 0 then m.setFld F.HUB_DIE_MASK_ACTIVE (m.cfgActive &&& (0xFFFF ^^^ m.outOfService)) else m
    let m := (m.diesUp (List.range 16) runs).latchActive (List.range 16)
    let (m, d) := m.draw
    let m := (m.setFld F.HUB_BOOT_STAGE 15).setFld F.HUB_BOOT_MS (min (Config.freeNat d) 0xFFFF)
    let present := m.fld F.HUB_DIE_MASK_PRESENT
    let m : Mod := { m with bootPresent := present, cfgNode := m.recordNode, alert := m.alert ||| 0x40 }
    let m := m.raise 0x0C02 (d1 (m.fld F.HUB_BOOT_MODE) ++ d2 (m.fld F.HUB_BOOT_MS) ++ d4 present ++ d4 m.failedPackages)
    let m := match m.tripReport with
      | none => m
      | some die =>
        let (m, t) := m.drawBytes 4
        ({ m with tripReport := none } : Mod).raise 0x0D07 (d1 die ++ t)
    let m := match m.railReport with
      | none => m
      | some (r, k) => ({ m with railReport := none } : Mod).raise 0x0D0A (d1 r ++ d1 k)
    if m.powerOnBoot then ({ m with state := .standby, powerOnBoot := false } : Mod).toState .active else { m with state := .active }

/-! ## Reset commands (16 R431-R439) -/

/-- Tile cores and application cores, clusters and partitions: a reset's scope contains another's (16 Table 16.7). Levels 1 and 2 are
alike. -/
def Mod.resetContains (m : Mod) (big small : ResetRun) : Bool :=
  let diesOf := fun (r : ResetRun) => if r.level = 4 then m.partition r.target else if r.level = 3 ∧ r.target < 16 then [r.target] else []
  if 4 < big.level then true
  else if small.level ≤ 2 then
    (if big.level ≤ 2 then big.target == small.target
     else if small.target < 64 then (diesOf big).contains (small.target / 4)
     else big.level == 3 && big.target == 16)
  else if small.level = 3 ∧ small.target = 16 then big.level == 3 && big.target == 16
  else 3 ≤ big.level && small.level ≤ big.level && (diesOf small).all ((diesOf big).contains ·)

/-- Status of a write of HUB_RESET_CMD with a level (16 R439, Tables 16.7, 16.9, R434). -/
def Mod.resetStatus (m : Mod) (level target : Nat) : Status :=
  if level = 7 then .access
  else if level = 0 then .ok
  else if (level ≤ 2 ∧ 71 < target) ∨ (level = 3 ∧ 16 < target) ∨ (level = 4 ∧ 3 < target) ∨ (5 ≤ level ∧ target ≠ 0) then .range
  else if 5 ≤ level then .ok
  else if m.state = .parked ∧ ((level ≤ 2 ∧ target < 64) ∨ (level = 3 ∧ target < 16) ∨ level = 4) then .busy
  else if level = 4 ∧ (m.partition target).isEmpty = true then .access
  else if level = 3 ∧ target < 16 ∧ bit m.active target = true then .busy
  else if m.resets.any (fun r => m.resetContains r ⟨level, target⟩) then .busy
  else .ok

/-- HUB_RESET_STATUS busy bits. -/
def Mod.syncResets (m : Mod) : Mod :=
  let on := fun (p : ResetRun → Bool) => b2n (m.resets.any p)
  ((m.setFld F.HUB_RESET_STATUS_CORE_BUSY (on (fun r => r.level ≤ 2))).setFld F.HUB_RESET_STATUS_CLUSTER_BUSY (on (fun r => r.level == 3))).setFld
    F.HUB_RESET_STATUS_PARTITION_BUSY (on (fun r => r.level == 4))

/-- A reset ends with a result: LAST fields and event 0x0C04; its duration is free. -/
def Mod.resetEnds (m : Mod) (r : ResetRun) (st : Status) : Mod :=
  let (m, d) := m.draw
  let t := Config.freeNat d % 2 ^ 24
  let m : Mod := { m with resets := m.resets.erase r }
  let m := (m.setFld F.HUB_RESET_STATUS_LAST_LEVEL r.level).setFld F.HUB_RESET_STATUS_LAST_TARGET r.target
  let m := (m.setFld F.HUB_RESET_STATUS_LAST_RESULT st.toNat).setFld F.HUB_RESET_STATUS_LAST_TIME t
  m.syncResets.raise 0x0C04 (d1 r.level ++ d1 r.target ++ d1 st.toNat ++ d4 t)

/-- A core stops: its open accesses are absorbed (16 R431). -/
def Mod.absorbCore (m : Mod) (p : Agent → Bool) : Mod :=
  { m with uncached := m.uncached.filter (fun x => !p x.ag), coreq := m.coreq.filter (fun x => !p x.ag),
           lines := m.lines.map (fun l => match l.access with
             | some x => if p x.ag then { l with access := none } else l
             | none => l) }

/-- A core reset (16 R433). -/
def Mod.coreReset (m : Mod) (clean : Bool) (t : Nat) : Mod :=
  if t < 64 then
    (m.absorbCore (fun ag => match ag with
      | .tc d j => 4 * d.val + j.val == t
      | _ => false)).loseAgent (Fin.ofNat 65 t) clean
  else
    let c := t - 64
    let m := m.absorbCore (fun ag => match ag with
      | .ac i => i.val == c
      | _ => false)
    if clean then m.flushL1 c else m.poisonL1 c

/-- A test on a die ends before its time (19 Table 19.6). -/
def Mod.abortTest (m : Mod) (d : Nat) : Mod :=
  match m.tests.find? (fun t => t.1 == d) with
  | none => m
  | some (_, op) =>
    let m : Mod := { m with tests := m.tests.filter (fun t => t.1 != d) }
    let m := (m.setFld F.DT_STATUS_BUSY 0 0 d).setFld F.DT_STATUS_DONE 1 0 d
    let m := (m.setFld F.DT_STATUS_PASS 0 0 d).setFld F.DT_STATUS_STANDALONE 0 0 d
    let m := m.setFld F.DT_STATUS_OUTCOME Status.aborted.toNat 0 d
    m.raise 0x0C09 (d1 d ++ d1 op ++ d1 Status.aborted.toNat ++ d1 0)

/-- The ECD_ block of a die returns to its reset values and its SRAM is lost (16 Tables 16.5, 16.8; 08 R249). -/
def Mod.resetDie (m : Mod) (d : Nat) : Mod :=
  let m := (m.sramOf d).ywait.foldl (fun m w => m.emit (.compl w.src .fenced [])) m
  ((m.modSram d (fun _ => {})).resetRange (0x710000000000 + d * 0x1000000) (0x710001000000 + d * 0x1000000)).loseArray d

/-- A compute die goes down for a cluster or partition reset (16 R434, Table 16.6): dirty lines are written back, its port enters
Slate with cause 3, and the die leaves PRESENT until its repair has run (03 R66). -/
def Mod.dieDown (m : Mod) (d : Nat) : Mod :=
  let m := (tileAgents d).foldl (fun m a => m.loseAgent a true) (m.abortTest d)
  let m : Mod := { m with active := m.active &&& (0xFFFF ^^^ 2 ^ d), heldDies := m.heldDies &&& (0xFFFF ^^^ 2 ^ d) }
  (((m.enterSlate d 3).resetDie d)).setFld F.HUB_DIE_MASK_PRESENT (putBits (m.fld F.HUB_DIE_MASK_PRESENT) d 1 0)

/-- The context of a partition is aborted and its execution state reset (16 R435, Table 16.8). -/
def Mod.resetContext (m : Mod) (q : Nat) : Mod :=
  let m := (((m.modCtx q (fun c => { c with abortReq := true })).abortTaken q).detach q).abortComplete q
  (m.discardRing q).clearLoops q |>.modCtx q (fun _ => {})

/-- The agents that may write HUB_RESET_CMD (16 R439). -/
def resetAgent : Agent → Bool
  | .ac _ | .rt _ | .fabMgmt => true
  | _ => false

/-- A core, cluster or partition reset begins (16 R432-R437); `who`: class code of the requester. -/
def Mod.startReset (m : Mod) (level target who : Nat) : Mod :=
  let run : ResetRun := ⟨level, target⟩
  let m := (m.resets.filter (fun r => m.resetContains run r)).foldl (fun m r => m.resetEnds r .aborted) m
  let m := m.raise 0x0C03 (d1 level ++ d1 target ++ d1 who)
  let m :=
    if level ≤ 2 then m.coreReset (level == 1) target
    else if level = 3 then
      (if target < 16 then m.dieDown target
       else (m.absorbCore (fun ag => match ag with
         | .ac _ => true
         | _ => false)).loseAgent (Fin.ofNat 65 64) true)
    else
      let ds := m.partition target
      (ds.foldl (fun m d => m.dieDown d) (m.resetContext target)).modCtx target (fun _ => {})
  { m with resets := m.resets ++ [run] }.syncResets

/-- HUB_RESET_CMD.FINISH: the oldest firmware phase ends (16 R435, R437, Table 16.9). -/
def Mod.finishReset (m : Mod) (runs : List DieRun) : Mod :=
  match m.resets.find? (fun r => 3 ≤ r.level) with
  | none => m
  | some r =>
    let m :=
      if r.level = 4 then
        let ds := m.partition r.target
        (((m.diesUp ds runs).outOfServiceNow ds).latchActive ds).modCtx r.target (fun _ => {})
      else if r.target < 16 then m.diesUp [r.target] runs
      else m
    m.resetEnds r .ok

/-- A write of HUB_RESET_CMD (16 R439): the write completes before the reset it starts begins. A module reset supersedes every other
reset (Table 16.7). -/
def Mod.resetCmd (m : Mod) (ag : Agent) (v : Nat) (b : BootIn) (runs : List DieRun) : Mod × Status :=
  let level := bits v 0 3
  let target := bits v 8 7
  let finish := bit v 15
  let rt := match ag with
    | .rt _ => true
    | _ => false
  let st := if !resetAgent ag || (finish && !rt) then Status.access else m.resetStatus level target
  let m := m.setFld F.HUB_RESET_STATUS_RESULT st.toNat
  if st ≠ .ok then (m, st)
  else if 5 ≤ level then (m.moduleBoot 0x09 (level == 6) b, .ok)
  else
    let m := if level = 0 then m else m.startReset level target (classOf ag)
    (if finish then m.finishReset runs else m, .ok)

/-- A reset written by an agent: 01 R27 first. -/
def Mod.resetRow (m : Mod) (ag : Agent) (v : Nat) (b : BootIn) (runs : List DieRun) : Mod :=
  m.byAgent ag (F.HUB_RESET_CMD_LEVEL.addr 0 0) (fun m => m.resetCmd ag v b runs)

def noBoot : BootIn := { puf := true, hubSig := 0, mgdSig := 0, mp := true }

/-- Requests to a unit under reset that are still open complete with ST_FENCED (16 R431). -/
def Mod.drainLimit (m : Mod) (level target : Nat) : Mod :=
  if !m.resets.contains ⟨level, target⟩ then m
  else
    let ds := if level = 4 then m.partition target else if level = 3 ∧ target < 16 then [target] else []
    let hit := fun (r : Nat × DirReq) => match r.2 with
      | .nc x => (match sramAt x.addr with
        | some (arr, _) => ds.contains arr
        | none => false)
      | _ => false
    let gone := (m.retry ++ m.reqSrc).filter hit
    let m : Mod := { m with retry := m.retry.filter (fun r => !hit r), reqSrc := m.reqSrc.filter (fun r => !hit r) }
    let m := gone.foldl (fun m r => match r.2 with
      | .nc x => m.emit (.compl x.src .fenced [])
      | _ => m) m
    ds.foldl (fun m d =>
      let ws := (m.sramOf d).ywait
      ws.foldl (fun m w => m.emit (.compl w.src .fenced [])) (m.modSram d (fun s => { s with ywait := [] }))) m

end Sys2Proof.Machine
end

