-- ==== Sys2Proof/Machine/Power.lean ====
section
/-! DEFINITION. The supply, the sideband pins and the module power states (02; 17 R440-R446), the power cap (R447-R450), temperatures,
throttle and trip (R451-R456). -/

namespace Sys2Proof.Machine

open Sys2Proof

/-! ## Power-up (02 R42, R43, Table 02.6; 17 R441) -/

/-- Rails of the power-up groups in the order of 17 Table 17.2. -/
def railGroups : List (List Nat) :=
  [[20, 21, 22], [27], [23, 24, 25, 26], [16, 17, 18, 19], List.range 16]

/-- The island acts on MOD_PWR_EN when it may (02 R42). -/
def Mod.tryStart (m : Mod) : Mod :=
  if m.islandReady ∧ m.pwrEn ∧ m.vinOk ∧ m.enIgnored = false ∧ m.tripped = false ∧ m.state = .standby then
    { m with state := .powerUp, railGroup := 0, tripBlink := false }
  else m

def Mod.setRails (m : Mod) (rs : List Nat) (on : Bool) : Mod := rs.foldl (fun m r => m.setFld F.PWR_RAIL_ON (b2n on) 0 r) m

/-- A rail group reaches regulation (17 R441): after the last one MOD_PWRGD rises, and the power-on boot starts unless MOD_RST_N is
low (02 R43). -/
def Mod.railGroupUp (m : Mod) (b : BootIn) : Mod :=
  if m.state ≠ .powerUp then m
  else
    let g := (nth railGroups m.railGroup []).filter (fun r => m.fld F.PWR_RAIL_FAULT 0 r == 0)
    let m : Mod := { m.setRails g true with railGroup := m.railGroup + 1 }
    if m.railGroup < 5 then m
    else
      let m : Mod := { m with pwrgd := true, powerOnBoot := true }
      if m.rstN then m.bootStart false true b else m

/-! ## Power-down -/

/-- An input fault (02 R34). -/
def Mod.inputFault (m : Mod) (high : Bool) : Mod :=
  let m : Mod := { m with vinOk := high }
  if !m.powered then m
  else
    let m : Mod := { m with alert := m.alert ||| 8, enIgnored := true, statusLatch := m.statusLatch ||| (if high then 0x2000 else 0x2008) }
    (m.recordCause (if high then 0x04 else 0x03)).toStandby

/-- Every context is aborted (17 R446). -/
def Mod.abortAll (m : Mod) : Mod :=
  (List.range 4).foldl (fun m q => (((m.modCtx q (fun c => { c with abortReq := true })).abortTaken q).detach q).abortComplete q) m

/-- Tile cores write back their dirty lines, and the directory removes agents 0-63 (17 R445, 11 Table 11.7). -/
def Mod.tilesBack (m : Mod) : Mod := (List.range 64).foldl (fun m a => m.loseAgent (Fin.ofNat 65 a) true) m

/-- A rail fault (17 R442): 1 outside its setpoint, 2 phase current, 3 no regulation; 0 is no fault. The hub reports at once a rail whose
fault leaves it running (DEDUCED, log 205). -/
def Mod.railFault (m : Mod) (r kind : Nat) : Mod :=
  if !m.powered || kind == 0 then m
  else
    let m := (m.setFld F.PWR_RAIL_FAULT 1 0 r).setFld F.PWR_RAIL_ON 0 0 r
    let dies := if r < 16 then [r] else (List.range 4).map (fun i => 4 * (r - 16) + i)
    if r < 20 then
      (if m.state = .powerUp ∨ m.state = .parked then m
       else dies.foldl (fun m d => m.enterSlate d 1) (m.raise 0x0D0A (d1 r ++ d1 kind)))
    else if 28 ≤ r then
      let d := r - 28
      let m := if m.state = .powerUp then m else m.raise 0x0D0A (d1 r ++ d1 kind)
      let m : Mod := { m with dark := m.dark ++ ((List.range 8).map (· + 8 * d)).filter (fun w => !m.dark.contains w) }
      (portsOf d).foldl (fun m p => if m.laneState p = 0 then m else m.darken p 7 7) (m.laserDieOff d)
    else
      (({ m with enIgnored := true, railReport := some (r, kind) } : Mod).recordCause 0x0F r kind).toStandby

/-! ## MOD_RST_N (02 R45) -/

def Mod.rstAssert (m : Mod) : Mod :=
  let m : Mod := { m with rstN := false }
  if m.pwrgd then { (m.moduleReset) with powerOnBoot := m.powerOnBoot, state := .reset } else m

def Mod.rstRelease (m : Mod) (b : BootIn) : Mod :=
  let m : Mod := { m with rstN := true, taps := List.replicate 18 .idcode, stack := 0 }
  if !m.pwrgd then m
  else if m.powerOnBoot then m.bootStart false true b
  else (m.recordCause 0x08).bootStart false false b

/-! ## Laser interlock (02 R48, R49; 13 R359; 17 R441) -/

/-- LASER_EN_N is deasserted: the emitters go out, and every port goes down with cause "interlock". -/
def Mod.laserOff (m : Mod) : Mod :=
  let m : Mod := { m with laserLow := false, laserQual := false, laserOk := false, warming := [] }
  (((m.setRails [28, 29] false).laserDieOff 0).laserDieOff 1).interlock (List.range 10)

/-! ## Power states (17 R443-R446) -/

/-- Contexts whose partition exists. -/
def Mod.partitions (m : Mod) : List Nat := (List.range 4).filter (fun q => !(m.partition q).isEmpty)

def Mod.gated (m : Mod) (q : Nat) : Bool := bit (m.fld F.PWR_IDLE_GATED) q

/-- A request for PARKED is refused (17 R445). -/
def Mod.parkBusy (m : Mod) : Bool :=
  m.ctxs.any (fun c => !c.ops.isEmpty) || !m.resets.isEmpty || m.sram.any (fun a => a.march.isSome || !a.wakes.isEmpty)

/-- A write of PWR_STATE.REQ (17 R443, R445, R446, Table 17.7). -/
def Mod.pwrReq (m : Mod) (req who : Nat) : Mod × Status :=
  if req = 0 then (m, .ok)
  else
    let up := m.state == .active || m.state == .idle
    let moving := m.state == .parked && m.fld F.PWR_STATE_STATE != 2
    let st := if moving then Status.busy
      else if req = 2 ∧ up ∧ m.parkBusy = true then .busy
      else if !up && m.state != .parked then .busy
      else .ok
    let m := m.setFld F.PWR_STATE_RESULT st.toNat
    if st ≠ .ok then (m, st)
    else if req = 1 then
      (if m.state = .parked then { m.setFld F.PWR_STATE_STATE 4 with pwrWho := who } else m, .ok)
    else if req = 2 then
      (if m.state = .parked then m
       else
         let m := (List.range 16).foldl (fun m d => m.abortTest d) m.tilesBack
         let m := (List.range 16).foldl (fun m d =>
           (List.range 32).foldl (fun m i => m.setReg (F.BANK_STATE_ST.addr d i) 0xAAAAAAAAAAAAAAAA) (m.loseArray d)) m
         { m.setFld F.PWR_STATE_STATE 3 with state := .parked, pwrWho := who }, .ok)
    else
      let m := (m.abortAll.tilesBack).loseAgent (Fin.ofNat 65 64) true
      ((({ m with enIgnored := true } : Mod).recordCause 0x01).toStandby who, .ok)

/-- The entry into PARKED ends (17 R445, R438; 13 R380; 09 R265). -/
def Mod.parkedEntry (m : Mod) : Mod :=
  if m.state ≠ .parked ∨ m.fld F.PWR_STATE_STATE ≠ 3 then m
  else
    let was := if m.partitions.all m.gated then 4 else 3
    let m := m.setRails (List.range 20) false
    let m := (List.range 16).foldl (fun m d =>
      let m := m.modDport d (fun _ => {})
      let m := (m.setFld F.D2D_STATUS_STATE 0 d).resetDie d
      (List.range 32).foldl (fun m i => m.setReg (F.BANK_STATE_ST.addr d i) 0xAAAAAAAAAAAAAAAA) (m.syncUnits d)) m
    let m := (List.range 24).foldl (fun m k =>
      if m.fld F.MC_CTL_ENABLE k = 1 ∧ m.fld F.MC_CTL_FAILED k = 0 then m.modMc k (fun c => { c with selfRefresh := true }) else m) m
    let m := (List.range 10).foldl (fun m p => m.txSleep p) m
    (m.setFld F.PWR_STATE_STATE 2).raise 0x0D01 (d1 was ++ d1 5 ++ d1 m.pwrWho)

/-- The exit from PARKED ends (17 R445): the compute dies are back, and contexts may fetch. -/
def Mod.parkedExit (m : Mod) (runs : List DieRun) : Mod :=
  if m.state ≠ .parked ∨ m.fld F.PWR_STATE_STATE ≠ 4 then m
  else
    let m := (List.range 16).foldl (fun m d => (m.loseArray d).setBanks d 0) (m.setRails (List.range 20) true)
    let m := m.diesUp (List.range 16) runs
    let m : Mod := { m with active := m.active &&& m.fld F.HUB_DIE_MASK_PRESENT }
    let m := (List.range 24).foldl (fun m k =>
      if m.fld F.MC_THERM_STEP k = 3 then m else m.modMc k (fun c => { c with selfRefresh := false })) m
    ((m.setFld F.PWR_STATE_STATE 0).setFld F.PWR_IDLE_GATED 0).toState .active m.pwrWho

/-- A partition's array clocks are gated (17 R444): its tiles hold no fragment. -/
def Mod.clockGate (m : Mod) (q : Nat) : Mod :=
  if m.fld F.PWR_IDLE_GATE_US = 0 ∨ (m.partition q).isEmpty = true ∨ m.gated q = true ∨
      (m.ctx q).ops.any (fun o => o.st == .dispatched) = true ∨ m.state ≠ .active then m
  else
    let m := m.setFld F.PWR_IDLE_GATED (m.fld F.PWR_IDLE_GATED ||| 2 ^ q)
    if m.partitions.all m.gated then (m.setFld F.PWR_STATE_STATE 1).toState .idle else m

/-- A partition's array clocks are ungated (17 R444). -/
def Mod.clockUngate (m : Mod) (q : Nat) : Mod :=
  if m.gated q = false then m
  else
    let m := m.setFld F.PWR_IDLE_GATED (m.fld F.PWR_IDLE_GATED &&& (0xF ^^^ 2 ^ q))
    if m.state = .idle then (m.setFld F.PWR_STATE_STATE 0).toState .active else m

/-! ## Power cap (17 R449, R450) -/

/-- The loop level after a period with peak power `p` (17 R449). -/
def capLevel (p cap w l : Nat) : Nat :=
  if cap < p then
    (if l < 12 then min 12 (l + ceilDiv (p - cap) w) else min 24 (l + 1))
  else if 12 < l ∧ 4 * p + w ≤ 4 * cap then l - 1
  else if 1 ≤ l ∧ l ≤ 12 ∧ p + w ≤ cap then l - 1
  else l

def Mod.capTick (m : Mod) (p avg : Nat) : Mod :=
  if m.pwrgd = false ∨ m.state = .parked then m
  else
    let l := capLevel p (m.fld F.PWR_CAP_WATTS) (m.fld F.PWR_CAP_STEP_W) (m.fld F.PWR_STATUS_LEVEL)
    let was := m.fld F.PWR_STATUS_LIMITING
    let oldGate := m.fld F.PWR_STATUS_GATE
    let m := (m.setFld F.PWR_STATUS_LEVEL l).setFld F.PWR_STATUS_CAP_N (16 - min l 12)
    let m := (m.setFld F.PWR_STATUS_GATE (l - 12)).setFld F.PWR_STATUS_LIMITING (b2n (decide (0 < l)))
    let m := (m.setFld F.PWR_STATUS_INPUT_W avg).setFld F.PWR_STATUS_PEAK_W p
    let m := if was ≠ b2n (decide (0 < l)) then m.raise 0x0D02 (d1 l ++ d2 p) else m
    if (oldGate == 0) != (l - 12 == 0) then m.raise 0x0D03 (d1 (l - 12) ++ d2 p) else m

/-- The ACLK step in force of ECDn (17 R447). -/
def Mod.aclkStep (m : Mod) (n : Nat) : Nat :=
  min (min (m.fld F.PWR_STATUS_CAP_N) (m.fld F.THM_TEMP_CEILING 0 (n + 1))) (min (m.fld F.THM_TEMP_CEILING 0 0) (m.fld F.PWR_ACLK_MAX))

/-! ## Temperatures (17 R451-R455) -/

/-- Sensors whose die moves the module ceiling (17 R453). -/
def moduleSensors : List Nat := [0, 17, 18, 19]

/-- What is known of a sensor in this sample: its reading and whether it has failed. -/
def Mod.sensorAt (m : Mod) (ss : List Sensor) (i : Nat) : Int × Bool :=
  match ss[i]? with
  | some s => (s.raw.toInt, s.failed)
  | none => (signed 16 (m.fld F.THM_TEMP_READING 0 i), m.fld F.THM_TEMP_FAILED 0 i == 1)

/-- The substitute of the hub's or the management die's sensor (17 R454): reading and the neighbour used; none when both have failed. -/
def Mod.substitute (m : Mod) (ss : List Sensor) (i : Nat) : Option (Int × Nat) :=
  let pick := fun (a b : Nat) =>
    let (ra, fa) := m.sensorAt ss a
    let (rb, fb) := m.sensorAt ss b
    if fa && fb then none
    else if fa then some (rb + 160, b)
    else if fb then some (ra + 160, a)
    else if ra < rb then some (rb + 160, b) else some (ra + 160, a)
  if i = 0 then pick (m.fld F.THM_SUBST_HUB_A) (m.fld F.THM_SUBST_HUB_B)
  else if i = 17 then pick (m.fld F.THM_SUBST_MGD_A) (m.fld F.THM_SUBST_MGD_B)
  else none

/-- Set a die's ceiling, or the module ceiling. -/
def Mod.setCeiling (m : Mod) (i v : Nat) : Mod :=
  if moduleSensors.contains i then moduleSensors.foldl (fun m j => m.setFld F.THM_TEMP_CEILING v 0 j) m else m.setFld F.THM_TEMP_CEILING v 0 i

/-- The step in force that a ceiling starts to fall from (17 R453). -/
def Mod.stepInForce (m : Mod) (i : Nat) : Nat :=
  if moduleSensors.contains i then ((List.range 16).map m.aclkStep).foldl max 0 else m.aclkStep (i - 1)

/-- WARN and THROTTLE of a die at a reading (17 R452, R453). -/
def Mod.thermal (m : Mod) (i : Nat) (t : Int) : Mod :=
  let raw := unsigned 16 t
  let hyst := (m.fld F.THM_LIMITS_HYST : Int)
  let enters := fun (lim : Nat) => decide ((lim : Int) * 16 ≤ t)
  let leaves := fun (lim : Nat) => decide (t ≤ ((lim : Int) - hyst) * 16)
  let warn := m.fld F.THM_LIMITS_WARN
  let thr := m.fld F.THM_LIMITS_THROTTLE
  let inWarn := m.fld F.THM_TEMP_WARN 0 i == 1
  let inThr := m.fld F.THM_TEMP_THROTTLE 0 i == 1
  let m := if !inWarn && enters warn then (m.setFld F.THM_TEMP_WARN 1 0 i).raise 0x0D04 (d1 i ++ d2 raw)
    else if inWarn && leaves warn then (m.setFld F.THM_TEMP_WARN 0 0 i).raise 0x0D04 (d1 i ++ d2 raw) else m
  if !inThr && enters thr then
    let m := m.setCeiling i (min (m.fld F.THM_TEMP_CEILING 0 i) (m.stepInForce i))
    (m.setFld F.THM_TEMP_THROTTLE 1 0 i).raise 0x0D05 (d1 i ++ d2 raw ++ d1 (m.fld F.THM_TEMP_CEILING 0 i))
  else if inThr && leaves thr then
    (m.setFld F.THM_TEMP_THROTTLE 0 0 i).raise 0x0D05 (d1 i ++ d2 raw ++ d1 (m.fld F.THM_TEMP_CEILING 0 i))
  else m

/-- One die's sample (17 R451-R454). -/
def Mod.sensor (m : Mod) (ss : List Sensor) (i : Nat) (s : Sensor) : Mod :=
  let sub := if s.failed then m.substitute ss i else none
  let was := m.fld F.THM_TEMP_FAILED 0 i == 1
  let m := (m.setFld F.THM_TEMP_FAILED (b2n s.failed) 0 i).setFld F.THM_TEMP_TRIP_DIS (b2n s.failed) 0 i
  let m := m.setFld F.THM_TEMP_SUBSTITUTED (b2n sub.isSome) 0 i
  let thr := (m.fld F.THM_LIMITS_THROTTLE : Int) * 16
  let t := if s.failed then (match sub with
      | some (r, _) => r
      | none => thr) else s.raw.toInt
  let m := m.setFld F.THM_TEMP_READING (match sub with
    | some (r, _) => unsigned 16 r
    | none => s.raw.toNat) 0 i
  let m :=
    if s.failed && !was then
      let (m, none_) := m.drawBytes 1
      m.raise 0x0D06 (d1 i ++ d2 s.raw.toNat ++ (match sub with
        | some (_, n) => d1 n
        | none => none_))
    else m
  m.thermal i t

def Mod.sensorSample (m : Mod) (ss : List Sensor) : Mod :=
  if m.pwrgd = false then m
  else (List.range 20).foldl (fun m i => match ss[i]? with
    | some s => m.sensor ss i s
    | none => m) m

/-- A thermal ceiling moves one step (17 R453). -/
def Mod.ceilingStep (m : Mod) (i : Nat) : Mod :=
  if m.pwrgd = false then m
  else
    let c := m.fld F.THM_TEMP_CEILING 0 i
    let hot := if moduleSensors.contains i then moduleSensors.any (fun j => m.fld F.THM_TEMP_THROTTLE 0 j == 1)
      else m.fld F.THM_TEMP_THROTTLE 0 i == 1
    if hot then (if m.fld F.THM_CTL_FLOOR < c then m.setCeiling i (c - 1) else m)
    else m.setCeiling i (min 16 (c + 1))

/-- A coolant thermistor's reading (17 R451): below -20 °C or above 150 °C its sensor is failed, and its first failed sample is reported; it
has no substitute (R454; DESIGN CHOICE, log 204). -/
def Mod.thermistor (m : Mod) (i : Nat) (r : BitVec 16) : Mod :=
  let bad := decide (r.toInt < -320) || decide (2400 < r.toInt)
  let was := m.fld F.THM_TEMP_FAILED 0 i == 1
  let m := (m.setFld F.THM_TEMP_READING r.toNat 0 i).setFld F.THM_TEMP_FAILED (b2n bad) 0 i
  if bad && !was then
    let (m, d) := m.drawBytes 1
    m.raise 0x0D06 (d1 i ++ d2 r.toNat ++ d)
  else m

/-- The coolant thermistors (17 R451, R455). -/
def Mod.coolantSample (m : Mod) (inlet outlet : BitVec 16) : Mod :=
  let a := inlet.toInt
  let b := outlet.toInt
  let m : Mod := { m with coolant := some (a, b) }
  if m.pwrgd = false then m
  else
    let m := (m.thermistor 20 inlet).thermistor 21 outlet
    if !m.coolantBad && (decide (640 < a) || decide (1040 < b)) then
      ({ m with coolantBad := true } : Mod).raise 0x0D08 (d2 inlet.toNat ++ d2 outlet.toNat)
    else if m.coolantBad && decide (a ≤ 608) && decide (b ≤ 1008) then { m with coolantBad := false }
    else m

/-- A die comparator trips (17 R456; 02 R46). `i` as in THM_TEMPi. -/
def Mod.trip (m : Mod) (i : Nat) : Mod :=
  if !m.powered || m.fld F.THM_TEMP_TRIP_DIS 0 i == 1 then m
  else
    let m : Mod := { m with tripped := true, tripBlink := true, alert := m.alert ||| 4, tripReport := some i, enIgnored := true }
    (m.recordCause 0x06 i).toStandby

end Sys2Proof.Machine
end

