-- ==== Sys2Proof/Machine/Selftest.lean ====
section
/-! DEFINITION. Die tests, the LPDDR field test and the test access ports (19). -/

namespace Sys2Proof.Machine

open Sys2Proof

/-! ## Die tests (19 R473-R479) -/

/-- A write of DT_CMD (19 R474, Table 19.1). -/
def Mod.dtCmd (m : Mod) (n op : Nat) : Mod × Status :=
  let st :=
    if 16 ≤ n ∨ 5 ≤ op then Status.access
    else if op = 0 then .ok
    else if bit m.active n || m.resets.any (fun r => m.resetContains r ⟨3, n⟩) || m.tests.any (fun t => t.1 == n) || m.state == .parked then .busy
    else .ok
  let m := m.setFld F.DT_STATUS_RESULT st.toNat 0 n
  if st ≠ .ok ∨ op = 0 then (m, st)
  else
    let m := (({ m with tests := m.tests ++ [(n, op)] } : Mod).setFld F.DT_STATUS_BUSY 1 0 n).setFld F.DT_STATUS_LAST_OP op 0 n
    ((m.setFld F.DT_STATUS_STANDALONE (b2n (op == 4)) 0 n).enterSlate n 3, .ok)

/-- A test ends (19 R475, R476): the die stays in Slate with its ECD_ block reset, so it is not PRESENT until its repair has run (03 R66); memory BIST leaves its SRAM 0, any other test
undefined. A field logic BIST that passes counts for the service command that returns a die (15 Table 15.9). -/
def Mod.dieTestEnd (m : Mod) (d : Nat) (sig : Word) : Mod :=
  match m.tests.find? (fun t => t.1 == d) with
  | none => m
  | some (_, op) =>
    let pass := m.reg (F.DT_EXPECT_EXPECT.addr 0 d) == sig
    let m := ({ m with tests := m.tests.filter (fun t => t.1 != d) } : Mod).resetDie d
    let m := m.setFld F.HUB_DIE_MASK_PRESENT (putBits (m.fld F.HUB_DIE_MASK_PRESENT) d 1 0)
    let m := if op = 3 then m.refillArray d .zero else m
    let m : Mod := if op = 2 ∧ pass ∧ bit m.outOfService d then { m with bistPassed := m.bistPassed ||| 2 ^ d } else m
    let m := ((m.setReg (F.DT_SIG_SIG.addr 0 d) sig).setFld F.DT_STATUS_BUSY 0 0 d).setFld F.DT_STATUS_DONE 1 0 d
    let m := (m.setFld F.DT_STATUS_OUTCOME 0 0 d).setFld F.DT_STATUS_PASS (b2n pass) 0 d
    (m.setFld F.DT_STATUS_STANDALONE 0 0 d).raise 0x0C09 (d1 d ++ d1 op ++ d1 0 ++ d1 (b2n pass))

/-- A write of DT_EXPECT (19 Table 19.1, R478): PASS is recomputed; a boot stops when the hub or the management die then shows 0. -/
def Mod.dtExpect (m : Mod) (n : Nat) (w : Word) : Mod :=
  let m := m.setReg (F.DT_EXPECT_EXPECT.addr 0 n) w
  let pass := m.fld F.DT_STATUS_LAST_OP 0 n != 0 && m.fld F.DT_STATUS_BUSY 0 n == 0 && m.fld F.DT_STATUS_OUTCOME 0 n == 0 &&
    m.reg (F.DT_SIG_SIG.addr 0 n) == w
  let m := m.setFld F.DT_STATUS_PASS (b2n pass) 0 n
  if 16 ≤ n ∧ pass = false ∧ (m.state = .boot ∨ m.state = .reset) ∧ m.bootStopped = false then
    { m.recordCause (if n = 16 then 0x10 else 0x11) with bootStopped := true, bistStop := true }
  else m

/-! ## LPDDR field test (19 R481, Table 19.3) -/

/-- The contents of a page range become undefined, but for retired pages. -/
def Mod.losePages (m : Mod) (k first last : Nat) : Mod :=
  ((List.range (last + 1 - first)).map (· + first)).foldl (fun m p =>
    if m.pageRetired k p then m else m.lose (100000 + k * 32768 + p)) m

/-- A write of MC_FTEST: `v` merged with the fields held. -/
def Mod.ftest (m : Mod) (k v : Nat) : Mod × Status :=
  let go := bit v 0
  let st :=
    if bits v 48 2 = 3 then Status.access
    else if go = false then .ok
    else if bits v 32 15 < bits v 16 15 ∨ 28416 ≤ bits v 32 15 then .range
    else if m.ftests.contains k ∨ m.fld F.MC_CTL_ENABLE k = 0 then .busy
    else .ok
  let m := if go then m.setFld F.MC_FTEST_RESULT st.toNat k else m
  if st ≠ .ok then (m, st)
  else
    let m := (m.setFld F.MC_FTEST_FIRST (bits v 16 15) k).setFld F.MC_FTEST_LAST (bits v 32 15) k
    let m := m.setFld F.MC_FTEST_PATTERN (bits v 48 2) k
    let m := if bit v 2 then m.setFld F.MC_FTEST_FAIL 0 k else m
    if go then
      (({ m with ftests := m.ftests ++ [k] } : Mod).setFld F.MC_FTEST_BUSY 1 k |>.losePages k (bits v 16 15) (bits v 32 15), .ok)
    else (m, .ok)

def Mod.ftestEnd (m : Mod) (k : Nat) (fail : Bool) : Mod :=
  if !m.ftests.contains k then m
  else
    let m := ({ m with ftests := m.ftests.filter (· != k) } : Mod).setFld F.MC_FTEST_BUSY 0 k
    let m := if fail then m.setFld F.MC_FTEST_FAIL 1 k else m
    m.losePages k (m.fld F.MC_FTEST_FIRST k) (m.fld F.MC_FTEST_LAST k)

/-! ## Test access ports (19 Table 19.5, R482) -/

/-- A port is in the chain: the hub's, or one that STACK_SELECT chose. -/
def Mod.tapChained (m : Mod) (t : Tap) : Bool := t.val == 16 || bit m.stack (if t.val = 17 then 16 else t.val)

/-- The device identification register (19 Table 19.5). -/
def idCode (t : Tap) : Nat :=
  0x10000000 + (if t.val = 16 then 0x4C20 else if t.val = 17 then 0x4C22 else 0x4C21) * 0x1000 + Config.jep106.toNat * 2 + 1

/-- An instruction reaches a port: those that drive or select take effect only while MOD_RST_N is low and MOD_PWRGD high, and act as
BYPASS otherwise (19 R482). -/
def Mod.tapLoad (m : Mod) (t : Tap) (i : TapInstr) (sel : Nat) : Mod :=
  let held := match i with
    | .extest | .clamp | .highz | .stackSelect => true
    | _ => false
  if m.pwrgd = false ∨ m.tapChained t = false then m
  else
    let i := if held && m.rstN then .bypass else i
    let m : Mod := { m with taps := modNth m.taps t.val (fun _ => i), stack := if i = .stackSelect then sel else m.stack }
    m.emit (.tap t i (if i = .idcode then idCode t else 0))

end Sys2Proof.Machine
end

