-- ==== Sys2Proof/Machine/Regs.lean ====
section
/-! DEFINITION. Register accesses: where an address of the register regions leads (00 R7, R8; 01 R24-R27; 14 Table 14.5; 17 R445), what
a read returns, what a write does to each register (00 Table 00.3, R11, R485, R486, and the register tables of each chapter), and the
commands that write the registers of the hub. -/

namespace Sys2Proof.Machine

open Sys2Proof

/-! ## Fields (00 Table 00.3) -/

/-- Bits of the register that fields of some access types name. -/
def RegD.bitsOf (d : RegD) (p : Acc → Bool) : Word :=
  d.fields.foldl (fun v f => if p f.acc then v ||| BitVec.ofNat 64 f.mask else v) 0

/-- Bits that keep their value unless written: RW and RWL. -/
def Acc.plain : Acc → Bool
  | .rw | .rwl => true
  | _ => false

/-- Bits whose written value is an order: WO, W1C, W1S. -/
def Acc.order : Acc → Bool
  | .wo | .w1c | .w1s => true
  | _ => false

/-- The value a write asks for: bytes the access does not reach keep theirs (00 R7). -/
def RegD.asked (d : RegD) (old v mask : Word) : Word :=
  let plain := d.bitsOf Acc.plain
  (old &&& plain &&& ~~~mask) ||| (v &&& mask &&& (plain ||| d.bitsOf Acc.order))

/-- What a register holds after an accepted write that has no other effect (00 Table 00.3, R11). -/
def RegD.stored (d : RegD) (locked : Bool) (old v mask : Word) : Word :=
  let rw := d.bitsOf (fun a => a == .rw || (a == .rwl && !locked))
  let w1c := d.bitsOf (fun a => a == .w1c)
  let w1s := d.bitsOf (fun a => a == .w1s)
  let w := v &&& mask
  (((old &&& ~~~(rw &&& mask)) ||| (w &&& rw)) &&& ~~~(w &&& w1c)) ||| (w &&& w1s)

/-- The lock bit over a register's RWL fields holds (00 R11). PROT15 of a compute die has none (16 R426). -/
def Mod.locked (m : Mod) (n : RegName) (i k : Nat) : Bool :=
  match n with
  | .ecdRepairRow | .ecdRepairCol => m.fld F.ECD_REPAIR_CTL_LOCK i == 1
  | .prot => m.fld F.PROT_CTL_LOCK i == 1 && !(k == 15 && i != 16)
  | .fabNode => m.fld F.FAB_NODE_LOCK == 1
  | .thmLimits => m.fld F.THM_CTL_LOCK == 1
  | _ => false

/-! ## Reads -/

/-- A tile holds a fragment: some dispatched operation still waits for the die's report. -/
def Mod.fragmentOn (m : Mod) (d : Nat) : Bool := m.ctxs.any (fun c => c.ops.any (fun o => o.st == .dispatched && o.tiles.contains d))

/-- 03 Table 03.11 ECD_TILE_STATUS. -/
def Mod.tileStatus (m : Mod) (d : Nat) : Nat :=
  let lock := m.fld F.ECD_REPAIR_CTL_LOCK d == 1
  let frag := m.fragmentOn d
  let gated := m.state == .idle || m.state == .parked || !bit m.active d || m.gated (m.partitionOf d)
  m.aclkStep d + b2n (frag && lock) * 2 ^ 8 + b2n gated * 2 ^ 9 + b2n (frag && !lock) * 2 ^ 10

/-- 09 Table 09.9 MC_STATUS. -/
def Mod.mcStatus (m : Mod) (k : Nat) : Nat :=
  m.mcState k + b2n (!(m.mcOf k).remaps.isEmpty && !m.holds k) * 8 +
  (List.range 4).foldl (fun v c => v + m.remapUsed k c * 2 ^ (16 + 9 * c)) 0 + m.retireUsed k * 2 ^ 52

/-- The value a read of a register returns: fields that follow other state are computed, measurements are free (17 Table 17.7). A walk of the
directory ends within the command that starts it, so DIR_STATUS.WALKING reads 0 (DESIGN CHOICE, log 191). -/
def Mod.regRead (m : Mod) (b : Block) (i : Nat) (d : RegD) (k : Nat) : Mod × Word :=
  let v := (m.reg (b.base i + d.off + k * d.stride))
  let n := v.toNat
  let val := fun (x : Nat) => (m, BitVec.ofNat 64 x)
  match d.name with
  | .hubDieMask => val (putBits n 32 16 (maskOf ((List.range 16).filter m.portSlate)))
  | .ecdRepairCtl =>
    val (putBits (putBits n 8 4 (m.listed i F.ECD_REPAIR_ROW_VALID F.ECD_REPAIR_ROW_ROW).length) 12 4
      (m.listed i F.ECD_REPAIR_COL_VALID F.ECD_REPAIR_COL_COL).length)
  | .ecdTileStatus => val (m.tileStatus i)
  | .sqStatus => val (m.sqStatus i)
  | .mcStatus => val (m.mcStatus i)
  | .ochStatus => val m.och.length
  | .regLat => val (putBits n 16 3 (m.classPrio (k / 4) (k % 4 + 1)))
  | .dirStatus => val (putBits (putBits n 0 10 m.retry.length) 10 1 (b2n (decide (512 ≤ m.retry.length))))
  | .fabGrt => val (m.grtUsed + (m.fab.grt.filter (·.quarantined)).length * 2 ^ 17 + b2n (!m.fab.stalled.isEmpty) * 2 ^ 34)
  | .mgdRotStatus => val (putBits n 0 1 (b2n m.rot.isSome))
  | .pwrRail =>
    let (m, e) := m.draw
    (m, BitVec.ofNat 64 (putBits (putBits n 0 12 (Config.freeNat e)) 16 12 (Config.freeNat e / 4096)))
  | .pwrLaser =>
    let (m, e) := m.draw
    (m, BitVec.ofNat 64 (putBits n 20 10 (Config.freeNat e)))
  | _ => (m, v)

/-! ## Writes of the hub's own registers -/

/-- Application and real-time cores (15 R419; 18 R463, R468). -/
def mgmtCore : Agent → Bool
  | .ac _ | .rt _ => true
  | _ => false

/-- A context holds a resident operation. -/
def Mod.resident (m : Mod) (q : Nat) : Bool := !(m.ctx q).ops.isEmpty

/-- What keeps the layout and the tile map as they are: a resident operation, a ring that is not empty, or a reset of compute dies that
runs (01 Tables 01.9, 01.12; 03 Table 03.7). -/
def Mod.layoutBusy (m : Mod) : Bool :=
  (List.range 4).any (fun q => m.resident q || m.fld F.SQ_RING_HEAD_HEAD q != m.fld F.SQ_RING_TAIL_TAIL q) ||
  m.resets.any (fun r => r.level == 4 || (r.level == 3 && decide (r.target < 16)))

/-- HUB_PARTITION (01 Table 01.9). -/
def Mod.partitionWrite (m : Mod) (v : Nat) : Mod × Status :=
  let mode := bits v 0 2
  if mode = 3 then (m, .access)
  else if m.layoutBusy then (m, .busy)
  else (m.setFld F.HUB_PARTITION_MODE mode, .ok)

/-- HUB_TILE_MAP (03 Table 03.7). -/
def Mod.tileMapWrite (m : Mod) (v : Nat) : Mod × Status :=
  let dies := (List.range 16).map (fun p => bits v (4 * p) 4)
  if !(List.range 16).all dies.contains then (m, .access)
  else if m.layoutBusy then (m, .busy)
  else (m.setReg (F.HUB_TILE_MAP_DIE.addr 0 0) (BitVec.ofNat 64 v), .ok)

/-- EVQ_BASE (15 Table 15.4): an accepted write empties the queue. -/
def Mod.evqBase (m : Mod) (q v : Nat) : Mod × Status :=
  let lg := bits v 48 4
  let base := bits v 5 43 * 32
  let hub := match sramAt base with
    | some (r, _) => r == 16
    | none => false
  if lg ≠ 0 ∧ (lg < 4 ∨ base % (32 * 2 ^ lg) ≠ 0 ∨ hub = false ∨ memPopulated base (32 * 2 ^ lg) = false) then (m, .access)
  else
    let m := (m.setFld F.EVQ_BASE_ADDR (bits v 5 43) 0 q).setFld F.EVQ_BASE_LOG2_SLOTS lg 0 q
    ((m.setFld F.EVQ_TAIL_TAIL 0 0 q).setFld F.EVQ_HEAD_HEAD 0 0 q, .ok)

/-- EVQ_HEAD (15 Table 15.4). -/
def Mod.evqHead (m : Mod) (q v : Nat) : Mod × Status :=
  let head := v % 2 ^ 32
  if 2 ^ m.fld F.EVQ_BASE_LOG2_SLOTS 0 q < (m.fld F.EVQ_TAIL_TAIL 0 q + 2 ^ 32 - head) % 2 ^ 32 then (m, .access)
  else (m.setFld F.EVQ_HEAD_HEAD head 0 q, .ok)

/-- HUB_FAULT.PENDING and MFR_ALERT_STATUS[4] clear together (18 R468). -/
def Mod.faultClear (m : Mod) : Mod := { m.setFld F.HUB_FAULT_PENDING 0 with alert := m.alert &&& 0xFFEF }

/-- HUB_FAULT (18 R468). -/
def Mod.faultWrite (m : Mod) (ag : Agent) (v : Nat) : Mod × Status :=
  if !mgmtCore ag then (m, .access) else (if bit v 0 then m.faultClear else m, .ok)

/-- Number of a core's staging words (18 R463, Table 18.4). -/
def stageOf : Agent → Nat
  | .ac i => i.val
  | .rt i => 8 + i.val
  | _ => 10

/-- HUB_EVRAISE0-2 (18 Table 18.4): a write of the third word raises the record of the core's three words. -/
def Mod.evraise (m : Mod) (ag : Agent) (word : Nat) (v mask : Word) : Mod × Status :=
  if !mgmtCore ag then (m, .access)
  else
    let (code, lo, hi) := (m.evStage.get? (stageOf ag)).getD (0, 0, 0)
    let merge := fun (old : Nat) => ((BitVec.ofNat 64 old &&& ~~~mask) ||| (v &&& mask)).toNat
    let w := if word = 0 then (merge code % 2 ^ 16, lo, hi) else if word = 1 then (code, merge lo, hi) else (code, lo, merge hi)
    let staged : Mod := { m with evStage := m.evStage.set (stageOf ag) w }
    if word < 2 then (staged, .ok)
    else if !eventClassKnown w.1 then (m, .access)
    else (staged.raiseWith 2 w.1 (d8 w.2.1 ++ d8 w.2.2), .ok)

/-- Status of a write of MGD_ROT_CMD (15 R409, R418, R419, R408). -/
def Mod.rotStatus (m : Mod) (ag : Agent) (op index addr : Nat) : Status :=
  if !mgmtCore ag then .access
  else if op ≠ 1 ∧ op ≠ 2 then .protocol
  else if op = 1 ∧ index < 5 then .access
  else
    match sramAt addr with
    | some (16, _) => if m.rot.isSome then .busy else if op = 2 ∧ m.fld F.MGD_STATUS_PUF_OK = 0 then .access else .ok
    | _ => .access

/-- MGD_ROT_CMD (15 R409, R418, R419): RESULT holds the status of the write (00 R486) until the command that it starts ends. -/
def Mod.rotCmd (m : Mod) (ag : Agent) (op index addr : Nat) : Mod × Status :=
  let st := m.rotStatus ag op index addr
  let m := m.setFld F.MGD_ROT_STATUS_RESULT st.toNat
  (if st = .ok then { m with rot := some (if op = 1 then .extend index addr else .attest addr) } else m, st)

/-- Range checks of PWR_ and THM_ (17 R459, Tables 17.7, 17.8); `v`: the value asked for, `r`: the value the register would hold. -/
def powerCheck (n : RegName) (v r : Nat) : Status :=
  let ok := match n with
    | .pwrCap => decide (1200 ≤ bits v 0 12 ∧ bits v 0 12 ≤ 3000 ∧ 1 ≤ bits v 16 8)
    | .pwrAclk => decide (4 ≤ bits v 0 5 ∧ bits v 0 5 ≤ 16)
    | .thmCtl => decide (4 ≤ bits v 8 5 ∧ bits v 8 5 ≤ 16 ∧ 1 ≤ bits v 16 8)
    | .thmLimits => decide (bits r 0 8 < bits r 8 8 ∧ bits r 8 8 < bits r 16 8 ∧ bits r 16 8 ≤ 125 ∧ 1 ≤ bits r 24 4)
    | .thmSubst => [0, 8, 16, 24].all (fun lo => decide (1 ≤ bits v lo 5 ∧ bits v lo 5 ≤ 16))
    | _ => true
  if ok then .ok else .access

/-! ## Writes of the other blocks -/

/-- LANE_CTL (13 Tables 13.5, 13.11; R382): a loopback that is refused changes nothing. -/
def Mod.laneCtl (m : Mod) (p v : Nat) : Mod × Status :=
  match m.loopback p (bits v 2 2) with
  | (_, .busy) => (m, .busy)
  | _ =>
    let m := if bits v 0 1 ≠ m.fld F.LANE_CTL_ENABLE p then m.laneEnable p (bit v 0) else m
    let m := (m.loopback p (bits v 2 2)).1
    let m := m.setFld F.LANE_CTL_PRBS_EN (bits v 4 1) p
    let m := if bit v 1 then m.retrain p 6 else m
    (if bit v 5 then m.slipDone p else m, .ok)

/-- DIR_CTL (11 Table 11.11): a write of 0 to REMOTE_EN takes effect once every proxy entry is gone. -/
def Mod.dirCtl (m : Mod) (v : Nat) : Mod :=
  let m := m.setFld F.DIR_CTL_HINT_EN (bits v 0 1)
  if bit v 1 then m.setFld F.DIR_CTL_REMOTE_EN 1 else m.remoteEnClear

/-- A bundle's training runs (14 R399). -/
def Mod.bundleTraining (m : Mod) (p b : Nat) : Bool :=
  m.fld F.D2D_BUNDLE_RETRAINING p b == 1 || (match (m.dportOf p).training with
    | some (_, mask) => bit mask b
    | none => false)

/-- Plain checks of a write before its fields are stored (00 R485, R486): `v` is the value asked for, `r` the value the register would
hold. Registers with rules of their own are in `regWrite`. -/
def Mod.regCheck (m : Mod) (ag : Agent) (n : RegName) (i k : Nat) (old v r : Word) : Status :=
  let x := v.toNat
  match n with
  | .ecdRepairRow | .ecdRepairCol => if bit x 15 && decide (263 < bits x 0 9) then .access else .ok
  | .sqSrSeed | .sqSrCount => if m.resident i then .busy else .ok
  | .prot =>
    let rt := match ag with
      | .rt _ => true
      | _ => false
    if i != 16 && k == 15 && !rt then .access else m.protStatus i x
  | .mcCtl | .mcTherm | .mcRetire | .mcSpareNext | .mcRemap | .ochCtl => m.mcCheck n i old.toNat x
  | .regStream | .regLimit | .regClass => regulCheck n x
  | .dirDomain => if m.fld F.DIR_CTL_REMOTE_EN = 1 then .busy else .ok
  | .dirDomainMembers =>
    let gone := bitsOf 64 (old &&& ~~~v).toNat
    if m.fld F.DIR_CTL_REMOTE_EN = 1 ∧ gone.any (fun j => !m.fenced (m.node / 64 * 64 + j)) = true then .busy else .ok
  | .dirHint =>
    if bit x 63 && (decide (64 < bits x 54 7) || decide (bits x 27 27 < bits x 0 27)) then .access
    else if m.resident (k / 4) then .busy else .ok
  | .fabRole => if bits x 0 2 = 3 then .access else if m.fld F.FAB_ROLE_STATE ≠ 0 then .busy else .ok
  | .fabTimeout => if bits x 0 16 = 0 ∨ bits x 16 16 = 0 then .access else .ok
  | .fabTree => if 10 ≤ bits x 0 4 ∧ bits x 0 4 ≤ 14 then .access else .ok
  | .fabRoute => if [0, 4, 8, 12].any (fun lo => decide (10 ≤ bits x lo 4 ∧ bits x lo 4 ≤ 14)) then .access else .ok
  | .laneSleep => if bits x 8 8 = 0 then .access else .ok
  | .laneTap => if m.laneState i ≠ 0 then .busy else .ok
  | .d2dCtl => if bits x 8 8 = 0 ∨ bits x 16 8 = 0 then .access else .ok
  | .d2dSpare =>
    if (List.range 4).any (fun s => bit x (8 * s + 7) && decide (72 < bits x (8 * s) 7)) then .access
    else if m.bundleTraining i (k / 2) then .busy else .ok
  | .pwrCap | .pwrAclk | .thmCtl | .thmLimits | .thmSubst => powerCheck n x r.toNat
  | _ => .ok

/-- What an accepted write does besides its fields. -/
def Mod.regAfter (m : Mod) (n : RegName) (i k : Nat) (old v : Word) : Mod :=
  let x := v.toNat
  match n with
  | .mcCtl | .mcPinMark | .mcRetire => m.mcAfter n i k old.toNat x
  | .fabViolLog => if bit x 63 then m.modFab (fun f => { f with violSeen := 0 }) else m
  | .laneSleep => if bit x 1 then m.txWake i else m
  | _ => m

/-- A write of a register: what the agent asks for, refused or done (00 R485, R486). `v`: the bytes in place, `mask`: the bytes the
access reaches. -/
def Mod.regWrite (m : Mod) (ag : Agent) (b : Block) (i : Nat) (d : RegD) (k : Nat) (v mask : Word) : Mod × Status :=
  let a := b.base i + d.off + k * d.stride
  let old := m.reg a
  let w := d.asked old v mask
  let x := w.toNat
  match d.name with
  | .hubPartition => m.partitionWrite x
  | .hubTileMap => m.tileMapWrite x
  | .ecdRepairCtl => (if bit x 0 then m.repairLock i else m, .ok)
  | .hubFlag => (m.setFlag k (x % 2 ^ 32), .ok)
  | .hubFlagAdd => (m.addFlag k (x % 2 ^ 32), .ok)
  | .sqCtl => m.sqCtl i x
  | .sqRingBase => m.ringBase i x
  | .sqRingTail => m.ringTail i x
  | .sqCplBase => m.cplBase i x
  | .sqCplHead => m.cplHead i x
  | .bankCmd => m.bankCmd i (bits x 0 10) (bits x 16 10) (bits x 32 2)
  | .marchCmd =>
    if bit x 34 then m.marchCancel i else m.marchStart i (bits x 0 10) (bits x 16 10) (bit x 32) (bit x 33) []
  | .spareAdd => m.spareAdd i (bits x 0 10) (bits x 16 16)
  | .mcTrainCmd => m.mcTrain i (bits x 0 3) (bits x 8 4)
  | .mcFtest => m.ftest i x
  | .regRes => m.resWrite k x
  | .dirCtl => (m.dirCtl x, .ok)
  | .fabCtl => if bit x 0 then m.fabEnable else m.fabDisable
  | .fabPort => m.portWrite k x
  | .laneCtl => m.laneCtl i x
  | .laneSlip => (if bit x 8 then m.laneSlip i (bits x 0 5) else m, .ok)
  | .d2dTrainCmd => m.d2dTrain i (bits x 0 3) (bits x 16 16)
  | .d2dBundle => m.bundleWrite i k x
  | .evqBase => m.evqBase k x
  | .evqHead => m.evqHead k x
  | .hubFault => m.faultWrite ag x
  | .hubEvraise0 => m.evraise ag 0 v mask
  | .hubEvraise1 => m.evraise ag 1 v mask
  | .hubEvraise2 => m.evraise ag 2 v mask
  | .mgdRotCmd => m.rotCmd ag (bits x 0 3) (bits x 3 3) (bits x 6 42 * 64)
  | .hubResetCmd =>
    let (m, boot) := m.freeBoot
    let (m, dies) := m.freeDies
    m.resetCmd ag x boot dies
  | .pwrState => m.pwrReq (bits x 8 2) (classOf ag)
  | .dtCmd => m.dtCmd k (bits x 0 3)
  | .dtExpect => (m.dtExpect k w, .ok)
  | n =>
    let r := d.stored (m.locked n i k) old v mask
    match m.regCheck ag n i k old w r with
    | .ok => ((m.setReg a r).regAfter n i k old w, .ok)
    | st => (m, st)

/-- Registers whose rule refuses some agents: the rule comes before every check of the value, so it holds for a write that reaches no
field too. -/
def RegName.picky : RegName → Bool
  | .dtCmd | .hubFault | .hubEvraise0 | .hubEvraise1 | .hubEvraise2 | .mgdRotCmd | .hubResetCmd | .prot => true
  | _ => false

/-! ## The register regions -/

/-- The way to a register block: the compute dies' blocks are unpowered in PARKED (17 R445), which BANK_CMD answers with ST_BUSY of its
own (08 R239); a die port in Slate fences accesses that come through it (14 Table 14.5). -/
def Mod.blockGate (m : Mod) (ag : Agent) (b : Block) (i off : Nat) (write : Bool) : Status :=
  match b with
  | .ecd | .sram =>
    if i = 16 then .ok
    else if m.state = .parked then (if b = .sram ∧ off / 8 = 0 ∧ write then .ok else .access)
    else if m.portSlate i && !ownDie ag i then .fenced else .ok
  | .mgd =>
    let own := match ag with
      | .ac _ | .rt _ | .svc => true
      | _ => false
    if m.portSlate 16 && !own then .fenced else .ok
  | _ => .ok

/-- Access to a register address: R27, R8, R7, the way to the block (00 R485). -/
def Mod.regPlace (m : Mod) (ag : Agent) (a size : Nat) (write : Bool) : Except Status (Block × Nat × Nat) :=
  if !regAgent ag then .error .access
  else
    match blockAt a with
    | none => .error .range
    | some (b, i, off) =>
      if (size ≠ 4 ∧ size ≠ 8) ∨ a % size ≠ 0 then .error .access
      else
        match m.blockGate ag b i off write with
        | .ok => .ok (b, i, off)
        | st => .error st

/-- A read of a register address. -/
def Mod.regLoad (m : Mod) (ag : Agent) (a size : Nat) : Mod × Status × List Byte :=
  match m.regPlace ag a size false with
  | .error st => (m, st, [])
  | .ok (b, i, off) =>
    match regAtOff b i (off / 8 * 8) with
    | none => (m, .ok, List.replicate size 0)
    | some (d, k) =>
      let (m, v) := m.regRead b i d k
      (m, .ok, ((toBytes 8 v.toNat).drop (off % 8)).take size)

/-- A write of a register address. A write that reaches no field that can be written has no effect. -/
def Mod.regStore (m : Mod) (ag : Agent) (a size data : Nat) : Mod × Status :=
  match m.regPlace ag a size true with
  | .error st => (m, st)
  | .ok (b, i, off) =>
    match regAtOff b i (off / 8 * 8) with
    | none => (m, .ok)
    | some (d, k) =>
      let sh := 8 * (off % 8)
      let mask : Word := BitVec.ofNat 64 ((2 ^ (8 * size) - 1) * 2 ^ sh)
      let v : Word := BitVec.ofNat 64 (data % 2 ^ (8 * size) * 2 ^ sh)
      if d.bitsOf (fun x => x.plain || x.order) &&& mask = 0 && !d.name.picky then (m, .ok)
      else m.regWrite ag b i d k v mask

/-! ## The management region beside its registers (15 R400, R401, Tables 15.2, 15.3) -/

/-- Boot ROM, RT private SRAM, module flash. -/
def mgdMemory (a : Nat) : Bool :=
  decide (0x7F0001000000 ≤ a ∧ a < 0x7F0001040000) || decide (0x7F0040000000 ≤ a ∧ a < 0x7F0040200000) ||
  decide (0x7F0080000000 ≤ a ∧ a < 0x7F00A0000000)

/-- Writing 8 bytes to the flash: the first word of a sector erases it first (15 R401). -/
def Mod.flashProgram (m : Mod) (a : Nat) (data : List Byte) : Mod :=
  let m := if a % 0x10000 = 0 then m.lose (unitOf a) else m
  { m with mem := m.mem.writeAt a (data.map some) }

/-- Programmed bytes of an image slot: a domain manager whose slot now holds an image that verifies sends it to its members (16 R430). When
the firmware starts a session is not stated (DESIGN CHOICE, log 192). -/
def Mod.flashSession (m : Mod) (a : Nat) : Mod :=
  match [false, true].find? (fun b => decide (slotBase b ≤ a ∧ a < slotBase b + 0x8000000)) with
  | none => m
  | some b =>
    let n := m.imageField (slotBase b) 0x10 4
    if a < slotBase b + manifestLen n + 4096 * n then m.sessionStart (slotBase b) else m

/-- An access to the boot ROM, the RT private SRAMs or the flash. -/
def Mod.mgdAccess (m : Mod) (ag : Agent) (a : Nat) (op : MemOp) : Mod × Status × List Byte :=
  let n := opLen op
  if n = 0 then (m, .access, [])
  else if !mgdMemory (a + n - 1) ∨ a / 0x40000000 ≠ (a + n - 1) / 0x40000000 then (m, .range, [])
  else if m.blockGate ag .mgd 0 0 false ≠ .ok then (m, .fenced, [])
  else if a < 0x7F0040000000 then
    match op with
    | .read n => if mgmtCore ag then (m, .ok, m.mem.readAt a n) else (m, .access, [])
    | .write _ => (m, .access, [])
  else if a < 0x7F0080000000 then
    let may := match ag with
      | .rt _ | .svc => true
      | _ => false
    if !may then (m, .access, [])
    else match op with
      | .read n => (m, .ok, m.mem.readAt a n)
      | .write d => ({ m with mem := m.mem.writeAt a d }, .ok, [])
  else
    match op with
    | .read n => (m, .ok, m.mem.readAt a n)
    | .write d =>
      if d.length ≠ 8 ∨ a % 8 ≠ 0 ∨ d.all Option.isSome = false then (m, .access, [])
      else if a < 0x7F0080040000 ∧ m.fld F.MGD_STATUS_DIR_LOCK = 1 then (m, .access, [])
      else ((m.flashProgram a (d.map (fun b => b.getD 0))).flashSession a, .ok, [])

/-- An access of an agent to any local address (01 Table 01.6): memory, an alias, a register, or the management region. -/
def Mod.localAccess (m : Mod) (src : Src) (ag : Agent) (a : Nat) (op : MemOp) : Mod × Reply :=
  if a < 0x700000000000 then m.localMem src ag a op
  else if !regAgent ag then (m, .done .access [])
  else if mgdMemory a then
    let (m, st, d) := m.mgdAccess ag a op
    (m, .done st d)
  else
    match op with
    | .read n =>
      let (m, st, d) := m.regLoad ag a n
      (m, .done st d)
    | .write d =>
      if d.all Option.isSome then
        let (m, st) := m.regStore ag a d.length (ofBytes (d.map (fun b => b.getD 0)))
        (m, .done st [])
      else (m, .done .access [])

/-- The address form names something at this module (01 R25, Table 01.6): populated memory, an alias of it, a register block, or memory of the
management die. -/
def placeExists (a n : Nat) : Bool :=
  if a < 0x700000000000 then (match aliasOf a with
    | some (_, t) => memPopulated t 1
    | none => memPopulated a n)
  else mgdMemory a || (blockAt a).isSome

/-- An atomic at a local address. The spec gives an atomic at an alias or at a register region no effect: ST_ACCESS (DESIGN CHOICE, log 185);
an address with nothing there is out of range (01 R25). -/
def Mod.atomAccess (m : Mod) (src : Src) (ag : Agent) (a : Nat) (op : AtomOp) : Mod × Reply :=
  if a < 0x500000000000 then m.memAtom src ag a op
  else (m, .done (if placeExists a 8 then .access else .range) [])

/-! ## Management packets (12 R319, R321, Table 12.3) -/

/-- MRD and MWR: 8 bytes, for the domain manager only (12 R319; Table 12.7 code 7). -/
def Mod.mgmtPacket (m : Mod) (port : Fin 10) (p : Packet) (op : MemOp) : Mod :=
  if p.src.val ≠ m.fld F.FAB_ROLE_MANAGER then
    (m.violation 7 port.val p.src.val p.ty.toNat).answer port.val p .access [] false
  else
    match m.localAccess (inboundSrc port p) .fabMgmt p.addr op with
    | (m, .done st d) => m.answer port.val p st d false
    | (m, .waits) => m

/-! ## What a command reaches -/

/-- A command of an array's registers: 01 R27, then the way to the die, then the register's own rule (00 R485). `bank`: BANK_CMD. -/
def Mod.byDie (m : Mod) (ag : Agent) (addr : Nat) (arr : Nat) (bank : Bool) (f : Mod → Mod × Status) : Mod :=
  m.byAgent ag addr (fun m => match m.blockGate ag .sram arr (if bank then 0 else 0x10) true with
    | .ok => f m
    | st => (m, st))

end Sys2Proof.Machine
end

