-- ==== Sys2Proof/Machine/Cores.lean ====
section
/-! DEFINITION. Accesses of the application, real-time and tile cores (11 R294, R300, R306, R312; 18 R470). -/

namespace Sys2Proof.Machine

open Sys2Proof

/-- The line of an address a core may cache, named as its directory names it (11 R294, R312): local populated memory, or memory of a
domain member while DIR_CTL.REMOTE_EN is 1. -/
def Mod.cacheLine (m : Mod) (x : Nat) : Option Nat :=
  match m.decodeAddr x with
  | .here a => if cacheableHere a then some (lineOf a) else none
  | .remote n a =>
    if m.fld F.DIR_CTL_REMOTE_EN = 1 ∧ n / 64 = m.node / 64 ∧ bit (m.reg (F.DIR_DOMAIN_MEMBERS_MEMBERS.addr 0 0)).toNat (n % 64) = true ∧
        cacheableHere a = true then some (lineOf x) else none
  | .outside => none

/-- RISC-V exception of a misaligned access (kind as in 18 Table 18.9). -/
def misaligned (kind : Nat) : Nat := if kind = 0 then 0 else if kind = 1 then 4 else 6

/-- The access meets its cache (11 Table 11.4): it completes in a line that allows it, or asks the home for the line. While the line has
a request or a writeback open the access stays at its core. -/
def Mod.cachedAccess (m : Mod) (c : Fin 65) (line : Nat) (x : CoreAccess) : Mod :=
  let write := isWrite x.op
  let ask := fun (l : Line) (k : MsgKind) =>
    (m.linePut { l with access := some x }).send { kind := k, src := some c, dst := none, line := line }
  match m.lineFind c.val line with
  | none =>
    let l : Line := { agent := c.val, addr := line, st := if write then .im else .isE, data := [], poison := false, access := none, snoop := none }
    ask l (if write then .rdX else .rdS)
  | some l =>
    match l.st with
    | .m | .e => m.completeAccess l x
    | .s => if write then ask { l with st := .sm } .upg else m.completeAccess l x
    | .i => ask { l with st := if write then .im else .isE } (if write then .rdX else .rdS)
    | _ => { m with coreq := m.coreq ++ [x] }

/-- The atomic command that carries an AMO outside the caches (12 Table 12.4, 06 Table 06.15), when there is one. -/
def amoAtom (fn : AmoFn) (v : Word) : Option AtomOp :=
  match fn with
  | .swap => some { fn := .swap, operand := v, compare := 0 }
  | .add => some { fn := .add, operand := v, compare := 0 }
  | .or => some { fn := .set, operand := v, compare := 0 }
  | .and => some { fn := .clear, operand := ~~~v, compare := 0 }
  | _ => none

def atomCode : AtomFn → Nat
  | .add => 0 | .swap => 1 | .cas => 2 | .set => 3 | .clear => 4

/-- An 8-byte quantity or a line read at another node (12 Table 12.3). -/
def Mod.remoteRead (m : Mod) (node a n : Nat) : Packet :=
  if a % 8 + n ≤ 8 then mkPacket 0 0x02 node m.node 0 0 (toBytes 8 (a / 8 * 8) ++ List.replicate 16 0 ++ [3]) []
  else mkPacket 0 0x01 node m.node 0 0 (toBytes 8 (lineOf a)) []

/-- An access outside the caches to another node (11 R312). -/
def Mod.remoteAccess (m : Mod) (node a : Nat) (x : CoreAccess) : Mod :=
  let p := match x.op with
    | .read n => m.remoteRead node a n
    | .write d =>
      match x.amo.bind (fun f => amoAtom f.1 f.2) with
      | some o => mkPacket 0 0x05 node m.node 0 0 (toBytes 8 a ++ toBytes 8 o.operand.toNat ++ toBytes 8 0 ++ [BitVec.ofNat 8 (atomCode o.fn)]) []
      | none => m.writePacket false node a (d.map (fun b => b.getD 0)) none
  ({ m with uncached := m.uncached ++ [x] } : Mod).issue (.agent x.ag) node p false

/-- An access outside the caches (11 R294, R300), after its address (01 R24, R25). An AMO needs an atomic command of the module: one that has
none faults with ST_ACCESS (log 49), and so does an AMO at an alias or at a register region (DESIGN CHOICE, log 185: 01 R27 names no AMO
there). -/
def Mod.uncachedAccess (m : Mod) (x : CoreAccess) : Mod :=
  let atom := x.amo.bind (fun f => if opLen x.op = 8 then amoAtom f.1 f.2 else none)
  let bare := x.amo.isSome && atom.isNone
  match m.decodeAddr x.addr with
  | .outside => m.uncachedDone x .range []
  | .remote n a => if bare then m.uncachedDone x .access [] else m.remoteAccess n a x
  | .here a =>
    let r := match atom with
      | some o => m.atomAccess (.agent x.ag) x.ag a o
      | none => if bare then (m, .done (if placeExists a (opLen x.op) then .access else .range) []) else m.localAccess (.agent x.ag) x.ag a x.op
    match r with
    | (m, .done st d) => m.uncachedDone x st d
    | (m, .waits) => { m with uncached := m.uncached ++ [x] }

/-- The address lies in a register region of this module, where a misaligned access has a status (00 R7). -/
def Mod.atRegister (m : Mod) (addr : Nat) : Bool :=
  match m.decodeAddr addr with
  | .here a => decide (0x700000000000 ≤ a) && !mgdMemory a
  | _ => false

/-- An access of a core. One that crosses a line, or an AMO that is not naturally aligned, raises the misaligned exception; at a register it
completes with ST_ACCESS (00 R7). -/
def Mod.coreAccess (m : Mod) (x : CoreAccess) : Mod :=
  let n := opLen x.op
  if (x.addr % 64 + n > 64 ∨ (x.amo.isSome = true ∧ ((n ≠ 4 ∧ n ≠ 8) ∨ x.addr % n ≠ 0))) ∧ m.atRegister x.addr = false then
    m.emit (.exception x.ag (misaligned x.kind) x.addr)
  else
    match cacheOf x.ag, m.cacheLine x.addr with
    | some c, some line => m.cachedAccess c line x
    | _, _ => m.uncachedAccess x

/-- Accesses that wait at their cores try again, oldest first (11 R306). -/
def Mod.coreSettle (m : Mod) : Mod :=
  if m.coreq.isEmpty then m else m.coreq.foldl (fun m x => m.coreAccess x) { m with coreq := [] }

/-! ## Requests of agents that do not cache (11 Table 11.5) -/

/-- NC_RD, NC_WR or NC_ATOM reaches the hub (01 R24, R25, R27): local memory, an alias or a register, or another node. A write or an atomic is
answered with NcAck (11 R305). -/
def Mod.ncArrives (m : Mod) (src : Src) (ag : Agent) (addr : Nat) (op : MemOp) (atom : Option AtomOp) (hint : Option Nat) : Mod :=
  let answer := fun (m : Mod) (st : Status) (d : List Byte) =>
    if isWrite op || atom.isSome then { m with ncAcks := m.ncAcks ++ [(src, st, d)] } else m.emit (.compl src st d)
  match m.decodeAddr addr with
  | .outside => answer m .range []
  | .remote node a =>
    let p := match atom, op with
      | some o, _ => mkPacket 0 0x05 node m.node 0 0
          (toBytes 8 a ++ toBytes 8 o.operand.toNat ++ toBytes 8 o.compare.toNat ++ [BitVec.ofNat 8 (atomCode o.fn)]) []
      | none, .read n => m.remoteRead node a n
      | none, .write d => m.writePacket false node a (d.map (fun b => b.getD 0)) hint
    m.issue src node p false
  | .here a =>
    let r := match atom with
      | some o => m.atomAccess src ag a o
      | none => if a < 0x700000000000 then m.localMem src ag a op (0, false) hint else m.localAccess src ag a op
    match r with
    | (m, .done st d) => answer m st d
    | (m, .waits) => m

end Sys2Proof.Machine
end

