-- ==== Sys2Proof/Machine/Service.lean ====
section
/-! DEFINITION. The root of trust's commands and attestation reports (15 R408, R409, R418, R419), and the service endpoint (15 R410-R413,
R416, Tables 15.7-15.9; 18 R464). -/

namespace Sys2Proof.Machine

open Sys2Proof

/-! ## The hub buffer as the root of trust and the endpoint reach it -/

/-- The bytes lie wholly in the hub buffer. -/
def inHubBuffer (a n : Nat) : Bool := memPopulated a n && (match sramAt a with
  | some (r, _) => r == 16
  | none => false)

/-- A non-caching access to the hub buffer (11 R300); the answer is `none` while one of its lines has to wait. The request then goes on as
any other; its own completion is not used, for the unit asks again. -/
def Mod.hubAccess (m : Mod) (a : Nat) (op : MemOp) : Mod × Option (Status × List Byte) :=
  if !inHubBuffer a (opLen op) then (m, some (.range, []))
  else
    match m.ncIssue { src := .manager 0 7, ag := .svc, op := op, addr := a } with
    | (m, .done st d) => (m, some (st, d))
    | (m, .waits) => (m, none)

/-! ## Module inventory, status -/

/-- 15 Table 15.11. -/
def Mod.inventory (m : Mod) : List Byte :=
  d1 0xA1 ++ d1 m.slotId ++ d2 m.cfgNode ++ d2 m.bootPresent ++ d2 m.outOfService ++ d4 m.failedPackages ++ d4 m.runVersion ++
  padTo 16 Config.serial

/-- The newest cause records, newest first; zero where the log holds fewer (15 Table 15.12). -/
def Mod.newestCauses (m : Mod) (n : Nat) : List Byte := padTo (16 * n) ((m.causes.take n).flatMap CauseRec.bytes)

/-- 15 Table 15.8 STATUS. -/
def Mod.statusBytes (m : Mod) : List Byte :=
  toBytes 8 (m.reg (F.MGD_STATUS_DIR_LOCK.addr 0 0)).toNat ++ toBytes 8 (m.reg (F.MGD_BOOT_ID_ID.addr 0 0)).toNat ++ d1 m.stateCode ++
  List.replicate 7 0 ++ m.newestCauses 1 ++ m.inventory

/-! ## Attestation (15 R409, Table 15.6) -/

/-- Bytes 0x000-0x27F of a report. -/
def Mod.reportBody (m : Mod) (nonce : List Byte) : List Byte :=
  let flags := b2n m.operatorKey.isSome + 2 * m.fld F.MGD_STATUS_FALLBACK + 4 * m.fld F.MGD_STATUS_SLOT_B
  d4 0x54415751 ++ d2 1 ++ d2 m.node ++ d1 0xA1 ++ d1 m.slotId ++ d2 flags ++ d4 (m.fld F.MGD_STATUS_MIN_SVN) ++ padTo 32 nonce ++
  toBytes 8 (m.reg (F.MGD_BOOT_ID_ID.addr 0 0)).toNat ++ List.replicate 8 0 ++ (List.range 8).flatMap m.meas ++ padTo 64 Config.identityKey

def Mod.report (m : Mod) (nonce : List Byte) : List Byte :=
  m.reportBody nonce ++ padTo 49856 (Config.identitySign (m.reportBody nonce))

/-! ## Responses (15 R410, R411, Table 15.7) -/

/-- The 32 header bytes of a service frame. -/
def svcHeader (op st flags len : Nat) (bootId seq arg : Word) : List Byte :=
  d1 1 ++ d1 op ++ d1 st ++ d1 flags ++ d4 len ++ toBytes 8 bootId.toNat ++ toBytes 8 seq.toNat ++ toBytes 8 arg.toNat

/-- The TAG of a header and payload under a key (15 R411). -/
def svcTag (key header payload : List Byte) : List Byte := Config.shake256 (key ++ header ++ payload) 16

/-- The response to a request is sent; the endpoint is free. Responses to authenticated requests carry a TAG. -/
def Mod.respond (m : Mod) (op : Nat) (f : SvcFrame) (auth : Bool) (st : Status) (arg : Nat) (payload : List Byte) : Mod :=
  let boot := m.reg (F.MGD_BOOT_ID_ID.addr 0 0)
  let h := svcHeader op st.toNat (1 + 2 * b2n auth) payload.length boot f.seq (BitVec.ofNat 64 arg)
  let tag := if auth then svcTag (m.serviceKey.getD []) h payload else []
  { m with svcRun := none }.emit (.frame f.mac.toNat op st f.seq.toNat arg payload tag)

/-- Why a request is refused (15 R411): 1 no AUTH, 5 no key, 2 TAG, 3 BOOT_ID, 4 SEQ; none: it is authentic. -/
def Mod.refusal (m : Mod) (op : Nat) (f : SvcFrame) : Option Nat :=
  if !f.auth then some 1
  else if m.fld F.MGD_STATUS_KEY_SET = 0 then some 5
  else if f.tag ≠ svcTag (m.serviceKey.getD []) (svcHeader op 0 2 f.payload.length f.bootId f.seq f.arg) f.payload then some 2
  else if f.bootId ≠ m.reg (F.MGD_BOOT_ID_ID.addr 0 0) then some 3
  else if f.seq.toNat + 1 ≤ m.topSeq then some 4
  else none

/-- A request that is not authentic: answered, counted, and 0x0B03 raised at most once per second (15 R411). -/
def Mod.authFailed (m : Mod) (op : Nat) (f : SvcFrame) (reason : Nat) : Mod :=
  let m := m.satFld F.MGD_SVC_AUTH_FAIL 1
  let (m, d) := m.draw
  let m := if m.authEvent && Config.freeNat d % 2 == 0 then m
    else ({ m with authEvent := true } : Mod).raise 0x0B03 (toBytes 6 f.mac.toNat ++ d1 op ++ d1 reason)
  m.respond op f false .access f.arg.toNat []

/-! ## The flash event log (18 R464) -/

/-- Address of a slot of a log sector. -/
def logSlot (sector slot : Nat) : Nat := 0x7F0091000000 + sector * 0x10000 + slot * 32

/-- The 32 bytes of a slot, when it has been written since its sector was erased. -/
def Mod.logRecord (m : Mod) (a : Nat) : Option (List Byte) :=
  if (List.range 32).all (fun i => (Sparse.get? m.mem.cells (a + i)).isSome) then some (m.mem.readAt a 32) else none

/-- The log index of a sector's first event, by its marker. -/
def Mod.logMarker (m : Mod) (sector : Nat) : Option Nat :=
  match m.logRecord (logSlot sector 0) with
  | none => none
  | some r => if leAt r 0 2 = 0 ∧ leAt r 24 4 = crc32 (r.take 24) then some (leAt r 16 8) else none

/-- Sectors of the log that hold a written slot 0, found from the bytes that are listed. -/
def Mod.logSectors (m : Mod) : List Nat :=
  (m.mem.cells.filter (fun c => decide (0x7F0091000000 ≤ c.1 ∧ c.1 < 0x7F0095000000) && c.1 % 0x10000 == 0)).map (fun c => (c.1 - 0x7F0091000000) / 0x10000)

/-- First index of the current sector and the next index. -/
def Mod.logEnd (m : Mod) : Option (Nat × Nat) :=
  match m.logSectors.filterMap m.logMarker with
  | [] => none
  | x :: xs =>
    let first := xs.foldl max x
    let sector := first / 2047 % 1024
    let n := ((List.range 2047).takeWhile (fun i => (m.logRecord (logSlot sector (1 + i))).isSome)).length
    some (first, first + n)

/-- EVENT_READ: up to 256 records from an index (15 Table 15.8, 18 R464). -/
def Mod.eventRead (m : Mod) (i : Nat) : Status × List Byte :=
  match m.logEnd with
  | none => (.range, [])
  | some (first, next) =>
    if next ≤ i ∨ i / 2047 + 1022 < first / 2047 then (.range, [])
    else
      (.ok, (List.range (min 256 (next - i))).flatMap (fun j =>
        let x := i + j
        m.mem.readAt (logSlot (x / 2047 % 1024) (1 + x % 2047)) 32))

/-! ## Bulk transfers (15 R412) -/

def Mod.bulkAddr (m : Mod) : Nat := (m.reg (F.MGD_BULK_ADDR_ADDR.addr 0 0)).toNat

/-- Bytes of the next unit: aligned 8-byte units in register regions, 64-byte units elsewhere. -/
def bulkUnit (x left : Nat) : Nat :=
  let u := if 0x700000000000 ≤ bits x 0 48 then 8 else 64
  min left (u - x % u)

/-- One unit of a bulk transfer (11 R300): `none` for the data makes it a read. -/
def Mod.bulkAccess (m : Mod) (x n : Nat) (data : Option (List Byte)) : Mod × Reply :=
  let op := match data with
    | none => MemOp.read n
    | some d => .write (d.map some)
  match m.decodeAddr x with
  | .outside => (m, .done .range [])
  | .here a => m.localAccess (.agent .svc) .svc a op
  | .remote node a =>
    let p := match data with
      | none => m.remoteRead node a n
      | some d => m.writePacket false node a d none
    (m.issue (.agent .svc) node p false, .waits)

def SvcRun.length (r : SvcRun) : Nat := if r.op = 5 then r.frame.arg.toNat else r.frame.payload.length

/-- The response of a bulk transfer: a write's count goes into ARG. -/
def Mod.bulkEnds (m : Mod) (r : SvcRun) (st : Status) : Mod :=
  m.respond r.op r.frame true st (if r.op = 6 then r.count else r.frame.arg.toNat) r.data

/-- A unit has completed with ST_OK: the address register and the transfer advance. -/
def Mod.bulkAdvance (m : Mod) (r : SvcRun) (n : Nat) (d : List Byte) : Mod × SvcRun :=
  (m.setReg (F.MGD_BULK_ADDR_ADDR.addr 0 0) (BitVec.ofNat 64 (m.bulkAddr + n)),
   { r with count := r.count + n, data := if r.op = 5 then r.data ++ d else r.data, got := none })

/-- Units one after another, until one waits or fails. -/
def Mod.bulkGo : Nat → Mod → SvcRun → Mod
  | 0, m, r => { m with svcRun := some r }
  | fuel + 1, m, r =>
    if r.length ≤ r.count then m.bulkEnds r .ok
    else
      let x := m.bulkAddr
      let n := bulkUnit x (r.length - r.count)
      match m.bulkAccess x n (if r.op = 6 then some ((r.frame.payload.drop r.count).take n) else none) with
      | (m, .waits) => { m with svcRun := some { r with got := none } }
      | (m, .done .ok d) =>
        let (m, r) := m.bulkAdvance r n d
        Mod.bulkGo fuel m r
      | (m, .done st _) => m.bulkEnds r st

/-- Units of the longest transfer, and one more. -/
def bulkFuel : Nat := 1030

/-- The unit that waited has completed. -/
def Mod.bulkResume (m : Mod) (r : SvcRun) (st : Status) (d : List Byte) : Mod :=
  if st ≠ .ok then m.bulkEnds r st
  else
    let x := m.bulkAddr
    let n := bulkUnit x (r.length - r.count)
    let d := if n < d.length then (d.drop (x % (if 64 ≤ d.length then 64 else 8))).take n else d
    let (m, r) := m.bulkAdvance r n d
    m.bulkGo bulkFuel r

/-! ## SERVICE commands (15 Table 15.9) -/

/-- A command that names a die; the die number comes first. -/
def Mod.dieCommand (m : Mod) (cmd arg : Nat) : Mod × Status :=
  let n := bits arg 8 8
  if 15 < n then (m, .range)
  else if cmd = 1 then
    (if bit m.active n then (m, .busy) else ({ m with repairLists := modNth m.repairLists n (fun _ => []) }, .ok))
  else if !bit m.bistPassed n then (m, .access)
  else
    let clear := 0xFFFF ^^^ 2 ^ n
    ({ m.setFld F.HUB_DIE_MASK_ACTIVE (m.fld F.HUB_DIE_MASK_ACTIVE ||| 2 ^ n) with
       outOfService := m.outOfService &&& clear, bistPassed := m.bistPassed &&& clear, cfgActive := m.cfgActive ||| 2 ^ n }, .ok)

/-- SET_OPERATOR_KEY: the hash is taken from the hub buffer now and written to the boot directory at the next boot. -/
def Mod.setOperatorKey (m : Mod) (f : SvcFrame) : Mod :=
  match m.hubAccess (f.arg.toNat / 2 ^ 16 * 64) (.read 64) with
  | (m, none) => { m with svcRun := some { op := 7, frame := f } }
  | (m, some (.ok, d)) => ({ m with newOperatorKey := some d } : Mod).respond 7 f true .ok f.arg.toNat []
  | (m, some (st, _)) => m.respond 7 f true st f.arg.toNat []

/-- ATTEST: waits for the root of trust (15 R409). -/
def Mod.attest (m : Mod) (f : SvcFrame) : Mod :=
  if m.rot.isSome then { m with svcRun := some { op := 8, frame := f } }
  else { m with rot := some (.service f.arg.toNat f.payload), svcRun := some { op := 8, frame := f } }

/-- RESET: the response is sent first; the reset begins 1 ms later (15 Table 15.8). -/
def Mod.scheduleReset (m : Mod) (f : SvcFrame) : Mod :=
  let kind := bits f.arg.toNat 0 2
  let part := bits f.arg.toNat 2 2
  let st := if kind = 3 then m.resetStatus 4 part else .ok
  let m : Mod := if st = .ok then { m with svcResets := m.svcResets ++ [{ kind := kind, part := part }] } else m
  m.respond 3 f true st f.arg.toNat []

/-! ## The endpoint -/

/-- A request that is authentic, or STATUS, is served (15 Tables 15.8, 15.9, R413). -/
def Mod.perform (m : Mod) (op : Nat) (f : SvcFrame) : Mod :=
  let arg := f.arg.toNat
  let recovery := m.fld F.MGD_STATUS_RECOVERY == 1
  let answer := fun (m : Mod) (st : Status) (d : List Byte) => m.respond op f true st arg d
  match op with
  | 2 =>
    let (st, d) := m.eventRead arg
    answer m st d
  | 3 => m.scheduleReset f
  | 4 => answer (m.setReg (F.MGD_BULK_ADDR_ADDR.addr 0 0) f.arg) .ok []
  | 5 => if arg = 0 ∨ 8192 < arg then answer m .protocol [] else m.bulkGo bulkFuel { op := 5, frame := f }
  | 6 => if f.payload.length = 0 ∨ 8192 < f.payload.length then answer m .protocol [] else m.bulkGo bulkFuel { op := 6, frame := f }
  | 7 =>
    match bits arg 0 8 with
    | 1 | 2 =>
      let (m, st) := m.dieCommand (bits arg 0 8) arg
      answer m st []
    | 3 => answer { m with locate := true } .ok []
    | 4 => answer { m with locate := false } .ok []
    | 5 => if recovery then answer m .busy [] else answer { m with svnCommit := some (m.fld F.MGD_STATUS_SLOT_B == 1) } .ok []
    | 6 => m.setOperatorKey f
    | _ => answer m .protocol []
  | 8 =>
    if recovery then answer m .busy []
    else if m.fld F.MGD_STATUS_PUF_OK = 0 then answer m .access []
    else if f.payload.length ≠ 32 then answer m .protocol []
    else if arg % 64 ≠ 0 ∨ inHubBuffer arg 1 = false then answer m .access []
    else m.attest f
  | _ => answer m .protocol []

/-- One request is taken up (15 R410, R411). -/
def Mod.serve (m : Mod) (op : Nat) (f : SvcFrame) : Mod :=
  if op = 1 then m.respond 1 f false .ok f.arg.toNat m.statusBytes
  else
    match m.refusal op f with
    | some reason => m.authFailed op f reason
    | none => ({ m with topSeq := f.seq.toNat + 1 } : Mod).perform op f

/-- The endpoint does what it can: a waiting request goes on, or the next one is taken up. -/
def Mod.svcStep (m : Mod) : Mod :=
  match m.svcRun with
  | some r =>
    if r.op = 7 then m.setOperatorKey r.frame
    else if r.op = 8 then (if m.rot.isNone then m.attest r.frame else m)
    else match r.got with
      | some (st, d) => m.bulkResume r st d
      | none => m
  | none =>
    match m.svcq with
    | [] => m
    | (op, f) :: rest => ({ m with svcq := rest } : Mod).serve op f

/-- A frame arrives: dropped while ENABLE is 0, the link is down or the management die is held (02 Table 02.14; 15 Table 15.14, R416). -/
def Mod.svcArrive (m : Mod) (op : Nat) (f : SvcFrame) : Mod :=
  if m.fld F.MGD_SVC_ENABLE = 0 ∨ m.link = false ∨ m.mgdHeld = true then m
  else { m with svcq := m.svcq ++ [(op, f)] }

/-- The endpoint has work: a unit that has completed, a command that waited and may go on, or a request in line. -/
def Mod.svcReady (m : Mod) : Bool :=
  match m.svcRun with
  | some r => r.got.isSome || r.op == 7 || (r.op == 8 && m.rot.isNone)
  | none => !m.svcq.isEmpty

/-- Serve the endpoint until it has to wait; what it puts out goes where it belongs. -/
def Mod.svcLoop : Nat → Mod → Mod
  | 0, m => m
  | fuel + 1, m =>
    if m.svcReady then
      let before := m.out
      let m := ({ m with out := [] } : Mod).svcStep.finish
      Mod.svcLoop fuel { m with out := before ++ m.out }
    else m

/-- The fabric engine and the manager's firmware go on until they have to wait; what they put out goes where it belongs. -/
def Mod.fabLoop : Nat → Mod → Mod
  | 0, m => m
  | fuel + 1, m =>
    if m.fabReady then
      let before := m.out
      let m := ({ m with out := [] } : Mod).fabStep.finish
      Mod.fabLoop fuel { m with out := before ++ m.out }
    else m

/-- The end of every command that may complete requests: the memory's waiting requests, the fabric, the ports, the completions, the
manager's firmware, then the endpoint. -/
def Mod.conclude (m : Mod) : Mod :=
  let m := (m.memSettle.coreSettle.finish).fabLoop 16
  m.svcLoop (2 * m.svcq.length + 2)

/-- Run one command that may complete requests of other agents. -/
def State.runF (s : State) (f : Mod → Mod) : Host.Outcome State Fault Refusal := s.run (fun m => (f m).conclude)

/-- The request of a row with the ARG bits that the row fixes. -/
def withArg (f : SvcFrame) (lo w v : Nat) : SvcFrame := { f with arg := BitVec.ofNat 64 (putBits f.arg.toNat lo w v) }

/-! ## The root of trust's commands end (15 R409, R418) -/

/-- The report of an ATTEST is written. -/
def Mod.writeReport (m : Mod) (a : Nat) (nonce : List Byte) : Mod × Option Status :=
  let (m, r) := m.hubAccess a (.write ((m.report nonce).map some))
  (m, r.map (·.1))

/-- How a command ends; `none` while a line of its data has to wait. -/
def Mod.rotEnd (m : Mod) (job : RotJob) : Mod × Option Status :=
  match job with
  | .extend i a =>
    match m.hubAccess a (.read 64) with
    | (m, some (.ok, d)) => (m.extendMeas i d, some .ok)
    | (m, r) => (m, r.map (·.1))
  | .attest a =>
    match m.hubAccess a (.read 32) with
    | (m, some (.ok, d)) => m.writeReport (a + 0x40) d
    | (m, r) => (m, r.map (·.1))
  | .service a nonce => m.writeReport a nonce

/-- The root of trust finishes its command: BUSY falls, and a waiting service ATTEST runs. -/
def Mod.rotComplete (m : Mod) : Mod :=
  match m.rot with
  | none => m
  | some job =>
    match m.rotEnd job with
    | (m, none) => m
    | (m, some st) =>
      let m := ({ m with rot := none } : Mod).setFld F.MGD_ROT_STATUS_RESULT st.toNat
      match job, m.svcRun with
      | .service _ _, some r => m.respond 8 r.frame true st r.frame.arg.toNat []
      | _, _ => m

/-! ## Resets that the endpoint scheduled -/

/-- 1 ms after its response a reset begins (15 Table 15.8, R416; 16 R432). -/
def Mod.svcReset (m : Mod) (b : BootIn) : Mod :=
  match m.svcResets with
  | [] => m
  | r :: rest =>
    let m : Mod := { m with svcResets := rest }
    match r.kind with
    | 0 => m.moduleBoot 0x09 false b
    | 1 => m.moduleBoot 0x09 true b
    | 2 => m.enterSlate 16 3
    | _ => if m.resetStatus 4 r.part = .ok then m.startReset 4 r.part 0xFF else m

end Sys2Proof.Machine
end

