-- ==== Sys2Proof/Machine/Island.lean ====
section
/-! DEFINITION. The always-on island as SMBus and PMBus target (15 R414, R415, Table 15.10; 02 R39-R41). -/

namespace Sys2Proof.Machine

open Sys2Proof

/-! ## Packet error code -/

/-- CRC-8 of SMBus: polynomial x⁸ + x² + x + 1. -/
def crc8 (bs : List Byte) : Byte :=
  let step := fun (c : Nat) (_ : Nat) => if 128 ≤ c then (2 * c) % 256 ^^^ 7 else 2 * c
  BitVec.ofNat 8 (bs.foldl (fun c b => (List.range 8).foldl step (c ^^^ b.toNat)) 0)

/-- The target's 7-bit address (02 R39). -/
def Mod.smbusAddr (m : Mod) : Nat := 0x40 + m.slotId % 32

/-- The island answers (02 Table 02.14, Table 02.6). -/
def Mod.smbusOn (m : Mod) : Bool := m.state != .off && m.islandReady

/-- A read: the data with its PEC. -/
def Mod.smbusRead (m : Mod) (code : Nat) (data : List Byte) : Mod :=
  if m.smbusOn then
    m.emit (.smbus data (crc8 ([BitVec.ofNat 8 (2 * m.smbusAddr), BitVec.ofNat 8 code, BitVec.ofNat 8 (2 * m.smbusAddr + 1)] ++ data)))
  else m

/-- A block read: the byte count comes first. -/
def Mod.smbusBlock (m : Mod) (code : Nat) (data : List Byte) : Mod := m.smbusRead code (BitVec.ofNat 8 data.length :: data)

/-- STATUS_WORD.CML is latched. -/
def Mod.cml (m : Mod) : Mod := { m with statusLatch := m.statusLatch ||| 2 }

/-- A write: discarded when its PEC is wrong, or missing where one is needed (15 R414). -/
def Mod.smbusWrite (m : Mod) (pec : Pec) (need : Bool) (f : Mod → Mod) : Mod :=
  if !m.smbusOn then m
  else match pec with
    | .bad => m.cml
    | .absent => if need then m.cml else f m
    | .good => f m

/-- Command codes of 15 Table 15.10. -/
def smbusCodes : List Nat :=
  [0x03, 0x19, 0x79, 0x88, 0x89, 0x97, 0x8D, 0x8E, 0x98, 0x99, 0x9A, 0x9B, 0x9E, 0xD0, 0xD1, 0xD2, 0xD3, 0xD4, 0xD5, 0xD6, 0xD7]

/-! ## Values -/

/-- The conversion stages are off: what they supply reads as unpowered. -/
def Mod.unpowered (m : Mod) : Bool := decide (m.stateCode < 2)

/-- STATUS_WORD (15 Table 15.10). -/
def Mod.smbusStatus (m : Mod) : Nat :=
  let warn := (List.range 20).any (fun i => m.fld F.THM_TEMP_WARN 0 i == 1)
  m.statusLatch + b2n warn * 4 + b2n m.unpowered * 0x40 + b2n (!m.pwrgd) * 0x800

/-- Reading of die sensor `i` in sixteenths of a degree; none while its die is unpowered. -/
def Mod.dieTemp (m : Mod) (i : Nat) : Option Int :=
  if m.unpowered || (m.state == .parked && decide (1 ≤ i ∧ i ≤ 16)) then none else some (signed 16 (m.fld F.THM_TEMP_READING 0 i))

/-- MFR_DIE_TEMP: 20 readings. -/
def Mod.dieTemps (m : Mod) : List Byte := (List.range 20).flatMap (fun i => match m.dieTemp i with
  | some t => d2 (unsigned 16 t)
  | none => d2 0x8000)

/-- READ_TEMPERATURE_1: the hottest die. -/
def Mod.hottest (m : Mod) : BitVec 16 :=
  match (List.range 20).filterMap m.dieTemp with
  | [] => 0x7FFF
  | t :: ts => Config.linear11 (ts.foldl max t)

/-- The letters of the fixed identification strings (15 Table 15.10). -/
def mfrIdText : List Byte := [0x51, 0x55, 0x41, 0x57, 0x49, 0x4E]
def mfrModelText : List Byte := [0x51, 0x57, 0x2D, 0x4C, 0x58, 0x32, 0x30, 0x2D, 0x41]
def mfrRevisionText : List Byte := [0x41, 0x31]

/-! ## Light-emitting diodes (02 Table 02.5) -/

/-- What an LED output does. -/
inductive Led where
  | off | blink | on
  deriving DecidableEq, Repr

/-- MOD_PRSNT_N (02 R36, R37, R59): shorted to GND on the module, so it is low in every state of a module that is seated, supplied or not. -/
def Mod.prsntN (_ : Mod) : Bool := false

/-- MOD_LED_N[0] (02 Table 02.5). The table names no row for MOD_RST_N held low, for a module reset, or for a stopped boot: the model blinks,
as for a boot in progress (DESIGN CHOICE, log 190). -/
def Mod.led0 (m : Mod) : Led :=
  match m.state with
  | .off => .off
  | .active | .idle | .parked => .on
  | _ => .blink

/-- MOD_LED_N[1] (02 Table 02.5): a boot stopped by logic BIST shows it as well (19 R478). -/
def Mod.led1 (m : Mod) : Led :=
  if m.state = .off then .off
  else if m.tripBlink then .blink
  else if m.fld F.HUB_FAULT_PENDING = 1 ∨ m.bistStop then .on else .off

/-- MOD_LED_N[2]. -/
def Mod.led2 (m : Mod) : Led := if m.state ≠ .off ∧ m.locate then .on else .off

/-! ## Writes -/

/-- MFR_ALERT_STATUS, write one to clear; bit 4 clears HUB_FAULT.PENDING as well (15 R415, 18 R468). -/
def Mod.alertClear (m : Mod) (w : Nat) : Mod :=
  let m := if bit w 4 then m.faultClear else m
  { m with alert := m.alert &&& (0xFFFF ^^^ (w &&& 0xFF)) }

/-- MFR_SERVICE_KEY: 32 bytes, in use from the next request (15 Table 15.10, R411). -/
def Mod.setServiceKey (m : Mod) (key : List Byte) : Mod :=
  if key.length ≠ 32 then m.cml
  else ({ m with serviceKey := some key } : Mod).setFld F.MGD_STATUS_KEY_SET (m.fld F.MGD_STATUS_PUF_OK)

/-- The alert response address is read (02 R40): the module that asserts MOD_ALERT_N answers with its address. -/
def Mod.alertResponse (m : Mod) : Mod :=
  if m.smbusOn && m.alertPin then
    let d : List Byte := [BitVec.ofNat 8 (2 * m.smbusAddr)]
    ({ m with araRead := true } : Mod).emit (.smbus d (crc8 (0x19 :: d)))
  else m

/-- A command byte that the target does not know is NACKed; a known write with a wrong PEC is discarded; both set CML (15 R414). -/
def Mod.smbusInvalid (m : Mod) (code : Nat) (pec : Pec) : Mod :=
  if !m.smbusOn then m
  else if !smbusCodes.contains code then m.cml.emit .nack
  else match pec with
    | .bad => m.cml
    | _ => m

/-- READ_IIN and READ_PIN: the reading, or 0x7FFF while the conversion stages are off (15 R414). -/
def Mod.meterWord (m : Mod) (reading : BitVec 16) : List Byte := d2 (if m.unpowered then 0x7FFF else reading.toNat)

/-- READ_TEMPERATURE_2: the coolant outlet; free before the first sample. -/
def Mod.outletWord (m : Mod) : Mod × List Byte :=
  match m.coolant with
  | some (_, b) => (m, d2 (Config.linear11 b).toNat)
  | none =>
    let (m, d) := m.draw
    (m, d2 (Config.freeNat d))

/-- The management link (02 R51): its partner appears while the management die runs. -/
def Mod.mgmtLinkUp (m : Mod) : Mod := if m.pwrgd ∧ m.rstN ∧ m.mgdHeld = false then { m with link := true } else m

end Sys2Proof.Machine
end

