-- ==== Sys2Proof/Machine/CmdArray.lean ====
section
/-! DEFINITION. The rows of the sequencers, operations and the array (chapters 04-09), one definition per row. -/

namespace Sys2Proof.Machine

open Sys2Proof

/-! ## Sequencers and operations (04-07) -/

def execRingTailWrite (ag : Agent) (q : Fin 4) (data : Word) (σ : State) := σ.run (fun m => m.byAgent ag (F.SQ_RING_TAIL_TAIL.addr q.val 0) (fun m => m.ringTail q.val data.toNat))

def execRingBaseWrite (ag : Agent) (q : Fin 4) (data : Word) (σ : State) := σ.run (fun m => m.byAgent ag (F.SQ_RING_BASE_ADDR.addr q.val 0) (fun m => m.ringBase q.val data.toNat))

def execCplBaseWrite (ag : Agent) (q : Fin 4) (data : Word) (σ : State) := σ.run (fun m => m.byAgent ag (F.SQ_CPL_BASE_ADDR.addr q.val 0) (fun m => m.cplBase q.val data.toNat))

def execCplHeadWrite (ag : Agent) (q : Fin 4) (data : Word) (σ : State) := σ.run (fun m => m.byAgent ag (F.SQ_CPL_HEAD_HEAD.addr q.val 0) (fun m => m.cplHead q.val data.toNat))

def execFetchStart (q : Fin 4) (σ : State) := σ.run (fun m => m.fetchStart q.val)

def execFetchComplete (q : Fin 4) (σ : State) := σ.runF (fun m => m.fetchComplete q.val)

def execNop (q : Fin 4) (σ : State) := σ.runF (fun m => m.fetchOpcode q.val 0x00)

def execJump (q : Fin 4) (σ : State) := σ.runF (fun m => m.fetchOpcode q.val 0x01)

def execLoop (q : Fin 4) (σ : State) := σ.runF (fun m => m.fetchOpcode q.val 0x03)

def execCall (q : Fin 4) (σ : State) := σ.runF (fun m => m.fetchOpcode q.val 0x04)

def execRet (q : Fin 4) (σ : State) := σ.runF (fun m => m.fetchOpcode q.val 0x05)

def execBranchIf (q : Fin 4) (σ : State) := σ.run (fun m => m.controlRow q.val 0x02)

def execHalt (q : Fin 4) (σ : State) := σ.run (fun m => m.controlRow q.val 0x06)

def execFence (q : Fin 4) (σ : State) := σ.run (fun m => m.controlRow q.val 0x07)

def execWaitFlag (q : Fin 4) (σ : State) := σ.run (fun m => m.controlRow q.val 0x08)

def execSignalFlag (q : Fin 4) (σ : State) := σ.run (fun m => m.controlRow q.val 0x09)

def execTrap (q : Fin 4) (σ : State) := σ.run (fun m => m.controlRow q.val 0x0A)

def execFlagWaitPass (q : Fin 4) (σ : State) :=
  σ.run (fun m => m.modCtx q.val (fun c => { c with ops := c.ops.map (fun o =>
    if o.st = .fetched ∧ waitBefore o.desc = true ∧ m.waitHolds o.desc = true then { o with waitPassed := true } else o) }))

def execFlagWrite (ag : Agent) (i : Fin 1024) (data : Word) (σ : State) :=
  σ.run (fun m => m.byAgent ag (F.HUB_FLAG_VALUE.addr 0 i.val) (fun m => (m.setFlag i.val (data.toNat % 2 ^ 32), .ok)))

def execFlagAdd (ag : Agent) (i : Fin 1024) (data : Word) (σ : State) :=
  σ.run (fun m => m.byAgent ag (F.HUB_FLAG_ADD_ADD.addr 0 i.val) (fun m => (m.addFlag i.val (data.toNat % 2 ^ 32), .ok)))

def execStagingStart (q : Fin 4) (σ : State) := σ.run (fun m => m.stagingStart q.val)

def execStagingComplete (q : Fin 4) (σ : State) := σ.runF (fun m => m.stagingComplete q.val)

def execContract (q : Fin 4) (σ : State) := σ.runF (fun m => m.opRow q.val 0x10)

def execContractSparse (q : Fin 4) (σ : State) := σ.runF (fun m => m.opRow q.val 0x11)

def execContractSplit32 (q : Fin 4) (σ : State) := σ.runF (fun m => m.opRow q.val 0x12)

def execContractWindow (q : Fin 4) (σ : State) := σ.runF (fun m => m.opRow q.val 0x13)

def execAttend (q : Fin 4) (σ : State) := σ.runF (fun m => m.opRow q.val 0x30)

def execAttendPaged (q : Fin 4) (σ : State) := σ.runF (fun m => m.opRow q.val 0x31)

def execScanLinear (q : Fin 4) (σ : State) := σ.runF (fun m => m.opRow q.val 0x40)

def execScanAssoc (q : Fin 4) (σ : State) := σ.runF (fun m => m.opRow q.val 0x41)

def execMap (q : Fin 4) (σ : State) := σ.runF (fun m => m.opRow q.val 0x50)

def execMap2 (q : Fin 4) (σ : State) := σ.runF (fun m => m.opRow q.val 0x51)

def execNorm (q : Fin 4) (σ : State) := σ.runF (fun m => m.opRow q.val 0x52)

def execSoftmax (q : Fin 4) (σ : State) := σ.runF (fun m => m.opRow q.val 0x53)

def execQuantize (q : Fin 4) (σ : State) := σ.runF (fun m => m.opRow q.val 0x54)

def execTopk (q : Fin 4) (σ : State) := σ.runF (fun m => m.opRow q.val 0x55)

def execSort (q : Fin 4) (σ : State) := σ.runF (fun m => m.opRow q.val 0x56)

def execReduce (q : Fin 4) (σ : State) := σ.runF (fun m => m.opRow q.val 0x70)

def execGather (q : Fin 4) (σ : State) := σ.runF (fun m => m.opRow q.val 0x80)

def execScatter (q : Fin 4) (σ : State) := σ.runF (fun m => m.opRow q.val 0x81)

def execScatterAdd (q : Fin 4) (σ : State) := σ.runF (fun m => m.opRow q.val 0x82)

def execCopy (q : Fin 4) (σ : State) := σ.runF (fun m => m.opRow q.val 0x90)

def execFill (q : Fin 4) (σ : State) := σ.runF (fun m => m.opRow q.val 0x91)

def execPrefetch (q : Fin 4) (σ : State) := σ.runF (fun m => m.opRow q.val 0x92)

def execEvict (q : Fin 4) (σ : State) := σ.runF (fun m => m.opRow q.val 0x93)

def execAllreduce (q : Fin 4) (σ : State) := σ.runF (fun m => m.opRow q.val 0xA0)

def execReduceScatter (q : Fin 4) (σ : State) := σ.runF (fun m => m.opRow q.val 0xA1)

def execAllgather (q : Fin 4) (σ : State) := σ.runF (fun m => m.opRow q.val 0xA2)

def execAlltoall (q : Fin 4) (σ : State) := σ.runF (fun m => m.opRow q.val 0xA3)

def execBroadcast (q : Fin 4) (σ : State) := σ.runF (fun m => m.opRow q.val 0xA4)

def execSend (q : Fin 4) (σ : State) := σ.runF (fun m => m.opRow q.val 0xA5)

def execRecv (q : Fin 4) (σ : State) := σ.runF (fun m => m.opRow q.val 0xA6)

def execAtomic (q : Fin 4) (σ : State) := σ.runF (fun m => m.opRow q.val 0xB0)

def execStreamParityError (q : Fin 4) (r : ParityReport) (σ : State) := σ.runF (fun m => m.streamParity q.val r)

def execTileReport (q : Fin 4) (die : Fin 16) (σ : State) := σ.runF (fun m => m.tileReport q.val die.val)

def execPartialSumArrival (q : Fin 4) (die : Fin 16) (n : Nat) (σ : State) := σ.run (fun m => m.partialArrives q.val die.val n)

def execReductionComplete (q : Fin 4) (σ : State) := σ.runF (fun m => m.reductionDone q.val)

def execMemoryRequestComplete (q : Fin 4) (σ : State) := σ.runF (fun m => m.memoryDone q.val)

def execRetire (q : Fin 4) (σ : State) := σ.runF (fun m => m.retire q.val)

def execCompletionRecordWrite (q : Fin 4) (σ : State) := σ.runF (fun m => m.recordRow q.val)

def execContextTrap (q : Fin 4) (σ : State) := σ.runF (fun m => m.contextTrap q.val)

def execReloadComplete (q : Fin 4) (σ : State) := σ.runF (fun m => m.reloadDone q.val)

def execAbortRequest (ag : Agent) (q : Fin 4) (σ : State) :=
  σ.run (fun m => m.byAgent ag (F.SQ_CTL_ABORT.addr q.val 0) (fun m => (m.modCtx q.val (fun c => { c with abortReq := true }), .ok)))

def execAbortTaken (q : Fin 4) (σ : State) := σ.runF (fun m => m.abortTaken q.val)

def execDetachTimeout (q : Fin 4) (σ : State) := σ.run (fun m => m.detach q.val)

def execAbortComplete (q : Fin 4) (σ : State) := σ.runF (fun m => m.abortComplete q.val)

def execResume (ag : Agent) (q : Fin 4) (σ : State) := σ.run (fun m => m.byAgent ag (F.SQ_CTL_RESUME.addr q.val 0) (fun m => (m.resume q.val, .ok)))

def execSequencerDieLost (q : Fin 4) (die : Fin 16) (σ : State) := σ.run (fun m => m.sqDieLost q.val die.val)

end Sys2Proof.Machine
end

