-- ==== Sys2Proof/Machine/CmdLinks.lean ====
section
/-! DEFINITION. The rows of the fabric engine, ports, die links and incoming packets (chapters 12-14, 20), one definition per row. -/

namespace Sys2Proof.Machine

open Sys2Proof

/-! ## Fabric (12) -/

def execRsp (port : Fin 10) (p : Packet) (σ : State) :=
  let p := { p with ty := 0x40 }
  σ.runF (fun m => m.arrive port.val p (fun m => m.responseArrives port.val p))

def execRspd (port : Fin 10) (p : Packet) (σ : State) :=
  let p := { p with ty := 0x41 }
  σ.runF (fun m => m.arrive port.val p (fun m => m.responseArrives port.val p))

def execJoin (port : Fin 10) (p : Packet) (σ : State) :=
  let p := { p with ty := 0x62 }
  σ.runF (fun m => m.arrive port.val p (fun m => m.joinArrives port.val p))

def execJoinAck (port : Fin 10) (p : Packet) (σ : State) :=
  let p := { p with ty := 0x63 }
  σ.runF (fun m => m.arrive port.val p (fun m => m.joinAckArrives p))

def execNodeDown (port : Fin 10) (p : Packet) (σ : State) :=
  let p := { p with ty := 0x64 }
  σ.runF (fun m => m.arrive port.val p (fun m => m.nodeDownArrives p))

/-- A FENCE notice (12 R344, R351): acted on where it is for this module, and copied down its tree; a manager relays a peer's notice. -/
def execFabricFence (port : Fin 10) (p : Packet) (σ : State) :=
  let p := { p with ty := 0x65 }
  σ.runF (fun m => m.arrive port.val p (fun m =>
    let n := leAt p.head 0 2
    if p.vc.val = 4 then
      let m := if m.fld F.FAB_TREE_LOCAL 0 (p.byteAt 0x1A) = 1 then m.hallFence n else m
      if p.hops.toNat ≤ 1 then m else m.copyToChildren (some port.val) { p with hops := p.hops - 1 }
    else
      let m := (m.meetPeer p).hallFence n
      if m.fld F.FAB_ROLE_ROLE = 2 then m.broadcast 0x65 n else m))

def execUnfence (port : Fin 10) (p : Packet) (σ : State) :=
  let p := { p with ty := 0x66 }
  σ.runF (fun m => m.arrive port.val p (fun m =>
    if p.vc.val = 4 then
      let m := if m.fld F.FAB_TREE_LOCAL 0 (p.byteAt 0x1A) = 1 then m.unfenceArrives port.val p else m
      if p.hops.toNat ≤ 1 then m else m.copyToChildren (some port.val) { p with hops := p.hops - 1 }
    else (m.meetPeer p).unfenceArrives port.val p))

def execEventPacket (port : Fin 10) (p : Packet) (σ : State) :=
  let p := { p with ty := 0x67 }
  σ.runF (fun m => m.arrive port.val p (fun m => m.eventArrives p.body))

/-- A packet of any type on its way through this hub; what a packet for this module does is its own command's. -/
def execPacketForward (port : Fin 10) (p : Packet) (σ : State) := σ.runF (fun m => m.arrive port.val p id)

def execFabricEnable (ag : Agent) (σ : State) := σ.runF (fun m => m.byAgent ag (F.FAB_CTL_ENABLE.addr 0 0) (·.fabEnable))

def execFabricDisable (ag : Agent) (σ : State) := σ.runF (fun m => m.byAgent ag (F.FAB_CTL_ENABLE.addr 0 0) (·.fabDisable))

/-- JOIN is sent again while JOINING: every 1 ms, or every 100 ms after a provisional answer (12 Table 12.1). -/
def execJoinRepeat (σ : State) := σ.runF (fun m => if m.fld F.FAB_ROLE_STATE = 1 then m.sendJoins else m)

def execNodeDownFailover (n : Fin 16384) (σ : State) := σ.runF (fun m => m.nodeDownNext n.val)

def execNodeDownConfirm (n : Fin 16384) (alive : Bool) (σ : State) := σ.runF (fun m => m.confirm n.val alive)

/-- The timer of an entry reaches its limit; it stands still while the port is in retry or retraining and while the request waits for
a port (12 R346). -/
def execGrtTimeout (idx : Fin 65536) (σ : State) :=
  σ.runF (fun m =>
    match m.fab.grt.find? (fun e => e.idx == idx.val && !e.quarantined) with
    | none => m
    | some e =>
      let stopped := match e.port with
        | some p => m.portHeld p
        | none => !e.held
      if stopped then m else m.failEntry idx.val .timeout)

def execQuarantineExpiry (idx : Fin 65536) (σ : State) :=
  σ.runF (fun m => m.modFab (fun f => { f with grt := f.grt.filter (fun e => e.idx != idx.val || !e.quarantined) }))

def execPortDrain (ag : Agent) (port : Fin 10) (data : Word) (σ : State) :=
  σ.runF (fun m => m.byAgent ag (F.FAB_PORT_ROUTE_EN.addr 0 port.val) (fun m => m.portWrite port.val (data.toNat ||| 0x20)))

def execDrainEnd (ag : Agent) (port : Fin 10) (data : Word) (σ : State) :=
  σ.runF (fun m => m.byAgent ag (F.FAB_PORT_ROUTE_EN.addr 0 port.val) (fun m => m.portWrite port.val (putBits (data.toNat ||| 1) 5 1 0)))

/-! ## Optical ports (13) -/

def execEmitterFailure (d : Fin 2) (w : Fin 8) (σ : State) := σ.runF (fun m => m.emitterFails d.val w.val)

def execSpareEmitterResult (d : Fin 2) (w : Fin 8) (locked : Bool) (σ : State) := σ.runF (fun m => m.spareResult d.val w.val locked)

def execFlitReceived (port : Fin 10) (f : Flit) (σ : State) := σ.runF (fun m => m.flit port.val f)

def execAck (port : Fin 10) (n : Fin 4096) (wrap : Bool) (σ : State) := σ.runF (fun m => m.ackIn port.val n.val wrap)

def execNak (port : Fin 10) (n : Fin 4096) (σ : State) := σ.runF (fun m => m.nakIn port.val n.val)

/-- No SOF with the expected number within 1 µs of a NAK (13 R367). -/
def execNakResendTimeout (port : Fin 10) (σ : State) :=
  σ.runF (fun m => if m.laneState port.val = 6 ∧ (m.laneOf port.val).discard then m.sendNak port.val else m)

/-- A credit return; values that 13 Table 13.2 does not allow are ignored (R361). -/
def execCrd (port : Fin 10) (vc : Fin 8) (sub : Bool) (total : Fin 4096) (σ : State) :=
  σ.runF (fun m => if vc.val ≤ 5 then m.creditIn port.val (vc.val * 2 + b2n sub) total.val else m)

def execHbt (port : Fin 10) (node : Fin 16384) (σ : State) :=
  σ.runF (fun m => if m.laneState port.val = 6 then m.modLane port.val (fun l => { l with lastHbt := some node.val }) else m)

/-- 1 µs of the transmitter's counter: the next block carries an HBT (13 R378). -/
def execHeartbeatSend (port : Fin 10) (σ : State) :=
  σ.runF (fun m => if m.laneState port.val = 6 ∧ m.fld F.LANE_STATUS_TX_ASLEEP port.val = 0 then
    m.modLane port.val (fun l => { l with hbtDue := true }) else m)

/-- Missing heartbeats (13 R377, R378): with light the port retrains; without it the partner is lost, in training as well (Table 13.5); a
sleeping receiver ignores them. -/
def execHeartbeatTimeout (port : Fin 10) (light : Bool) (σ : State) :=
  σ.runF (fun m =>
    let p := port.val
    if m.fld F.LANE_STATUS_RX_ASLEEP p = 1 then m
    else if light then m.retrain p 5
    else if 2 ≤ m.laneState p ∧ m.laneState p ≤ 6 then m.portDown p 8 7
    else m)

def execBar (port : Fin 10) (answer : Bool) (σ : State) := σ.runF (fun m => m.barIn port.val answer)

def execSlp (port : Fin 10) (σ : State) :=
  σ.runF (fun m => if m.laneState port.val = 6 then m.setFld F.LANE_STATUS_RX_ASLEEP 1 port.val else m)

/-- Loss of signal or lock on active receive lanes; a loss of all of them is for the heartbeat to judge (13 R377, R378). -/
def execLossOfSignal (port : Fin 10) (mask : BitVec 32) (σ : State) :=
  σ.runF (fun m =>
    let p := port.val
    let rx := m.fld F.LANE_RX_MASK_USE p
    if m.fld F.LANE_STATUS_RX_ASLEEP p = 0 ∧ mask.toNat &&& rx ≠ 0 ∧ mask.toNat &&& rx ≠ rx then m.retrain p 1 else m)

def execPortEnable (ag : Agent) (port : Fin 10) (σ : State) := σ.runF (fun m => m.byAgent ag (F.LANE_CTL_ENABLE.addr port.val 0) (fun m => (m.laneEnable port.val true, .ok)))

def execPortDisable (ag : Agent) (port : Fin 10) (σ : State) := σ.runF (fun m => m.byAgent ag (F.LANE_CTL_ENABLE.addr port.val 0) (fun m => (m.laneEnable port.val false, .ok)))

def execPartnerBeaconDetected (port : Fin 10) (σ : State) :=
  σ.runF (fun m => if m.laneState port.val = 1 then m.startTrain port.val else m)

/-- Every lane that takes part is DONE in both directions; the taps hold the results (13 R373). -/
def execTrainDone (port : Fin 10) (taps : List (Fin 32 × Fin 16 × Fin 16 × Fin 16)) (σ : State) :=
  σ.runF (fun m =>
    let p := port.val
    if m.laneState p ≠ 2 then m
    else
      let m := taps.foldl (fun m (l, pre, main, post) =>
        ((m.setFld F.LANE_TAP_PRE pre.val p l.val).setFld F.LANE_TAP_MAIN main.val p l.val).setFld F.LANE_TAP_POST post.val p l.val) m
      m.nextStage p 3)

def execLaneSlip (ag : Agent) (port : Fin 10) (lane : Fin 32) (σ : State) :=
  σ.runF (fun m => m.byAgent ag (F.LANE_SLIP_LANE.addr port.val 0) (fun m => (m.laneSlip port.val lane.val, .ok)))

def execSlipDone (ag : Agent) (port : Fin 10) (σ : State) := σ.runF (fun m => m.byAgent ag (F.LANE_CTL_ENABLE.addr port.val 0) (fun m => (m.slipDone port.val, .ok)))

/-- The lanes are aligned, but for those whose skew is too large (13 R375). -/
def execDeskewDone (port : Fin 10) (skewed : BitVec 32) (σ : State) :=
  σ.runF (fun m => if m.laneState port.val = 4 then (m.exclude port.val skewed.toNat).nextStage port.val 5 else m)

def execCapabilityRecord (port : Fin 10) (r : CapRecord) (σ : State) := σ.runF (fun m => m.capability port.val r)

def execStageTimeout (port : Fin 10) (incomplete : BitVec 32) (σ : State) := σ.runF (fun m => m.stageTimeout port.val incomplete.toNat)

def execRetrainBudgetExpired (port : Fin 10) (σ : State) :=
  σ.runF (fun m => if m.fld F.LANE_STATUS_RETRAINING port.val = 1 then m.portDown port.val 9 7 else m)

/-- 100 µs dark in DOWN (13 Table 13.5). -/
def execDownDarkExpiry (port : Fin 10) (σ : State) :=
  σ.runF (fun m =>
    let p := port.val
    if m.laneState p ≠ 7 then m
    else if m.fld F.LANE_CTL_ENABLE p = 1 ∧ m.laserOk then (m.setFld F.LANE_STATUS_ATTEMPTS 0 p).enterDetect p
    else m.portDark p 0)

def execTrainingSetReceived (port : Fin 10) (σ : State) := σ.runF (fun m => m.retrain port.val 4)

def execLaneRetrain (ag : Agent) (port : Fin 10) (σ : State) := σ.runF (fun m => m.byAgent ag (F.LANE_CTL_ENABLE.addr port.val 0) (fun m => (m.retrain port.val 6, .ok)))

def execTxSleepEntry (port : Fin 10) (σ : State) :=
  σ.runF (fun m => if m.fld F.LANE_SLEEP_AUTO port.val = 1 then m.txSleep port.val else m)

/-- A sleeping direction has something to send, or an agent writes LANE_SLEEP.WAKE (13 R381). -/
def execTxWake (port : Fin 10) (ag : Option Agent) (σ : State) :=
  σ.runF (fun m => match ag with
    | none => m.txWake port.val
    | some ag => m.byAgent ag (F.LANE_SLEEP_WAKE.addr port.val 0) (fun m => (m.txWake port.val, .ok)))

/-- A wake that fails (13 R381): no COM at the saved positions retrains; no light on the sleeping reverse direction takes the port down. -/
def execWakeTimeout (port : Fin 10) (reverse : Bool) (σ : State) :=
  σ.runF (fun m =>
    if m.fld F.LANE_STATUS_RX_ASLEEP port.val = 0 ∨ m.laneState port.val ≠ 6 then m
    else if reverse then m.portDown port.val 11 7 else m.retrain port.val 1)

def execLoopbackNone (ag : Agent) (port : Fin 10) (σ : State) := σ.runF (fun m => m.byAgent ag (F.LANE_CTL_ENABLE.addr port.val 0) (fun m => m.loopback port.val 0))

def execLoopbackNearSerial (ag : Agent) (port : Fin 10) (σ : State) := σ.runF (fun m => m.byAgent ag (F.LANE_CTL_ENABLE.addr port.val 0) (fun m => m.loopback port.val 1))

def execLoopbackNearParallel (ag : Agent) (port : Fin 10) (σ : State) := σ.runF (fun m => m.byAgent ag (F.LANE_CTL_ENABLE.addr port.val 0) (fun m => m.loopback port.val 2))

def execLoopbackFarEnd (ag : Agent) (port : Fin 10) (σ : State) := σ.runF (fun m => m.byAgent ag (F.LANE_CTL_ENABLE.addr port.val 0) (fun m => m.loopback port.val 3))

/-- Bit errors that the PRBS31 check of a port meets, by lane (13 R382); nothing while PRBS_EN is 0. -/
def execPrbsTest (port : Fin 10) (errors : List (Fin 32 × Nat)) (σ : State) :=
  σ.runF (fun m =>
    let p := port.val
    if m.fld F.LANE_CTL_PRBS_EN p = 0 then m
    else errors.foldl (fun m (l, n) =>
      let m := m.addFld F.LANE_COUNT_COUNT n p 7
      if l.val = m.fld F.LANE_PRBS_LANE_LANE p then m.satFld F.LANE_PRBS_LANE_COUNT n p else m) m)

/-- A lane's comma is seen at a position, or has stood at a multiple of 10 for 64 training sets (13 R374). -/
def execCommaLocked (port : Fin 10) (lane : Fin 32) (pos : Fin 40) (locked : Bool) (σ : State) :=
  σ.runF (fun m =>
    let p := port.val
    let (i, j) := (lane.val / 8, lane.val % 8)
    if m.laneState p ≠ 3 then m
    else
      let m := (m.setFld F.LANE_COMMA_POS pos.val p i j).setFld F.LANE_COMMA_SEEN 1 p i j
      m.setFld F.LANE_COMMA_LOCKED (b2n (locked && pos.val % 10 == 0)) p i j)

def execReceiverWake (port : Fin 10) (σ : State) := σ.runF (fun m => m.setFld F.LANE_STATUS_RX_ASLEEP 0 port.val)

def execSegmentBlock (port : Fin 10) (σ : State) := σ.runF (fun m => m.segment port.val)

/-! ## Die links (14) -/

def execFrameReceive (port : Fin 17) (b : Fin 16) (f : Frame) (σ : State) := σ.runF (fun m => m.frame port.val b.val f)

def execFrameNak (port : Fin 17) (b : Fin 16) (n : BitVec 8) (σ : State) := σ.runF (fun m => m.frameNakIn port.val b.val n.toNat)

def execLaneErrorWindow (port : Fin 17) (σ : State) := σ.runF (fun m => m.laneWindow port.val)

def execBundleRetrain (ag : Agent) (port : Fin 17) (b : Fin 16) (data : Word) (σ : State) :=
  σ.runF (fun m => m.byAgent ag (F.D2D_BUNDLE_RETRAIN.addr port.val b.val) (fun m => if bundleCount port.val ≤ b.val then (m, .ok) else m.bundleWrite port.val b.val (data.toNat ||| 0x40)))

def execBundleRetrainComplete (port : Fin 17) (tests : List DirTest) (σ : State) := σ.runF (fun m => m.retrainDone port.val tests)

def execD2dClock (ag : Agent) (port : Fin 17) (mask _prbs : BitVec 16) (σ : State) :=
  σ.run (fun m => m.byAgent ag (F.D2D_TRAIN_CMD_OP.addr port.val 0) (fun m => m.d2dTrain port.val 1 mask.toNat))

def execD2dDeskew (ag : Agent) (port : Fin 17) (mask _prbs : BitVec 16) (σ : State) :=
  σ.run (fun m => m.byAgent ag (F.D2D_TRAIN_CMD_OP.addr port.val 0) (fun m => m.d2dTrain port.val 2 mask.toNat))

def execD2dIct (ag : Agent) (port : Fin 17) (mask _prbs : BitVec 16) (σ : State) :=
  σ.run (fun m => m.byAgent ag (F.D2D_TRAIN_CMD_OP.addr port.val 0) (fun m => m.d2dTrain port.val 3 mask.toNat))

def execD2dSpare (ag : Agent) (port : Fin 17) (mask _prbs : BitVec 16) (σ : State) :=
  σ.run (fun m => m.byAgent ag (F.D2D_TRAIN_CMD_OP.addr port.val 0) (fun m => m.d2dTrain port.val 4 mask.toNat))

def execD2dParity (ag : Agent) (port : Fin 17) (mask _prbs : BitVec 16) (σ : State) :=
  σ.run (fun m => m.byAgent ag (F.D2D_TRAIN_CMD_OP.addr port.val 0) (fun m => m.d2dTrain port.val 5 mask.toNat))

def execD2dApply (ag : Agent) (port : Fin 17) (mask _prbs : BitVec 16) (σ : State) :=
  σ.run (fun m => m.byAgent ag (F.D2D_TRAIN_CMD_OP.addr port.val 0) (fun m => m.d2dTrain port.val 6 mask.toNat))

def execD2dColdTraining (ag : Agent) (port : Fin 17) (mask _prbs : BitVec 16) (σ : State) :=
  σ.run (fun m => m.byAgent ag (F.D2D_TRAIN_CMD_OP.addr port.val 0) (fun m => m.d2dTrain port.val 7 mask.toNat))

def execD2dTrainStepDone (port : Fin 17) (tests : List DirTest) (σ : State) := σ.runF (fun m => m.trainStepDone port.val tests)

def execLossOfForwardedClock (port : Fin 17) (mask : BitVec 16) (frame : Bool) (σ : State) :=
  σ.runF (fun m => m.clockLoss port.val mask.toNat frame)

/-! ## Packets for this module (12) -/

def execRd64 (port : Fin 10) (p : Packet) (σ : State) :=
  let p := { p with ty := 0x01 }
  σ.runF (fun m => m.arrive port.val p (fun m => m.inboundMem port p (.read 64) none true))

def execRdn (port : Fin 10) (p : Packet) (σ : State) :=
  let p := { p with ty := 0x02 }
  σ.runF (fun m => m.arrive port.val p (fun m => m.inboundMem port p (.read (2 ^ p.byteAt 0x18)) none false true))

def execWr64 (port : Fin 10) (p : Packet) (σ : State) :=
  let p := { p with ty := 0x03 }
  σ.runF (fun m => m.arrive port.val p (fun m =>
    (m.inboundMem port p (.write ((p.body.take 64).map some)) (hintTarget p) false).seenWrite p 64))

def execWrm (port : Fin 10) (p : Packet) (σ : State) :=
  let p := { p with ty := 0x04 }
  σ.runF (fun m => m.arrive port.val p (fun m =>
    let w := (bitsOf 64 (p.word 8))
    (m.inboundMem port p (.write (maskedLine p)) (hintTarget p) false).seenWrite
      { p with head := splice p.head 0 (toBytes 6 (p.addr + w.headD 0)) } w.length))

def execAtom (port : Fin 10) (p : Packet) (σ : State) :=
  let p := { p with ty := 0x05 }
  σ.runF (fun m => m.arrive port.val p (fun m => m.inboundAtom port p))

def execBulkr (port : Fin 10) (p : Packet) (σ : State) :=
  let p := { p with ty := 0x06 }
  σ.runF (fun m => m.arrive port.val p (fun m => m.bulkRead port p))

def execBulkw (port : Fin 10) (p : Packet) (σ : State) :=
  let p := { p with ty := 0x07 }
  σ.runF (fun m => m.arrive port.val p (fun m => (m.bulkWrite port p).seenWrite p (64 * p.byteAt 0x19)))

def execDbell (port : Fin 10) (p : Packet) (σ : State) :=
  let p := { p with ty := 0x08 }
  σ.runF (fun m => m.arrive port.val p (fun m => m.doorbell port p))

def execRedc (port : Fin 10) (p : Packet) (σ : State) :=
  let p := { p with ty := 0x09 }
  σ.runF (fun m => m.arrive port.val p (fun m => m.contribute port p))

/-- COLL with a body flit is a READY. -/
def execCollReady (port : Fin 10) (p : Packet) (σ : State) :=
  let p := { p with ty := 0x0A, len := 1, body := padTo 64 p.body }
  σ.runF (fun m => m.arrive port.val p (fun m => m.readyArrives port p))

/-- COLL without a body flit is a CREDIT. -/
def execCollCredit (port : Fin 10) (p : Packet) (σ : State) :=
  let p := { p with ty := 0x0A, len := 0, body := [] }
  σ.runF (fun m => m.arrive port.val p (fun m => m.creditArrives port p))

def execBcw (port : Fin 10) (p : Packet) (σ : State) :=
  let p := { p with ty := 0x70 }
  σ.runF (fun m => m.arrive port.val p (fun m => m.broadcastWrite port p))

end Sys2Proof.Machine
end

