-- ==== Sys2Proof/Machine/CmdMemory.lean ====
section
/-! DEFINITION. The rows of on-chip SRAM, LPDDR, coherence and core accesses (chapters 10, 11, 16), one definition per row. -/

namespace Sys2Proof.Machine

open Sys2Proof

/-! ## One access to local memory -/

/-- A write to a bit-set or bit-clear alias by an agent (08 R233, R234). -/
def execAliasWrite (ag : Agent) (addr : Word) (size : Nat) (data : Word) (σ : State) :=
  σ.run (fun m =>
    match m.decodeAddr addr.toNat with
    | .here a =>
      match m.aliasWrite (.agent ag) ag a size data.toNat with
      | (m, .done st _) => m.storeDone ag addr.toNat st
      | (m, .waits) =>
        if isCore ag then { m with uncached := m.uncached ++ [{ ag := ag, kind := 3, addr := addr.toNat, op := .write [], amo := none }] } else m
    | _ => m.storeDone ag addr.toNat .range)

/-! ## On-chip memory (08) -/

def execYPortAccess (ag : Agent) (arr : Fin 17) (off : Nat) (op : MemOp) (s : Option SPort) (σ : State) :=
  σ.runF (fun m => m.yPortAccess ag arr.val off op s)

def execYAccessPerformed (arr : Fin 17) (bank : Fin 1024) (sub : Fin 2) (σ : State) :=
  σ.runF (fun m => m.yPerformed arr.val bank.val sub.val)

def execBankWakeComplete (arr : Fin 17) (bank : Fin 1024) (σ : State) :=
  σ.run (fun m => m.bankWake arr.val bank.val)

def execMarchEnd (arr : Fin 17) (fails : List MarchFail) (σ : State) :=
  σ.run (fun m => m.marchEnd arr.val fails)

/-! ## LPDDR (09, 10) -/

def execLpddrCommandSlot (k : Fin 24) (c : Fin 4) (arrivals : List LpReq) (errs : List BlockErr) (σ : State) :=
  σ.runF (fun m => m.lpSlot k.val c.val arrivals errs)

/-- A narrow read for Ochre (09 R258): its directory step comes first (R260). -/
def execOchreRequest (src : Src) (addr size : Nat) (σ : State) :=
  σ.runF (fun m => match lpddrAt addr with
    | none => m.emit (.compl src .range [])
    | some _ =>
      match m.memAccess src .fabric addr (.read size) (0, false) none true with
      | (m, .done st d) => m.emit (.compl src st d)
      | (m, .waits) => m)

def execOchreAgeExpired (id : Nat) (σ : State) := σ.run (fun m => m.ochAge id)

def execRefresh (k : Fin 24) (c : Fin 4) (bank : Fin 32) (σ : State) := σ.run (fun m => m.refreshBank k.val c.val bank.val)

def execTemperatureReport (k : Fin 24) (temp : BitVec 8) (σ : State) := σ.runF (fun m => m.tempReport k.val temp.toInt)

def execThermalHoldTimeout (k : Fin 24) (id : Nat) (σ : State) := σ.runF (fun m => m.holdTimeout k.val id)

/-- In PARKED, a package without an access for 1 ms returns to self-refresh (09 R265). -/
def execSelfRefreshIdle (k : Fin 24) (σ : State) :=
  σ.run (fun m => if m.state = .parked then m.modMc k.val (fun c => { c with selfRefresh := true }) else m)

def execPatrolScrub (k : Fin 24) (unit : Fin 33254839) (errs : List BlockErr) (σ : State) :=
  σ.run (fun m => m.scrub k.val unit.val errs)

def execRowRemap (k : Fin 24) (errs : List BlockErr) (spare : List (Fin 3 × BlockErr)) (σ : State) :=
  σ.runF (fun m => m.rowRemap k.val errs (spare.map (fun x => (x.1.val, x.2))))

def execLogClear (ag : Agent) (k : Fin 24) (σ : State) := σ.run (fun m => m.byAgent ag (F.MC_CTL_LOG_CLEAR.addr k.val 0) (fun m => (m.logClear k.val, .ok)))

def execZqCalibration (ag : Agent) (k : Fin 24) (mask : Fin 16) (σ : State) :=
  σ.run (fun m => m.byAgent ag (F.MC_TRAIN_CMD_OP.addr k.val 0) (fun m => m.mcTrain k.val 1 mask.val))

def execCommandAddressTraining (ag : Agent) (k : Fin 24) (mask : Fin 16) (σ : State) :=
  σ.run (fun m => m.byAgent ag (F.MC_TRAIN_CMD_OP.addr k.val 0) (fun m => m.mcTrain k.val 2 mask.val))

def execWriteLeveling (ag : Agent) (k : Fin 24) (mask : Fin 16) (σ : State) :=
  σ.run (fun m => m.byAgent ag (F.MC_TRAIN_CMD_OP.addr k.val 0) (fun m => m.mcTrain k.val 3 mask.val))

def execReadDqTraining (ag : Agent) (k : Fin 24) (mask : Fin 16) (σ : State) :=
  σ.run (fun m => m.byAgent ag (F.MC_TRAIN_CMD_OP.addr k.val 0) (fun m => m.mcTrain k.val 4 mask.val))

def execWriteDqTraining (ag : Agent) (k : Fin 24) (mask : Fin 16) (σ : State) :=
  σ.run (fun m => m.byAgent ag (F.MC_TRAIN_CMD_OP.addr k.val 0) (fun m => m.mcTrain k.val 5 mask.val))

def execPatternCheck (ag : Agent) (k : Fin 24) (mask : Fin 16) (σ : State) :=
  σ.run (fun m => m.byAgent ag (F.MC_TRAIN_CMD_OP.addr k.val 0) (fun m => m.mcTrain k.val 6 mask.val))

def execApplyTrainingParam (ag : Agent) (k : Fin 24) (mask : Fin 16) (σ : State) :=
  σ.run (fun m => m.byAgent ag (F.MC_TRAIN_CMD_OP.addr k.val 0) (fun m => m.mcTrain k.val 7 mask.val))

def execLpddrTrainingStepDone (k : Fin 24) (pass : Fin 16) (pins : List (BitVec 16)) (σ : State) :=
  σ.run (fun m => m.trainDone k.val pass.val (pins.map BitVec.toNat))

def execDeadlineTick (σ : State) := σ.run (fun m => m.deadlineTick)

def execReservationWindow (k : Fin 24) (σ : State) := σ.run (fun m => m.windowStart k.val)

def execReservationWrite (ag : Agent) (k : Fin 24) (data : Word) (σ : State) :=
  σ.run (fun m => m.byAgent ag (F.REG_RES_STREAM.addr 0 k.val) (fun m => m.resWrite k.val data.toNat))

def execQueueLevelBroadcast (k : Fin 24) (σ : State) := σ.run (fun m => m.levelBroadcast k.val)

def execCapacityRecompute (σ : State) := σ.run (fun m => m.recompute)

/-! ## Coherence (11) -/

def execLineReplacement (a : Fin 65) (line : Word) (σ : State) :=
  σ.runF (fun m =>
    match m.lineFind a.val line.toNat with
    | none => m
    | some l =>
      match l.st with
      | .s | .e => m.lineDrop a.val l.addr
      | .m => (m.linePut { l with st := .wbPend }).send
          { kind := .wbData, src := some a, dst := none, line := l.addr, data := l.data, poison := l.poison }
      | _ => m)

def execRds (h : Holder) (line : Word) (σ : State) := σ.runF (fun m => m.reqArrives h line.toNat .rdS (.rdS h))

def execRdx (h : Holder) (line : Word) (σ : State) := σ.runF (fun m => m.reqArrives h line.toNat .rdX (.rdX h))

def execUpg (h : Holder) (line : Word) (σ : State) := σ.runF (fun m => m.reqArrives h line.toNat .upg (.upg h))

def execNcRd (src : Src) (ag : Agent) (addr : Word) (size : Nat) (σ : State) :=
  σ.runF (fun m => m.ncArrives src ag addr.toNat (.read size) none none)

def execNcWr (src : Src) (ag : Agent) (addr : Word) (data : List (Option Byte)) (hint : Option (Fin 128)) (σ : State) :=
  σ.runF (fun m => m.ncArrives src ag addr.toNat (.write data) none (hint.map Fin.val))

def execNcAtom (src : Src) (ag : Agent) (addr : Word) (op : AtomOp) (σ : State) :=
  σ.runF (fun m => if addr.toNat % 8 ≠ 0 then m.emit (.compl src .protocol [])
    else m.ncArrives src ag addr.toNat (.read 8) (some op) none)

def execRecallS (dst : Option (Fin 65)) (line : Word) (σ : State) := σ.runF (fun m => m.snoopArrives dst line.toNat 0 .recallS)

def execRecallI (dst : Option (Fin 65)) (line : Word) (σ : State) := σ.runF (fun m => m.snoopArrives dst line.toNat 1 .recallI)

def execInv (dst : Option (Fin 65)) (line : Word) (σ : State) := σ.runF (fun m => m.snoopArrives dst line.toNat 2 .inv)

def execInvAck (h : Holder) (line : Word) (σ : State) :=
  σ.runF (fun m => m.answerArrives h line.toNat (· == .invAck) (fun m _ => m.holderAnswer line.toNat h true false) .invAck)

def execRecallAck (h : Holder) (line : Word) (kind : AckKind) (σ : State) :=
  σ.runF (fun m => m.answerArrives h line.toNat
    (fun k => match k with
      | .recallAck _ => true
      | _ => false)
    (fun m k => match k with
      | .recallAck x => m.recallAnswer line.toNat h x
      | _ => m) (.recallAck kind))

def execWbPend (h : Holder) (line : Word) (σ : State) :=
  σ.runF (fun m => m.answerArrives h line.toNat (· == .wbPend) (fun m _ => m.wbPendIn line.toNat h) .wbPend)

/-- The agent's writeback is acknowledged: the line goes to I (11 Table 11.4). -/
def execWbAck (a : Fin 65) (line : Word) (σ : State) :=
  σ.runF (fun m =>
    match m.recv (fun x => x.kind == .wbAck && x.dst == some a && x.line == line.toNat) with
    | none => m
    | some (_, m) =>
      match m.lineFind a.val line.toNat with
      | some l => if l.st = .wbPend then m.lineDrop a.val line.toNat else m
      | none => m)

def execGrantM (dst : Option (Fin 65)) (line : Word) (σ : State) :=
  σ.runF (fun m => match dst with
    | some a => m.dataArrives a line.toNat .grantM
    | none => m.proxyGrant line.toNat [] .m false true)

def execData (dst : Option (Fin 65)) (line : Word) (data : List Byte) (grant : Grant) (poison : Bool) (σ : State) :=
  σ.runF (fun m => match dst with
    | some a => m.dataArrives a line.toNat .data
    | none => m.proxyGrant line.toNat (padTo 64 data) (grantState grant) poison false)

def execRecallData (h : Holder) (line : Word) (data : List Byte) (poison : Bool) (σ : State) :=
  σ.runF (fun m => match h with
    | .agent a =>
      match m.recv (fun x => x.kind == .recallData && x.src == some a && x.line == line.toNat) with
      | none => m
      | some (x, m) => m.recallDataIn line.toNat h x.data x.poison
    | .member _ => m.recallDataIn line.toNat h (padTo 64 data) poison)

def execWbData (h : Holder) (line : Word) (data : List Byte) (poison : Bool) (σ : State) :=
  σ.runF (fun m => match h with
    | .agent a =>
      match m.recv (fun x => x.kind == .wbData && x.src == some a && x.line == line.toNat) with
      | none => m
      | some (x, m) => m.wbDataIn line.toNat h x.data x.poison
    | .member _ => m.wbDataIn line.toNat h (padTo 64 data) poison)

/-- A Push reaches its target (11 R304): accepted in E when the L2 has room without writing anything back and does not hold the
line. -/
def execPush (a : Fin 65) (line : Word) (room : Bool) (σ : State) :=
  σ.runF (fun m =>
    match m.recv (fun x => x.kind == .push && x.dst == some a && x.line == line.toNat) with
    | none => m
    | some (x, m) =>
      if room && (m.lineFind a.val line.toNat).isNone then
        (m.linePut { agent := a.val, addr := line.toNat, st := .e, data := x.data, poison := x.poison, access := none, snoop := none }).send
          { kind := .pushAck, src := some a, dst := none, line := line.toNat }
      else m.send { kind := .pushDrop, src := some a, dst := none, line := line.toNat })

def execPushAck (a : Fin 65) (line : Word) (σ : State) := σ.runF (fun m => m.pushAnswer a line.toNat .pushAck true)

def execPushDrop (a : Fin 65) (line : Word) (σ : State) := σ.runF (fun m => m.pushAnswer a line.toNat .pushDrop false)

/-- The source receives the completion of its non-caching write or atomic (11 R305). -/
def execNcAck (src : Src) (σ : State) :=
  σ.runF (fun m =>
    match m.ncAcks.find? (fun x => x.1 == src) with
    | none => m
    | some (_, st, d) =>
      ({ m with ncAcks := m.ncAcks.eraseP (fun x => x.1 == src) }).emit (.compl src st d))

def execRetryQueueRelease (line : Word) (σ : State) := σ.runF (fun m => m.retryRelease line.toNat)

def execRemoteEnClear (ag : Agent) (σ : State) := σ.runF (fun m => m.byAgent ag (F.DIR_CTL_REMOTE_EN.addr 0 0) (fun m => (m.remoteEnClear, .ok)))

/-- The last proxy entry is gone: REMOTE_EN becomes 0 (11 R312, Table 11.10). -/
def execProxyDrainComplete (σ : State) :=
  σ.runF (fun m =>
    if m.fld F.DIR_STATUS_DRAINING = 1 ∧ m.dir.all (fun e => !e.proxy) = true then
      (m.setFld F.DIR_STATUS_DRAINING 0).setFld F.DIR_CTL_REMOTE_EN 0
    else m)

/-- A parity error in a core's cache (18 R471): a line in S or E is refetched, a line in M is poisoned. -/
def execCacheParityError (a : Fin 65) (line : Word) (σ : State) :=
  σ.runF (fun m =>
    match m.lineFind a.val line.toNat with
    | none => m
    | some l =>
      match l.st with
      | .s | .e =>
        ((m.linePut { l with st := .isE, access := none }).send { kind := .rdS, src := some a, dst := none, line := l.addr }).raise
          0x0E02 (d1 a.val ++ d8 l.addr ++ d1 0)
      | .m => (m.linePut { l with poison := true }).raise 0x0E02 (d1 a.val ++ d8 l.addr ++ d1 1)
      | _ => m)

/-! ## Cores (16) -/

def execCoreLoad (ag : Agent) (addr : Word) (size : Nat) (σ : State) :=
  σ.runF (fun m => m.coreAccess { ag := ag, kind := 1, addr := addr.toNat, op := .read size })

def execCoreStore (ag : Agent) (addr : Word) (data : List Byte) (σ : State) :=
  σ.runF (fun m => m.coreAccess { ag := ag, kind := 3, addr := addr.toNat, op := .write (data.map some) })

def execCoreInstructionFetch (ag : Agent) (addr : Word) (size : Nat) (σ : State) :=
  σ.runF (fun m => m.coreAccess { ag := ag, kind := 0, addr := addr.toNat, op := .read size })

def execCoreAmo (ag : Agent) (addr : Word) (size : Nat) (fn : AmoFn) (operand : Word) (σ : State) :=
  σ.runF (fun m => m.coreAccess { ag := ag, kind := 2, addr := addr.toNat, op := .write (List.replicate size (some 0)), amo := some (fn, operand) })

end Sys2Proof.Machine
end

