-- ==== Sys2Proof/Machine/CmdModule.lean ====
section
/-! DEFINITION. The rows of boot, power, selftest, registers, the service endpoint and the island (chapters 15, 17-22), one definition per row. -/

namespace Sys2Proof.Machine

open Sys2Proof

/-! ## Resets and boot (15, 16) -/

def execCoreResetClean (ag : Agent) (target : Fin 128) (σ : State) :=
  σ.runF (fun m => m.resetRow ag (1 + 0x100 * target.val) noBoot [])

def execCoreResetHard (ag : Agent) (target : Fin 128) (σ : State) :=
  σ.runF (fun m => m.resetRow ag (2 + 0x100 * target.val) noBoot [])

def execClusterReset (ag : Agent) (target : Fin 128) (σ : State) :=
  σ.runF (fun m => m.resetRow ag (3 + 0x100 * target.val) noBoot [])

def execPartitionReset (ag : Agent) (target : Fin 128) (σ : State) :=
  σ.runF (fun m => m.resetRow ag (4 + 0x100 * target.val) noBoot [])

def execModuleResetWarm (ag : Agent) (target : Fin 128) (b : BootIn) (σ : State) :=
  σ.runF (fun m => m.resetRow ag (5 + 0x100 * target.val) b [])

def execModuleResetCold (ag : Agent) (target : Fin 128) (b : BootIn) (σ : State) :=
  σ.runF (fun m => m.resetRow ag (6 + 0x100 * target.val) b [])

def execResetFinish (ag : Agent) (dies : List DieRun) (σ : State) :=
  σ.runF (fun m => m.resetRow ag 0x8000 noBoot dies)

/-- A core reset completes (16 R433). -/
def execCoreResetComplete (target : Fin 128) (σ : State) :=
  σ.runF (fun m => match m.resets.find? (fun r => r.level ≤ 2 && r.target == target.val) with
    | some r => m.resetEnds r .ok
    | none => m)

def execDrainLimit (level : Fin 8) (target : Fin 128) (σ : State) := σ.runF (fun m => m.drainLimit level.val target.val)

def execBootComplete (dies : List DieRun) (σ : State) := σ.runF (fun m => m.bootComplete dies)

/-- The reference clock is lost (01 R23): a cold module reset. -/
def execReferenceClockLost (b : BootIn) (σ : State) := σ.runF (fun m => if m.pwrgd then m.moduleBoot 0x07 true b else m)

/-- The management die sees the hub lost (14 R398): a warm module reset. -/
def execHubLost (b : BootIn) (σ : State) := σ.runF (fun m => if m.pwrgd then m.moduleBoot 0x0A false b else m)

/-- The management die is released (15 R416). -/
def execMgdResetRelease (b : BootIn) (σ : State) :=
  σ.runF (fun m =>
    if m.mgdHeld = false ∨ m.mgdStopped = true ∨ b.mp = false then m
    else
      let m := (({ m with mgdHeld := false } : Mod).linkUp 16).bootRom b.puf
      if m.fld F.MGD_STATUS_RECOVERY = 1 then m else m.raise 0x0B05 (d8 (m.reg (F.MGD_BOOT_ID_ID.addr 0 0)).toNat))

/-! ## Power (02, 17) -/

/-- STBY_12V comes into range (02 R38, R47; 17 Table 17.4). -/
def execStandbyPowerUp (straps : BitVec 8) (σ : State) :=
  σ.run (fun m =>
    if m.state ≠ .off then m
    else
      let lost := decide (0 < m.powerOns) && !m.causes.any (fun r => r.code == 1 && r.when_.toNat % 2 ^ 32 == m.powerOns % 2 ^ 32)
      let m : Mod := { m with powerOns := m.powerOns + 1, slotId := straps.toNat, state := .standby, islandReady := false }
      if lost then m.recordCause 0x05 else m)

/-- STBY_12V is lost (02 Table 02.7, R37; 16 Table 16.8): only the flash and what it holds remains. -/
def execStandbyPowerLost (σ : State) :=
  σ.run (fun m =>
    if m.state = .off then m
    else
      let m := m.moduleReset
      let m : Mod := { m with
        regs := [], state := .off, islandReady := false, pwrgd := false, railGroup := 0, tripped := false, tripBlink := false, enIgnored := false,
        laserOk := false, alert := 0, alertMask := 0, alertPin := false, araRead := false, statusLatch := 0, locate := false, coolant := none,
        coolantBad := false, powerOnBoot := false, slotId := 0, taps := List.replicate 18 .idcode, stack := 0 }
      m)

def execAlwaysOnIslandReady (σ : State) := σ.run (fun m => if m.state = .standby then ({ m with islandReady := true } : Mod).tryStart else m)

/-- MOD_PWR_EN is asserted (02 R34, R42, R46): `lowLongEnough`: after at least 10 ms deasserted; `vin`: VIN at or above 37.5 V. -/
def execModPwrEnAssert (lowLongEnough vin : Bool) (σ : State) :=
  σ.run (fun m => ({ m with pwrEn := true, vinOk := vin, enIgnored := m.enIgnored && !lowLongEnough } : Mod).tryStart)

def execVinStartThreshold (σ : State) := σ.run (fun m => ({ m with vinOk := true } : Mod).tryStart)

/-- MOD_PWR_EN is deasserted (02 R44). -/
def execModPwrEnDeassert (σ : State) :=
  σ.runF (fun m =>
    let m : Mod := { m with pwrEn := false }
    if m.powered then (m.recordCause 0x02).toStandby else m)

def execInputFault (high : Bool) (σ : State) := σ.runF (fun m => m.inputFault high)

def execRailGroupInRegulation (b : BootIn) (σ : State) := σ.runF (fun m => m.railGroupUp b)

def execModRstNAssert (σ : State) := σ.runF (fun m => m.rstAssert)

def execModRstNRelease (b : BootIn) (σ : State) := σ.runF (fun m => m.rstRelease b)

def execThermalTrip (die : Fin 20) (σ : State) := σ.runF (fun m => m.trip die.val)

/-- 60 s have passed (02 R46): outlet and management-die readings below 60 °C. -/
def execThermtripRestart (outlet mgd : BitVec 16) (σ : State) :=
  σ.run (fun m => if m.tripped ∧ outlet.toInt < 960 ∧ mgd.toInt < 960 then { m with tripped := false, enIgnored := true } else m)

def execLaserEnNDeassert (σ : State) := σ.runF (fun m => m.laserOff)

def execLaserEnNAssert (σ : State) := σ.run (fun m => { m with laserLow := true })

def execLaserEnableQualified (σ : State) := σ.runF (fun m => m.laserQualified)

def execRailFault (rail : Fin 30) (kind : Fin 4) (σ : State) := σ.runF (fun m => m.railFault rail.val kind.val)

def execActiveRequest (ag : Agent) (σ : State) := σ.runF (fun m => m.byAgent ag (F.PWR_STATE_REQ.addr 0 0) (fun m => m.pwrReq 1 (classOf ag)))

def execParkedRequest (ag : Agent) (σ : State) := σ.runF (fun m => m.byAgent ag (F.PWR_STATE_REQ.addr 0 0) (fun m => m.pwrReq 2 (classOf ag)))

def execStandbyRequest (ag : Agent) (σ : State) := σ.runF (fun m => m.byAgent ag (F.PWR_STATE_REQ.addr 0 0) (fun m => m.pwrReq 3 (classOf ag)))

def execParkedEntryComplete (σ : State) := σ.runF (fun m => m.parkedEntry)

def execParkedExitComplete (dies : List DieRun) (σ : State) := σ.runF (fun m => m.parkedExit dies)

def execArrayClockGate (q : Fin 4) (σ : State) := σ.run (fun m => m.clockGate q.val)

def execArrayClockUngate (q : Fin 4) (σ : State) := σ.run (fun m => m.clockUngate q.val)

def execCapLoopTick (peak average : BitVec 12) (σ : State) := σ.run (fun m => m.capTick peak.toNat average.toNat)

def execSensorSample (sensors : List Sensor) (σ : State) := σ.run (fun m => m.sensorSample sensors)

def execThrottleCeilingStep (i : Fin 20) (σ : State) := σ.run (fun m => m.ceilingStep i.val)

def execCoolantSample (inlet outlet : BitVec 16) (σ : State) := σ.run (fun m => m.coolantSample inlet outlet)

/-! ## Selftest and TAPs (19) -/

def execLogicBistBoot (ag : Agent) (n : Fin 18) (σ : State) := σ.runF (fun m => m.byAgent ag (F.DT_CMD_OP.addr 0 n.val) (fun m => m.dtCmd n.val 1))

def execLogicBistField (ag : Agent) (n : Fin 18) (σ : State) := σ.runF (fun m => m.byAgent ag (F.DT_CMD_OP.addr 0 n.val) (fun m => m.dtCmd n.val 2))

def execMemoryBist (ag : Agent) (n : Fin 18) (σ : State) := σ.runF (fun m => m.byAgent ag (F.DT_CMD_OP.addr 0 n.val) (fun m => m.dtCmd n.val 3))

def execStandaloneTest (ag : Agent) (n : Fin 18) (σ : State) := σ.runF (fun m => m.byAgent ag (F.DT_CMD_OP.addr 0 n.val) (fun m => m.dtCmd n.val 4))

def execDieTestEnd (die : Fin 16) (sig : Word) (σ : State) := σ.runF (fun m => m.dieTestEnd die.val sig)

def execDtExpectWrite (ag : Agent) (n : Fin 18) (data : Word) (σ : State) :=
  σ.run (fun m => m.byAgent ag (F.DT_EXPECT_EXPECT.addr 0 n.val) (fun m => (m.dtExpect n.val data, .ok)))

def execFieldTestGo (ag : Agent) (k : Fin 24) (data : Word) (σ : State) :=
  σ.runF (fun m => m.byAgent ag (F.MC_FTEST_GO.addr k.val 0) (fun m => m.ftest k.val (data.toNat ||| 1)))

def execFieldTestEnd (k : Fin 24) (fail : Bool) (σ : State) := σ.runF (fun m => m.ftestEnd k.val fail)

def execIdcode (tap : Tap) (σ : State) := σ.run (fun m => m.tapLoad tap .idcode 0)

def execSamplePreload (tap : Tap) (σ : State) := σ.run (fun m => m.tapLoad tap .samplePreload 0)

def execExtest (tap : Tap) (σ : State) := σ.run (fun m => m.tapLoad tap .extest 0)

def execClamp (tap : Tap) (σ : State) := σ.run (fun m => m.tapLoad tap .clamp 0)

def execHighz (tap : Tap) (σ : State) := σ.run (fun m => m.tapLoad tap .highz 0)

def execStackSelect (selection : BitVec 17) (σ : State) := σ.run (fun m => m.tapLoad 16 .stackSelect selection.toNat)

def execBypass (tap : Tap) (σ : State) := σ.run (fun m => m.tapLoad tap .bypass 0)

/-! ## Registers (00, 03, 08, 15, 18) -/

/-- A write to a register without a row of its own (00 R485, R486), or to the memories beside the management registers (15 R400, R401). -/
def execRegisterWrite (ag : Agent) (addr : Word) (size : Nat) (data : Word) (σ : State) :=
  σ.runF (fun m =>
    match m.decodeAddr addr.toNat with
    | .here a =>
      if mgdMemory a then
        let (m, st, _) := if regAgent ag then m.mgdAccess ag a (.write ((toBytes size data.toNat).map some)) else (m, .access, [])
        m.storeDone ag addr.toNat st
      else if 0x700000000000 ≤ a then
        let (m, st) := m.regStore ag a size data.toNat
        m.storeDone ag addr.toNat st
      else m.storeDone ag addr.toNat .range
    | _ => m.storeDone ag addr.toNat .range)

def execBankCmdOn (ag : Agent) (arr : Fin 17) (first last : Fin 1024) (σ : State) :=
  σ.runF (fun m => m.byDie ag (F.BANK_CMD_FIRST.addr arr.val 0) arr.val true (fun m => m.bankCmd arr.val first.val last.val 0))

def execBankCmdRet (ag : Agent) (arr : Fin 17) (first last : Fin 1024) (σ : State) :=
  σ.runF (fun m => m.byDie ag (F.BANK_CMD_FIRST.addr arr.val 0) arr.val true (fun m => m.bankCmd arr.val first.val last.val 1))

def execBankCmdOff (ag : Agent) (arr : Fin 17) (first last : Fin 1024) (σ : State) :=
  σ.runF (fun m => m.byDie ag (F.BANK_CMD_FIRST.addr arr.val 0) arr.val true (fun m => m.bankCmd arr.val first.val last.val 2))

def execBankCmdTest (ag : Agent) (arr : Fin 17) (first last : Fin 1024) (σ : State) :=
  σ.runF (fun m => m.byDie ag (F.BANK_CMD_FIRST.addr arr.val 0) arr.val true (fun m => m.bankCmd arr.val first.val last.val 3))

def execMarchDestructive (ag : Agent) (arr : Fin 17) (first last : Fin 1024) (repair : Bool) (fails : List MarchFail)
    (σ : State) :=
  σ.runF (fun m => m.byDie ag (F.MARCH_CMD_FIRST.addr arr.val 0) arr.val false (fun m => m.marchStart arr.val first.val last.val false repair fails))

def execMarchPreserving (ag : Agent) (arr : Fin 17) (first last : Fin 1024) (fails : List MarchFail) (σ : State) :=
  σ.runF (fun m => m.byDie ag (F.MARCH_CMD_FIRST.addr arr.val 0) arr.val false (fun m => m.marchStart arr.val first.val last.val true false fails))

def execMarchCancel (ag : Agent) (arr : Fin 17) (σ : State) :=
  σ.runF (fun m => m.byDie ag (F.MARCH_CMD_FIRST.addr arr.val 0) arr.val false (fun m => m.marchCancel arr.val))

def execSpareAdd (ag : Agent) (arr : Fin 17) (bank : Fin 1024) (word : Fin 65536) (σ : State) :=
  σ.runF (fun m => m.byDie ag (F.SPARE_ADD_BANK.addr arr.val 0) arr.val false (fun m => m.spareAdd arr.val bank.val word.val))

/-- Writing 1 to ECD_REPAIR_CTL.LOCK (03 Table 03.2). -/
def execRepairLock (ag : Agent) (die : Fin 16) (σ : State) := σ.runF (fun m => m.byDie ag (F.ECD_REPAIR_CTL_LOCK.addr die.val 0) die.val false (fun m => (m.repairLock die.val, .ok)))

def execHubPartitionWrite (ag : Agent) (data : Word) (σ : State) :=
  σ.runF (fun m => m.byAgent ag (F.HUB_PARTITION_MODE.addr 0 0) (fun m => m.partitionWrite data.toNat))

def execHubTileMapWrite (ag : Agent) (data : Word) (σ : State) :=
  σ.runF (fun m => m.byAgent ag (F.HUB_TILE_MAP_DIE.addr 0 0) (fun m => m.tileMapWrite data.toNat))

def execEvqBaseWrite (ag : Agent) (q : Fin 4) (data : Word) (σ : State) :=
  σ.runF (fun m => m.byAgent ag (F.EVQ_BASE_ADDR.addr 0 q.val) (fun m => m.evqBase q.val data.toNat))

def execEvraise (ag : Agent) (data : Word) (σ : State) :=
  σ.runF (fun m => m.byAgent ag (F.HUB_EVRAISE2_DATA_HI.addr 0 0) (fun m => m.evraise ag 2 data (~~~0)))

def execFaultClear (ag : Agent) (σ : State) := σ.runF (fun m => m.byAgent ag (F.HUB_FAULT_PENDING.addr 0 0) (fun m => m.faultWrite ag 1))

def execExtend (ag : Agent) (index : Fin 8) (addr : Word) (σ : State) :=
  σ.runF (fun m => m.byAgent ag (F.MGD_ROT_CMD_OP.addr 0 0) (fun m => m.rotCmd ag 1 index.val (bits addr.toNat 6 42 * 64)))

def execRotAttest (ag : Agent) (addr : Word) (σ : State) :=
  σ.runF (fun m => m.byAgent ag (F.MGD_ROT_CMD_OP.addr 0 0) (fun m => m.rotCmd ag 2 0 (bits addr.toNat 6 42 * 64)))

/-- A write to the flash window (15 R401): an address outside it is another region's. -/
def execFlashWrite (ag : Agent) (addr : Word) (data : List Byte) (σ : State) :=
  σ.runF (fun m =>
    match m.decodeAddr addr.toNat with
    | .here a =>
      if 0x7F0080000000 ≤ a ∧ a < 0x7F00A0000000 then
        let (m, st, _) := if regAgent ag then m.mgdAccess ag a (.write (data.map some)) else (m, .access, [])
        m.storeDone ag addr.toNat st
      else m.storeDone ag addr.toNat .range
    | _ => m.storeDone ag addr.toNat .range)

def execMrd (port : Fin 10) (p : Packet) (σ : State) :=
  let p := { p with ty := 0x60 }
  σ.runF (fun m => m.arrive port.val p (fun m => m.mgmtPacket port p (.read 8)))

def execMwr (port : Fin 10) (p : Packet) (σ : State) :=
  let p := { p with ty := 0x61 }
  σ.runF (fun m => m.arrive port.val p (fun m => m.mgmtPacket port p (.write ((toBytes 8 (p.word 0x08)).map some))))

end Sys2Proof.Machine
end

