-- ==== Sys2Proof/Machine/CmdService.lean ====
section
/-! DEFINITION. The rows of the service endpoint, the root of trust's end of command, the management link and SMBus (chapters 02, 15),
one definition per row. -/

namespace Sys2Proof.Machine

open Sys2Proof

/-! ## Service frames (15 Table 15.8) -/

def execStatus (f : SvcFrame) (σ : State) := σ.runF (fun m => m.svcArrive 1 f)

def execEventRead (f : SvcFrame) (σ : State) := σ.runF (fun m => m.svcArrive 2 f)

def execServiceResetWarm (f : SvcFrame) (σ : State) := σ.runF (fun m => m.svcArrive 3 (withArg f 0 2 0))

def execServiceResetCold (f : SvcFrame) (σ : State) := σ.runF (fun m => m.svcArrive 3 (withArg f 0 2 1))

def execServiceResetMgd (f : SvcFrame) (σ : State) := σ.runF (fun m => m.svcArrive 3 (withArg f 0 2 2))

def execServiceResetPartition (f : SvcFrame) (σ : State) := σ.runF (fun m => m.svcArrive 3 (withArg f 0 2 3))

def execServiceResetDelay (b : BootIn) (σ : State) := σ.runF (fun m => m.svcReset b)

def execBulkSeek (f : SvcFrame) (σ : State) := σ.runF (fun m => m.svcArrive 4 f)

def execBulkRead (f : SvcFrame) (σ : State) := σ.runF (fun m => m.svcArrive 5 f)

def execBulkWrite (f : SvcFrame) (σ : State) := σ.runF (fun m => m.svcArrive 6 f)

/-! ### SERVICE commands (15 Table 15.9) -/

def execClearRepair (f : SvcFrame) (σ : State) := σ.runF (fun m => m.svcArrive 7 (withArg f 0 8 1))

def execReturnDie (f : SvcFrame) (σ : State) := σ.runF (fun m => m.svcArrive 7 (withArg f 0 8 2))

def execLocateOn (f : SvcFrame) (σ : State) := σ.runF (fun m => m.svcArrive 7 (withArg f 0 8 3))

def execLocateOff (f : SvcFrame) (σ : State) := σ.runF (fun m => m.svcArrive 7 (withArg f 0 8 4))

def execSvnCommit (f : SvcFrame) (σ : State) := σ.runF (fun m => m.svcArrive 7 (withArg f 0 8 5))

def execSetOperatorKey (f : SvcFrame) (σ : State) := σ.runF (fun m => m.svcArrive 7 (withArg f 0 8 6))

def execAttest (f : SvcFrame) (σ : State) := σ.runF (fun m => m.svcArrive 8 f)

/-! ## The root of trust and the management link -/

def execRotCommandComplete (σ : State) := σ.runF (fun m => m.rotComplete)

def execMgmtEthernetLinkUp (σ : State) := σ.run (fun m => m.mgmtLinkUp)

def execMgmtEthernetLinkDown (σ : State) := σ.run (fun m => { m with link := false })

/-! ## SMBus (02 R40; 15 R414, R415, Table 15.10) -/

def execSmbusAlertResponse (σ : State) := σ.run (fun m => m.alertResponse)

def execSmbusInvalidCommand (code : Byte) (pec : Pec) (σ : State) := σ.run (fun m => m.smbusInvalid code.toNat pec)

def execClearFaults (pec : Pec) (σ : State) := σ.run (fun m => m.smbusWrite pec false (fun m => { m with statusLatch := 0 }))

def execCapability (σ : State) := σ.run (fun m => m.smbusRead 0x19 [0xD0])

def execStatusWord (σ : State) := σ.run (fun m => m.smbusRead 0x79 (d2 m.smbusStatus))

def execReadVin (reading : BitVec 16) (σ : State) := σ.run (fun m => m.smbusRead 0x88 (d2 reading.toNat))

def execReadIin (reading : BitVec 16) (σ : State) := σ.run (fun m => m.smbusRead 0x89 (m.meterWord reading))

def execReadPin (reading : BitVec 16) (σ : State) := σ.run (fun m => m.smbusRead 0x97 (m.meterWord reading))

def execReadTemperature1 (σ : State) := σ.run (fun m => m.smbusRead 0x8D (d2 m.hottest.toNat))

def execReadTemperature2 (σ : State) := σ.run (fun m => let (m, d) := m.outletWord; m.smbusRead 0x8E d)

def execPmbusRevision (σ : State) := σ.run (fun m => m.smbusRead 0x98 [0x33])

def execMfrId (σ : State) := σ.run (fun m => m.smbusBlock 0x99 mfrIdText)

def execMfrModel (σ : State) := σ.run (fun m => m.smbusBlock 0x9A mfrModelText)

def execMfrRevision (σ : State) := σ.run (fun m => m.smbusBlock 0x9B mfrRevisionText)

def execMfrSerial (σ : State) := σ.run (fun m => m.smbusBlock 0x9E (padTo 16 Config.serial))

def execMfrInventory (σ : State) := σ.run (fun m => m.smbusBlock 0xD0 m.inventory)

def execMfrDieTemp (σ : State) := σ.run (fun m => m.smbusBlock 0xD1 m.dieTemps)

def execMfrCause (σ : State) := σ.run (fun m => m.smbusBlock 0xD2 (m.newestCauses 8))

def execMfrAlertStatus (w : Option (BitVec 16)) (pec : Pec) (σ : State) :=
  σ.run (fun m => match w with
    | none => m.smbusRead 0xD3 (d2 m.alert)
    | some v => m.smbusWrite pec false (fun m => m.alertClear v.toNat))

def execMfrAlertMask (w : Option (BitVec 16)) (pec : Pec) (σ : State) :=
  σ.run (fun m => match w with
    | none => m.smbusRead 0xD4 (d2 m.alertMask)
    | some v => m.smbusWrite pec false (fun m => { m with alertMask := v.toNat }))

def execMfrLocate (w : Option Byte) (pec : Pec) (σ : State) :=
  σ.run (fun m => match w with
    | none => m.smbusRead 0xD5 (d1 (b2n m.locate))
    | some v => m.smbusWrite pec false (fun m => { m with locate := bit v.toNat 0 }))

def execMfrServiceKey (w : Option (List Byte)) (pec : Pec) (σ : State) :=
  σ.run (fun m => match w with
    | none => m.smbusRead 0xD6 (d1 (b2n m.serviceKey.isSome))
    | some key => m.smbusWrite pec true (fun m => m.setServiceKey key))

def execMfrState (σ : State) := σ.run (fun m => m.smbusRead 0xD7 (d1 m.stateCode))

end Sys2Proof.Machine
end

