-- ==== Sys2Proof/Machine/Dispatch.lean ====
section
/-! DEFINITION. One arm per command: the call of its meaning. -/

namespace Sys2Proof.Machine

open Sys2Proof

def exec (i : Instr) (s : State) : Host.Outcome State Fault Refusal :=
  match i with
  | .registerWrite ag addr size data => Sys2Proof.Machine.execRegisterWrite ag addr size data s
  | .referenceClockLost b => Sys2Proof.Machine.execReferenceClockLost b s
  | .standbyPowerUp straps => Sys2Proof.Machine.execStandbyPowerUp straps s
  | .standbyPowerLost => Sys2Proof.Machine.execStandbyPowerLost s
  | .modPwrEnAssert lowLongEnough vin => Sys2Proof.Machine.execModPwrEnAssert lowLongEnough vin s
  | .vinStartThreshold => Sys2Proof.Machine.execVinStartThreshold s
  | .modPwrEnDeassert => Sys2Proof.Machine.execModPwrEnDeassert s
  | .inputFault high => Sys2Proof.Machine.execInputFault high s
  | .railGroupInRegulation b => Sys2Proof.Machine.execRailGroupInRegulation b s
  | .modRstNAssert => Sys2Proof.Machine.execModRstNAssert s
  | .modRstNRelease b => Sys2Proof.Machine.execModRstNRelease b s
  | .thermalTrip die => Sys2Proof.Machine.execThermalTrip die s
  | .thermtripRestart outlet mgd => Sys2Proof.Machine.execThermtripRestart outlet mgd s
  | .laserEnNDeassert => Sys2Proof.Machine.execLaserEnNDeassert s
  | .laserEnNAssert => Sys2Proof.Machine.execLaserEnNAssert s
  | .laserEnableQualified => Sys2Proof.Machine.execLaserEnableQualified s
  | .smbusAlertResponse => Sys2Proof.Machine.execSmbusAlertResponse s
  | .smbusInvalidCommand code pec => Sys2Proof.Machine.execSmbusInvalidCommand code pec s
  | .clearFaults pec => Sys2Proof.Machine.execClearFaults pec s
  | .capability => Sys2Proof.Machine.execCapability s
  | .statusWord => Sys2Proof.Machine.execStatusWord s
  | .readVin reading => Sys2Proof.Machine.execReadVin reading s
  | .readIin reading => Sys2Proof.Machine.execReadIin reading s
  | .readPin reading => Sys2Proof.Machine.execReadPin reading s
  | .readTemperature1 => Sys2Proof.Machine.execReadTemperature1 s
  | .readTemperature2 => Sys2Proof.Machine.execReadTemperature2 s
  | .pmbusRevision => Sys2Proof.Machine.execPmbusRevision s
  | .mfrId => Sys2Proof.Machine.execMfrId s
  | .mfrModel => Sys2Proof.Machine.execMfrModel s
  | .mfrRevision => Sys2Proof.Machine.execMfrRevision s
  | .mfrSerial => Sys2Proof.Machine.execMfrSerial s
  | .mfrInventory => Sys2Proof.Machine.execMfrInventory s
  | .mfrDieTemp => Sys2Proof.Machine.execMfrDieTemp s
  | .mfrCause => Sys2Proof.Machine.execMfrCause s
  | .mfrAlertStatus w pec => Sys2Proof.Machine.execMfrAlertStatus w pec s
  | .mfrAlertMask w pec => Sys2Proof.Machine.execMfrAlertMask w pec s
  | .mfrLocate w pec => Sys2Proof.Machine.execMfrLocate w pec s
  | .mfrServiceKey w pec => Sys2Proof.Machine.execMfrServiceKey w pec s
  | .mfrState => Sys2Proof.Machine.execMfrState s
  | .hubPartitionWrite ag data => Sys2Proof.Machine.execHubPartitionWrite ag data s
  | .hubTileMapWrite ag data => Sys2Proof.Machine.execHubTileMapWrite ag data s
  | .repairLock ag die => Sys2Proof.Machine.execRepairLock ag die s
  | .streamParityError q r => Sys2Proof.Machine.execStreamParityError q r s
  | .tileReport q die => Sys2Proof.Machine.execTileReport q die s
  | .partialSumArrival q die n => Sys2Proof.Machine.execPartialSumArrival q die n s
  | .reductionComplete q => Sys2Proof.Machine.execReductionComplete q s
  | .ringTailWrite ag q data => Sys2Proof.Machine.execRingTailWrite ag q data s
  | .ringBaseWrite ag q data => Sys2Proof.Machine.execRingBaseWrite ag q data s
  | .cplBaseWrite ag q data => Sys2Proof.Machine.execCplBaseWrite ag q data s
  | .cplHeadWrite ag q data => Sys2Proof.Machine.execCplHeadWrite ag q data s
  | .fetchStart q => Sys2Proof.Machine.execFetchStart q s
  | .fetchComplete q => Sys2Proof.Machine.execFetchComplete q s
  | .nop q => Sys2Proof.Machine.execNop q s
  | .jump q => Sys2Proof.Machine.execJump q s
  | .call q => Sys2Proof.Machine.execCall q s
  | .ret q => Sys2Proof.Machine.execRet q s
  | .loop q => Sys2Proof.Machine.execLoop q s
  | .branchIf q => Sys2Proof.Machine.execBranchIf q s
  | .halt q => Sys2Proof.Machine.execHalt q s
  | .fence q => Sys2Proof.Machine.execFence q s
  | .waitFlag q => Sys2Proof.Machine.execWaitFlag q s
  | .signalFlag q => Sys2Proof.Machine.execSignalFlag q s
  | .trap q => Sys2Proof.Machine.execTrap q s
  | .flagWaitPass q => Sys2Proof.Machine.execFlagWaitPass q s
  | .flagWrite ag n data => Sys2Proof.Machine.execFlagWrite ag n data s
  | .flagAdd ag n data => Sys2Proof.Machine.execFlagAdd ag n data s
  | .stagingStart q => Sys2Proof.Machine.execStagingStart q s
  | .stagingComplete q => Sys2Proof.Machine.execStagingComplete q s
  | .contract q => Sys2Proof.Machine.execContract q s
  | .contractSparse q => Sys2Proof.Machine.execContractSparse q s
  | .contractSplit32 q => Sys2Proof.Machine.execContractSplit32 q s
  | .contractWindow q => Sys2Proof.Machine.execContractWindow q s
  | .attend q => Sys2Proof.Machine.execAttend q s
  | .attendPaged q => Sys2Proof.Machine.execAttendPaged q s
  | .scanLinear q => Sys2Proof.Machine.execScanLinear q s
  | .scanAssoc q => Sys2Proof.Machine.execScanAssoc q s
  | .map q => Sys2Proof.Machine.execMap q s
  | .map2 q => Sys2Proof.Machine.execMap2 q s
  | .norm q => Sys2Proof.Machine.execNorm q s
  | .softmax q => Sys2Proof.Machine.execSoftmax q s
  | .quantize q => Sys2Proof.Machine.execQuantize q s
  | .topk q => Sys2Proof.Machine.execTopk q s
  | .sort q => Sys2Proof.Machine.execSort q s
  | .reduce q => Sys2Proof.Machine.execReduce q s
  | .gather q => Sys2Proof.Machine.execGather q s
  | .scatter q => Sys2Proof.Machine.execScatter q s
  | .scatterAdd q => Sys2Proof.Machine.execScatterAdd q s
  | .copy q => Sys2Proof.Machine.execCopy q s
  | .fill q => Sys2Proof.Machine.execFill q s
  | .prefetch q => Sys2Proof.Machine.execPrefetch q s
  | .evict q => Sys2Proof.Machine.execEvict q s
  | .allreduce q => Sys2Proof.Machine.execAllreduce q s
  | .reduceScatter q => Sys2Proof.Machine.execReduceScatter q s
  | .allgather q => Sys2Proof.Machine.execAllgather q s
  | .alltoall q => Sys2Proof.Machine.execAlltoall q s
  | .broadcast q => Sys2Proof.Machine.execBroadcast q s
  | .send q => Sys2Proof.Machine.execSend q s
  | .recv q => Sys2Proof.Machine.execRecv q s
  | .atomic q => Sys2Proof.Machine.execAtomic q s
  | .memoryRequestComplete q => Sys2Proof.Machine.execMemoryRequestComplete q s
  | .retire q => Sys2Proof.Machine.execRetire q s
  | .completionRecordWrite q => Sys2Proof.Machine.execCompletionRecordWrite q s
  | .abortRequest ag q => Sys2Proof.Machine.execAbortRequest ag q s
  | .abortTaken q => Sys2Proof.Machine.execAbortTaken q s
  | .detachTimeout q => Sys2Proof.Machine.execDetachTimeout q s
  | .abortComplete q => Sys2Proof.Machine.execAbortComplete q s
  | .resume ag q => Sys2Proof.Machine.execResume ag q s
  | .contextTrap q => Sys2Proof.Machine.execContextTrap q s
  | .reloadComplete q => Sys2Proof.Machine.execReloadComplete q s
  | .sequencerDieLost q die => Sys2Proof.Machine.execSequencerDieLost q die s
  | .yPortAccess ag arr off op sport => Sys2Proof.Machine.execYPortAccess ag arr off op sport s
  | .yAccessPerformed arr bank sub => Sys2Proof.Machine.execYAccessPerformed arr bank sub s
  | .aliasWrite ag addr size data => Sys2Proof.Machine.execAliasWrite ag addr size data s
  | .bankCmdOn ag arr first last => Sys2Proof.Machine.execBankCmdOn ag arr first last s
  | .bankCmdRet ag arr first last => Sys2Proof.Machine.execBankCmdRet ag arr first last s
  | .bankCmdOff ag arr first last => Sys2Proof.Machine.execBankCmdOff ag arr first last s
  | .bankCmdTest ag arr first last => Sys2Proof.Machine.execBankCmdTest ag arr first last s
  | .bankWakeComplete arr bank => Sys2Proof.Machine.execBankWakeComplete arr bank s
  | .marchDestructive ag arr first last repair fails => Sys2Proof.Machine.execMarchDestructive ag arr first last repair fails s
  | .marchPreserving ag arr first last fails => Sys2Proof.Machine.execMarchPreserving ag arr first last fails s
  | .marchCancel ag arr => Sys2Proof.Machine.execMarchCancel ag arr s
  | .marchEnd arr fails => Sys2Proof.Machine.execMarchEnd arr fails s
  | .spareAdd ag arr bank word => Sys2Proof.Machine.execSpareAdd ag arr bank word s
  | .lpddrCommandSlot k c arrivals errs => Sys2Proof.Machine.execLpddrCommandSlot k c arrivals errs s
  | .ochreRequest src addr size => Sys2Proof.Machine.execOchreRequest src addr size s
  | .ochreAgeExpired id => Sys2Proof.Machine.execOchreAgeExpired id s
  | .refresh k c bank => Sys2Proof.Machine.execRefresh k c bank s
  | .temperatureReport k temp => Sys2Proof.Machine.execTemperatureReport k temp s
  | .thermalHoldTimeout k id => Sys2Proof.Machine.execThermalHoldTimeout k id s
  | .selfRefreshIdle k => Sys2Proof.Machine.execSelfRefreshIdle k s
  | .patrolScrub k unit errs => Sys2Proof.Machine.execPatrolScrub k unit errs s
  | .rowRemap k errs dirty => Sys2Proof.Machine.execRowRemap k errs dirty s
  | .logClear ag k => Sys2Proof.Machine.execLogClear ag k s
  | .zqCalibration ag k mask => Sys2Proof.Machine.execZqCalibration ag k mask s
  | .commandAddressTraining ag k mask => Sys2Proof.Machine.execCommandAddressTraining ag k mask s
  | .writeLeveling ag k mask => Sys2Proof.Machine.execWriteLeveling ag k mask s
  | .readDqTraining ag k mask => Sys2Proof.Machine.execReadDqTraining ag k mask s
  | .writeDqTraining ag k mask => Sys2Proof.Machine.execWriteDqTraining ag k mask s
  | .patternCheck ag k mask => Sys2Proof.Machine.execPatternCheck ag k mask s
  | .applyTrainingParam ag k mask => Sys2Proof.Machine.execApplyTrainingParam ag k mask s
  | .lpddrTrainingStepDone k pass pins => Sys2Proof.Machine.execLpddrTrainingStepDone k pass pins s
  | .fieldTestGo ag k data => Sys2Proof.Machine.execFieldTestGo ag k data s
  | .fieldTestEnd k fail => Sys2Proof.Machine.execFieldTestEnd k fail s
  | .deadlineTick => Sys2Proof.Machine.execDeadlineTick s
  | .reservationWindow k => Sys2Proof.Machine.execReservationWindow k s
  | .reservationWrite ag k data => Sys2Proof.Machine.execReservationWrite ag k data s
  | .queueLevelBroadcast k => Sys2Proof.Machine.execQueueLevelBroadcast k s
  | .capacityRecompute => Sys2Proof.Machine.execCapacityRecompute s
  | .coreLoad ag addr size => Sys2Proof.Machine.execCoreLoad ag addr size s
  | .coreStore ag addr data => Sys2Proof.Machine.execCoreStore ag addr data s
  | .lineReplacement a line => Sys2Proof.Machine.execLineReplacement a line s
  | .rds h line => Sys2Proof.Machine.execRds h line s
  | .rdx h line => Sys2Proof.Machine.execRdx h line s
  | .upg h line => Sys2Proof.Machine.execUpg h line s
  | .ncRd src ag addr size => Sys2Proof.Machine.execNcRd src ag addr size s
  | .ncWr src ag addr data hint => Sys2Proof.Machine.execNcWr src ag addr data hint s
  | .ncAtom src ag addr op => Sys2Proof.Machine.execNcAtom src ag addr op s
  | .recallS dst line => Sys2Proof.Machine.execRecallS dst line s
  | .recallI dst line => Sys2Proof.Machine.execRecallI dst line s
  | .inv dst line => Sys2Proof.Machine.execInv dst line s
  | .invAck h line => Sys2Proof.Machine.execInvAck h line s
  | .recallAck h line kind => Sys2Proof.Machine.execRecallAck h line kind s
  | .wbPend h line => Sys2Proof.Machine.execWbPend h line s
  | .wbAck a line => Sys2Proof.Machine.execWbAck a line s
  | .grantM dst line => Sys2Proof.Machine.execGrantM dst line s
  | .data dst line data grant poison => Sys2Proof.Machine.execData dst line data grant poison s
  | .recallData h line data poison => Sys2Proof.Machine.execRecallData h line data poison s
  | .wbData h line data poison => Sys2Proof.Machine.execWbData h line data poison s
  | .push a line room => Sys2Proof.Machine.execPush a line room s
  | .pushAck a line => Sys2Proof.Machine.execPushAck a line s
  | .pushDrop a line => Sys2Proof.Machine.execPushDrop a line s
  | .ncAck src => Sys2Proof.Machine.execNcAck src s
  | .retryQueueRelease line => Sys2Proof.Machine.execRetryQueueRelease line s
  | .remoteEnClear ag => Sys2Proof.Machine.execRemoteEnClear ag s
  | .proxyDrainComplete => Sys2Proof.Machine.execProxyDrainComplete s
  | .rd64 port p => Sys2Proof.Machine.execRd64 port p s
  | .rdn port p => Sys2Proof.Machine.execRdn port p s
  | .wr64 port p => Sys2Proof.Machine.execWr64 port p s
  | .wrm port p => Sys2Proof.Machine.execWrm port p s
  | .atom port p => Sys2Proof.Machine.execAtom port p s
  | .bulkr port p => Sys2Proof.Machine.execBulkr port p s
  | .bulkw port p => Sys2Proof.Machine.execBulkw port p s
  | .dbell port p => Sys2Proof.Machine.execDbell port p s
  | .redc port p => Sys2Proof.Machine.execRedc port p s
  | .collReady port p => Sys2Proof.Machine.execCollReady port p s
  | .collCredit port p => Sys2Proof.Machine.execCollCredit port p s
  | .rsp port p => Sys2Proof.Machine.execRsp port p s
  | .rspd port p => Sys2Proof.Machine.execRspd port p s
  | .mrd port p => Sys2Proof.Machine.execMrd port p s
  | .mwr port p => Sys2Proof.Machine.execMwr port p s
  | .join port p => Sys2Proof.Machine.execJoin port p s
  | .joinAck port p => Sys2Proof.Machine.execJoinAck port p s
  | .nodeDown port p => Sys2Proof.Machine.execNodeDown port p s
  | .fabricFence port p => Sys2Proof.Machine.execFabricFence port p s
  | .unfence port p => Sys2Proof.Machine.execUnfence port p s
  | .eventPacket port p => Sys2Proof.Machine.execEventPacket port p s
  | .bcw port p => Sys2Proof.Machine.execBcw port p s
  | .packetForward port p => Sys2Proof.Machine.execPacketForward port p s
  | .fabricEnable ag => Sys2Proof.Machine.execFabricEnable ag s
  | .fabricDisable ag => Sys2Proof.Machine.execFabricDisable ag s
  | .joinRepeat => Sys2Proof.Machine.execJoinRepeat s
  | .nodeDownFailover n => Sys2Proof.Machine.execNodeDownFailover n s
  | .nodeDownConfirm n alive => Sys2Proof.Machine.execNodeDownConfirm n alive s
  | .grtTimeout idx => Sys2Proof.Machine.execGrtTimeout idx s
  | .quarantineExpiry idx => Sys2Proof.Machine.execQuarantineExpiry idx s
  | .portDrain ag port data => Sys2Proof.Machine.execPortDrain ag port data s
  | .drainEnd ag port data => Sys2Proof.Machine.execDrainEnd ag port data s
  | .emitterFailure d w => Sys2Proof.Machine.execEmitterFailure d w s
  | .spareEmitterResult d w locked => Sys2Proof.Machine.execSpareEmitterResult d w locked s
  | .flitReceived port f => Sys2Proof.Machine.execFlitReceived port f s
  | .ack port n wrap => Sys2Proof.Machine.execAck port n wrap s
  | .nak port n => Sys2Proof.Machine.execNak port n s
  | .nakResendTimeout port => Sys2Proof.Machine.execNakResendTimeout port s
  | .crd port vc sub total => Sys2Proof.Machine.execCrd port vc sub total s
  | .hbt port node => Sys2Proof.Machine.execHbt port node s
  | .heartbeatSend port => Sys2Proof.Machine.execHeartbeatSend port s
  | .heartbeatTimeout port light => Sys2Proof.Machine.execHeartbeatTimeout port light s
  | .bar port answer => Sys2Proof.Machine.execBar port answer s
  | .slp port => Sys2Proof.Machine.execSlp port s
  | .lossOfSignal port mask => Sys2Proof.Machine.execLossOfSignal port mask s
  | .portEnable ag port => Sys2Proof.Machine.execPortEnable ag port s
  | .portDisable ag port => Sys2Proof.Machine.execPortDisable ag port s
  | .partnerBeaconDetected port => Sys2Proof.Machine.execPartnerBeaconDetected port s
  | .trainDone port taps => Sys2Proof.Machine.execTrainDone port taps s
  | .laneSlip ag port lane => Sys2Proof.Machine.execLaneSlip ag port lane s
  | .slipDone ag port => Sys2Proof.Machine.execSlipDone ag port s
  | .deskewDone port skewed => Sys2Proof.Machine.execDeskewDone port skewed s
  | .capabilityRecord port r => Sys2Proof.Machine.execCapabilityRecord port r s
  | .stageTimeout port incomplete => Sys2Proof.Machine.execStageTimeout port incomplete s
  | .retrainBudgetExpired port => Sys2Proof.Machine.execRetrainBudgetExpired port s
  | .downDarkExpiry port => Sys2Proof.Machine.execDownDarkExpiry port s
  | .trainingSetReceived port => Sys2Proof.Machine.execTrainingSetReceived port s
  | .laneRetrain ag port => Sys2Proof.Machine.execLaneRetrain ag port s
  | .txSleepEntry port => Sys2Proof.Machine.execTxSleepEntry port s
  | .txWake port ag => Sys2Proof.Machine.execTxWake port ag s
  | .wakeTimeout port reverse => Sys2Proof.Machine.execWakeTimeout port reverse s
  | .loopbackNone ag port => Sys2Proof.Machine.execLoopbackNone ag port s
  | .loopbackNearSerial ag port => Sys2Proof.Machine.execLoopbackNearSerial ag port s
  | .loopbackNearParallel ag port => Sys2Proof.Machine.execLoopbackNearParallel ag port s
  | .loopbackFarEnd ag port => Sys2Proof.Machine.execLoopbackFarEnd ag port s
  | .prbsTest port errors => Sys2Proof.Machine.execPrbsTest port errors s
  | .frameReceive port b f => Sys2Proof.Machine.execFrameReceive port b f s
  | .frameNak port b n => Sys2Proof.Machine.execFrameNak port b n s
  | .laneErrorWindow port => Sys2Proof.Machine.execLaneErrorWindow port s
  | .bundleRetrain ag port b data => Sys2Proof.Machine.execBundleRetrain ag port b data s
  | .bundleRetrainComplete port tests => Sys2Proof.Machine.execBundleRetrainComplete port tests s
  | .d2dClock ag port mask prbs => Sys2Proof.Machine.execD2dClock ag port mask prbs s
  | .d2dDeskew ag port mask prbs => Sys2Proof.Machine.execD2dDeskew ag port mask prbs s
  | .d2dIct ag port mask prbs => Sys2Proof.Machine.execD2dIct ag port mask prbs s
  | .d2dSpare ag port mask prbs => Sys2Proof.Machine.execD2dSpare ag port mask prbs s
  | .d2dParity ag port mask prbs => Sys2Proof.Machine.execD2dParity ag port mask prbs s
  | .d2dApply ag port mask prbs => Sys2Proof.Machine.execD2dApply ag port mask prbs s
  | .d2dColdTraining ag port mask prbs => Sys2Proof.Machine.execD2dColdTraining ag port mask prbs s
  | .d2dTrainStepDone port tests => Sys2Proof.Machine.execD2dTrainStepDone port tests s
  | .lossOfForwardedClock port mask frame => Sys2Proof.Machine.execLossOfForwardedClock port mask frame s
  | .hubLost b => Sys2Proof.Machine.execHubLost b s
  | .mgdResetRelease b => Sys2Proof.Machine.execMgdResetRelease b s
  | .evqBaseWrite ag q data => Sys2Proof.Machine.execEvqBaseWrite ag q data s
  | .evraise ag data => Sys2Proof.Machine.execEvraise ag data s
  | .faultClear ag => Sys2Proof.Machine.execFaultClear ag s
  | .flashWrite ag addr data => Sys2Proof.Machine.execFlashWrite ag addr data s
  | .extend ag index addr => Sys2Proof.Machine.execExtend ag index addr s
  | .rotAttest ag addr => Sys2Proof.Machine.execRotAttest ag addr s
  | .rotCommandComplete => Sys2Proof.Machine.execRotCommandComplete s
  | .status f => Sys2Proof.Machine.execStatus f s
  | .eventRead f => Sys2Proof.Machine.execEventRead f s
  | .serviceResetWarm f => Sys2Proof.Machine.execServiceResetWarm f s
  | .serviceResetCold f => Sys2Proof.Machine.execServiceResetCold f s
  | .serviceResetMgd f => Sys2Proof.Machine.execServiceResetMgd f s
  | .serviceResetPartition f => Sys2Proof.Machine.execServiceResetPartition f s
  | .serviceResetDelay b => Sys2Proof.Machine.execServiceResetDelay b s
  | .bulkSeek f => Sys2Proof.Machine.execBulkSeek f s
  | .bulkRead f => Sys2Proof.Machine.execBulkRead f s
  | .bulkWrite f => Sys2Proof.Machine.execBulkWrite f s
  | .clearRepair f => Sys2Proof.Machine.execClearRepair f s
  | .returnDie f => Sys2Proof.Machine.execReturnDie f s
  | .locateOn f => Sys2Proof.Machine.execLocateOn f s
  | .locateOff f => Sys2Proof.Machine.execLocateOff f s
  | .svnCommit f => Sys2Proof.Machine.execSvnCommit f s
  | .setOperatorKey f => Sys2Proof.Machine.execSetOperatorKey f s
  | .attest f => Sys2Proof.Machine.execAttest f s
  | .coreResetClean ag target => Sys2Proof.Machine.execCoreResetClean ag target s
  | .coreResetHard ag target => Sys2Proof.Machine.execCoreResetHard ag target s
  | .clusterReset ag target => Sys2Proof.Machine.execClusterReset ag target s
  | .partitionReset ag target => Sys2Proof.Machine.execPartitionReset ag target s
  | .moduleResetWarm ag target b => Sys2Proof.Machine.execModuleResetWarm ag target b s
  | .moduleResetCold ag target b => Sys2Proof.Machine.execModuleResetCold ag target b s
  | .resetFinish ag dies => Sys2Proof.Machine.execResetFinish ag dies s
  | .coreResetComplete target => Sys2Proof.Machine.execCoreResetComplete target s
  | .drainLimit level target => Sys2Proof.Machine.execDrainLimit level target s
  | .bootComplete dies => Sys2Proof.Machine.execBootComplete dies s
  | .railFault rail kind => Sys2Proof.Machine.execRailFault rail kind s
  | .activeRequest ag => Sys2Proof.Machine.execActiveRequest ag s
  | .parkedRequest ag => Sys2Proof.Machine.execParkedRequest ag s
  | .standbyRequest ag => Sys2Proof.Machine.execStandbyRequest ag s
  | .parkedEntryComplete => Sys2Proof.Machine.execParkedEntryComplete s
  | .parkedExitComplete dies => Sys2Proof.Machine.execParkedExitComplete dies s
  | .arrayClockGate q => Sys2Proof.Machine.execArrayClockGate q s
  | .arrayClockUngate q => Sys2Proof.Machine.execArrayClockUngate q s
  | .capLoopTick peak average => Sys2Proof.Machine.execCapLoopTick peak average s
  | .sensorSample sensors => Sys2Proof.Machine.execSensorSample sensors s
  | .throttleCeilingStep n => Sys2Proof.Machine.execThrottleCeilingStep n s
  | .coolantSample inlet outlet => Sys2Proof.Machine.execCoolantSample inlet outlet s
  | .cacheParityError a line => Sys2Proof.Machine.execCacheParityError a line s
  | .logicBistBoot ag n => Sys2Proof.Machine.execLogicBistBoot ag n s
  | .logicBistField ag n => Sys2Proof.Machine.execLogicBistField ag n s
  | .memoryBist ag n => Sys2Proof.Machine.execMemoryBist ag n s
  | .standaloneTest ag n => Sys2Proof.Machine.execStandaloneTest ag n s
  | .dieTestEnd die sig => Sys2Proof.Machine.execDieTestEnd die sig s
  | .dtExpectWrite ag n data => Sys2Proof.Machine.execDtExpectWrite ag n data s
  | .idcode tap => Sys2Proof.Machine.execIdcode tap s
  | .samplePreload tap => Sys2Proof.Machine.execSamplePreload tap s
  | .extest tap => Sys2Proof.Machine.execExtest tap s
  | .clamp tap => Sys2Proof.Machine.execClamp tap s
  | .highz tap => Sys2Proof.Machine.execHighz tap s
  | .stackSelect selection => Sys2Proof.Machine.execStackSelect selection s
  | .bypass tap => Sys2Proof.Machine.execBypass tap s
  | .alwaysOnIslandReady => Sys2Proof.Machine.execAlwaysOnIslandReady s
  | .commaLocked port lane pos locked => Sys2Proof.Machine.execCommaLocked port lane pos locked s
  | .receiverWake port => Sys2Proof.Machine.execReceiverWake port s
  | .segmentBlock port => Sys2Proof.Machine.execSegmentBlock port s
  | .mgmtEthernetLinkUp => Sys2Proof.Machine.execMgmtEthernetLinkUp s
  | .mgmtEthernetLinkDown => Sys2Proof.Machine.execMgmtEthernetLinkDown s
  | .coreInstructionFetch ag addr size => Sys2Proof.Machine.execCoreInstructionFetch ag addr size s
  | .coreAmo ag addr size fn operand => Sys2Proof.Machine.execCoreAmo ag addr size fn operand s

end Sys2Proof.Machine
end

