-- ==== Sys2Proof/Safety.lean ====
section
/-! DEFINITION. What claims call a safe step and a safe state, and a module where nothing waits: the terms claims are stated in. -/

namespace Sys2Proof.Machine

open Sys2Proof

/-- The sparse tables of the module are in canonical form: memory and registers. -/
def Mod.Canonical (m : Mod) : Prop := m.mem.wf ∧ m.regsWf

/-- The state's tables are in canonical form. -/
def State.Safe (s : State) : Prop := s.m.Canonical

/-- The step neither faults nor refuses. -/
def State.Goes (s : State) : Prop := ∃ t, step s = .next t

/-- The command answers a next state of which `P` holds. -/
def Answers (c : Instr) (s : State) (P : State → Prop) : Prop := ∃ t, exec c s = .next t ∧ P t

/-! ## A module where nothing waits -/

/-- Outputs that leave the block as they are: no completion, message or record is still to be carried by the fabric engine. -/
def Out.stays : Out → Bool
  | .compl _ _ _ | .coh _ _ _ _ _ _ | .toManager _ _ => false
  | _ => true

/-- The manager's firmware and the additions of other modules' rows have nothing to do, and no receive buffer is kept for a request. -/
def Fab.calm (f : Fab) : Bool := f.managed.isEmpty && f.addDone.isNone && !f.takeover && f.kept.isEmpty && f.session.isNone

/-- Nothing waits in the fabric engine (12 R330, R345) or in the manager's firmware (16 R430). -/
def Mod.fabricQuiet (m : Mod) : Bool :=
  m.fab.calm && m.fab.grt.all (fun e => e.waiting.isNone) && m.fab.parked.isEmpty && m.fab.stalled.isEmpty && !m.fab.fullSeen

/-- No collective runs (12 R341). -/
def Mod.collQuiet (m : Mod) : Bool := m.ctxs.all (fun c => c.ops.all (fun o => o.coll.isNone))

/-- No packet waits for a port, and no collective runs. -/
def Mod.idle (m : Mod) : Bool := m.fabricQuiet && m.lanes.all (fun l => l.txq.isEmpty) && m.collQuiet

/-- Nothing of the module waits: no packet, no collective, no request of memory, no service request that could go on. -/
def Mod.quiet (m : Mod) : Bool := m.idle && m.memQuiet && !m.svcReady

/-! ## Registers -/

/-- Registers whose write gives an order, or does more than store its fields. -/
def RegName.acts : RegName → Bool
  | .hubPartition | .hubTileMap | .ecdRepairCtl | .hubFlag | .hubFlagAdd | .sqCtl | .sqRingBase | .sqRingTail | .sqCplBase | .sqCplHead
  | .bankCmd | .marchCmd | .spareAdd | .mcTrainCmd | .mcFtest | .regRes | .dirCtl | .fabCtl | .fabPort | .laneCtl | .laneSlip | .d2dTrainCmd
  | .d2dBundle | .evqBase | .evqHead | .hubFault | .hubEvraise0 | .hubEvraise1 | .hubEvraise2 | .mgdRotCmd | .hubResetCmd | .pwrState | .dtCmd
  | .dtExpect | .mcCtl | .mcPinMark | .mcRetire | .fabViolLog | .laneSleep => true
  | _ => false

/-- The bytes of a register word that an access of `size` bytes at `a` reaches. -/
def laneMask (a size : Nat) : Word := BitVec.ofNat 64 ((2 ^ (8 * size) - 1) * 2 ^ (8 * (a % 8)))

/-- The data of such an access in its place in the word. -/
def laneData (a size : Nat) (data : Word) : Word := BitVec.ofNat 64 (data.toNat % 2 ^ (8 * size) * 2 ^ (8 * (a % 8)))

/-! ## Reads that complete at once -/

/-- The bytes [a, a + n) lie in the hub buffer, and an access of them meets nothing that could stop it: their banks are ON and their parity is
right, no line is in the directory, and no request waits there or at the buffer (08 R229, R236; 11 R300). -/
def Mod.hubOpen (m : Mod) (a n : Nat) : Prop :=
  memPopulated a n = true ∧ m.dir = [] ∧ m.retry = [] ∧ m.reqSrc = [] ∧ (m.sramOf 16).ywait = [] ∧
  ∀ i < n, m.mem.parityBad (a + i) = false ∧ sramAt (a + i) = some (16, a + i - 0x400000000000) ∧
    m.bankState 16 (bankOf 16 (a + i - 0x400000000000)) = 0

/-- What the read of the descriptor in flight gives, and the module after it (05 R129, R132). -/
def Mod.fetched (m : Mod) (q : Nat) : Mod × Reply :=
  m.clearOut.fetchRead q (m.fld F.SQ_SEQ_NEXT q) (m.ctx q).fetchKey (((m.ctx q).inFetch.map (·.1)).getD 0) 128 128

/-! ## Frames -/

/-- `n` differs from `m` at most in outputs, registers, memory tables and alert lines: every other piece of state is unchanged. -/
def SameRest (m n : Mod) : Prop :=
  n = { m with out := n.out, regs := n.regs, mem := n.mem, alert := n.alert, alertPin := n.alertPin, araRead := n.araRead,
               evStage := n.evStage }

/-- Every register but those at the listed addresses reads as before. -/
def SameRegsBut (as : List Nat) (m n : Mod) : Prop := ∀ a, a ∉ as → n.reg a = m.reg a

/-- Every byte of memory reads as before. -/
def SameMem (m n : Mod) : Prop := ∀ a, n.mem.byte a = m.mem.byte a

/-- Only the listed registers, the outputs and the alert lines may have changed. -/
def OnlyRegs (as : List Nat) (m n : Mod) : Prop := SameRest m n ∧ SameMem m n ∧ SameRegsBut as m n

/-! ## Event records -/

/-- Registers that raising an event record may change: the event queues' tails, HUB_EVQ_UNROUTED, HUB_FAULT, and BANK_STATE of the hub
buffer, where the queues lie (15 R402; 18 R468; 08 R236). -/
def eventRegs : List Nat :=
  (List.range 4).map (F.EVQ_TAIL_TAIL.addr 0) ++ [F.HUB_EVQ_UNROUTED_COUNT.addr 0 0, F.HUB_FAULT_PENDING.addr 0 0] ++
  (List.range 20).map (F.BANK_STATE_ST.addr 16)

/-- Besides what event records change (their number, their queues in the hub buffer, the alert lines, free values drawn), only the listed
registers and the outputs may have changed. -/
def RegsAndEvents (as : List Nat) (m n : Mod) : Prop :=
  n = { m with out := n.out, regs := n.regs, mem := n.mem, fresh := n.fresh, evSeq := n.evSeq, alert := n.alert, alertPin := n.alertPin,
               araRead := n.araRead, evStage := n.evStage } ∧
  (∀ a, (∀ off, sramAt a ≠ some (16, off)) → n.mem.byte a = m.mem.byte a) ∧ SameRegsBut (as ++ eventRegs) m n

/-- A record of this code and with these data bytes was raised. -/
def Raised (m : Mod) (code : Nat) (data : List Byte) : Prop := ∃ r, r.code = code ∧ r.data = padTo 16 data ∧ Out.event r ∈ m.out

/-! ## Packets -/

/-- A packet that arrives through a port is taken: the port is ACTIVE, the membership state lets the packet in, and it breaks no rule of
its own (12 R321, R354). -/
def Mod.takes (m : Mod) (port : Nat) (p : Packet) : Prop :=
  m.laneState port = 6 ∧ m.accepts p = true ∧ m.violationOf port p = none

/-- The index of the credits that packet `x`, which came through `inPort` or started here, needs on port `q` (12 R331, 13 R369). -/
def Mod.creditOf (m : Mod) (inPort : Option Nat) (q : Nat) (x : Packet) : Nat := x.vc.val * 2 + b2n (m.subAfter q inPort x.sub)

/-- Port `q` is awake and has credits and replay room for every flit of the packet (13 R366, R369, R381). -/
def Mod.hasRoom (m : Mod) (inPort : Option Nat) (q : Nat) (x : Packet) : Prop :=
  q < m.lanes.length ∧ m.laneState q = 6 ∧ m.fld F.LANE_STATUS_TX_ASLEEP q = 0 ∧
  1 + x.len.toNat ≤ min ((m.laneOf q).freeCredits (m.creditOf inPort q x)) (4096 - (m.laneOf q).replay.length)

/-- The packet can leave through port `q` at once: routing chooses `q`, and `q` has room (12 R329, 13 R366). -/
def Mod.leaves (m : Mod) (inPort : Option Nat) (q : Nat) (x : Packet) : Prop := m.route inPort x = .port q ∧ m.hasRoom inPort q x

/-- The ports after the packet has left through port `q`: its flits are numbered, kept for replay and charged (13 R365, R366, R369). -/
def Mod.lanesAfter (m : Mod) (inPort : Option Nat) (q : Nat) (x : Packet) : List Lane :=
  modNth m.lanes q (fun l => l.sendFlits (m.creditOf inPort q x) (1 + x.len.toNat))

/-- The packet as it leaves through port `q`. -/
def Mod.asSent (m : Mod) (inPort : Option Nat) (q : Nat) (x : Packet) : Packet := { x with sub := m.subAfter q inPort x.sub }

end Sys2Proof.Machine
end

