-- ==== Sys2Proof/Certificates/Slice0/Obligations.lean ====
section
/-! DEFINITION. The statements for the provers. `Answers c s P`: command `c` in state `s` answers a next state of which `P` holds. -/

open Sys2Proof Sys2Proof.Machine

/-! ## The machine -/

/-- A step runs the command at the front of the queue on the state with the queue's rest.

Every command completes, in every state and with every operand: its run answers a next state, and no step faults or refuses.

With no command waiting the block idles (the model's choice, log entry 1). -/
def Obligations.StepRunsFrontCommand : Prop :=
  (∀ (c : Instr) (s : State), step { s with pending := c :: s.pending } = exec c s) ∧
  ((∀ (c : Instr) (s : State), ∃ t, exec c s = .next t) ∧ ∀ s : State, s.Goes) ∧
  (∀ s : State, s.pending = [] → step s = .next s)

/-- The state that any step leaves is in canonical form when the state before was. -/
def Obligations.StepKeepsSafe : Prop :=
  ∀ s t : State, s.Safe → step s = .next t → t.Safe

/-- Whatever the command, MOD_ALERT_N is asserted in the state it leaves while an unmasked alert bit is set; asserted, it is released when the alert
response address is read and the status is then cleared (02 R40). -/
def Obligations.AlertPinFollowsStatus : Prop :=
  (∀ (c : Instr) (s t : State), exec c s = .next t → t.m.alert &&& (0xFFFF ^^^ t.m.alertMask) ≠ 0 → t.m.alertPin = true) ∧
  (∀ (v : BitVec 16) (s t u : State), s.m.smbusOn = true → s.m.alertPin = true → exec .smbusAlertResponse s = .next t →
    exec (.mfrAlertStatus (some v) .good) t = .next u → u.m.alert &&& (0xFFFF ^^^ u.m.alertMask) = 0 → u.m.alertPin = false)

/-! ## Flags and rings (05) -/

/-- A write of HUB_FLAGi sets the flag, a write of HUB_FLAG_ADDi adds to it modulo 2³² (05 R156); waits that then hold pass (R157).

The wait of every operation that holds passes; nothing else of the context changes (05 R157).

Completion of: flagWrite, flagAdd, flagWaitPass. -/
def Obligations.FlagWritten : Prop :=
  (∀ (ag : Agent) (n : Fin 1024) (data : Word) (s : State), regAgent ag = true →
      let unwaited := fun (c : Ctx) => ({ c with ops := c.ops.map (fun o => { o with waitPassed := false }) } : Ctx)
      let after := fun (v : Nat) (t : State) =>
        t.m.flag n = v % 2 ^ 32 ∧ t.m.out = [.done .ok []] ∧ OnlyRegs [F.HUB_FLAG_VALUE.addr 0 n] { s.m with ctxs := t.m.ctxs } t.m ∧
        t.m.ctxs.map unwaited = s.m.ctxs.map unwaited ∧
        ∀ c ∈ t.m.ctxs, ∀ o ∈ c.ops, o.st = .fetched → waitBefore o.desc = true → t.m.waitHolds o.desc = true → o.waitPassed = true
      Answers (.flagWrite ag n data) s (after data.toNat) ∧ Answers (.flagAdd ag n data) s (after (s.m.flag n + data.toNat))) ∧
  (∀ (q : Fin 4) (s : State), q.val < s.m.ctxs.length → Answers (.flagWaitPass q) s (fun t =>
      (∀ o ∈ (t.m.ctx q).ops, o.st = .fetched → waitBefore o.desc = true → t.m.waitHolds o.desc = true → o.waitPassed = true) ∧
      (t.m.ctx q).ops.map (fun o => { o with waitPassed := false }) = (s.m.ctx q).ops.map (fun o => { o with waitPassed := false }) ∧
      OnlyRegs [] { s.m with ctxs := t.m.ctxs } t.m))

/-- SQ_RING_TAIL and SQ_CPL_HEAD take a pointer that their rings allow, and refuse any other with ST_ACCESS (05 R128, Table 05.18).

A ring's base and size are taken while the context holds no operation and its ring is empty; its pointers return to 0
(05 Tables 05.16, 05.18).

Completion of: ringTailWrite, cplHeadWrite, ringBaseWrite, cplBaseWrite. -/
def Obligations.RingPointers : Prop :=
  (∀ (ag : Agent) (q : Fin 4) (data : Word) (s : State), regAgent ag = true →
      (s.m.ctxDisabled q = false → (s.m.ctx q).dieLost = false → s.m.fld F.SQ_RING_BASE_LOG2_SLOTS q ≠ 0 →
        s.m.fld F.SQ_CPL_BASE_LOG2_SLOTS q ≠ 0 →
        (data.toNat % 2 ^ 32 + 2 ^ 32 - s.m.fld F.SQ_RING_HEAD_HEAD q) % 2 ^ 32 ≤ 2 ^ s.m.fld F.SQ_RING_BASE_LOG2_SLOTS q →
        Answers (.ringTailWrite ag q data) s (fun t => t.m.fld F.SQ_RING_TAIL_TAIL q = data.toNat % 2 ^ 32 ∧ t.m.out = [.done .ok []] ∧
          OnlyRegs [F.SQ_RING_TAIL_TAIL.addr q 0] s.m t.m)) ∧
      ((s.m.fld F.SQ_CPL_TAIL_TAIL q + 2 ^ 32 - data.toNat % 2 ^ 32) % 2 ^ 32 ≤ 2 ^ s.m.fld F.SQ_CPL_BASE_LOG2_SLOTS q →
        Answers (.cplHeadWrite ag q data) s (fun t => t.m.fld F.SQ_CPL_HEAD_HEAD q = data.toNat % 2 ^ 32 ∧ t.m.out = [.done .ok []] ∧
          OnlyRegs [F.SQ_CPL_HEAD_HEAD.addr q 0] s.m t.m)) ∧
      (isCore ag = false → s.m.ctxDisabled q = true →
        Answers (.ringTailWrite ag q data) s (fun t => t.m.out = [.done .access []] ∧ OnlyRegs [] s.m t.m))) ∧
  (∀ (ag : Agent) (q : Fin 4) (data : Word) (s : State), regAgent ag = true → (s.m.ctx q).ops = [] →
      s.m.fld F.SQ_RING_HEAD_HEAD q = s.m.fld F.SQ_RING_TAIL_TAIL q →
      let lg := bits data.toNat 48 4
      (lg = 0 ∨ (6 ≤ lg ∧ ringOk (bits data.toNat 7 41 * 128) (128 * 2 ^ lg) = true) →
        Answers (.ringBaseWrite ag q data) s (fun t =>
          t.m.fld F.SQ_RING_BASE_ADDR q = bits data.toNat 7 41 ∧ t.m.fld F.SQ_RING_BASE_LOG2_SLOTS q = lg ∧
          t.m.fld F.SQ_RING_HEAD_HEAD q = 0 ∧ t.m.fld F.SQ_RING_TAIL_TAIL q = 0 ∧ t.m.out = [.done .ok []] ∧
          OnlyRegs [F.SQ_RING_BASE_ADDR.addr q 0, F.SQ_RING_HEAD_HEAD.addr q 0, F.SQ_RING_TAIL_TAIL.addr q 0] s.m t.m)) ∧
      (lg = 0 ∨ (4 ≤ lg ∧ ringOk (bits data.toNat 5 43 * 32) (32 * 2 ^ lg) = true) →
        Answers (.cplBaseWrite ag q data) s (fun t =>
          t.m.fld F.SQ_CPL_BASE_ADDR q = bits data.toNat 5 43 ∧ t.m.fld F.SQ_CPL_BASE_LOG2_SLOTS q = lg ∧
          t.m.fld F.SQ_CPL_HEAD_HEAD q = 0 ∧ t.m.fld F.SQ_CPL_TAIL_TAIL q = 0 ∧ t.m.out = [.done .ok []] ∧
          OnlyRegs [F.SQ_CPL_BASE_ADDR.addr q 0, F.SQ_CPL_HEAD_HEAD.addr q 0, F.SQ_CPL_TAIL_TAIL.addr q 0] s.m t.m)))

/-- A context whose partition is not in the layout, or holds no active die, is disabled: a write of its ring pointer completes with ST_ACCESS and
changes nothing (a core's raises event 0x0E01 besides), and it fetches nothing (01 R28). -/
def Obligations.DisabledContexts : Prop :=
  ∀ (ag : Agent) (q : Fin 4) (data : Word) (s : State), regAgent ag = true → (∀ d ∈ s.m.partition q, bit s.m.active d = false) →
    ((s.m.ctx q).aborting = false → (s.m.ctx q).trapped = false → s.m.ctxState q = 0) ∧
    Answers (.ringTailWrite ag q data) s (fun t => .done .access [] ∈ t.m.out ∧ t.m.reg (F.SQ_RING_TAIL_TAIL.addr q 0) = s.m.reg (F.SQ_RING_TAIL_TAIL.addr q 0) ∧
      RegsAndEvents [] s.m t.m) ∧
    Answers (.fetchStart q) s (fun t => t.m.out = [] ∧ OnlyRegs [] s.m t.m)

/-! ## Fetch and control operations (05) -/

/-- A descriptor of an operation that is not resolved at fetch becomes resident with the next sequence number, and its slot of the ring or
its place in the chain is passed (05 R131, R134; 07 R202). `m1` is the module after the read of the descriptor's 128 bytes `d`; a descriptor
in the hub buffer, its banks ON, is read at once and its read changes nothing (05 R129, R132; 08 R236).

FETCH_START puts the next descriptor's read in flight: the ring slot at HEAD, or the chain's next descriptor (05 R127, R128).

Completion of: fetchComplete, fetchStart. -/
def Obligations.FetchAdmits : Prop :=
  ((∀ (q : Fin 4) (s : State) (a : Nat) (ring : Bool) (d : List Byte),
      (s.m.ctx q).inFetch = some (a, ring) → (s.m.ctx q).fetchWait = false → (s.m.fetched q).2 = .done .ok d →
      let m1 := (s.m.fetched q).1
      m1.quiet = true → m1.out.all Out.stays = true →
      (m1.ctx q).inFetch = some (a, ring) → (ring = true → m1.fld F.SQ_RING_HEAD_HEAD q ≠ m1.fld F.SQ_RING_TAIL_TAIL q) →
      opcodes.contains (opcodeOf d) = true → fetchResolved (opcodeOf d) = false → opcodeOf d ≠ 0x02 → opcodeOf d ≠ 0x06 → opcodeOf d ≠ 0x0A →
      (isControl (opcodeOf d) = true → m1.controlOk q d ring = true) →
      Answers (.fetchComplete q) s (fun t =>
        t.m.fld F.SQ_SEQ_NEXT q = (m1.fld F.SQ_SEQ_NEXT q + 1) % 2 ^ 32 ∧
        (ring = true → t.m.fld F.SQ_RING_HEAD_HEAD q = (m1.fld F.SQ_RING_HEAD_HEAD q + 1) % 2 ^ 32) ∧
        (ring = false → t.m.fld F.SQ_PC_ADDR q = (a + 128) % 2 ^ 48) ∧
        OnlyRegs [F.SQ_SEQ_NEXT.addr q 0, if ring then F.SQ_RING_HEAD_HEAD.addr q 0 else F.SQ_PC_ADDR.addr q 0]
          { m1 with ctxs := modNth m1.ctxs q (fun c => { c with
              inFetch := none, fetchWait := false, pc := if ring then c.pc else a + 128,
              ops := c.ops ++ [{ seq := m1.fld F.SQ_SEQ_NEXT q, addr := a, ring := ring, desc := d,
                                 waitPassed := waitBefore d && m1.waitHolds d }] }) } t.m)) ∧
    (∀ (q : Fin 4) (s : State) (a : Nat) (ring : Bool), (s.m.ctx q).inFetch = some (a, ring) → a % 128 = 0 → s.m.hubOpen a 128 →
      s.m.fetched q = (s.m.clearOut, .done .ok (s.m.mem.readAt a 128)))) ∧
  (∀ (q : Fin 4) (s : State), s.m.fetchOk q = true → Answers (.fetchStart q) s (fun t => t.m.out = [] ∧
      OnlyRegs [] { s.m with ctxs := modNth s.m.ctxs q (fun c => { c with
        inFetch := some (s.m.nextFetch q), fetchWait := false, fetches := c.fetches + 1 }) } t.m))

/-- NOP, JUMP, CALL, RETURN and LOOP act at fetch: nothing, the target, the target with the return point pushed, the popped return point
(the ring at HEAD when the call came from there), and the loop's counter with its target or the next descriptor
(05 R134, R153, R154, Table 05.10). `m1` is the module after the read of the descriptor's 128 bytes `d`.

Completion of: nop, jump, call, ret, loop. -/
def Obligations.FetchResolvedOperations : Prop :=
  ∀ (q : Fin 4) (s : State) (a : Nat) (ring : Bool) (d : List Byte),
    (s.m.ctx q).inFetch = some (a, ring) → (s.m.ctx q).fetchWait = false → (s.m.fetched q).2 = .done .ok d →
    let m1 := (s.m.fetched q).1
    m1.quiet = true → m1.out.all Out.stays = true →
    (m1.ctx q).inFetch = some (a, ring) → (ring = true → m1.fld F.SQ_RING_HEAD_HEAD q ≠ m1.fld F.SQ_RING_TAIL_TAIL q) →
    m1.controlOk q d ring = true →
    let target := ops d 0x50 8
    let k := ops d 0x58 1
    let left := (if m1.fld F.SQ_LOOP_COUNT q k = 0 then ops d 0x5C 4 else m1.fld F.SQ_LOOP_COUNT q k) - 1
    let regs := (if ring then [F.SQ_RING_HEAD_HEAD.addr q 0] else [])
    let head := fun (t : State) => ring = true → t.m.fld F.SQ_RING_HEAD_HEAD q = (m1.fld F.SQ_RING_HEAD_HEAD q + 1) % 2 ^ 32
    let jumps := fun (pc : Nat) (stack : List (Option Nat)) (more : List Nat) (t : State) => head t ∧ t.m.fld F.SQ_PC_ADDR q = pc % 2 ^ 48 ∧
      OnlyRegs (F.SQ_PC_ADDR.addr q 0 :: (more ++ regs))
        { m1 with ctxs := modNth m1.ctxs q (fun c => { c with inFetch := none, fetchWait := false, stack := stack, pc := pc }) } t.m
    (opcodeOf d = 0x00 → ring = true → Answers (.nop q) s (fun t => head t ∧ OnlyRegs regs
        { m1 with ctxs := modNth m1.ctxs q (fun c => { c with inFetch := none, fetchWait := false }) } t.m)) ∧
    (opcodeOf d = 0x00 → ring = false → Answers (.nop q) s (jumps (a + 128) (m1.ctx q).stack [])) ∧
    (opcodeOf d = 0x01 → Answers (.jump q) s (jumps target (m1.ctx q).stack [])) ∧
    (opcodeOf d = 0x04 → Answers (.call q) s (jumps target ((if ring then none else some (a + 128)) :: (m1.ctx q).stack) [])) ∧
    (∀ r rest, opcodeOf d = 0x05 → (m1.ctx q).stack = some r :: rest → Answers (.ret q) s (jumps r rest [])) ∧
    (∀ rest, opcodeOf d = 0x05 → (m1.ctx q).stack = none :: rest → Answers (.ret q) s (fun t => OnlyRegs []
        { m1 with ctxs := modNth m1.ctxs q (fun c => { c with inFetch := none, fetchWait := false, stack := [] }) } t.m)) ∧
    (opcodeOf d = 0x03 → Answers (.loop q) s (fun t => t.m.fld F.SQ_LOOP_COUNT q k = left % 2 ^ 32 ∧
        jumps (if left ≠ 0 then target else a + 128) (m1.ctx q).stack [F.SQ_LOOP_COUNT.addr q k] t))

/-- The oldest operation of a context, when it is a STAGED control operation, is done with: BRANCH_IF chooses its target by a flag's
distance from its reference, the others only pass (05 R155, Table 05.10).

Completion of: branchIf, halt, fence, waitFlag, signalFlag, trap. -/
def Obligations.ControlOperations : Prop :=
  ∀ (q : Fin 4) (s : State) (op : ROp) (rest : List ROp), (s.m.ctx q).ops = op :: rest → op.st = .staged →
    (s.m.ctx q).trapped = false → (s.m.ctx q).aborting = false →
    let d := op.desc
    let diff := (s.m.flag (ops d 0x58 2) + 2 ^ 32 - ops d 0x5C 4) % 2 ^ 32
    let holds := if ops d 0x5A 1 = 0 then diff < 2 ^ 31 else if ops d 0x5A 1 = 1 then diff = 0 else if ops d 0x5A 1 = 2 then diff ≠ 0
      else 2 ^ 31 ≤ diff
    let passes := fun (next : Option Nat) (t : State) => t.m.out = [] ∧ OnlyRegs [] { s.m with ctxs := modNth s.m.ctxs q (fun c => { c with
      ops := c.ops.map (fun o => if o.seq = op.seq then { o with st := .reported, computed := true, next := next } else o) }) } t.m
    (opcodeOf d = 0x02 → holds → Answers (.branchIf q) s (passes (some (ops d 0x50 8)))) ∧
    (opcodeOf d = 0x02 → ¬holds → Answers (.branchIf q) s (passes (some (op.addr + 128)))) ∧
    (opcodeOf d = 0x06 → Answers (.halt q) s (passes none)) ∧ (opcodeOf d = 0x07 → Answers (.fence q) s (passes none)) ∧
    (opcodeOf d = 0x08 → Answers (.waitFlag q) s (passes none)) ∧ (opcodeOf d = 0x09 → Answers (.signalFlag q) s (passes none)) ∧
    (opcodeOf d = 0x0A → Answers (.trap q) s (passes none))

/-! ## Staging, dispatch and execution (06, 07) -/

/-- An operation in STAGING whose header, tensor descriptors and tensors pass their checks becomes STAGED; one whose header is malformed
fails with ST_PROTOCOL (05 Table 05.6; 07 Table 07.1). The first clause is for an operation that reads nothing ahead of its dispatch, its
tensor descriptors read.

The oldest operation not yet staging, its wait passed and no FENCE before it, starts staging; a control operation whose header is well
formed is staged at once (07 R200, Table 07.1).

Completion of: stagingComplete, stagingStart. -/
def Obligations.StagingCompletes : Prop :=
  (∀ (q : Fin 4) (s : State) (op : ROp), s.m.quiet = true → (s.m.ctx q).ops = [op] → op.st = .staging → op.status = .ok →
      (headerOk op.desc = true → op.open_ = [] → op.bad = none → (∀ x < 4, bit (tvalid op.desc) x = true → (op.tensors.get? x).isSome = true) →
        s.m.clearOut.stagingCheck q op = .ok → deadlineClass op.desc = 2 →
        Answers (.stagingComplete q) s (fun t => t.m.out = [] ∧
          OnlyRegs [] { s.m with ctxs := modNth s.m.ctxs q (fun c => { c with ops := [{ op with st := .staged }] }) } t.m)) ∧
      (headerOk op.desc = false →
        Answers (.stagingComplete q) s (fun t => ∃ o, (t.m.ctx q).ops = [o] ∧ o.st = .failed ∧ o.status = .protocol))) ∧
  (∀ (q : Fin 4) (s : State) (op : ROp), (s.m.ctx q).trapped = false → (s.m.ctx q).aborting = false → s.m.stageNext q = some op →
      let becomes := fun (st : OpSt) (t : State) => t.m.out = [] ∧ OnlyRegs [] { s.m with ctxs := modNth s.m.ctxs q (fun c => { c with
        ops := c.ops.map (fun o => if o.seq = op.seq then { o with st := st, stageTick := s.m.ticks } else o) }) } t.m
      (isControl (opcodeOf op.desc) = false → Answers (.stagingStart q) s (becomes .staging)) ∧
      (isControl (opcodeOf op.desc) = true → headerOk op.desc = true → Answers (.stagingStart q) s (becomes .staged)))

/-- A STAGED operation that may go is DISPATCHED: its tick is latched, an operation that rounds stochastically takes the context's count and
adds 1 to it (04 R114), and it waits for the reads of its inputs that are still open (07 R204, Table 07.1). `m1` is the module with the
operation dispatched.

Completion of: contract, contractSparse, contractSplit32, contractWindow, attend, attendPaged, scanLinear, scanAssoc, map, map2, norm,
softmax, quantize, topk, sort, reduce, gather, scatter, scatterAdd, copy, prefetch, evict, allreduce, reduceScatter, allgather, alltoall,
broadcast, send, recv. -/
def Obligations.OperationsDispatch : Prop :=
  ∀ r ∈ ([(.contract, 0x10), (.contractSparse, 0x11), (.contractSplit32, 0x12), (.contractWindow, 0x13), (.attend, 0x30),
      (.attendPaged, 0x31), (.scanLinear, 0x40), (.scanAssoc, 0x41), (.map, 0x50), (.map2, 0x51), (.norm, 0x52), (.softmax, 0x53),
      (.quantize, 0x54), (.topk, 0x55), (.sort, 0x56), (.reduce, 0x70), (.gather, 0x80), (.scatter, 0x81), (.scatterAdd, 0x82),
      (.copy, 0x90), (.prefetch, 0x92), (.evict, 0x93), (.allreduce, 0xA0), (.reduceScatter, 0xA1), (.allgather, 0xA2),
      (.alltoall, 0xA3), (.broadcast, 0xA4), (.send, 0xA5), (.recv, 0xA6)] : List ((Fin 4 → Instr) × Nat)),
  ∀ (q : Fin 4) (s : State) (op : ROp), s.m.quiet = true → (s.m.ctx q).ops = [op] → opcodeOf op.desc = r.2 →
    s.m.canDispatch q op = true → op.bad = none → op.computed = false → op.redWrite = false →
    let first := op.srCount.isNone && rndOf op.desc == 2
    let count := s.m.fld F.SQ_SR_COUNT_COUNT q
    let op1 := { op with st := .dispatched, dispTick := some s.m.ticks, srCount := if first then some count else op.srCount }
    let m1 := { (if first then s.m.clearOut.addFld F.SQ_SR_COUNT_COUNT 1 q else s.m.clearOut) with
      ctxs := modNth s.m.ctxs q (fun c => { c with ops := [op1] }) }
    (∀ p ∈ (m1.envOf q op1).pieces 0, (op.open_.any (fun x => x.key == p.key) || op.got.any (fun x => x.1.key == p.key)) = true) →
    (∃ p ∈ (m1.envOf q op1).pieces 0, op.got.any (fun x => x.1.key == p.key) = false) →
    Answers (r.1 q) s (fun t => t.m.out = [] ∧ t.m.fld F.SQ_SR_COUNT_COUNT q = (count + if first then 1 else 0) % 2 ^ 40 ∧
      OnlyRegs [F.SQ_SR_COUNT_COUNT.addr q 0] { s.m with ctxs := m1.ctxs } t.m)

/-- A dispatched operation whose inputs have all been read computes its result (06): the operation takes the result's flags and the dies
that must report, and its writes are made, or held for the reduction engine (03 R86, R87).

Completion of: contract, contractSparse, contractSplit32, contractWindow, attend, attendPaged, scanLinear, scanAssoc, map, map2, norm,
softmax, quantize, topk, sort, reduce, gather, scatter, copy, fill, evict. -/
def Obligations.OperationsCompute : Prop :=
  ∀ r ∈ ([(.contract, 0x10), (.contractSparse, 0x11), (.contractSplit32, 0x12), (.contractWindow, 0x13), (.attend, 0x30),
      (.attendPaged, 0x31), (.scanLinear, 0x40), (.scanAssoc, 0x41), (.map, 0x50), (.map2, 0x51), (.norm, 0x52), (.softmax, 0x53),
      (.quantize, 0x54), (.topk, 0x55), (.sort, 0x56), (.reduce, 0x70), (.gather, 0x80), (.scatter, 0x81), (.copy, 0x90),
      (.fill, 0x91), (.evict, 0x93)] : List ((Fin 4 → Instr) × Nat)),
  ∀ (q : Fin 4) (s : State) (op : ROp), s.m.quiet = true → (s.m.ctx q).ops = [op] → opcodeOf op.desc = r.2 →
    s.m.canDispatch q op = true → op.bad = none → op.computed = false → op.undef = false →
    let first := op.srCount.isNone && rndOf op.desc == 2
    let op1 := { op with st := .dispatched, dispTick := some s.m.ticks,
                         srCount := if first then some (s.m.fld F.SQ_SR_COUNT_COUNT q) else op.srCount }
    let m1 := { (if first then s.m.clearOut.addFld F.SQ_SR_COUNT_COUNT 1 q else s.m.clearOut) with
      ctxs := modNth s.m.ctxs q (fun c => { c with ops := [op1] }) }
    let e := m1.envOf q op1
    let x := e.result
    let node := fun (i : Nat) => (e.t i).bind (·.node)
    let done := { op1 with
      computed := true, nan := x.flags.nan, ovf := x.flags.ovf, sat := x.flags.sat, lost := x.flags.lost, tiles := x.dies.eraseDups,
      parts := x.parts.map (fun p => (p.1, p.2.1, p.2.2, p.2.2)), redDone := !x.red, redWrite := false,
      held := if x.red then x.writes.map (fun w => (w.1, node w.1, w.2.1, w.2.2)) else [] }
    (∀ lvl < 3, ∀ p ∈ (m1.envOf q op1).pieces lvl, op.got.any (fun x => x.1.key == p.key) = true) → m1.fragmentHeld q op1 = false →
    x.status = .ok → x.undef = false →
    (x.red = true → Answers (r.1 q) s (fun t => t.m.out = [] ∧
      OnlyRegs [F.SQ_SR_COUNT_COUNT.addr q 0] { s.m with ctxs := modNth s.m.ctxs q (fun c => { c with ops := [done] }) } t.m)) ∧
    (x.red = false → Answers (r.1 q) s (fun t => t.m =
      ((((({ m1 with ctxs := modNth s.m.ctxs q (fun c => { c with ops := [done] }) } : Mod).issueWrites q op.seq
        (x.writes.map (fun w => (w.1, node w.1, w.2.1, w.2.2)))).checkReported q op.seq).checkReported q op.seq).issueHeads q).conclude.settle))

/-- SCATTER_ADD, PREFETCH, the collectives and ATOMIC whose inputs have all been read act (06 R191, R194, R196-R199): `opCompute` and
`atomicRun` are those actions.

Completion of: scatterAdd, prefetch, allreduce, reduceScatter, allgather, alltoall, broadcast, send, recv, atomic. -/
def Obligations.OperationsAct : Prop :=
  ∀ r ∈ ([(.scatterAdd, 0x82), (.prefetch, 0x92), (.allreduce, 0xA0), (.reduceScatter, 0xA1), (.allgather, 0xA2), (.alltoall, 0xA3),
      (.broadcast, 0xA4), (.send, 0xA5), (.recv, 0xA6), (.atomic, 0xB0)] : List ((Fin 4 → Instr) × Nat)),
  ∀ (q : Fin 4) (s : State) (op : ROp), (s.m.ctx q).ops = [op] → opcodeOf op.desc = r.2 → s.m.canDispatch q op = true → op.bad = none →
    op.computed = false →
    let first := op.srCount.isNone && rndOf op.desc == 2
    let op1 := { op with st := .dispatched, dispTick := some s.m.ticks,
                         srCount := if first then some (s.m.fld F.SQ_SR_COUNT_COUNT q) else op.srCount }
    let m1 := { (if first then s.m.clearOut.addFld F.SQ_SR_COUNT_COUNT 1 q else s.m.clearOut) with
      ctxs := modNth s.m.ctxs q (fun c => { c with ops := [op1] }) }
    (∀ lvl < 3, ∀ p ∈ (m1.envOf q op1).pieces lvl, op.got.any (fun x => x.1.key == p.key) = true) → m1.fragmentHeld q op1 = false →
    Answers (r.1 q) s (fun t => t.m =
      ((((if r.2 = 0xB0 then m1.atomicRun q op.seq else m1.opCompute q op.seq).checkReported q op.seq).issueHeads q).conclude).settle)

/-! ## Reports, replay and retirement (01, 03, 05, 07) -/

/-- An on-chip parity error met by a dispatched operation: a descriptor that may be replayed, with a backing copy or another operation's
data, stops the operation in RELOAD with the blocks to reload; one that already was replayed ends it with ST_DATA_LOST, DETAIL 1, one with
no backing copy with 2, one that may not be replayed with 3, one in bytes a backing copy does not hold with 5; each loss is counted
(07 R216-R218, Table 07.6). An error in an array's own bytes is counted and logged there, with port S (08 R232).

A die reports once its partial sums are in and its repair map is locked; with the last report the operation is REPORTED (01 R19; 03 R66;
07 Table 07.1).

Completion of: streamParityError, tileReport. -/
def Obligations.ParityErrorReports : Prop :=
  (∀ (q : Fin 4) (r : ParityReport) (s : State) (op : ROp), s.m.quiet = true → (s.m.ctx q).ops = [op] → op.st = .dispatched →
      op.status = .ok →
      let e := s.m.envOf q op
      let mayReplay := op.replayed = false ∧ idempotent op.desc = true ∧ replayClass (opcodeOf op.desc) = true ∧ e.inPlace = false
      let logs := match r.own, sramAt (s.m.firstBadByte r) with
        | true, some (arr, _) => [F.ERR_COUNT_PARITY.addr arr 0, F.PARITY_LOG_OFFSET.addr arr 0]
        | _, _ => []
      let logged := fun (t : State) => ∀ arr off, r.own = true → sramAt (s.m.firstBadByte r) = some (arr, off) →
        t.m.fld F.ERR_COUNT_PARITY arr = satAdd F.ERR_COUNT_PARITY.w (s.m.fld F.ERR_COUNT_PARITY arr) 1 ∧
        t.m.fld F.PARITY_LOG_OFFSET arr = off % 2 ^ F.PARITY_LOG_OFFSET.w ∧ t.m.fld F.PARITY_LOG_PORT arr = 0 ∧ t.m.fld F.PARITY_LOG_VALID arr = 1
      let stops := fun (more : List (Nat × Nat × Nat)) => Answers (.streamParityError q r) s (fun t => t.m.out = [] ∧ logged t ∧
        OnlyRegs logs { s.m with ctxs := modNth s.m.ctxs q (fun c => { c with
          ops := [{ op with st := .reload, badByte := if op.badByte = 0 then s.m.firstBadByte r else op.badByte, redWrite := false,
                            reloads := op.reloads ++ more.filter (fun x => !(op.reloads.any (fun y => y.1 == x.1))),
                            tiles := [], parts := [], held := [] }] }) } t.m)
      let loses := fun (detail : Nat) => Answers (.streamParityError q r) s (fun t => t.m.out = [] ∧ logged t ∧
        t.m.fld F.SQ_REPLAY_LOST q = min (s.m.fld F.SQ_REPLAY_LOST q + 1) 0xFFFFFFFF ∧
        SameRegsBut (F.SQ_REPLAY_LOST.addr q 0 :: logs) s.m t.m ∧
        ∃ o, (t.m.ctx q).ops = [o] ∧ o.st = .failed ∧ o.status = .dataLost ∧ o.detail = detail ∧ o.faultAddr = s.m.firstBadByte r ∧
          o.trapAlways = true)
      (op.replayed = true → loses 1) ∧
      (op.replayed = false → idempotent op.desc = false ∨ replayClass (opcodeOf op.desc) = false ∨ e.inPlace = true → loses 3) ∧
      (mayReplay → r.own = false → stops []) ∧
      (mayReplay → r.own = true → r.aux = true → loses 5) ∧
      (∀ x, mayReplay → r.own = true → r.aux = false → e.t r.slot = some x → backedInput op.desc = false ∨ x.backing = none → loses 2) ∧
      (∀ x b, mayReplay → r.own = true → r.aux = false → e.t r.slot = some x → backedInput op.desc = true → x.backing = some b →
        stops ((linesOf r.addr r.len).map (fun l => (l, (e.backingAddr x l).getD 0, s.m.firstBadByte r))))) ∧
  (∀ (q : Fin 4) (die : Fin 16) (s : State) (op : ROp), s.m.quiet = true → (s.m.ctx q).ops = [op] → op.st = .dispatched →
      op.computed = true → op.redWrite = false → op.tiles.contains die.val = true → op.status = .ok →
      let rest := op.tiles.filter (· ≠ die.val)
      let becomes := fun (o : ROp) (t : State) => t.m.out = [] ∧ OnlyRegs []
        { s.m with ctxs := modNth s.m.ctxs q (fun c => { c with ops := [o] }) } t.m
      let pending := op.parts.any (fun p => p.1 == die.val && p.2.2.1 != 0)
      let mayGo := pending = false ∧ s.m.fld F.ECD_REPAIR_CTL_LOCK die ≠ 0
      (mayGo → rest ≠ [] → Answers (.tileReport q die) s (becomes { op with tiles := rest })) ∧
      (mayGo → rest = [] → op.redDone = true → op.open_ = [] → opcodeOf op.desc ≠ 0x93 →
        Answers (.tileReport q die) s (becomes { op with tiles := [], st := .reported })) ∧
      (pending = true ∨ s.m.fld F.ECD_REPAIR_CTL_LOCK die = 0 → Answers (.tileReport q die) s (becomes op)))

/-- Partial sums of a die whose repair map is locked arrive while the 8 MiB staging store has room; once all are in, the reduction engine
makes the held writes, and reports when each is performed (03 R66, R86, R87).

Completion of: partialSumArrival, reductionComplete. -/
def Obligations.ReductionEngine : Prop :=
  ∀ (q : Fin 4) (die : Fin 16) (n : Nat) (s : State) (op : ROp), s.m.quiet = true → (s.m.ctx q).ops = [op] → op.st = .dispatched →
    (op.parts.any (fun p => p.1 == die.val && p.2.2.1 != 0) = true →
      let came := modNth s.m.ctxs q (fun c => { c with ops := [{ op with
        parts := op.parts.map (fun p => if p.1 = die.val then (p.1, p.2.1, p.2.2.1 - n, p.2.2.2) else p) }] })
      Answers (.partialSumArrival q die n) s (fun t => t.m.out = [] ∧ OnlyRegs []
        { s.m with ctxs := if s.m.fld F.ECD_REPAIR_CTL_LOCK die ≠ 0 ∧ ({ s.m with ctxs := came } : Mod).stagedPartials ≤ 0x800000 then came
                           else s.m.ctxs } t.m)) ∧
    (op.computed = true → op.redDone = false → op.redWrite = false → op.parts.all (fun p => p.2.2.1 == 0) = true →
      Answers (.reductionComplete q) s (fun t => t.m =
        ((({ s.m.clearOut with ctxs := modNth s.m.ctxs q (fun c => { c with ops := [{ op with held := [], redWrite := true }] }) } : Mod).issueWrites
          q op.seq op.held true).checkReported q op.seq).conclude.settle) ∧
      (op.held = [] → op.status = .ok → op.tiles = [] → op.open_ = [] → opcodeOf op.desc ≠ 0x93 →
        Answers (.reductionComplete q) s (fun t => t.m.out = [] ∧ OnlyRegs [] { s.m with ctxs := modNth s.m.ctxs q (fun c => { c with
          ops := [{ op with redDone := true, st := .reported }] }) } t.m)))

/-- The completion of a request: an input's bytes go to the operation, which goes on; a tensor descriptor is taken by its operation, a remote
signal is noted; a detached request lowers SQ_DETACHED, the last with event 0x0304; a discarded fetch's data is dropped, and so is what
nothing waits for (05 R143; 07 R208-R210, Table 07.1).

The operation whose blocks have been reloaded returns to STAGED, marked replayed, with nothing computed (07 R217).

Completion of: memoryRequestComplete, reloadComplete. -/
def Obligations.RequestCompletes : Prop :=
  (∀ (q : Fin 4) (s : State) (seq key : Nat) (d : List Byte) (rest : List (Nat × Nat × Nat × Status × List Byte)), s.m.quiet = true →
      s.m.opDone = (q.val, seq, key, .ok, d) :: rest →
      let taken := fun (f : Ctx → Ctx) => ({ s.m with opDone := rest, ctxs := modNth s.m.ctxs q f } : Mod)
      let becomes := fun (f : Ctx → Ctx) => Answers (.memoryRequestComplete q) s (fun t => t.m.out = [] ∧ OnlyRegs [] (taken f) t.m)
      ((s.m.ctx q).detached.contains (seq, key) = false →
        (∀ op p, (s.m.ctx q).ops = [op] → op.seq = seq → op.open_ = [p] → p.key = key → op.status = .ok →
          (key % 8 < 5 → key / 8 % 4 ≠ 3 → op.st ≠ .reload → Answers (.memoryRequestComplete q) s (fun t => t.m =
            (((((taken (fun c => { c with ops := [{ op with open_ := [], got := op.got ++ [(p, pieceData op.desc p d)] }] })).clearOut).opRun
              q seq).checkReported q seq).issueHeads q).conclude.settle)) ∧
          (∀ x < 8, key = 5 + 8 * x → op.recWait = false → op.st = .staging →
            becomes (fun c => { c with ops := [{ op with open_ := [], tensors := op.tensors ++ [(x, d)] }] })) ∧
          (key = 6 → op.st = .reported → becomes (fun c => { c with ops := [{ op with open_ := [], signalled := true }] }))) ∧
        (key % 8 = 5 → 64 ≤ key → (s.m.ctx q).fetchWait = false →
          becomes (fun c => { c with staleFetches := c.staleFetches.erase (key / 8 - 8) })) ∧
        ((s.m.ctx q).ops = [] → key < 64 → becomes id)) ∧
      ((s.m.ctx q).detached.contains (seq, key) = true →
        let undetached := taken (fun c => { c with detached := c.detached.erase (seq, key) })
        (2 ≤ s.m.fld F.SQ_DETACHED_COUNT q →
          Answers (.memoryRequestComplete q) s (fun t => t.m.fld F.SQ_DETACHED_COUNT q = s.m.fld F.SQ_DETACHED_COUNT q - 1 ∧ t.m.out = [] ∧
            OnlyRegs [F.SQ_DETACHED_COUNT.addr q 0] undetached t.m)) ∧
        (s.m.fld F.SQ_DETACHED_COUNT q = 1 →
          Answers (.memoryRequestComplete q) s (fun t => t.m.fld F.SQ_DETACHED_COUNT q = 0 ∧ Raised t.m 0x0304 (d1 q) ∧
            RegsAndEvents [F.SQ_DETACHED_COUNT.addr q 0] undetached t.m)))) ∧
  (∀ (q : Fin 4) (s : State) (op : ROp), s.m.quiet = true → (s.m.ctx q).ops = [op] → op.st = .reload → op.open_ = [] → op.reloads = [] →
      deadlineClass op.desc = 2 → Answers (.reloadComplete q) s (fun t => t.m.out = [] ∧
        OnlyRegs [] { s.m with ctxs := modNth s.m.ctxs q (fun c => { c with ops := [{ op with
          st := .staged, reloading := false, replayed := true, computed := false, redDone := true, redWrite := false, got := [], nan := false,
          ovf := false, sat := false, lost := false }] }) } t.m))

/-- The commit point retires the oldest operation: a local signal adds to its flag, an operation without a record leaves its slot, a HALT
halts the context, a BRANCH_IF sends the fetch unit to the address it chose (05 R135, R143, Table 05.10; 07 R201, R206).

Completion of: retire. -/
def Obligations.Retires : Prop :=
  ∀ (q : Fin 4) (s : State) (op : ROp), s.m.quiet = true → (s.m.ctx q).ops = [op] → op.st = .reported → op.status = .ok → op.open_ = [] →
    op.replayed = false → isCollective (opcodeOf op.desc) = false → op.desc ≠ [] →
    let retired := { op with st := .retired, retTick := some s.m.ticks, signalled := op.signalled || signalAfter op.desc }
    let frame := fun (f : Ctx → Ctx) (t : State) => t.m.out = [] ∧ OnlyRegs [] { s.m with ctxs := modNth s.m.ctxs q f } t.m
    (signalAfter op.desc = false → op.needsRecord = true → Answers (.retire q) s (frame (fun c => { c with ops := [retired] }))) ∧
    (signalAfter op.desc = false → op.needsRecord = false → opcodeOf op.desc ≠ 0x02 → opcodeOf op.desc ≠ 0x06 → opcodeOf op.desc ≠ 0x0A →
      Answers (.retire q) s (frame (fun c => { c with ops := [] }))) ∧
    (signalAfter op.desc = false → op.needsRecord = false → opcodeOf op.desc = 0x06 → (s.m.ctx q).trapped = false →
      (s.m.ctx q).aborting = false → Answers (.retire q) s (frame (fun c => { c with ops := [], halted := true }))) ∧
    (signalAfter op.desc = false → opcodeOf op.desc = 0x0A → Answers (.retire q) s (frame (fun c => { c with ops := [retired] }))) ∧
    (signalAfter op.desc = false → op.needsRecord = false → opcodeOf op.desc = 0x02 → (s.m.ctx q).trapped = false →
      (s.m.ctx q).aborting = false → Answers (.retire q) s (fun t =>
        t.m.fld F.SQ_PC_ADDR q = op.next.getD (op.addr + 128) % 2 ^ 48 ∧ t.m.out = [] ∧ OnlyRegs [F.SQ_PC_ADDR.addr q 0]
          { s.m with ctxs := modNth s.m.ctxs q (fun c => { c with ops := [], pc := op.next.getD (op.addr + 128), paused := false }) } t.m)) ∧
    (signalAfter op.desc = true → op.signalled = false → signalRemote op.desc = false ∨ signalNode op.desc = s.m.node → op.needsRecord = true →
      Answers (.retire q) s (fun t =>
        t.m.flag (signalFlagOf op.desc) = (s.m.flag (signalFlagOf op.desc) + signalAdd op.desc) % 2 ^ 32 ∧
        (t.m.ctx q).ops = [retired] ∧ t.m.out = [] ∧
        OnlyRegs [F.HUB_FLAG_VALUE.addr 0 (signalFlagOf op.desc)] { s.m with ctxs := t.m.ctxs } t.m))

/-- The oldest operation's record goes to the completion ring's slot at TAIL, TAIL advances and the operation leaves its slot (05 R158;
07 R206). `m1` is the module after the record's 32 bytes are written; a ring in the hub buffer, its banks ON, takes them at once.

The completion record (07 Table 07.2): its length, and the bytes of the sequence number, status, opcode, tag, flags and fault
address.

Completion of: completionRecordWrite. -/
def Obligations.RecordWritten : Prop :=
  (∀ (q : Fin 4) (s : State) (op : ROp), (s.m.ctx q).ops = [op] → op.ready = true → op.traps = false →
      opcodeOf op.desc ≠ 0x0A → opcodeOf op.desc ≠ 0x02 → opcodeOf op.desc ≠ 0x06 → isCollective (opcodeOf op.desc) = false →
      op.needsRecord = true → s.m.cplFree q = true →
      let slot := s.m.fld F.SQ_CPL_BASE_ADDR q * 32 + 32 * (s.m.fld F.SQ_CPL_TAIL_TAIL q % 2 ^ s.m.fld F.SQ_CPL_BASE_LOG2_SLOTS q)
      let record := s.m.record op false
      let written := s.m.clearOut.memAccess (opSrc q op.seq 37) (.sqFetch q) slot (.write (record.map some))
      let m1 := written.1
      (written.2 = .done .ok [] → m1.quiet = true → m1.out.all Out.stays = true → (m1.ctx q).ops = [op] →
        Answers (.completionRecordWrite q) s (fun t => t.m.fld F.SQ_CPL_TAIL_TAIL q = (m1.fld F.SQ_CPL_TAIL_TAIL q + 1) % 2 ^ 32 ∧
          OnlyRegs [F.SQ_CPL_TAIL_TAIL.addr q 0] { m1 with ctxs := modNth m1.ctxs q (fun c => { c with ops := [] }) } t.m)) ∧
      (s.m.quiet = true → s.m.hubOpen slot 32 →
        Answers (.completionRecordWrite q) s (fun t => t.m.fld F.SQ_CPL_TAIL_TAIL q = (s.m.fld F.SQ_CPL_TAIL_TAIL q + 1) % 2 ^ 32 ∧
          (∀ i < 32, t.m.mem.byte (slot + i) = nth record i 0) ∧ (∀ a, a < slot ∨ slot + 32 ≤ a → t.m.mem.byte a = s.m.mem.byte a) ∧
          t.m.out = [] ∧ SameRest { s.m with ctxs := modNth s.m.ctxs q (fun c => { c with ops := [] }) } t.m ∧
          SameRegsBut [F.SQ_CPL_TAIL_TAIL.addr q 0] s.m t.m))) ∧
  (∀ (m : Mod) (o : ROp) (trapped : Bool),
      let r := m.record o trapped
      r.length = 32 ∧ leAt r 0 4 = o.seq % 2 ^ 32 ∧ leAt r 4 1 = o.status.toNat ∧ leAt r 5 1 = opcodeOf o.desc % 256 ∧
      leAt r 6 2 = tagOf o.desc % 2 ^ 16 ∧ leAt r 8 8 = (o.addr % 2 ^ 48 + (if o.ring then 2 ^ 63 else 0)) % 2 ^ 64 ∧
      bit (leAt r 16 1) 0 = o.nan ∧ bit (leAt r 16 1) 1 = o.ovf ∧ bit (leAt r 16 1) 2 = o.sat ∧ bit (leAt r 16 1) 3 = o.lost ∧
      bit (leAt r 16 1) 4 = o.replayed ∧ bit (leAt r 16 1) 5 = trapped ∧ bit (leAt r 16 1) 6 = o.signalled ∧
      bit (leAt r 16 1) 7 = o.detached ∧ (o.status = .ok → leAt r 17 1 = 0) ∧ leAt r 20 4 = m.opTicks o % 2 ^ 32 ∧
      leAt r 24 8 = o.faultAddr % 2 ^ 64)

/-! ## Aborts, traps and lost dies (07) -/

/-- An abort is requested, and taken: in IDLE and HALTED it discards the ring, in TRAPPED it leaves the trap too, and a running context
aborts every resident operation that is not COMPLETE (07 R207, R208, Table 07.4).

RESUME leaves HALTED and does nothing in any other state (05 Table 05.14).

Completion of: abortRequest, abortTaken, resume. -/
def Obligations.Aborts : Prop :=
  (∀ (ag : Agent) (q : Fin 4) (s : State), regAgent ag = true → q.val < s.m.ctxs.length →
      Answers (.abortRequest ag q) s (fun t => t.m.out = [.done .ok []] ∧
        OnlyRegs [] { s.m with ctxs := modNth s.m.ctxs q (fun c => { c with abortReq := true }) } t.m) ∧
      ((s.m.ctx q).abortReq = true → s.m.quiet = true →
        let discarded := fun (c : Ctx) => { c.dropFetch with
          abortReq := false, stack := [], trapAt := none, paused := false, stopped := false, halted := false }
        let loops := (List.range 4).map (F.SQ_LOOP_COUNT.addr q)
        let empties := fun (t : State) =>
          t.m.fld F.SQ_RING_HEAD_HEAD q = s.m.fld F.SQ_RING_TAIL_TAIL q ∧ (∀ k < 4, t.m.fld F.SQ_LOOP_COUNT q k = 0) ∧ t.m.out = []
        (s.m.ctxState q = 1 ∨ s.m.ctxState q = 4 → Answers (.abortTaken q) s (fun t => empties t ∧
          OnlyRegs (F.SQ_RING_HEAD_HEAD.addr q 0 :: loops) { s.m with ctxs := modNth s.m.ctxs q discarded } t.m)) ∧
        (s.m.ctxState q = 5 → Answers (.abortTaken q) s (fun t => empties t ∧
          OnlyRegs (F.SQ_RING_HEAD_HEAD.addr q 0 :: loops)
            { s.m with ctxs := modNth s.m.ctxs q (fun c => { discarded c with trapped := c.dieLost }) } t.m)) ∧
        (s.m.ctxState q = 2 ∨ s.m.ctxState q = 3 → (∀ o ∈ (s.m.ctx q).ops, o.st ≠ .reported) → Answers (.abortTaken q) s (fun t =>
          t.m.fld F.SQ_RING_HEAD_HEAD q = s.m.fld F.SQ_RING_TAIL_TAIL q ∧ t.m.out = [] ∧
          SameRegsBut [F.SQ_RING_HEAD_HEAD.addr q 0] s.m t.m ∧
          (t.m.ctx q).aborting = true ∧ (t.m.ctx q).stack = [] ∧ (t.m.ctx q).inFetch = none ∧
          (t.m.ctx q).staleFetches = (discarded (s.m.ctx q)).staleFetches ∧ (t.m.ctx q).detachedNow = 0 ∧
          (t.m.ctx q).aborted = ((s.m.ctx q).ops.filter (fun o => o.st != .retired)).length ∧
          (t.m.ctx q).ops = (s.m.ctx q).ops.map (fun o => if o.st = .retired then { o with status := .alreadyDone } else { o with
            st := .failed, status := .aborted, detail := 0, faultAddr := 0, signalled := false, tiles := [], parts := [], held := [],
            coll := none }))))) ∧
  (∀ (ag : Agent) (q : Fin 4) (s : State), regAgent ag = true → Answers (.resume ag q) s (fun t => t.m.out = [.done .ok []] ∧
      OnlyRegs [] { s.m with ctxs := if s.m.ctxState q = 4 then modNth s.m.ctxs q (fun c => { c with halted := false, paused := false })
                                     else s.m.ctxs } t.m))

/-- An operation that traps does so once it is the oldest: the context is TRAPPED, SQ_TRAP and SQ_TRAP_ADDR name the operation, the loop
counters are 0, and event 0x0301 carries them: one resolved at fetch (05 R130), a TRAP without a record, and any that writes its record
first, here into a ring in the hub buffer (07 R206, R212).

Requests of an ended operation that are still open after 16 µs are detached and counted, a discarded fetch's read among them; once every
operation has left, the abort ends with event 0x0302, which carries how many operations it aborted and how many requests it detached
(07 R209, R210, Table 07.12).

A lost die fails the operations dispatched to it with ST_DIE_LOST, DETAIL the die; with none dispatched, the context traps
(07 R219, R220).

Completion of: contextTrap, detachTimeout, abortComplete, sequencerDieLost. -/
def Obligations.ContextTraps : Prop :=
  (∀ (q : Fin 4) (s : State), s.m.quiet = true → (s.m.ctx q).aborting = false → (s.m.ctx q).trapped = false →
      let trapsWith := fun (st : Status) (opcode code a : Nat) (ring : Bool) (more : List Nat) => Answers (.contextTrap q) s (fun t =>
        t.m.fld F.SQ_TRAP_STATUS q = st.toNat ∧ t.m.fld F.SQ_TRAP_OPCODE q = opcode % 256 ∧ t.m.fld F.SQ_TRAP_CODE q = code % 2 ^ 16 ∧
        t.m.fld F.SQ_TRAP_ADDR_ADDR q = a % 2 ^ 48 ∧ t.m.fld F.SQ_TRAP_ADDR_RING q = b2n ring ∧ (∀ k < 4, t.m.fld F.SQ_LOOP_COUNT q k = 0) ∧
        (more ≠ [] → t.m.fld F.SQ_CPL_TAIL_TAIL q = (s.m.fld F.SQ_CPL_TAIL_TAIL q + 1) % 2 ^ 32) ∧
        Raised t.m 0x0301 (d1 q ++ d1 st.toNat ++ d1 opcode ++ d8 (t.m.reg (F.SQ_TRAP_ADDR_ADDR.addr q 0)).toNat) ∧
        RegsAndEvents (F.SQ_TRAP_STATUS.addr q 0 :: F.SQ_TRAP_ADDR_ADDR.addr q 0 :: more ++ (List.range 4).map (F.SQ_LOOP_COUNT.addr q))
          { s.m with ctxs := modNth s.m.ctxs q (fun c => { c.dropFetch with
            ops := [], stack := [], paused := false, stopped := false, trapAt := none, trapped := true,
            dieLost := c.dieLost || st == .dieLost }) } t.m)
      (∀ (st : Status) (opcode a : Nat) (ring : Bool), (s.m.ctx q).ops = [] → (s.m.ctx q).trapAt = some (st, opcode, a, ring) →
        trapsWith st opcode 0 a ring []) ∧
      (∀ op, (s.m.ctx q).ops = [op] → op.st = .retired → op.recWait = false → op.needsRecord = false → opcodeOf op.desc = 0x0A →
        trapsWith .ok 0x0A (ops op.desc 0x58 2) op.addr op.ring []) ∧
      (∀ op, (s.m.ctx q).ops = [op] → op.ready = true → op.traps = true → op.needsRecord = true → s.m.cplFree q = true →
        opcodeOf op.desc ≠ 0x02 → isCollective (opcodeOf op.desc) = false →
        s.m.hubOpen (s.m.fld F.SQ_CPL_BASE_ADDR q * 32 + 32 * (s.m.fld F.SQ_CPL_TAIL_TAIL q % 2 ^ s.m.fld F.SQ_CPL_BASE_LOG2_SLOTS q)) 32 →
        trapsWith op.status (opcodeOf op.desc) (if op.status = .ok then ops op.desc 0x58 2 else 0) op.addr op.ring [F.SQ_CPL_TAIL_TAIL.addr q 0])) ∧
  (∀ (q : Fin 4) (s : State),
      (∀ op, (s.m.ctx q).ops = [op] → op.st = .failed → op.recWait = false → op.open_ ≠ [] →
        (s.m.ctx q).aborting = true ∨ (s.m.ctx q).trapped = true ∨ op.status = .aborted ∨ op.status = .dieLost →
        let gone := op.open_.map (fun p => (op.seq, p.key)) ++
          (s.m.ctx q).staleFetches.map (fun k => (s.m.fld F.SQ_SEQ_NEXT q, 5 + 8 * (8 + k)))
        Answers (.detachTimeout q) s (fun t =>
          t.m.fld F.SQ_DETACHED_COUNT q = (s.m.fld F.SQ_DETACHED_COUNT q + gone.length) % 2 ^ 17 ∧ t.m.out = [] ∧
          OnlyRegs [F.SQ_DETACHED_COUNT.addr q 0] { s.m with ctxs := modNth s.m.ctxs q (fun c => { c with
            detachedNow := c.detachedNow + gone.length, detached := c.detached ++ gone, staleFetches := [],
            ops := [{ op with open_ := [], detached := true }] }) } t.m)) ∧
      ((s.m.ctx q).aborting = true → (s.m.ctx q).ops = [] → (s.m.ctx q).staleFetches = [] → s.m.quiet = true →
        Answers (.abortComplete q) s (fun t => (∀ k < 4, t.m.fld F.SQ_LOOP_COUNT q k = 0) ∧
          Raised t.m 0x0302 (d1 q ++ dCount (s.m.ctx q).aborted ++ dCount (s.m.ctx q).detachedNow) ∧
          RegsAndEvents ((List.range 4).map (F.SQ_LOOP_COUNT.addr q))
            { s.m with ctxs := modNth s.m.ctxs q (fun c => { c with aborting := false }) } t.m))) ∧
  (∀ (q : Fin 4) (die : Fin 16) (s : State), (s.m.ctx q).lossDue.contains die.val = true → (s.m.ctx q).trapped = false →
      (∀ op, (s.m.ctx q).ops = [op] → op.st = .dispatched → Answers (.sequencerDieLost q die) s (fun t =>
        (t.m.ctx q).lossDue = (s.m.ctx q).lossDue.filter (· ≠ die.val) ∧ t.m.out = [] ∧ SameRegsBut [] s.m t.m ∧
        (t.m.ctx q).ops = [{ op with st := .failed, status := .dieLost, detail := die, faultAddr := 0, trapAlways := true, tiles := [],
                                     parts := [], held := [], coll := none, redDone := true }])) ∧
      ((s.m.ctx q).ops = [] → Answers (.sequencerDieLost q die) s (fun t => (t.m.ctx q).trapped = true ∧ (t.m.ctx q).dieLost = true ∧
        t.m.fld F.SQ_TRAP_STATUS q = Status.dieLost.toNat ∧ t.m.fld F.SQ_TRAP_OPCODE q = 0 ∧ t.m.fld F.SQ_TRAP_CODE q = 0 ∧
        (∃ e, e.code = 0x0301 ∧ t.m.out = [.event e]))))

/-! ## On-chip memory (08) -/

/-- A Y access within one block that no S access meets: with its bank ON it reads or writes the block, a bank in RET goes ON first, a bank
OFF or in TEST refuses it, and bad parity ends a read with ST_DATA_LOST, logged; an agent outside a die in Slate is refused with ST_FENCED
(01 R31; 08 R229-R232, R236, Table 08.3).

A Y write that meets an S write of its word is lost, and counted; a Y access that meets another S access of its sub-bank waits, and is
performed in a free bank cycle (08 R228, R229).

Completion of: yPortAccess, yAccessPerformed. -/
def Obligations.YAccess : Prop :=
  (∀ (ag : Agent) (arr : Fin 17) (off n : Nat) (d : List (Option Byte)) (s : State), s.m.quiet = true → 1 ≤ n → off % 64 + n ≤ 64 →
      off + n ≤ sramSize arr → (s.m.sramOf arr).ywait = [] → d.length = n →
      let b := bankOf arr off
      let a := sramBase arr + off
      let st := s.m.bankState arr b
      let bad := fun (i : Nat) => s.m.mem.parityBad (a + i) = true
      let fenced := arr.val < 16 ∧ s.m.portSlate arr = true ∧ ownDie ag arr = false
      let read := fun (P : State → Prop) => ¬fenced → Answers (.yPortAccess ag arr off (.read n) none) s P
      let write := fun (P : State → Prop) => ¬fenced → Answers (.yPortAccess ag arr off (.write d) none) s P
      (fenced → ∀ op ∈ [MemOp.read n, .write d], Answers (.yPortAccess ag arr off op none) s (fun t => t.m.out = [.done .fenced []] ∧
        OnlyRegs [] s.m t.m)) ∧
      (st = 0 → (∀ i < n, ¬bad i) → read (fun t => t.m.out = [.done .ok (s.m.mem.readAt a n)] ∧ OnlyRegs [] s.m t.m)) ∧
      (st = 0 → ∀ i < n, bad i → (∀ j < i, ¬bad j) → read (fun t =>
        t.m.out.getLast? = some (.done .dataLost (s.m.mem.readAt a n)) ∧
        t.m.fld F.ERR_COUNT_PARITY arr = min (s.m.fld F.ERR_COUNT_PARITY arr + 1) 0xFFFFFFFF ∧
        t.m.fld F.PARITY_LOG_OFFSET arr = (off + i) % 2 ^ 31 ∧ t.m.fld F.PARITY_LOG_PORT arr = 1 ∧ t.m.fld F.PARITY_LOG_VALID arr = 1 ∧
        Raised t.m 0x0401 (d8 (a + i) ++ d1 (agentCode ag)) ∧
        RegsAndEvents [F.ERR_COUNT_PARITY.addr arr 0, F.PARITY_LOG_VALID.addr arr 0] s.m t.m)) ∧
      (st = 0 → write (fun t => t.m.out = [.done .ok []] ∧ SameRest s.m t.m ∧ SameRegsBut [] s.m t.m ∧
        (∀ i < n, t.m.mem.byte (a + i) = (nth d i none).getD (s.m.mem.byte (a + i))) ∧
        ∀ x, x < a ∨ a + n ≤ x → t.m.mem.byte x = s.m.mem.byte x)) ∧
      (st = 1 → (s.m.sramOf arr).wakes = [] → (∀ i < n, ¬bad i) → read (fun t => t.m.out = [.done .ok (s.m.mem.readAt a n)] ∧
        t.m.bankState arr b = 0 ∧ OnlyRegs [F.BANK_STATE_ST.addr arr (b / 32)] s.m t.m)) ∧
      (st = 2 → write (fun t => t.m.out = [.done .bankOff []] ∧ OnlyRegs [] s.m t.m) ∧
        read (fun t => ∃ x, t.m.out = [.done .bankOff x] ∧ SameMem s.m t.m ∧ SameRegsBut [] s.m t.m)) ∧
      (st = 3 → write (fun t => t.m.out = [.done .bankUnderTest []] ∧ OnlyRegs [] s.m t.m) ∧
        read (fun t => ∃ x, t.m.out = [.done .bankUnderTest x] ∧ SameMem s.m t.m ∧ SameRegsBut [] s.m t.m))) ∧
  (∀ (ag : Agent) (arr : Fin 17) (off n : Nat) (bank : Fin 1024) (word : Fin 65536) (d : List (Option Byte)) (x : List Byte) (s : State), s.m.quiet = true →
      1 ≤ n → off % 64 + n ≤ 64 → off + n ≤ sramSize arr → s.m.bankState arr (bankOf arr off) = 0 →
      (s.m.sramOf arr).ywait = [] → d.length = n → bank.val = bankOf arr off → s.m.portSlate arr = false →
      (word.val = wordOf arr off → x.length = 64 → Answers (.yPortAccess ag arr off (.write d) (some ⟨bank, word, some x⟩)) s (fun t =>
        t.m.out = [.done .writeLost []] ∧ t.m.fld F.ERR_COUNT_WRITE_LOST arr = min (s.m.fld F.ERR_COUNT_WRITE_LOST arr + 1) 0xFFFFFFFF ∧
        SameRest s.m t.m ∧ SameRegsBut [F.ERR_COUNT_WRITE_LOST.addr arr 0] s.m t.m ∧
        (∀ i < 64, t.m.mem.byte (sramBase arr + off / 64 * 64 + i) = nth x i 0) ∧
        ∀ y, y < sramBase arr + off / 64 * 64 ∨ sramBase arr + off / 64 * 64 + 64 ≤ y → t.m.mem.byte y = s.m.mem.byte y)) ∧
      (word.val % 2 = wordOf arr off % 2 → Answers (.yPortAccess ag arr off (.read n) (some ⟨bank, word, none⟩)) s (fun t => t.m.out = [] ∧
        OnlyRegs [] { s.m with sram := modNth s.m.sram arr (fun z => { z with ywait := [{ src := .agent ag, ag := ag, off := off, op := .read n }] }) }
          t.m)) ∧
      (∀ (q : Fin 4) (seq key : Nat) (sub : Fin 2) (s0 : State),
        let w : YWait := { src := .op q seq key, ag := ag, off := off, op := .read n }
        sub.val = wordOf arr off % 2 → arr.val < s.m.sram.length →
        (∀ i < n, s.m.mem.parityBad (sramBase arr + off + i) = false) →
        s0 = { s with m := { s.m with sram := modNth s.m.sram arr (fun z => { z with ywait := [w] }) } } →
        Answers (.yAccessPerformed arr bank sub) s0 (fun t =>
          t.m.out = [.compl (.op q seq key) .ok (s.m.mem.readAt (sramBase arr + off) n)] ∧ OnlyRegs [] { s.m with
            opDone := s.m.opDone ++ [(q.val, seq, key, .ok, s.m.mem.readAt (sramBase arr + off) n)] } t.m)))

/-- A write of the bit-set or bit-clear alias of an on-chip quantity sets or clears the bits of its data (08 R233, R234).

Completion of: aliasWrite. -/
def Obligations.AliasWrites : Prop :=
  ∀ (ag : Agent) (addr data : Word) (a : Nat) (set : Bool) (arr : Fin 17) (off : Nat) (s : State), s.m.decodeAddr addr.toNat = .here a →
    aliasOf a = some (set, sramBase arr + off) → a % 8 = 0 → off % 8 = 0 → off + 8 ≤ sramSize arr → s.m.dir = [] →
    s.m.retry = [] → s.m.reqSrc = [] → s.m.portSlate arr = false → s.m.bankState arr (bankOf arr off) = 0 → (s.m.sramOf arr).ywait = [] →
    (∀ i < 8, s.m.mem.parityBad (sramBase arr + off + i) = false) →
    let old := ofBytes (s.m.mem.readAt (sramBase arr + off) 8)
    Answers (.aliasWrite ag addr 8 data) s (fun t => t.m.out = [.done .ok []] ∧ SameRest s.m t.m ∧ SameRegsBut [] s.m t.m ∧
      ofBytes (t.m.mem.readAt (sramBase arr + off) 8) = (if set then old ||| data.toNat else old &&& (2 ^ 64 - 1 - data.toNat)) ∧
      ∀ x, x < sramBase arr + off ∨ sramBase arr + off + 8 ≤ x → t.m.mem.byte x = s.m.mem.byte x)

/-- BANK_CMD: ON, RET, OFF and TEST take effect at once, but for banks that wake (from OFF, and from RET to ON or TEST): their wakes are
open, BUSY, and end at BANK_WAKE_COMPLETE; a bank OFF is not sent to RET (08 R237-R239, Table 08.4).

A wake that ends puts its bank into its new state; BUSY falls with the last (08 R237, R239).

Completion of: bankCmdOn, bankCmdRet, bankCmdOff, bankCmdTest, bankWakeComplete. -/
def Obligations.BankCommands : Prop :=
  (∀ r ∈ ([(.bankCmdOn, 0), (.bankCmdRet, 1), (.bankCmdOff, 2), (.bankCmdTest, 3)] : List ((Agent → Fin 17 → Fin 1024 → Fin 1024 → Instr) × Nat)),
    ∀ (ag : Agent) (arr : Fin 17) (first last : Fin 1024) (s : State), s.m.quiet = true → regAgent ag = true →
      s.m.blockGate ag .sram arr 0 true = .ok → first.val ≤ last.val → last.val < bankCount arr → (arr.val < 16 → s.m.state ≠ .parked) →
      (s.m.sramOf arr).wakes = [] → (s.m.sramOf arr).march = none → (s.m.sramOf arr).ywait = [] → arr.val < s.m.sram.length →
      (∀ b, first.val ≤ b → b ≤ last.val → s.m.bankProtected arr b = false) →
      let wakes := fun (b : Nat) => (r.2 = 0 ∨ r.2 = 3) ∧ (s.m.bankState arr b = 1 ∨ s.m.bankState arr b = 2)
      let new := fun (b : Nat) => if first.val ≤ b ∧ b ≤ last.val ∧ ¬(wakes b) ∧ ¬(r.2 = 1 ∧ s.m.bankState arr b = 2) then r.2
        else s.m.bankState arr b
      let opened := ((bankRange first last).filter (fun b => decide (wakes b))).map (fun b => (b, r.2))
      Answers (r.1 ag arr first last) s (fun t => t.m.out = [.done .ok []] ∧ (∀ b < bankCount arr, t.m.bankState arr b = new b) ∧
        t.m.fld F.BANK_STATUS_RESULT arr = 0 ∧ t.m.fld F.BANK_STATUS_BUSY arr = (if opened = [] then 0 else 1) ∧
        (t.m.sramOf arr).wakes = opened ∧
        SameRegsBut (F.BANK_STATUS_BUSY.addr arr 0 :: (List.range 32).map (F.BANK_STATE_ST.addr arr)) s.m t.m ∧
        ∀ x < 0x7F00A0000000, (r.2 = 2 → ∀ o, sramAt x = some (arr.val, o) → ¬(first.val ≤ bankOf arr o ∧ bankOf arr o ≤ last.val)) →
          t.m.mem.byte x = s.m.mem.byte x)) ∧
  (∀ (arr : Fin 17) (bank : Fin 1024) (target : Nat) (s : State), (s.m.sramOf arr).wakes = [(bank.val, target)] → target < 4 →
      Answers (.bankWakeComplete arr bank) s (fun t => t.m.bankState arr bank = target ∧ t.m.fld F.BANK_STATUS_BUSY arr = 0 ∧ t.m.out = [] ∧
        OnlyRegs [F.BANK_STATUS_BUSY.addr arr 0, F.BANK_STATE_ST.addr arr (bank / 32)]
          { s.m with sram := modNth s.m.sram arr (fun z => { z with wakes := [] }) } t.m))

/-- MARCH_CMD: a destructive test of banks in TEST and a preserving one of banks ON start, a running one is cancelled, and it ends with
DONE and event 0x0402, a destructive one leaving every word of its banks 0 (08 R241, R242, R245, R246).

SPARE_ADD maps a word to a spare word of its sub-bank (08 R247).

Completion of: marchDestructive, marchPreserving, marchCancel, marchEnd, spareAdd. -/
def Obligations.MarchTests : Prop :=
  (∀ (ag : Agent) (arr : Fin 17) (first last : Fin 1024) (repair : Bool) (s : State), s.m.quiet = true → regAgent ag = true →
      s.m.blockGate ag .sram arr 0x10 true = .ok → first.val ≤ last.val → last.val < bankCount arr → arr.val < s.m.sram.length →
      let starts := fun (mode rep : Bool) (t : State) => t.m.out = [.done .ok []] ∧
        (t.m.sramOf arr).march = some ⟨first, last, mode, rep, false⟩ ∧ t.m.fld F.MARCH_STATUS_RESULT arr = 0 ∧
        t.m.fld F.MARCH_STATUS_BUSY arr = 1 ∧ t.m.fld F.MARCH_STATUS_CANCELLED arr = 0 ∧ t.m.fld F.MARCH_STATUS_FAIL_COUNT arr = 0 ∧
        t.m.fld F.MARCH_FAIL_VALID arr = 0 ∧ OnlyRegs [F.MARCH_STATUS_BUSY.addr arr 0, F.MARCH_FAIL_VALID.addr arr 0]
          { s.m with sram := modNth s.m.sram arr (fun z => { z with march := some ⟨first, last, mode, rep, false⟩ }) } t.m
      let banks := fun (st : Nat) => ∀ b, first.val ≤ b → b ≤ last.val → s.m.bankState arr b = st
      ((s.m.sramOf arr).march = none → (s.m.sramOf arr).wakes = [] → banks 3 →
        Answers (.marchDestructive ag arr first last repair []) s (starts false repair)) ∧
      ((s.m.sramOf arr).march = none → (s.m.sramOf arr).wakes = [] → banks 0 → s.m.mem.badPar = [] →
        Answers (.marchPreserving ag arr first last []) s (starts true false)) ∧
      Answers (.marchCancel ag arr) s (fun t => t.m.out = [.done .ok []] ∧ t.m.fld F.MARCH_STATUS_RESULT arr = 0 ∧
        OnlyRegs [F.MARCH_STATUS_RESULT.addr arr 0] { s.m with sram := modNth s.m.sram arr (fun z =>
          { z with march := z.march.map (fun x => { x with cancelled := true }) }) } t.m) ∧
      (∀ mode rep cancelled, (s.m.sramOf arr).march = some ⟨first, last, mode, rep, cancelled⟩ → Answers (.marchEnd arr []) s (fun t =>
        (t.m.sramOf arr).march = none ∧ t.m.fld F.MARCH_STATUS_BUSY arr = 0 ∧ t.m.fld F.MARCH_STATUS_DONE arr = 1 ∧
        t.m.fld F.MARCH_STATUS_CANCELLED arr = b2n cancelled ∧
        Raised t.m 0x0402 (d1 arr ++ d1 (b2n mode) ++ dCount (s.m.fld F.MARCH_STATUS_FAIL_COUNT arr) ++ d1 (b2n cancelled)) ∧
        (mode = false → cancelled = false → arr.val < 16 → ∀ o, o < sramSize arr → first.val ≤ bankOf arr o → bankOf arr o ≤ last.val →
          t.m.mem.byte (sramBase arr + o) = 0)))) ∧
  (∀ (ag : Agent) (arr : Fin 17) (bank : Fin 1024) (word : Fin 65536) (s : State), s.m.quiet = true → regAgent ag = true →
      s.m.blockGate ag .sram arr 0x10 true = .ok → bank.val < bankCount arr → word.val < wordCount arr bank →
      (s.m.sramOf arr).march = none → s.m.sparesUsed arr bank word < 8 → Answers (.spareAdd ag arr bank word) s (fun t =>
        t.m.out = [.done .ok []] ∧ t.m.fld F.MARCH_STATUS_SPARE_RESULT arr = 0 ∧
        t.m.sram = modNth s.m.sram arr (fun z => { z with spares := z.spares ++ [(bank.val, word.val)] }) ∧
        SameRegsBut [F.MARCH_STATUS_SPARE_RESULT.addr arr 0] s.m t.m ∧
        ∀ x, x < sramBase arr + wordOff arr bank word ∨ sramBase arr + wordOff arr bank word + 64 ≤ x → t.m.mem.byte x = s.m.mem.byte x))

/-! ## LPDDR (09) and its regulation (10) -/

/-- A request that reaches a channel of an enabled package at thermal step 0 whose queues are empty is served in the command slot: a read
answers the block's bytes, a whole block written replaces them; a block that cannot be decoded answers ST_UNCORRECTABLE, counted, with event
0x0501; in HOLD the request waits (09 R254, R257, R264, R273; 10 R284).

The decoder corrects up to four wrong symbols of a block without a marked pin; with a marked pin it corrects that pin's symbols and one
more (09 R254).

Completion of: lpddrCommandSlot. -/
def Obligations.LpddrServes : Prop :=
  (∀ (k : Fin 24) (c : Fin 4) (r : LpReq) (q : Fin 4) (seq key o n : Nat) (s : State), s.m.quiet = true → r.src = .op q seq key →
      r.cls.val = 0 → r.lateAtIssue = false → 0 < s.m.slack r.deadline.val → r.addr = k.val * 0x1000000000 + o → o + n ≤ 0xDE0000000 → 1 ≤ n → o % 64 + n ≤ 64 →
      (s.m.mcOf k).queues = [[], [], [], []] → (s.m.mcOf k).level = 0 → (s.m.mcOf k).refreshing = [] → s.m.och = [] → s.m.fld F.MC_CTL_FAILED k = 0 →
      s.m.fld F.MC_CTL_ENABLE k = 1 → s.m.pageRetired k (o / 0x200000) = false → k.val < s.m.mc.length →
      let rest := fun (m : Mod) (st : Status) (d : List Byte) (t : State) =>
        { m with mc := t.m.mc, lpNext := s.m.lpNext + 1, opDone := s.m.opDone ++ [(q.val, seq, key, st, d)] }
      (r.op = .read n → s.m.fld F.MC_THERM_STEP k = 0 → s.m.mem.poison.get? (r.addr / 64 * 64) = none →
        s.m.mem.wrong.get? (r.addr / 64 * 64) = none → Answers (.lpddrCommandSlot k c [r] []) s (fun t => t.m.out = [.compl r.src .ok (s.m.mem.readAt r.addr n)] ∧
          (t.m.mcOf k).queues = [[], [], [], []] ∧ OnlyRegs [] (rest s.m .ok (s.m.mem.readAt r.addr n) t) t.m)) ∧
      (∀ d : List Byte, r.op = .write (d.map some) → n = 64 → d.length = 64 → s.m.fld F.MC_THERM_STEP k = 0 →
        Answers (.lpddrCommandSlot k c [r] []) s (fun t => t.m.out = [.compl r.src .ok []] ∧ t.m.mem.readAt r.addr 64 = d ∧
          t.m.mem.poison.get? r.addr = none ∧ SameRegsBut [] s.m t.m ∧ (∀ x, x < r.addr ∨ r.addr + 64 ≤ x → t.m.mem.byte x = s.m.mem.byte x))) ∧
      (∀ e : BlockErr, r.op = .read n → s.m.fld F.MC_THERM_STEP k = 0 → s.m.mem.poison.get? (r.addr / 64 * 64) = none → e.addr = r.addr →
        (decodeBlock (s.m.markedPin k (lpMap o).ch) (s.m.fld F.MC_CTL_AUTO_MARK k == 1) (lpMap o).slot (e.syms.map Fin.val).eraseDups).ok = false →
        Answers (.lpddrCommandSlot k c [r] [e]) s (fun t => (∃ d, .compl r.src .uncorrectable d ∈ t.m.out) ∧
          t.m.fld F.MC_COUNT_UE k (lpMap o).ch = min (s.m.fld F.MC_COUNT_UE k (lpMap o).ch + 1) 0xFFFFFFFF ∧
          Raised t.m 0x0501 (d8 r.addr ++ d1 (4 * k + (lpMap o).ch) ++ d1 (lpMap o).bank ++ d4 (lpMap o).row ++ d1 0))) ∧
      (s.m.inHold k = true → Answers (.lpddrCommandSlot k c [r] []) s (fun t => t.m.out = [] ∧
        (∃ w, nth (t.m.mcOf k).queues c [] = [w] ∧ w.req = r) ∧ OnlyRegs [] { s.m with mc := t.m.mc, lpNext := s.m.lpNext + 1 } t.m))) ∧
  ((∀ (auto : Bool) (slot : Nat) (errs : List Nat), errs.length ≤ 4 → (decodeBlock none auto slot errs).ok = true) ∧
    (∀ (pin : Nat) (auto : Bool) (slot : Nat) (errs : List Nat),
      (decodeBlock (some pin) auto slot errs).ok = decide ((errs.filter (fun e => !(pinSyms pin slot).contains e)).length ≤ 1)) ∧
    (∀ (marked : Option Nat) (slot : Nat) (errs : List Nat), (decodeBlock marked false slot errs).mark = none))

/-- Ochre takes a narrow read of LPDDR, of lines that no agent holds, and splits it into its blocks; a request past its age limit is marked (09 R258, R259).

Completion of: ochreRequest, ochreAgeExpired. -/
def Obligations.OchreHolds : Prop :=
  ∀ (src : Src) (k o size id : Nat) (s : State), s.m.quiet = true → k < 24 → 1 ≤ size → o + size ≤ 0xDE0000000 →
    s.m.fld F.MC_CTL_FAILED k = 0 → s.m.fld F.MC_CTL_ENABLE k = 1 → s.m.inHold k = false → s.m.dir = [] → s.m.retry = [] → s.m.reqSrc = [] →
    s.m.och.length < 4096 → (s.m.mcOf k).level = 0 →
    Answers (.ochreRequest src (k * 0x1000000000 + o) size) s (fun t => t.m.out = [] ∧
      t.m.fld F.OCH_COUNT_COUNT 0 0 = (s.m.fld F.OCH_COUNT_COUNT 0 0 + 1) % 2 ^ 64 ∧
      (∃ w, t.m.och = s.m.och ++ [w] ∧ w.src = src ∧ w.addr = k * 0x1000000000 + o ∧ w.size = size ∧ w.status = .ok ∧ w.aged = false ∧
        w.left = (blocksOf (k * 0x1000000000 + o) size).map (fun p => p.1 / 64 * 64)) ∧
      OnlyRegs [F.OCH_COUNT_COUNT.addr 0 0] { s.m with och := t.m.och, lpNext := s.m.lpNext + 1 } t.m) ∧
    Answers (.ochreAgeExpired id) s (fun t => t.m.out = [] ∧
      OnlyRegs [] { s.m with och := s.m.och.map (fun w => if w.id = id then { w with aged := true } else w) } t.m)

/-- Temperature: a report above a step's enter temperature moves the package a step up, one above 105 °C to HOLD, with event 0x0505; a
request that has waited in HOLD to its limit ends with ST_THERMAL. A refresh closes the bank's row; in PARKED an idle package returns to
self-refresh (09 R261-R265, Table 09.4).

Completion of: refresh, temperatureReport, thermalHoldTimeout, selfRefreshIdle. -/
def Obligations.LpddrThermal : Prop :=
  ∀ (k : Fin 24) (temp : BitVec 8) (s : State), s.m.quiet = true → s.m.fld F.FAB_ROLE_STATE ≠ 2 →
    let step := s.m.fld F.MC_THERM_STEP k
    let moves := fun (new : Nat) (t : State) => t.m.fld F.MC_THERM_STEP k = new ∧ t.m.fld F.MC_THERM_TEMP k = temp.toNat ∧
      Raised t.m 0x0505 (d1 k ++ d1 step ++ d1 new ++ d2 (unsigned 16 (temp.toInt * 16))) ∧
      t.m.regul.changes = s.m.regul.changes ++ [(k.val, 0)] ∧
      RegsAndEvents [F.MC_THERM_STEP.addr k 0] { s.m with mc := t.m.mc, regul := t.m.regul } t.m
    (step < 2 → (if step = 0 then 85 else 95) < temp.toInt → temp.toInt ≤ 105 →
      Answers (.temperatureReport k temp) s (moves (step + 1))) ∧
    (step < 3 → 105 < temp.toInt → k.val < s.m.mc.length →
      Answers (.temperatureReport k temp) s (fun t => moves 3 t ∧ (t.m.mcOf k).selfRefresh = true)) ∧
    (∀ (w : LpWait) (q : Fin 4) (seq key : Nat), step = 3 → w.fill = none → w.req.src = .op q seq key → (s.m.mcOf k).holdExpired = true →
      Answers (.thermalHoldTimeout k w.id) { s with m := s.m.modMc k (fun x => { x with hold := [w] }) } (fun t => t.m.out = [.compl w.req.src .thermal []] ∧
        t.m.fld F.MC_THERM_HOLD_EXPIRED k = min (s.m.fld F.MC_THERM_HOLD_EXPIRED k + 1) 0xFFFF ∧
        t.m.mc = modNth s.m.mc k (fun x => { x with queues := x.queues.map (fun z => z.filter (fun y => y.id != w.id)) }) ∧
        OnlyRegs [F.MC_THERM_STEP.addr k 0]
          { s.m with mc := t.m.mc, opDone := s.m.opDone ++ [(q.val, seq, key, .thermal, [])] } t.m)) ∧
    (∀ (c : Fin 4) (bank : Fin 32), Answers (.refresh k c bank) s (fun t => t.m.out = [] ∧ OnlyRegs []
      { s.m with mc := modNth s.m.mc k (fun x => { x with
        rows := x.rows.del (c.val * 32 + bank.val), slots := modNth x.slots c (fun _ => 0),
        refreshing := (c.val * 32 + bank.val) :: x.refreshing.filter (· != c.val * 32 + bank.val) }) } t.m)) ∧
    (s.m.state = .parked → Answers (.selfRefreshIdle k) s (fun t => t.m.out = [] ∧ OnlyRegs []
      { s.m with mc := modNth s.m.mc k (fun x => { x with selfRefresh := true }) } t.m))

/-- Scrub, in class TEST, leaves a row unit that decodes as it is and turns a block that does not into stored poison; a remap gives its row the bank's next
spare, with event 0x0502; LOG_CLEAR empties the log (09 R272-R276, Table 09.9).

Completion of: patrolScrub, rowRemap, logClear. -/
def Obligations.LpddrRepairs : Prop :=
  ∀ (ag : Agent) (k : Fin 24) (s : State), s.m.quiet = true → regAgent ag = true → k.val < s.m.mc.length →
    let clean := fun (u : Nat) => ∀ i < unitBlocks u, s.m.mem.wrong.get? (k.val * 0x1000000000 + (u * 28 + i) * 64) = none
    (∀ u : Fin 33254839, clean u → Answers (.patrolScrub k u []) s (fun t => t.m.out = [] ∧
      (if s.m.fld F.MC_CTL_SCRUB_EN k = 0 ∨ s.m.fld F.MC_CTL_ENABLE k = 0 ∨ s.m.fld F.MC_CTL_FAILED k = 1 ∨ s.m.inHold k = true then
        OnlyRegs [] s.m t.m
      else OnlyRegs [F.REG_LAT_AVG.addr 0 (4 * k.val + 3)]
        { s.m with mc := modNth s.m.mc k (fun x => { x with credit := modNth x.credit 4 (· - unitBlocks u) }) } t.m))) ∧
    (∀ (u : Fin 33254839) (i : Nat) (e : BlockErr), clean u → i < unitBlocks u → s.m.fld F.MC_CTL_SCRUB_EN k = 1 → s.m.fld F.MC_CTL_ENABLE k = 1 →
      s.m.fld F.MC_CTL_FAILED k = 0 → s.m.inHold k = false → e.addr = k.val * 0x1000000000 + (u.val * 28 + i) * 64 →
      s.m.pageRetired k ((u.val * 28 + i) * 64 / 0x200000) = false → s.m.mem.poison.get? e.addr = none →
      (decodeBlock (s.m.markedPin k (lpMap ((u.val * 28 + i) * 64)).ch) (s.m.fld F.MC_CTL_AUTO_MARK k == 1)
        (lpMap ((u.val * 28 + i) * 64)).slot (e.syms.map Fin.val).eraseDups).ok = false →
      Answers (.patrolScrub k u [e]) s (fun t => (t.m.mem.poison.get? e.addr).isSome = true ∧
        t.m.fld F.MC_COUNT_UE k (lpMap ((u.val * 28 + i) * 64)).ch =
          min (s.m.fld F.MC_COUNT_UE k (lpMap ((u.val * 28 + i) * 64)).ch + 1) 0xFFFFFFFF)) ∧
    (∀ (ch bank row j next : Nat) (rest : List (Nat × Nat × Nat)), ch < 4 → bank < 32 → row < 259804 → j < 256 → next < 2340 →
      (s.m.mcOf k).remaps = (ch, bank, row) :: rest → clean (rowUnit ch bank row) → s.m.inHold k = false → s.m.remapEntry k ch bank row = none →
      s.m.fld F.MC_SPARE_NEXT_NEXT k (32 * ch + bank) = next → s.m.fld F.MC_REMAP_VALID k (256 * ch + j) = 0 →
      (∀ i < j, s.m.fld F.MC_REMAP_VALID k (256 * ch + i) = 1) →
      Answers (.rowRemap k [] []) s (fun t => t.m.fld F.MC_SPARE_NEXT_NEXT k (32 * ch + bank) = next + 1 ∧
        t.m.fld F.MC_REMAP_VALID k (256 * ch + j) = 1 ∧ t.m.fld F.MC_REMAP_BANK k (256 * ch + j) = bank ∧
        t.m.fld F.MC_REMAP_ROW k (256 * ch + j) = row ∧ t.m.fld F.MC_REMAP_SPARE k (256 * ch + j) = next ∧
        Raised t.m 0x0502 (d1 (4 * k + ch) ++ d1 bank ++ d4 row ++ d2 next) ∧
        RegsAndEvents [F.MC_SPARE_NEXT_NEXT.addr k (32 * ch + bank), F.MC_REMAP_VALID.addr k (256 * ch + j)]
          { s.m with mc := modNth s.m.mc k (fun x => { x with remaps := rest }) } t.m)) ∧
    Answers (.logClear ag k) s (fun t => t.m.out = [.done .ok []] ∧ (∀ i < 16, t.m.fld F.MC_LOG_VALID k i = 0) ∧
      OnlyRegs ((List.range 16).map (F.MC_LOG_VALID.addr k))
        { s.m with mc := modNth s.m.mc k (fun x => { x with logOrder := List.range 16 }) } t.m)

/-- Training: each command starts its step on the masked channels while the controller is disabled, and is refused with ST_BUSY while it is
enabled; the step's end reports PASS and FAIL of those channels (09 R266, Tables 09.5, 09.9, 09.10).

Completion of: zqCalibration, commandAddressTraining, writeLeveling, readDqTraining, writeDqTraining, patternCheck, applyTrainingParam,
lpddrTrainingStepDone. -/
def Obligations.LpddrTraining : Prop :=
  ∀ r ∈ ([(.zqCalibration, 1), (.commandAddressTraining, 2), (.writeLeveling, 3), (.readDqTraining, 4), (.writeDqTraining, 5),
      (.patternCheck, 6), (.applyTrainingParam, 7)] : List ((Agent → Fin 24 → Fin 16 → Instr) × Nat)),
  ∀ (ag : Agent) (k : Fin 24) (mask pass : Fin 16) (pins : List (BitVec 16)) (s : State), regAgent ag = true →
    (s.m.fld F.MC_CTL_ENABLE k = 0 → s.m.fld F.MC_TRAIN_STATUS_BUSY k = 0 → Answers (r.1 ag k mask) s (fun t => t.m.out = [.done .ok []] ∧
      t.m.fld F.MC_TRAIN_STATUS_RESULT k = 0 ∧ t.m.fld F.MC_TRAIN_STATUS_BUSY k = 1 ∧ OnlyRegs [F.MC_TRAIN_STATUS_BUSY.addr k 0]
        { s.m with mc := modNth s.m.mc k (fun x => { x with training := some (r.2, mask.val) }) } t.m)) ∧
    (s.m.fld F.MC_CTL_ENABLE k = 1 → isCore ag = false → Answers (r.1 ag k mask) s (fun t => t.m.out = [.done .busy []] ∧
      t.m.fld F.MC_TRAIN_STATUS_RESULT k = 0x11 ∧ OnlyRegs [F.MC_TRAIN_STATUS_BUSY.addr k 0] s.m t.m)) ∧
    ((s.m.mcOf k).training = some (r.2, mask.val) → Answers (.lpddrTrainingStepDone k pass pins) s (fun t => t.m.out = [] ∧
      (t.m.mcOf k).training = none ∧ t.m.fld F.MC_TRAIN_STATUS_BUSY k = 0 ∧ t.m.fld F.MC_TRAIN_STATUS_PASS k = pass.val &&& mask.val ∧
      t.m.fld F.MC_TRAIN_STATUS_FAIL k = mask.val - (pass.val &&& mask.val) ∧
      (r.2 = 7 → OnlyRegs [F.MC_TRAIN_STATUS_BUSY.addr k 0]
        { s.m with mc := modNth s.m.mc k (fun x => { x with training := none }) } t.m)))

/-- The regulator: a tick advances the deadline counter and marks waiting STREAM requests late, a window sets every class's credit to
7 × its effective reservation, a queue level follows the fullest channel queue, and reservations of up to 204 are taken, larger ones
refused (10 R281, R282, R285-R287).

After capacity changes the regulator takes up the capacity and scale of every controller, and enters or leaves OVERSUBSCRIBED, with
event 0x0601 on entry and 0x0602, the misses between, on leaving (10 R289, R290).

Completion of: deadlineTick, reservationWindow, reservationWrite, queueLevelBroadcast, capacityRecompute. -/
def Obligations.RegulatorRuns : Prop :=
  (∀ (ag : Agent) (k : Fin 24) (data : Word) (s : State), regAgent ag = true →
      Answers .deadlineTick s (fun t => t.m.ticks = (s.m.ticks + 1) % 2 ^ 64 ∧ t.m.out = [] ∧
        (∀ c ∈ t.m.mc, ∀ z ∈ c.queues, ∀ w ∈ z, w.req.cls.val = 0 → t.m.slack w.deadline ≤ 0 → w.late = true) ∧
        OnlyRegs [F.REG_NOW_NOW.addr 0 0] { s.m with mc := t.m.mc, regul := { s.m.regul with acc := t.m.regul.acc } } t.m) ∧
      Answers (.reservationWindow k) s (fun t => t.m.out = [] ∧ OnlyRegs [] { s.m with mc := modNth s.m.mc k (fun x =>
        { x with credit := [7 * s.m.effRes k 0, 7 * s.m.effRes k 1, 7 * s.m.effRes k 2, 7 * s.m.effRes k 3, 7 * s.m.effRes k 4] }) } t.m) ∧
      (∀ n, n = ((List.range 4).map (s.m.chanLoad k)).foldl max 0 → Answers (.queueLevelBroadcast k) s (fun t => t.m.out = [] ∧
        OnlyRegs [] { s.m with mc := modNth s.m.mc k (fun x =>
          { x with level := if 116 ≤ n then 3 else if 96 ≤ n then 2 else if 64 ≤ n then 1 else 0 }) } t.m)) ∧
      (let sum := bits data.toNat 0 8 + bits data.toNat 8 8 + bits data.toNat 16 8 + bits data.toNat 24 8 + bits data.toNat 32 8
       (sum ≤ 204 → Answers (.reservationWrite ag k data) s (fun t => t.m.out = [.done .ok []] ∧ t.m.fld F.REG_STATUS_RESULT = 0 ∧
         (t.m.reg (F.REG_RES_STREAM.addr 0 k)).toNat = data.toNat % 2 ^ 40 ∧
         OnlyRegs [F.REG_STATUS_RESULT.addr 0 0, F.REG_RES_STREAM.addr 0 k] s.m t.m)) ∧
       (204 < sum → isCore ag = false → Answers (.reservationWrite ag k data) s (fun t => t.m.out = [.done .access []] ∧
         t.m.fld F.REG_STATUS_RESULT = 0x0D ∧ OnlyRegs [F.REG_STATUS_RESULT.addr 0 0] s.m t.m)))) ∧
  (∀ (s : State) (c : Nat × Nat) (cs : List (Nat × Nat)), s.m.regul.changes = c :: cs →
      let mask := maskOf ((List.range 24).filter (fun k => (s.m.capOf k).2.2))
      let takes := fun (t : State) => (∀ k < 24, t.m.fld F.REG_EFF_EFF 0 k = (s.m.capOf k).1 % 512 ∧
          t.m.fld F.REG_EFF_SCALE 0 k = (s.m.capOf k).2.1 % 2 ^ 17) ∧
        t.m.fld F.REG_STATUS_OVS_MASK = mask ∧ t.m.fld F.REG_STATUS_OVERSUB = (if mask = 0 then 0 else 1) ∧ t.m.regul.changes = []
      Answers .capacityRecompute s takes ∧
      (mask = 0 → s.m.fld F.REG_STATUS_OVERSUB = 0 → Answers .capacityRecompute s (fun t => t.m.out = [] ∧
        OnlyRegs (F.REG_STATUS_OVERSUB.addr 0 0 :: (List.range 24).map (F.REG_EFF_EFF.addr 0))
          { s.m with regul := { s.m.regul with changes := [] } } t.m)) ∧
      (mask ≠ 0 → s.m.fld F.REG_STATUS_OVERSUB = 0 → cs = [] → Answers .capacityRecompute s (fun t =>
        takes t ∧ t.m.regul.missed = [0, 0, 0, 0, 0] ∧ Raised t.m 0x0601 (d4 mask ++ d1 c.2 ++ d1 c.1))) ∧
      (mask = 0 → s.m.fld F.REG_STATUS_OVERSUB = 1 → Answers .capacityRecompute s (fun t =>
        takes t ∧ Raised t.m 0x0602 ((List.range 5).flatMap (fun i => dCount (nth s.m.regul.missed i 0))))))

/-! ## Coherence (11) and cores (16) -/

/-- A request for a line of the hub buffer that the directory does not hold is granted at once: RdS in E, RdX in M; an Upg of the one
sharer is granted M; a non-caching read, write or atomic is performed at the home (11 R296, R299, R300, R305, R307).

Completion of: rds, rdx, upg, ncRd, ncWr, ncAtom. -/
def Obligations.HomeServes : Prop :=
  ∀ (a : Fin 65) (line : Word) (off : Nat) (s : State), s.m.quiet = true → line.toNat = 0x400000000000 + off → off % 64 = 0 →
    off < 0x80000000 → s.m.bankState 16 (bankOf 16 off) = 0 → (s.m.sramOf 16).ywait = [] →
    (∀ i < 64, s.m.mem.parityBad (line.toNat + i) = false) → s.m.retry = [] → s.m.reqSrc = [] →
    let ln := line.toNat
    let data := s.m.mem.readAt ln 64
    let asks := fun (k : MsgKind) => s.m.net = [{ kind := k, src := some a, dst := none, line := ln }]
    let owned : DirEntry := { line := ln, proxy := false, owner := some (.agent a), agents := [], members := [], busy := none }
    let counted := fun (t : State) => t.m.fld F.DIR_COUNT_COUNT 0 0 = (s.m.fld F.DIR_COUNT_COUNT 0 0 + 1) % 2 ^ 64
    let grants := fun (msg : CohMsg) (t : State) => t.m.out = [] ∧ counted t ∧
      OnlyRegs [F.DIR_COUNT_COUNT.addr 0 0] { s.m with dir := [owned], net := [msg] } t.m
    let reply : CohMsg := { kind := .data, src := none, dst := some a, line := ln, data := data }
    (asks .rdS → s.m.dir = [] → Answers (.rds (.agent a) line) s (grants { reply with grant := .e })) ∧
    (asks .rdX → s.m.dir = [] → Answers (.rdx (.agent a) line) s (grants { reply with grant := .m })) ∧
    (asks .upg → s.m.dir = [{ owned with owner := none, agents := [a] }] →
      Answers (.upg (.agent a) line) s (grants { kind := .grantM, src := none, dst := some a, line := ln })) ∧
    (∀ (q : Fin 4) (seq key i n : Nat) (ag : Agent) (d : List (Option Byte)) (x : AtomOp) (addr : Word), s.m.dir = [] → i + n ≤ 64 → 1 ≤ n →
      addr.toNat = ln + i → d.length = n →
      let src := Src.op q seq key
      let got := s.m.mem.readAt (ln + i) n
      Answers (.ncRd src ag addr n) s (fun t => t.m.out = [.compl src .ok got] ∧ OnlyRegs []
        { s.m with opDone := s.m.opDone ++ [(q.val, seq, key, .ok, got)] } t.m) ∧
      Answers (.ncWr src ag addr d none) s (fun t => t.m.out = [] ∧ t.m.ncAcks = s.m.ncAcks ++ [(src, .ok, [])] ∧
        SameRest { s.m with ncAcks := t.m.ncAcks } t.m ∧ SameRegsBut [] s.m t.m ∧
        (∀ j < n, t.m.mem.byte (ln + i + j) = (nth d j none).getD (s.m.mem.byte (ln + i + j))) ∧
        ∀ y, y < ln + i ∨ ln + i + n ≤ y → t.m.mem.byte y = s.m.mem.byte y) ∧
      (n = 8 → i % 8 = 0 → Answers (.ncAtom src ag addr x) s (fun t => t.m.out = [] ∧ t.m.ncAcks = s.m.ncAcks ++ [(src, .ok, got)] ∧
        t.m.mem.readAt (ln + i) 8 = toBytes 8 (atomResult x (ofBytes got)) ∧
        ∀ y, y < ln + i ∨ ln + i + 8 ≤ y → t.m.mem.byte y = s.m.mem.byte y)))

/-- An agent that holds a line answers a snoop from its state: RecallS leaves M in S, RecallI and Inv take the line away, dirty data
follows the answer. Data and GrantM complete the access that waits; a writeback ends with WbAck; a Push is taken where there is room; a
victim in M is written back; a parity error in the cache refetches a clean line and poisons a dirty one (11 R304, R306, R309,
Table 11.4; 18 R471).

A Push to an agent that does not hold the line is taken in E when there is room, else dropped (11 R304).

Completion of: lineReplacement, recallS, recallI, inv, wbAck, grantM, data, push, cacheParityError. -/
def Obligations.AgentsAnswer : Prop :=
  (∀ (a : Fin 65) (line : Word) (l : Line) (msg : CohMsg) (s : State), s.m.quiet = true → s.m.lines = [l] → l.agent = a.val →
      l.addr = line.toNat → s.m.net = [msg] → msg.line = line.toNat → msg.dst = some a →
      let home : MsgKind → CohMsg := fun k => { kind := k, src := some a, dst := none, line := line.toNat }
      let leaves := fun (ls : List Line) (net : List CohMsg) (t : State) => t.m.out = [] ∧ OnlyRegs [] { s.m with lines := ls, net := net } t.m
      let dirty := { home .recallData with data := l.data, poison := l.poison }
      (msg.kind = .recallS → l.st = .m → Answers (.recallS (some a) line) s (leaves [{ l with st := .s, l1 := none }]
        [home (.recallAck .dirtyFollows), dirty])) ∧
      (msg.kind = .recallS → l.st = .e → Answers (.recallS (some a) line) s (leaves [{ l with st := .s }] [home (.recallAck .clean)])) ∧
      (msg.kind = .recallI → l.st = .m → Answers (.recallI (some a) line) s (leaves [] [home (.recallAck .dirtyFollows), dirty])) ∧
      (msg.kind = .recallI → l.st = .wbPend → Answers (.recallI (some a) line) s (leaves [l] [home .wbPend])) ∧
      (msg.kind = .inv → l.st = .s → Answers (.inv (some a) line) s (leaves [] [home .invAck])) ∧
      (msg.kind = .wbAck → l.st = .wbPend → Answers (.wbAck a line) s (leaves [] [])) ∧
      (∀ (x : CoreAccess) (n : Nat) (d : List Byte) (g : Grant), msg.kind = .data → l.st = .isE → l.access = some x → l.snoop = none →
        x.op = .read n → msg.poison = false → Answers (.data (some a) line d g false) s (fun t =>
          t.m.out = [.core x.ag .ok ((msg.data.drop (x.addr % 64)).take n)] ∧
          OnlyRegs [] { s.m with lines := [{ l with st := msg.grant, data := msg.data, poison := false, access := none }], net := [] } t.m)) ∧
      (∀ (x : CoreAccess) (d : List Byte), msg.kind = .grantM → l.st = .sm → l.access = some x → l.snoop = none → x.op = .write (d.map some) →
        x.amo = none → l.poison = false → Answers (.grantM (some a) line) s (fun t => t.m.out = [.core x.ag .ok []] ∧
          OnlyRegs [] { s.m with net := [],
                                 lines := [{ l with st := .m, data := splice l.data (x.addr % 64) d, l1 := l1Of x.ag, access := none }] } t.m)) ∧
      (msg.kind = .push → l.st = .s → Answers (.push a line true) s (leaves [l] [home .pushDrop])) ∧
      (l.st = .e ∨ l.st = .s → Answers (.lineReplacement a line) s (leaves [] [msg])) ∧
      (l.st = .m → Answers (.lineReplacement a line) s (leaves [{ l with st := .wbPend }]
        [msg, { home .wbData with data := l.data, poison := l.poison }])) ∧
      (l.st = .s → Answers (.cacheParityError a line) s (fun t => Raised t.m 0x0E02 (d1 a ++ d8 line.toNat ++ d1 0) ∧
        RegsAndEvents [] { s.m with lines := [{ l with st := .isE, access := none }], net := [msg, home .rdS] } t.m)) ∧
      (l.st = .m → Answers (.cacheParityError a line) s (fun t => Raised t.m 0x0E02 (d1 a ++ d8 line.toNat ++ d1 1) ∧
        RegsAndEvents [] { s.m with lines := [{ l with poison := true }] } t.m))) ∧
  (∀ (a : Fin 65) (line : Word) (msg : CohMsg) (room : Bool) (s : State), s.m.quiet = true → s.m.lines = [] → s.m.net = [msg] →
      msg.kind = .push → msg.line = line.toNat → msg.dst = some a → Answers (.push a line room) s (fun t => t.m.out = [] ∧
        OnlyRegs [] { s.m with
          lines := if room then [{ agent := a.val, addr := line.toNat, st := .e, data := msg.data, poison := msg.poison, access := none,
                                   snoop := none }] else [],
          net := [{ kind := if room then .pushAck else .pushDrop, src := some a, dst := none, line := line.toNat }] } t.m))

/-- Answers at the directory, for the transaction that evicts a line: acknowledgements and data end it, dirty data is awaited and written
home, a writeback is acknowledged; a Push's answer makes its target owner or frees the entry, and is counted; an NcAck ends its request; a
waiting request of a free line is served; remote coherence drains and ends (11 R297-R299, R304, R305, R308, R309, R312).

Completion of: invAck, recallAck, wbPend, recallData, wbData, pushAck, pushDrop, ncAck, retryQueueRelease, remoteEnClear,
proxyDrainComplete. -/
def Obligations.DirectoryAnswers : Prop :=
  ∀ (ag : Agent) (a : Fin 65) (line : Word) (off : Nat) (d : List Byte) (e : DirEntry) (msg : CohMsg) (s : State), s.m.quiet = true →
    line.toNat = 0x400000000000 + off → off % 64 = 0 → off < 0x80000000 → s.m.bankState 16 (bankOf 16 off) = 0 →
    (s.m.sramOf 16).ywait = [] → s.m.dir = [e] → e.line = line.toNat → e.members = [] → e.agents = [] → e.owner = some (.agent a) →
    s.m.net = [msg] → msg.src = some a → msg.line = line.toNat → msg.data.length = 64 → msg.poison = false →
    s.m.stale = [] → s.m.reqSrc = [] →
    let waits := fun (await data : List Holder) (push : Option Nat) => e.busy = some { req := .evict, await := await, data := data, push := push }
    let leaves := fun (es : List DirEntry) (t : State) => t.m.out = [] ∧ OnlyRegs [] { s.m with dir := es, net := [] } t.m
    let busy := fun (await data : List Holder) => { e with busy := some { req := .evict, await := await, data := data, push := none } }
    let written := fun (net : List CohMsg) (t : State) => t.m.out = [] ∧ t.m.mem.readAt line.toNat 64 = msg.data ∧
      SameRest { s.m with dir := [], net := net } t.m ∧ SameRegsBut [] s.m t.m ∧
      ∀ y, y < line.toNat ∨ line.toNat + 64 ≤ y → t.m.mem.byte y = s.m.mem.byte y
    let counts := fun (i : Nat) (es : List DirEntry) (t : State) => t.m.out = [] ∧
      t.m.fld F.DIR_COUNT_COUNT 0 i = (s.m.fld F.DIR_COUNT_COUNT 0 i + 1) % 2 ^ 64 ∧
      OnlyRegs [F.DIR_COUNT_COUNT.addr 0 i] { s.m with dir := es, net := [] } t.m
    (msg.kind = .invAck → waits [.agent a] [] none → Answers (.invAck (.agent a) line) s (leaves [])) ∧
    (msg.kind = .recallAck .clean → waits [.agent a] [] none → Answers (.recallAck (.agent a) line .clean) s (leaves [])) ∧
    (msg.kind = .recallAck .dirtyFollows → waits [.agent a] [] none → Answers (.recallAck (.agent a) line .dirtyFollows) s
      (leaves [{ busy [] [.agent a] with owner := none }])) ∧
    (msg.kind = .wbPend → waits [.agent a] [] none → Answers (.wbPend (.agent a) line) s (leaves [busy [] [.agent a]])) ∧
    (msg.kind = .recallData → waits [] [.agent a] none → Answers (.recallData (.agent a) line d false) s (written [])) ∧
    (msg.kind = .wbData → waits [] [.agent a] none → Answers (.wbData (.agent a) line d false) s
      (written [{ kind := .wbAck, src := none, dst := some a, line := line.toNat }])) ∧
    (msg.kind = .pushAck → waits [] [] (some a.val) → Answers (.pushAck a line) s
      (counts 3 [{ e with owner := some (.agent a), busy := none }])) ∧
    (msg.kind = .pushDrop → waits [] [] (some a.val) → Answers (.pushDrop a line) s (counts 4 [])) ∧
    (∀ (q : Fin 4) (seq key : Nat) (st : Status) (x : List Byte), s.m.ncAcks = [(.op q seq key, st, x)] →
      Answers (.ncAck (.op q seq key)) s (fun t => t.m.out = [.compl (.op q seq key) st x] ∧
        OnlyRegs [] { s.m with ncAcks := [], opDone := s.m.opDone ++ [(q.val, seq, key, st, x)] } t.m)) ∧
    (∀ h : Fin 65, e.busy = none → e.proxy = false → h = a → s.m.retry = [(line.toNat, .upg (.agent h))] → (∀ i < 64, s.m.mem.parityBad (line.toNat + i) = false) →
      Answers (.retryQueueRelease line) s (fun t => t.m.retry = [] ∧ t.m.dir = [e] ∧
        t.m.net = [msg, { kind := .data, src := none, dst := some a, line := line.toNat, data := s.m.mem.readAt line.toNat 64, grant := .m }])) ∧
    (regAgent ag = true → e.proxy = false → s.m.fld F.DIR_CTL_REMOTE_EN = 1 → Answers (.remoteEnClear ag) s (fun t =>
      t.m.out = [.done .ok []] ∧ t.m.fld F.DIR_STATUS_DRAINING = 1 ∧ OnlyRegs [F.DIR_STATUS_DRAINING.addr 0 0] s.m t.m)) ∧
    (e.proxy = false → Answers .proxyDrainComplete { s with m := s.m.setFld F.DIR_STATUS_DRAINING 1 } (fun t => t.m.out = [] ∧
      t.m.fld F.DIR_STATUS_DRAINING = 0 ∧ t.m.fld F.DIR_CTL_REMOTE_EN = 0 ∧
      OnlyRegs [F.DIR_STATUS_DRAINING.addr 0 0, F.DIR_CTL_REMOTE_EN.addr 0 0] s.m t.m))

/-- A core's access: loads and fetches take the bytes of a line they may use, stores and AMOs leave it in M; a line that is missing, or
shared when it must be written, is asked of its home; an access across lines raises the misaligned exception (11 R294, R306, Table 11.4;
16 R420; the exception is the model's choice, log entry 60).

Completion of: coreLoad, coreStore, coreInstructionFetch, coreAmo. -/
def Obligations.CoreAccesses : Prop :=
  ∀ (ag : Agent) (c : Fin 65) (addr : Word) (line n : Nat) (l : Line) (d : List Byte) (fn : AmoFn) (x : Word) (s : State), s.m.quiet = true →
    cacheOf ag = some c → s.m.cacheLine addr.toNat = some line → 1 ≤ n → addr.toNat % 64 + n ≤ 64 → d.length = n →
    let off := addr.toNat % 64
    let read := fun (i : Instr) => Answers i s (fun t => t.m.out = [.core ag .ok ((l.data.drop off).take n)] ∧ OnlyRegs [] s.m t.m)
    let becomes := fun (data out : List Byte) (t : State) => t.m.out = [.core ag .ok out] ∧
      OnlyRegs [] { s.m with lines := [{ l with st := .m, data := splice l.data off data, l1 := l1Of ag }] } t.m
    let asks := fun (kind : Nat) (st : LState) (k : MsgKind) (op : MemOp) (t : State) => t.m.out = [] ∧
      OnlyRegs [] { s.m with
        lines := [{ agent := c.val, addr := line, st := st, data := [], poison := false, snoop := none,
                    access := some { ag := ag, kind := kind, addr := addr.toNat, op := op } }],
        net := s.m.net ++ [{ kind := k, src := some c, dst := none, line := line }] } t.m
    (s.m.lines = [l] → l.agent = c.val → l.addr = line → l.poison = false → l.st = .e ∨ l.st = .m →
      read (.coreLoad ag addr n) ∧ read (.coreInstructionFetch ag addr n) ∧
      Answers (.coreStore ag addr d) s (becomes d []) ∧
      (n = 4 ∨ n = 8 → addr.toNat % n = 0 → Answers (.coreAmo ag addr n fn x) s (becomes
        (toBytes n (amoResult fn n (ofBytes ((l.data.drop off).take n)) x.toNat)) ((l.data.drop off).take n)))) ∧
    (s.m.lines = [] → Answers (.coreLoad ag addr n) s (asks 1 .isE .rdS (.read n)) ∧
      Answers (.coreStore ag addr d) s (asks 3 .im .rdX (.write (d.map some)))) ∧
    (∀ k, 64 < off + k → Answers (.coreLoad ag addr k) s (fun t => t.m.out = [.exception ag 4 addr.toNat] ∧ OnlyRegs [] s.m t.m))

/-! ## Packets (12) -/

/-- Requests of another member for on-chip memory are performed and answered, each by one response through the port that routing chooses:
reads return the bytes, writes and atomics change the bytes they name and no others; MRD and MWR do so for the domain manager
(12 R319, R336-R338, Table 12.4).

Completion of: rd64, rdn, wr64, wrm, atom, bulkr, bulkw, mrd, mwr. -/
def Obligations.RequestsAnswered : Prop :=
  ∀ (port q : Fin 10) (p : Packet) (arr : Fin 16) (off n : Nat) (s : State), s.m.quiet = true → s.m.fld F.FAB_ROLE_STATE = 2 →
    p.dst.val = s.m.fld F.FAB_NODE_ID → s.m.dir = [] → s.m.retry = [] → s.m.reqSrc = [] → p.addr = sramBase arr + off → off + n ≤ sramSize arr → s.m.portSlate arr = false →
    (s.m.sramOf arr).ywait = [] → (∀ b < 1024, s.m.bankState arr b = 0) → (∀ i < n, s.m.mem.parityBad (p.addr + i) = false) →
    let goes := fun (ty : BitVec 8) (c : Instr) (data : List Byte) (lines : Bool) (P : State → Prop) =>
      ∀ x, x = mkPacket (if lines then 3 else 2) (if lines then 0x41 else 0x40) p.src.val p.dst.val p.tag.val 0 (data.take 64) (data.drop 64) →
        s.m.takes port { p with ty := ty } → s.m.leaves none q x → Answers c s (fun t => t.m.out = [.packet q (s.m.asSent none q x)] ∧
          (∀ k < 2, t.m.fld F.FAB_COUNT_COUNT 0 k = (s.m.fld F.FAB_COUNT_COUNT 0 k + 1) % 2 ^ 64) ∧
          t.m.fld F.LANE_COUNT_COUNT q 0 = (s.m.fld F.LANE_COUNT_COUNT q 0 + 1 + x.len.toNat) % 2 ^ 64 ∧
          SameRest { s.m with lanes := (s.m.freeFlits port p).lanesAfter none q x, fresh := t.m.fresh } t.m ∧
          SameRegsBut [F.FAB_COUNT_COUNT.addr 0 0, F.FAB_COUNT_COUNT.addr 0 1, F.LANE_COUNT_COUNT.addr q 0] s.m t.m ∧ P t)
    let bytes := s.m.mem.readAt p.addr n
    let keeps := fun (t : State) => SameMem s.m t.m
    let stores := fun (f : Nat → Byte) (t : State) => (∀ i < n, t.m.mem.byte (p.addr + i) = f i) ∧
      ∀ a, a < p.addr ∨ p.addr + n ≤ a → t.m.mem.byte a = s.m.mem.byte a
    (n = 64 → goes 0x01 (.rd64 port p) bytes true keeps) ∧
    (n = 2 ^ p.byteAt 0x18 → goes 0x02 (.rdn port p) bytes false keeps) ∧
    (n = 64 * p.byteAt 0x19 → goes 0x06 (.bulkr port p) bytes true keeps) ∧
    (n = 64 → goes 0x03 (.wr64 port p) [] false (stores (fun i => nth p.body i 0))) ∧
    (n = 64 → goes 0x04 (.wrm port p) [] false
      (stores (fun i => if bit (p.word 8) i then nth p.body i 0 else s.m.mem.byte (p.addr + i)))) ∧
    (n = 64 * p.byteAt 0x19 → goes 0x07 (.bulkw port p) [] false (stores (fun i => nth p.body i 0))) ∧
    (n = 8 → off % 8 = 0 → goes 0x05 (.atom port p) bytes false
      (stores (fun i => nth (toBytes 8 (atomResult (packetAtom p) (ofBytes bytes))) i 0)) ∧
    (n = 8 → off % 8 = 0 → p.src.val = s.m.fld F.FAB_ROLE_MANAGER → goes 0x60 (.mrd port p) bytes false keeps ∧
      goes 0x61 (.mwr port p) [] false (stores (fun i => nth (toBytes 8 (p.word 8)) i 0))))

/-- A packet for another node goes on through the port that its route chooses, with HOPS one less; at HOPS 1 it is discarded as
violation 5 (12 R328, R329, R331).

A packet that breaks a rule is counted and logged, with event 0x0808 for the first of its code; one outside every rule's reach, through
a port that is not ACTIVE or not let in by the membership state, changes no memory and sends nothing (12 R321, R354, Table 12.7).

Completion of: packetForward. -/
def Obligations.PacketsPass : Prop :=
  (∀ (port q : Fin 10) (p : Packet) (s : State), s.m.quiet = true → s.m.takes port p → p.dst.val ≠ s.m.fld F.FAB_NODE_ID → p.vc.val ≠ 4 →
      p.ty ≠ 0x62 → s.m.fenced p.dst.val = false →
      let x := { p with hops := p.hops - 1 }
      (p.srcrt = false → 1 < p.hops.toNat → s.m.leaves (some port.val) q x → Answers (.packetForward port p) s (fun t =>
        t.m.out = [.packet q (s.m.asSent (some port.val) q x)] ∧
        t.m.fld F.FAB_COUNT_COUNT 0 2 = (s.m.fld F.FAB_COUNT_COUNT 0 2 + 1) % 2 ^ 64 ∧
        OnlyRegs [F.FAB_COUNT_COUNT.addr 0 2, F.LANE_COUNT_COUNT.addr q 0]
          { s.m with lanes := (s.m.freeFlits port p).lanesAfter (some port.val) q x } t.m)) ∧
      (p.srcrt = true → 1 < p.hops.toNat → p.pathEntry p.pathPos = q.val → s.m.hasRoom (some port.val) q x →
        Answers (.packetForward port p) s (fun t => ∃ y, t.m.out = [.packet q y] ∧ y.pathPos = (p.pathPos + 255) % 256 ∧
          y.dst = p.dst ∧ y.hops = p.hops - 1 ∧ y.body = p.body)) ∧
      (p.hops.toNat ≤ 1 → Answers (.packetForward port p) s (fun t =>
        t.m.fld F.FAB_COUNT_COUNT 0 5 = (s.m.fld F.FAB_COUNT_COUNT 0 5 + 1) % 2 ^ 64 ∧ t.m.fld F.FAB_VIOL_LOG_CODE = 5 ∧
        ∀ (j : Fin 10) (y : Packet), .packet j y ∉ t.m.out))) ∧
  (∀ (port : Fin 10) (p : Packet) (code : Nat) (s : State), s.m.quiet = true →
      let arrives := fun (P : State → Prop) => Answers (.packetForward port p) s P
      (s.m.laneState port = 6 → s.m.accepts p = true → s.m.violationOf port p = some code → code ≠ 2 → arrives (fun t =>
        t.m.fld F.FAB_COUNT_COUNT 0 3 = (s.m.fld F.FAB_COUNT_COUNT 0 3 + 1) % 2 ^ 64 ∧ t.m.fld F.FAB_VIOL_LOG_VALID = 1 ∧
        t.m.fld F.FAB_VIOL_LOG_CODE = code ∧ t.m.fld F.FAB_VIOL_LOG_PORT = port.val ∧ t.m.fld F.FAB_VIOL_LOG_SRC = p.src.val ∧
        t.m.fld F.FAB_VIOL_LOG_TYPE = p.ty.toNat ∧
        (bit s.m.fab.violSeen code = false → ∃ d, Raised t.m 0x0808 d) ∧
        RegsAndEvents [F.FAB_COUNT_COUNT.addr 0 3, F.FAB_VIOL_LOG_CODE.addr 0 0]
          { s.m with lanes := (s.m.freeFlits port p).lanes, fab := { s.m.fab with violSeen := t.m.fab.violSeen } } t.m)) ∧
      (s.m.laneState port ≠ 6 → arrives (fun t => t.m.out = [] ∧ OnlyRegs [] s.m t.m)) ∧
      (s.m.laneState port = 6 → s.m.accepts p = false → arrives (fun t => t.m.out = [] ∧
        OnlyRegs [] { s.m with lanes := (s.m.freeFlits port p).lanes } t.m)))

/-- A doorbell adds to its flag. REDC, READY and CREDIT for a collective that has not started here are kept for it. Each is answered ST_OK. A
broadcast write is written where its tree has LOCAL (05 R157; 12 R339, R341-R344).

What a Saffron pass does to its session: PASS counts up, the session number never falls, a unit known in a session stays known, and the
state that follows says whether units are missing (16 R429).

Completion of: dbell, redc, collReady, collCredit, bcw. -/
def Obligations.DoorbellsAndCollectives : Prop :=
  (∀ (port q : Fin 10) (p : Packet) (f : CollFields) (s : State), s.m.quiet = true → s.m.fld F.FAB_ROLE_STATE = 2 →
      p.dst.val = s.m.fld F.FAB_NODE_ID →
      let x := mkPacket 2 0x40 p.src.val p.dst.val p.tag.val 0 [] []
      let goes := fun (p' : Packet) (c : Instr) (as : List Nat) (m : Mod → Mod → Mod) (P : State → Prop) => s.m.takes port p' → s.m.leaves none q x →
        Answers c s (fun t => t.m.out = [.packet q (s.m.asSent none q x)] ∧
          OnlyRegs (as ++ [F.FAB_COUNT_COUNT.addr 0 0, F.FAB_COUNT_COUNT.addr 0 1, F.LANE_COUNT_COUNT.addr q 0])
            (m t.m { s.m with lanes := (s.m.freeFlits port p').lanesAfter none q x }) t.m ∧ P t)
      let flag := leAt p.head 0x20 2
      (flag < 1023 → leAt p.head 0x24 4 ≠ 0 → goes { p with ty := 0x08 } (.dbell port p) [F.HUB_FLAG_VALUE.addr 0 flag]
        (fun t m => { m with ctxs := t.ctxs }) (fun t => t.m.flag flag = (s.m.flag flag + leAt p.head 0x24 4) % 2 ^ 32)) ∧
      (p.coll = some f → s.m.collOf f.id = none →
        (f.opcode ≠ 0x82 → goes { p with ty := 0x09 } (.redc port p) []
          (fun _ m => { m with fab := { m.fab with
            early := m.fab.early ++ [(f, p.src.val)], contributions := m.fab.contributions ++ [{ id := f.id, rank := f.rank, data := p.body }] } })
          (fun _ => True)) ∧
        goes { p with ty := 0x0A, len := 1, body := padTo 64 p.body } (.collReady port p) []
          (fun _ m => { m with fab := { m.fab with readies := m.fab.readies ++ [{ fields := f, node := p.src.val, desc := padTo 64 p.body }] } })
          (fun _ => True) ∧
        goes { p with ty := 0x0A, len := 0, body := [] } (.collCredit port p) []
          (fun _ m => { m with fab := { m.fab with
            early := m.fab.early ++ [(f, p.src.val)], credits := m.fab.credits ++ [(f.id, f.rank, 0x40000)] } }) (fun _ => True)) ∧
      (∀ (arr : Fin 16) (off : Nat), s.m.takes port { p with ty := 0x70 } → p.vc.val = 4 → p.hops.toNat = 1 → s.m.dir = [] → s.m.retry = [] → s.m.reqSrc = [] →
        p.addr = sramBase arr + off →
        off + 64 * p.len.toNat ≤ sramSize arr → s.m.portSlate arr = false → (s.m.sramOf arr).ywait = [] →
        (∀ b < 1024, s.m.bankState arr b = 0) → s.m.fld F.FAB_TREE_LOCAL 0 (p.byteAt 0x1A) = 1 → Answers (.bcw port p) s (fun t =>
          t.m.out = [] ∧ (∀ i < 64 * p.len.toNat, t.m.mem.byte (p.addr + i) = nth p.body i 0) ∧
          (∀ a, a < p.addr ∨ p.addr + 64 * p.len.toNat ≤ a → t.m.mem.byte a = s.m.mem.byte a) ∧
          SameRest { s.m with lanes := (s.m.freeFlits port p).lanes } t.m ∧ SameRegsBut [F.FAB_COUNT_COUNT.addr 0 1] s.m t.m))) ∧
  (∀ (m : Mod) (b : Nat) (s : Saffron), (m.saffronPass b s).pass = (s.pass + 1) % 256 ∧ s.session ≤ (m.saffronPass b s).session ∧
      ((m.saffronPass b s).session = s.session → ∀ u, bit s.bitmap u = true → bit (m.saffronPass b s).bitmap u = true) ∧
      ((m.saffronPass b s).missing ≠ s.missing → ((m.saffronPass b s).missing = 0 ↔ (m.saffronPass b s).state ≠ 1)))

/-- A response ends the request that its tag names and gives it the status and the data; the response of a request that has already ended
frees its number; a request whose timer runs out ends with ST_TIMEOUT and keeps its number in quarantine until that ends too
(12 R336, R346-R348).

Completion of: rsp, rspd, grtTimeout, quarantineExpiry. -/
def Obligations.ResponsesEndRequests : Prop :=
  ∀ (port : Fin 10) (p : Packet) (e : GrtEntry) (c : Fin 4) (seq key : Nat) (s : State), s.m.quiet = true → s.m.fab.grt = [e] →
    e.src = .op c seq key → (p.ty = 0x40 ∨ p.ty = 0x41) →
    let i : Instr := if p.ty = 0x40 then .rsp port p else .rspd port p
    let st := statusOf p.status.toNat
    let data := (p.head ++ p.body).take (if p.ty = 0x40 then 32 else 4096)
    (s.m.takes port p → p.dst.val = s.m.fld F.FAB_NODE_ID → e.idx = p.tag.val → e.node = p.src.val →
      (e.quarantined = false → Answers i s (fun t => t.m.out = [.compl e.src st data] ∧ OnlyRegs [F.FAB_COUNT_COUNT.addr 0 1]
        { s.m with lanes := (s.m.freeFlits port p).lanes, fab := { s.m.fab with grt := [] },
                   opDone := s.m.opDone ++ [(c.val, seq, key, st, data)] } t.m)) ∧
      (e.quarantined = true → Answers i s (fun t => t.m.out = [] ∧
        t.m.fld F.FAB_COUNT_COUNT 0 4 = (s.m.fld F.FAB_COUNT_COUNT 0 4 + 1) % 2 ^ 64 ∧
        OnlyRegs [F.FAB_COUNT_COUNT.addr 0 1, F.FAB_COUNT_COUNT.addr 0 4]
          { s.m with lanes := (s.m.freeFlits port p).lanes, fab := { s.m.fab with grt := [] } } t.m))) ∧
    (∀ (idx : Fin 65536) (r : Nat), e.idx = idx.val → e.port = some r → e.quarantined = false → s.m.portHeld r = false →
      Answers (.grtTimeout idx) s (fun t => t.m.out = [.compl e.src .timeout []] ∧
        t.m.fld F.FAB_COUNT_COUNT 0 6 = (s.m.fld F.FAB_COUNT_COUNT 0 6 + 1) % 2 ^ 64 ∧ OnlyRegs [F.FAB_COUNT_COUNT.addr 0 6]
        { s.m with fab := { s.m.fab with grt := [{ e with quarantined := true, waiting := none, held := false }] },
                   opDone := s.m.opDone ++ [(c.val, seq, key, .timeout, [])] } t.m)) ∧
    (∀ idx : Fin 65536, e.idx = idx.val → e.quarantined = true → Answers (.quarantineExpiry idx) s (fun t => t.m.out = [] ∧
      OnlyRegs [] { s.m with fab := { s.m.fab with grt := [] } } t.m))

/-- Membership. ENABLE makes a manager JOINED and a worker JOINING, and needs a locked node ID; JOIN goes out again on the ACTIVE port; the manager
enters a joiner into its map, answers it with a provisional JOIN_ACK and writes the tables of the members; when the last of these writes
has completed it confirms the join, with event 0x0804; JOIN_ACK with ST_OK makes the joiner JOINED, with ST_BUSY provisional, with ST_ACCESS
ISOLATED; ENABLE 0 isolates (12 R320-R322, Table 12.1).

Completion of: rsp, join, joinAck, fabricEnable, fabricDisable, joinRepeat. -/
def Obligations.MembershipJoins : Prop :=
  ∀ (ag : Agent) (port : Fin 10) (p : Packet) (s : State), s.m.quiet = true → s.m.fab.grt = [] → s.m.lines = [] → s.m.dir = [] →
    s.m.net = [] → s.m.retry = [] →
    let me := s.m.fld F.FAB_NODE_ID
    let role := [F.FAB_ROLE_ROLE.addr 0 0]
    let state := fun (t : State) => t.m.fld F.FAB_ROLE_STATE
    let ctl := F.FAB_CTL_ENABLE.addr 0 0
    (regAgent ag = true →
      (s.m.fld F.FAB_NODE_LOCK = 1 → state s = 0 → s.m.fab.domainMap = [] → s.m.fab.peers = [] → s.m.fld F.FAB_ROLE_ROLE = 2 → Answers (.fabricEnable ag) s (fun t =>
        t.m.out = [.done .ok []] ∧ state t = 2 ∧ t.m.fld F.FAB_CTL_ENABLE = 1 ∧
        OnlyRegs (ctl :: role) { s.m with fab := { s.m.fab with refused := false } } t.m)) ∧
      (s.m.fld F.FAB_NODE_LOCK = 1 → state s = 0 → (∀ q < 10, s.m.laneState q ≠ 6) → s.m.fld F.FAB_ROLE_ROLE = 1 →
        Answers (.fabricEnable ag) s (fun t => t.m.out = [.done .ok []] ∧ state t = 1 ∧ t.m.fld F.FAB_CTL_ENABLE = 1 ∧
          OnlyRegs (ctl :: role) { s.m with fab := { s.m.fab with refused := false, provisional := false } } t.m)) ∧
      (s.m.fld F.FAB_NODE_LOCK = 0 → isCore ag = false → Answers (.fabricEnable ag) s (fun t => t.m.out = [.done .access []] ∧
        OnlyRegs [] s.m t.m)) ∧
      (state s ≠ 0 → Answers (.fabricDisable ag) s (fun t => state t = 0 ∧ t.m.fld F.FAB_CTL_ENABLE = 0 ∧ .done .ok [] ∈ t.m.out ∧
        Raised t.m 0x0803 (d2 me) ∧ RegsAndEvents (ctl :: role) { s.m with fab := { s.m.fab with provisional := false } } t.m))) ∧
    (let x := mkPacket 5 0x62 0 me 0 0 [] []
     state s = 1 → (∀ q < 10, s.m.laneState q = 6 ↔ q = port.val) → s.m.fld F.FAB_PORT_DATELINE 0 port = 0 → s.m.hasRoom none port x →
      Answers .joinRepeat s (fun t => t.m.out = [.packet port x] ∧ OnlyRegs [F.FAB_COUNT_COUNT.addr 0 0, F.LANE_COUNT_COUNT.addr port 0]
        { s.m with lanes := s.m.lanesAfter none port x } t.m)) ∧
    (∀ st ∈ [Status.ok, Status.busy, Status.access], state s = 1 → s.m.takes port { p with ty := 0x63 } → p.dst.val = me → p.status = BitVec.ofNat 8 st.toNat →
      Answers (.joinAck port p) s (fun t => state t = (if st = .ok then 2 else if st = .busy then 1 else 0) ∧
        (st ≠ .access → t.m.fld F.FAB_ROLE_MANAGER = p.src.val ∧ t.m.out = []) ∧ (st = .access → Raised t.m 0x0806 (d2 me)) ∧
        t.m.fab = { s.m.fab with provisional := (if st = .ok then s.m.fab.provisional else st = .busy),
                                 refused := s.m.fab.refused || st = .access } ∧
        RegsAndEvents (F.FAB_COUNT_COUNT.addr 0 1 :: role) { s.m with lanes := (s.m.freeFlits port p).lanes, fab := t.m.fab } t.m)) ∧
    (let n := p.src.val
     s.m.takes port { p with ty := 0x62 } → state s = 2 → s.m.fld F.FAB_ROLE_ROLE = 2 → p.pathPos = 0 → n / 64 ≠ me / 64 → s.m.fenced n = false →
      (∀ e ∈ s.m.fab.domainMap, e.1 ≠ n) → port.val < s.m.lanes.length → s.m.fld F.LANE_STATUS_TX_ASLEEP port = 0 →
      (s.m.laneOf port).used = List.replicate 12 0 → (s.m.laneOf port).replay = [] →
      Answers (.join port p) s (fun t => t.m.fab.domainMap = s.m.fab.domainMap ++ [(n, [port.val])] ∧
        (∃ j ∈ t.m.fab.joins, j.node = n ∧ j.port = port.val ∧ 0 < j.left) ∧
        (∃ y, .packet port y ∈ t.m.out ∧ y.ty = 0x63 ∧ y.dst = p.src ∧ y.status = BitVec.ofNat 8 Status.busy.toNat) ∧
        RegsAndEvents ([F.FAB_COUNT_COUNT.addr 0 0, F.FAB_COUNT_COUNT.addr 0 1] ++ (List.range 10).map (fun k => F.LANE_COUNT_COUNT.addr k 0))
          { s.m with lanes := t.m.lanes, fab := t.m.fab } t.m)) ∧
    (∀ (e : GrtEntry) (x : Packet), e.src = .manager p.src 0 → e.idx = p.tag.val → e.node = p.src.val → e.quarantined = false → e.waiting = none →
      let f := { s.m.fab with grt := [e], joins := [{ node := p.src.val, port := port.val, packet := x, left := 1 }] }
      s.m.takes port { p with ty := 0x40 } → p.dst.val = me → state s = 2 → s.m.fenced p.src.val = false → port.val < s.m.lanes.length →
      s.m.fld F.LANE_STATUS_TX_ASLEEP port = 0 → (s.m.laneOf port).used = List.replicate 12 0 → (s.m.laneOf port).replay = [] →
      Answers (.rsp port p) { s with m := { s.m with fab := f } } (fun t => t.m.fab.joins = [] ∧ Raised t.m 0x0804 (d2 p.src.val) ∧
        (∃ y, .packet port y ∈ t.m.out ∧ y.ty = 0x63 ∧ y.dst = x.src ∧ y.status = BitVec.ofNat 8 Status.ok.toNat) ∧
        RegsAndEvents [F.FAB_COUNT_COUNT.addr 0 0, F.FAB_COUNT_COUNT.addr 0 1, F.LANE_COUNT_COUNT.addr port 0]
          { s.m with lanes := t.m.lanes, fab := { f with grt := [], joins := [] } } t.m))

/-- Losses. NODE_DOWN reaches the manager's list; a FENCE notice fences its node and an UNFENCE frees it, with their events; an event packet is
delivered here; an unanswered NODE_DOWN goes to the next module of the failover list; a confirmation answers the reporter, fences the node, or
makes this module the manager (12 R322, R323, R344, R350, R351, R353; 18 R463).

Completion of: nodeDown, fabricFence, unfence, eventPacket, nodeDownFailover, nodeDownConfirm. -/
def Obligations.MembershipLosses : Prop :=
  ∀ (port q : Fin 10) (p : Packet) (n : Fin 16384) (s : State), s.m.quiet = true → s.m.fab.grt = [] → s.m.lines = [] → s.m.dir = [] →
    s.m.net = [] → s.m.retry = [] →
    let me := s.m.fld F.FAB_NODE_ID
    let mgr := s.m.fld F.FAB_ROLE_ROLE = 2
    let fence := F.FAB_FENCE_FENCED.addr 0 (n.val / 64)
    let others := fun (t : State) => ∀ k < 16384, k ≠ n.val → t.m.fenced k = s.m.fenced k
    let taken := { s.m with lanes := (s.m.freeFlits port p).lanes }
    let sends := fun (c : Instr) (x : Packet) (f : Fab) => s.m.leaves none q x → Answers c s (fun t =>
      t.m.out = [.packet q (s.m.asSent none q x)] ∧ OnlyRegs [F.FAB_COUNT_COUNT.addr 0 0, F.LANE_COUNT_COUNT.addr q 0]
        { s.m with lanes := s.m.lanesAfter none q x, fab := f } t.m)
    (p.dst.val = me → p.vc.val = 5 →
      (leAt p.head 0 2 = n.val → mgr → s.m.takes port { p with ty := 0x64 } → Answers (.nodeDown port p) s (fun t => t.m.out = [] ∧
        OnlyRegs [F.FAB_COUNT_COUNT.addr 0 1] { taken with fab := { s.m.fab with confirming := s.m.fab.confirming ++ [(n.val, p.src.val)] } } t.m)) ∧
      (leAt p.head 0 2 = n.val → ¬mgr → n.val ≠ me → s.m.takes port { p with ty := 0x65 } → Answers (.fabricFence port p) s (fun t =>
        t.m.fenced n = true ∧ others t ∧ Raised t.m 0x0803 (d2 n) ∧
        RegsAndEvents [F.FAB_COUNT_COUNT.addr 0 1, fence] { taken with fab := { s.m.fab with reported := t.m.fab.reported } } t.m)) ∧
      (leAt p.head 0 2 = me → ¬mgr → s.m.fld F.FAB_ROLE_STATE = 2 → s.m.takes port { p with ty := 0x65 } → Answers (.fabricFence port p) s (fun t =>
        t.m.fld F.FAB_ROLE_STATE = 0 ∧ Raised t.m 0x0803 (d2 me))) ∧
      (leAt p.head 0 2 = n.val → ¬mgr → n ≠ p.src → s.m.takes port { p with ty := 0x66 } → Answers (.unfence port p) s (fun t =>
        t.m.fenced n = false ∧ others t ∧ Raised t.m 0x0804 (d2 n) ∧
        RegsAndEvents [F.FAB_COUNT_COUNT.addr 0 1, fence] { taken with fab := { s.m.fab with reported := t.m.fab.reported } } t.m)) ∧
      (s.m.takes port { p with ty := 0x67 } → Answers (.eventPacket port p) s (fun t =>
        (∃ r, t.m.out = [.event r] ∧ r.code = leAt p.body 0 2 ∧ r.flags = leAt p.body 2 2 ||| 1 ∧ r.seq = s.m.evSeq ∧
          r.node = leAt p.body 14 2 ∧ r.data = padTo 16 (p.body.drop 16)) ∧
        t.m.evSeq = (s.m.evSeq + 1) % 2 ^ 32 ∧ RegsAndEvents [F.FAB_COUNT_COUNT.addr 0 1] taken t.m))) ∧
    (∀ (dst : Nat) (next : Fin 16384) (rest : List Nat), s.m.fab.reported = [(n.val, dst)] → s.m.successors = next.val :: rest →
      ¬s.m.successors.contains dst → next.val ≠ me → sends (.nodeDownFailover n) (mkPacket 5 0x64 next me 0 0 (toBytes 2 n) [])
        { s.m.fab with reported := [(n.val, next.val)] }) ∧
    (∀ reporter : Fin 16384, s.m.fab.confirming = [(n.val, reporter.val)] →
      (reporter.val ≠ me → sends (.nodeDownConfirm n true) (mkPacket 5 0x66 reporter me 0 0 (toBytes 2 n) []) { s.m.fab with confirming := [] }) ∧
      (mgr → s.m.fld F.FAB_TREE_VALID 0 0 = 0 → s.m.fab.peers = [] → n.val ≠ me → Answers (.nodeDownConfirm n false) s (fun t =>
        t.m.fenced n = true ∧ others t ∧ Raised t.m 0x0803 (d2 n) ∧ RegsAndEvents [fence]
          { s.m with fab := { s.m.fab with confirming := [], reported := t.m.fab.reported } } t.m)) ∧
      (¬mgr → s.m.fld F.FAB_ROLE_MANAGER = n.val → n.val ≠ me → s.m.fab.domainMap = [] → Answers (.nodeDownConfirm n false) s (fun t =>
        t.m.fld F.FAB_ROLE_ROLE = 2 ∧ t.m.fld F.FAB_ROLE_MANAGER = me ∧ t.m.fenced n = true ∧ others t ∧
        Raised t.m 0x0805 (d2 n ++ d2 me))))

/-! ## Optical ports (13) -/

/-- Flits and control sequences of an ACTIVE port: the expected flit is accepted and counted, a bad one is answered by NAK; ACK frees the
replay buffer, NAK names the flit to resend, CRD frees credits, HBT and BAR are noted, a drain's answer ends it; the segment's block carries
what is due (13 R365-R369, R378, R379; 12 R335).

Completion of: flitReceived, ack, nak, nakResendTimeout, crd, hbt, heartbeatSend, bar, segmentBlock. -/
def Obligations.FlitsMove : Prop :=
  ∀ (port : Fin 10) (s : State), s.m.quiet = true → s.m.laneState port = 6 → port.val < s.m.lanes.length →
    let l := s.m.laneOf port
    let lanes := fun (l' : Lane) => modNth s.m.lanes port (fun _ => l')
    let count := fun (t : State) (i n : Nat) => t.m.fld F.LANE_COUNT_COUNT port i = (s.m.fld F.LANE_COUNT_COUNT port i + n) % 2 ^ 64
    let counts := fun (is : List Nat) => F.LANE_STATUS_STATE.addr port 0 :: is.map (F.LANE_COUNT_COUNT.addr port)
    let retry := fun (t : State) (b : Bool) => t.m.fld F.LANE_STATUS_RETRY port = b2n b
    let nak := fun (c : Instr) (as : List Nat) (P : State → Prop) => l.naksSent < 7 → Answers c s (fun t => t.m.out = [] ∧ count t 3 1 ∧ retry t true ∧
      OnlyRegs (counts as) { s.m with lanes := lanes { l with nakDue := true, discard := true, retryRx := some l.expect, naksSent := l.naksSent + 1 } } t.m ∧ P t)
    (∀ f : Flit, f.crcGood = true → f.violations = 0 → f.num.val = l.expect → f.kind.val = 0 → l.discard = false → l.openVc = [] → l.skipVc = [] →
      (modNth l.held (f.vc.val * 2 + b2n f.sub) (· + 1)).all (· ≤ 64) = true → Answers (.flitReceived port f) s (fun t => t.m.out = [] ∧ count t 1 1 ∧
        retry t l.retryTx.isSome ∧ OnlyRegs (counts [1, 6]) { s.m with lanes := lanes { l with
          expect := (l.expect + 1) % 4096, accepted := l.accepted + 1, ackDue := true, discard := false, naksSent := 0, retryRx := none,
          held := modNth l.held (f.vc.val * 2 + b2n f.sub) (· + 1) } } t.m)) ∧
    (∀ f : Flit, f.crcGood = false → l.discard = false → nak (.flitReceived port f) [2, 3, 6] (fun t => count t 2 1 ∧ count t 6 f.violations)) ∧
    (l.discard = true → nak (.nakResendTimeout port) [3] (fun _ => True)) ∧
    (∀ (n : Fin 4096) (x : Nat) (a b : List (Nat × Nat)), l.replay = a ++ (n.val, x) :: b → (∀ e ∈ a, e.1 ≠ n.val) → l.retryTx = none →
      Answers (.ack port n (bit (l.acked + a.length + 1) 12)) s (fun t => t.m.out = [] ∧ retry t l.retryRx.isSome ∧ OnlyRegs (counts [])
        { s.m with lanes := lanes { l with replay := b, acked := (l.acked + a.length + 1) % 8192, naksReceived := 0 } } t.m) ∧
      (l.naksReceived < 7 → Answers (.nak port n) s (fun t => t.m.out = [] ∧ count t 4 1 ∧ count t 0 (b.length + 1) ∧ retry t true ∧
        OnlyRegs (counts [0, 4]) { s.m with lanes := lanes { l with retryTx := some n.val, naksReceived := l.naksReceived + 1 } } t.m))) ∧
    (∀ (vc : Fin 8) (sub : Bool) (total : Fin 4096), let x := vc.val * 2 + b2n sub
      (vc.val ≤ 5 → Answers (.crd port vc sub total) s (fun t => t.m.out = [] ∧ OnlyRegs [] { s.m with lanes := lanes { l with
        used := modNth l.used x (fun u => u - (total.val + 4096 - nth l.txTotal x 0) % 4096),
        txTotal := modNth l.txTotal x (fun _ => total.val) } } t.m)) ∧
      (5 < vc.val → Answers (.crd port vc sub total) s (fun t => t.m.out = [] ∧ OnlyRegs [] s.m t.m))) ∧
    (∀ node : Fin 16384, Answers (.hbt port node) s (fun t => t.m.out = [] ∧
      OnlyRegs [] { s.m with lanes := lanes { l with lastHbt := some node.val } } t.m)) ∧
    (s.m.fld F.LANE_STATUS_TX_ASLEEP port = 0 → Answers (.heartbeatSend port) s (fun t => t.m.out = [] ∧
      OnlyRegs [] { s.m with lanes := lanes { l with hbtDue := true } } t.m)) ∧
    (l.held.all (· == 0) = true → Answers (.bar port false) s (fun t => t.m.out = [] ∧
      OnlyRegs [] { s.m with lanes := lanes { l with barDue := l.barDue ++ [true] } } t.m)) ∧
    (l.held.all (· == 0) = false → Answers (.bar port false) s (fun t => t.m.out = [] ∧
      OnlyRegs [] { s.m with lanes := lanes { l with barWait := some l.held } } t.m)) ∧
    (s.m.fab.draining.contains port.val = true → Answers (.bar port true) s (fun t => t.m.out = [] ∧ t.m.fld F.FAB_PORT_DRAINED 0 port = 1 ∧
      OnlyRegs [F.FAB_PORT_DRAINED.addr 0 port] s.m t.m)) ∧
    (s.m.fld F.LANE_STATUS_TX_ASLEEP port = 0 → l.blocks ≠ 15 → Answers (.segmentBlock port) s (fun t =>
      t.m.out = ((if l.nakDue then [Ctrl.nak l.expect] else []) ++
        (if l.ackDue then [Ctrl.ack ((l.expect + 4095) % 4096) (bit l.accepted 12)] else []) ++
        (if l.hbtDue then [Ctrl.hbt (s.m.fld F.FAB_NODE_ID)] else []) ++ l.barDue.map Ctrl.bar ++
        l.crdDue.map (fun x => Ctrl.crd (x / 2) (x % 2 == 1) (nth l.total x 0))).map (Out.control port) ∧
      OnlyRegs [] { s.m with lanes := lanes { l with nakDue := false, ackDue := false, hbtDue := false, barDue := [], crdDue := [],
                                                      blocks := (l.blocks + 1) % 16 } } t.m))

/-- A drain begins with a BAR request and ends when ROUTE_EN is written without DRAIN; a direction with nothing to send sleeps and wakes; a
partner's SLP puts the receiver to sleep (12 R335; 13 R380, R381).

Completion of: portDrain, drainEnd, slp, txSleepEntry, txWake, receiverWake. -/
def Obligations.PortsSleepAndDrain : Prop :=
  ∀ (ag : Agent) (port : Fin 10) (data : Word) (s : State), s.m.quiet = true → regAgent ag = true → port.val < s.m.lanes.length →
    let l := s.m.laneOf port
    let fp := F.FAB_PORT_ROUTE_EN.addr 0 port
    let status := F.LANE_STATUS_STATE.addr port 0
    let written := fun (t : State) (en : Nat) => t.m.out = [.done .ok []] ∧ t.m.fld F.FAB_PORT_ROUTE_EN 0 port = en ∧
      t.m.fld F.FAB_PORT_DIM 0 port = bits data.toNat 1 3 ∧ t.m.fld F.FAB_PORT_DATELINE 0 port = bits data.toNat 4 1
    (s.m.fab.draining.contains port.val = false → Answers (.portDrain ag port data) s (fun t => written t (bits data.toNat 0 1) ∧
      OnlyRegs [fp] { s.m with fab := { s.m.fab with draining := s.m.fab.draining ++ [port.val] },
                               lanes := modNth s.m.lanes port (fun l => { l with barDue := l.barDue ++ [false] }) } t.m)) ∧
    Answers (.drainEnd ag port data) s (fun t => written t 1 ∧ t.m.fld F.FAB_PORT_DRAINED 0 port = 0 ∧
      OnlyRegs [fp] { s.m with fab := { s.m.fab with draining := s.m.fab.draining.filter (· != port.val) } } t.m) ∧
    (s.m.fld F.LANE_SLEEP_AUTO port = 1 → s.m.laneState port = 6 → s.m.fld F.LANE_STATUS_TX_ASLEEP port = 0 → l.replay = [] → l.ackDue = false →
      l.nakDue = false → l.crdDue = [] → Answers (.txSleepEntry port) s (fun t => t.m.out = [.control port .slp] ∧
        t.m.fld F.LANE_STATUS_TX_ASLEEP port = 1 ∧ OnlyRegs [status] s.m t.m)) ∧
    Answers (.txWake port none) s (fun t => t.m.out = [] ∧ t.m.fld F.LANE_STATUS_TX_ASLEEP port = 0 ∧ OnlyRegs [status] s.m t.m) ∧
    Answers (.txWake port (some ag)) s (fun t => t.m.out = [.done .ok []] ∧ t.m.fld F.LANE_STATUS_TX_ASLEEP port = 0 ∧ OnlyRegs [status] s.m t.m) ∧
    (s.m.laneState port = 6 → Answers (.slp port) s (fun t => t.m.out = [] ∧ t.m.fld F.LANE_STATUS_RX_ASLEEP port = 1 ∧ OnlyRegs [status] s.m t.m)) ∧
    Answers (.receiverWake port) s (fun t => t.m.out = [] ∧ t.m.fld F.LANE_STATUS_RX_ASLEEP port = 0 ∧ OnlyRegs [status] s.m t.m)

/-- Training moves a port through its states: ENABLE sends the beacon, a partner's beacon starts TRAIN, the end of each stage leads to the
next while 8 lanes are left, the partner's record makes it ACTIVE with event 0x0901, and a failed attempt returns to DETECT with event
0x0902 or, the third time, ends with 0x0905 (13 R371-R376, Tables 13.5-13.7).

Completion of: portEnable, portDisable, partnerBeaconDetected, trainDone, laneSlip, slipDone, deskewDone, capabilityRecord, stageTimeout,
commaLocked. -/
def Obligations.PortsTrain : Prop :=
  ∀ (ag : Agent) (port : Fin 10) (lane : Fin 32) (s : State), s.m.quiet = true → regAgent ag = true → port.val < s.m.lanes.length →
    let st := s.m.laneState port
    let status := F.LANE_STATUS_STATE.addr port 0
    let ctl := F.LANE_CTL_ENABLE.addr port 0
    let enters := fun (n : Nat) (t : State) => t.m.laneState port = n
    let commas := (List.range 4).map (F.LANE_COMMA_POS.addr port)
    let comma := F.LANE_COMMA_POS.addr port (lane.val / 8)
    let left := fun (ex : Nat) => 8 ≤ popCount 32 ((s.m.modLane port (fun l => { l with excluded := l.excluded ||| ex })).usableLanes port)
    let excl := fun (ex : Nat) => { s.m with lanes := modNth s.m.lanes port (fun l => { l with excluded := l.excluded ||| ex }) }
    (st = 0 → s.m.laserOk = true → Answers (.portEnable ag port) s (fun t => enters 1 t ∧ t.m.fld F.LANE_CTL_ENABLE port = 1 ∧
      t.m.fld F.LANE_STATUS_ATTEMPTS port = 0 ∧ t.m.out = [.training port 1, .done .ok []] ∧ OnlyRegs [status, ctl] s.m t.m)) ∧
    (1 ≤ st → st ≤ 5 → s.m.fld F.LANE_STATUS_RETRAINING port = 0 → Answers (.portDisable ag port) s (fun t => enters 0 t ∧
      t.m.fld F.LANE_CTL_ENABLE port = 0 ∧ t.m.out = [.done .ok []] ∧
      OnlyRegs [status, ctl] { s.m with lanes := modNth s.m.lanes port (fun _ => {}) } t.m)) ∧
    (st = 1 → Answers (.partnerBeaconDetected port) s (fun t => enters 2 t ∧ t.m.out = [.training port 2] ∧
      (∀ i < 4, t.m.reg (F.LANE_COMMA_POS.addr port i) = 0) ∧ OnlyRegs (status :: commas)
        { s.m with lanes := modNth s.m.lanes port (fun l => { l with excluded := 0, peerSeen := false }) } t.m)) ∧
    (∀ pre main post : Fin 16, st = 2 → left 0 → Answers (.trainDone port [(lane, pre, main, post)]) s (fun t => enters 3 t ∧ t.m.out = [] ∧
      t.m.fld F.LANE_TAP_PRE port lane = pre.val ∧ t.m.fld F.LANE_TAP_MAIN port lane = main.val ∧ t.m.fld F.LANE_TAP_POST port lane = post.val ∧
      OnlyRegs [status, F.LANE_TAP_PRE.addr port lane] s.m t.m)) ∧
    (∀ (pos : Fin 40) (locked : Bool), st = 3 → Answers (.commaLocked port lane pos locked) s (fun t => t.m.out = [] ∧
      t.m.fld F.LANE_COMMA_POS port (lane.val / 8) (lane.val % 8) = pos.val ∧ t.m.fld F.LANE_COMMA_SEEN port (lane.val / 8) (lane.val % 8) = 1 ∧
      t.m.fld F.LANE_COMMA_LOCKED port (lane.val / 8) (lane.val % 8) = b2n (locked && pos.val % 10 == 0) ∧ OnlyRegs [comma] s.m t.m)) ∧
    (st = 3 → Answers (.laneSlip ag port lane) s (fun t => t.m.out = [.done .ok []] ∧
      t.m.fld F.LANE_COMMA_POS port (lane.val / 8) (lane.val % 8) = (s.m.fld F.LANE_COMMA_POS port (lane.val / 8) (lane.val % 8) + 39) % 40 ∧
      t.m.fld F.LANE_COMMA_LOCKED port (lane.val / 8) (lane.val % 8) = 0 ∧ OnlyRegs [comma] s.m t.m)) ∧
    (st = 3 → left (s.m.unlocked port) → Answers (.slipDone ag port) s (fun t => enters 4 t ∧ t.m.out = [.done .ok []] ∧
      OnlyRegs [status] (excl (s.m.unlocked port)) t.m)) ∧
    (∀ ex : BitVec 32, st = 4 → left ex.toNat → Answers (.deskewDone port ex) s (fun t => enters 5 t ∧ t.m.out = [.capability port (s.m.capRecord port 0 false)] ∧
      OnlyRegs [status] (excl ex.toNat) t.m)) ∧
    (∀ ex : BitVec 32, st = 2 → left ex.toNat → Answers (.stageTimeout port ex) s (fun t => enters 3 t ∧ t.m.out = [] ∧
      OnlyRegs [status] (excl ex.toNat) t.m)) ∧
    (∀ (r : CapRecord) (w tx : Nat), st = 5 → w = widthOf (popCount 32 (s.m.usableLanes port &&& r.txLit.toNat)) → 8 ≤ w → r.peerSeen = true →
      tx = widthOf (popCount 32 r.rxUse.toNat) → 8 ≤ tx → s.m.fld F.LANE_STATUS_RETRAINING port = 0 → s.m.fld F.FAB_CTL_ENABLE = 0 →
      let rx := maskOf ((bitsOf 32 (s.m.usableLanes port &&& r.txLit.toNat)).take w)
      Answers (.capabilityRecord port r) s (fun t => enters 6 t ∧ t.m.fld F.LANE_STATUS_TX_WIDTH port = tx ∧
        t.m.fld F.LANE_STATUS_RX_WIDTH port = w ∧ t.m.fld F.LANE_TX_MASK_USE port = r.rxUse.toNat ∧ t.m.fld F.LANE_RX_MASK_USE port = rx ∧
        t.m.fld F.FAB_PORT_PEER 0 port = r.node.val ∧ t.m.fld F.FAB_PORT_PEER_PORT 0 port = r.port.val ∧ t.m.fld F.FAB_PORT_PEER_VALID 0 port = 1 ∧
        .capability port (s.m.capRecord port rx true) ∈ t.m.out ∧ Raised t.m 0x0901 (d1 port ++ d2 r.node ++ d1 tx ++ d1 w ++ d4 rx) ∧
        RegsAndEvents [status, F.LANE_TX_MASK_USE.addr port 0, F.LANE_RX_MASK_USE.addr port 0, F.FAB_PORT_PEER.addr 0 port]
          { s.m with lanes := modNth s.m.lanes port (fun l => { l with peerSeen := true, txNext := r.rxNext.val }) } t.m)) ∧
    (∀ ex : BitVec 32, let n := s.m.fld F.LANE_STATUS_ATTEMPTS port + 1
      let fails := fun (m : Mod) => Raised m 0x0902 (d1 port ++ d1 (s.m.fld F.LANE_STATUS_CAUSE port) ++ d1 n ++ d1 5)
      st = 5 → s.m.fld F.LANE_STATUS_RETRAINING port = 0 →
        (n < 3 → Answers (.stageTimeout port ex) s (fun t => enters 1 t ∧ t.m.fld F.LANE_STATUS_ATTEMPTS port = n ∧ fails t.m ∧
          RegsAndEvents [status, F.LANE_RX_MASK_USABLE.addr port 0] s.m t.m)) ∧
        (n = 3 → Answers (.stageTimeout port ex) s (fun t => enters 8 t ∧ fails t.m ∧
          Raised t.m 0x0905 (d1 port ++ d1 5 ++ d4 (s.m.laneOf port).excluded) ∧
          RegsAndEvents [status, F.LANE_RX_MASK_USABLE.addr port 0] { s.m with lanes := modNth s.m.lanes port (fun _ => {}) } t.m)))

/-- An ACTIVE port that loses part of its light, receives training sets, misses heartbeats or is told to leaves for a retrain, with its cause and
event 0x0902; a port that is down says so with event 0x0801 and its cause, and a lost partner with no other port is fenced; DOWN ends in
DETECT or DISABLED after 100 µs (13 R371, R377, R378, R381, R382, Table 13.5; 12 R350).

Completion of: heartbeatTimeout, lossOfSignal, portDisable, retrainBudgetExpired, downDarkExpiry, trainingSetReceived, laneRetrain,
wakeTimeout, loopbackNone, loopbackNearSerial, loopbackNearParallel, loopbackFarEnd. -/
def Obligations.PortsRetrainAndFail : Prop :=
  ∀ (ag : Agent) (port : Fin 10) (s : State), s.m.quiet = true → regAgent ag = true → port.val < s.m.lanes.length → s.m.fab.grt = [] →
    let st := s.m.laneState port
    let status := F.LANE_STATUS_STATE.addr port 0
    let ctl := F.LANE_CTL_ENABLE.addr port 0
    let peer := s.m.fld F.FAB_PORT_PEER 0 port
    let commas := (List.range 4).map (F.LANE_COMMA_POS.addr port)
    let retrains := fun (c : Instr) (cause : Nat) => st = 6 → Answers c s (fun t => t.m.laneState port = 2 ∧
      t.m.fld F.LANE_STATUS_RETRAINING port = 1 ∧ t.m.fld F.LANE_STATUS_CAUSE port = cause ∧ t.m.fld F.LANE_STATUS_ATTEMPTS port = 0 ∧
      t.m.fld F.LANE_STATUS_TX_ASLEEP port = 0 ∧ t.m.fld F.LANE_STATUS_RX_ASLEEP port = 0 ∧
      t.m.fld F.LANE_COUNT_COUNT port 5 = (s.m.fld F.LANE_COUNT_COUNT port 5 + 1) % 2 ^ 64 ∧
      Raised t.m 0x0902 (d1 port ++ d1 cause ++ d1 0 ++ d1 2) ∧
      RegsAndEvents (status :: F.LANE_COUNT_COUNT.addr port 5 :: commas) { s.m with lanes := t.m.lanes } t.m ∧
      (t.m.laneOf port).replay = (s.m.laneOf port).replay ∧ (t.m.laneOf port).txNext = (s.m.laneOf port).txNext)
    let downs := fun (c : Instr) (cause state : Nat) => s.m.fld F.FAB_ROLE_STATE ≠ 2 → Answers c s (fun t => t.m.laneState port = state ∧
      t.m.fld F.LANE_STATUS_CAUSE port = cause ∧ t.m.fld F.LANE_STATUS_RETRAINING port = 0 ∧ t.m.fld F.LANE_STATUS_TX_WIDTH port = 0 ∧
      t.m.fld F.FAB_PORT_PEER_VALID 0 port = 0 ∧ Raised t.m 0x0801 (d1 port ++ d2 peer ++ d1 cause) ∧
      RegsAndEvents [status, ctl, F.FAB_PORT_PEER_VALID.addr 0 port] { s.m with lanes := modNth s.m.lanes port (fun _ => {}) } t.m)
    let other := ∃ r < 10, r ≠ port.val ∧ s.m.fld F.FAB_PORT_PEER_VALID 0 r = 1 ∧ s.m.fld F.FAB_PORT_PEER 0 r = peer ∧ s.m.laneState r = 6
    retrains (.trainingSetReceived port) 4 ∧ retrains (.laneRetrain ag port) 6 ∧
    (∀ mask : BitVec 32, s.m.fld F.LANE_STATUS_RX_ASLEEP port = 0 → mask.toNat &&& s.m.fld F.LANE_RX_MASK_USE port ≠ 0 →
      mask.toNat &&& s.m.fld F.LANE_RX_MASK_USE port ≠ s.m.fld F.LANE_RX_MASK_USE port → retrains (.lossOfSignal port mask) 1) ∧
    (s.m.fld F.LANE_STATUS_RX_ASLEEP port = 0 → retrains (.heartbeatTimeout port true) 5) ∧
    (s.m.fld F.LANE_STATUS_RX_ASLEEP port = 1 → retrains (.wakeTimeout port false) 1) ∧
    (s.m.fld F.LANE_STATUS_RX_ASLEEP port = 1 → st = 6 → downs (.wakeTimeout port true) 11 7) ∧
    (st = 6 → downs (.portDisable ag port) 6 0) ∧
    (s.m.fld F.LANE_STATUS_RX_ASLEEP port = 0 → st = 6 → other → downs (.heartbeatTimeout port false) 8 7) ∧
    (s.m.fld F.LANE_STATUS_RX_ASLEEP port = 0 → st = 6 → s.m.svcRun = none → s.m.fld F.FAB_ROLE_STATE ≠ 2 →
      (∀ r < 10, r ≠ port.val → s.m.fld F.FAB_PORT_PEER_VALID 0 r = 0) → Answers (.heartbeatTimeout port false) s (fun t =>
        t.m.laneState port = 7 ∧ Raised t.m 0x0801 (d1 port ++ d2 peer ++ d1 8) ∧ Raised t.m 0x0802 (d2 peer) ∧ t.m.fenced peer = true)) ∧
    (s.m.fld F.LANE_STATUS_RETRAINING port = 1 → downs (.retrainBudgetExpired port) 9 7) ∧
    (st = 7 → s.m.fld F.LANE_CTL_ENABLE port = 1 → s.m.laserOk = true → Answers (.downDarkExpiry port) s (fun t => t.m.laneState port = 1 ∧
      t.m.fld F.LANE_STATUS_ATTEMPTS port = 0 ∧ t.m.out = [.training port 1] ∧ OnlyRegs [status] s.m t.m)) ∧
    (st = 7 → s.m.fld F.LANE_CTL_ENABLE port = 0 → Answers (.downDarkExpiry port) s (fun t => t.m.laneState port = 0 ∧ t.m.out = [] ∧
      OnlyRegs [status] { s.m with lanes := modNth s.m.lanes port (fun _ => {}) } t.m)) ∧
    (∀ r ∈ ([(.loopbackNearSerial, 1), (.loopbackNearParallel, 2), (.loopbackFarEnd, 3)] : List ((Agent → Fin 10 → Instr) × Nat)),
      (st = 0 → downs (r.1 ag port) 12 9) ∧
      (st = 9 → Answers (r.1 ag port) s (fun t => t.m.out = [.done .ok []] ∧ t.m.fld F.LANE_CTL_LOOPBACK port = r.2 ∧ OnlyRegs [ctl] s.m t.m)) ∧
      (st = 6 → s.m.fld F.FAB_PORT_DRAINED 0 port = 0 → isCore ag = false → Answers (r.1 ag port) s (fun t =>
        t.m.out = [.done .busy []] ∧ OnlyRegs [] s.m t.m))) ∧
    (st = 9 → Answers (.loopbackNone ag port) s (fun t => t.m.out = [.done .ok []] ∧ t.m.fld F.LANE_CTL_LOOPBACK port = 0 ∧ t.m.laneState port = 7 ∧
      OnlyRegs [status, ctl] s.m t.m))

/-- Light. A failing primary emitter goes dark and its spare warms up; a locked spare lights the wavelength again, one that does not leaves it
dark, each with event 0x0904; a PRBS check counts the errors of every lane and of the lane it selects (13 R357, R358, R382).

The laser interlock: LASER_EN_N released turns the light off and every port DISABLED; held long enough, it lights the lasers of every wavelength,
each at settings that are then saved, and every enabled port starts to look for its partner (02 R48, R49; 13 R359; 17 R441, R458).

Completion of: emitterFailure, spareEmitterResult, prbsTest, laserEnNDeassert, laserEnNAssert, laserEnableQualified. -/
def Obligations.PortsLight : Prop :=
  (∀ (port : Fin 10) (lane : Fin 32) (n : Nat) (d : Fin 2) (w : Fin 8) (s : State), s.m.quiet = true →
      let i := 8 * d.val + w.val
      let spare := F.PWR_LASER_SPARE.addr 0 i
      let lights := (portsOf d).map (fun p => F.LANE_TX_MASK_LIT.addr p 0)
      let lit := fun (t : State) (b : Bool) => ∀ p ∈ portsOf d, t.m.fld F.LANE_TX_MASK_LIT p =
        if b then s.m.fld F.LANE_TX_MASK_LIT p ||| waveLanes w else s.m.fld F.LANE_TX_MASK_LIT p - (s.m.fld F.LANE_TX_MASK_LIT p &&& waveLanes w)
      ((∀ p ∈ portsOf d, s.m.laneState p ≠ 6) →
        (s.m.fld F.PWR_LASER_SPARE 0 i = 0 → s.m.fld F.PWR_LASER_SPARE_FAILED 0 i = 0 → s.m.dark = [] → s.m.warming = [] →
          Answers (.emitterFailure d w) s (fun t => lit t false ∧ Raised t.m 0x0904 (d1 d ++ d1 w ++ d1 0) ∧
            RegsAndEvents lights { s.m with warming := [(i, (portsOf d).map (fun p => s.m.fld F.LANE_STATUS_TX_WIDTH p))] } t.m)) ∧
        (s.m.fld F.PWR_LASER_SPARE 0 i = 1 → s.m.dark = [] → Answers (.emitterFailure d w) s (fun t => lit t false ∧
          t.m.fld F.PWR_LASER_SPARE_FAILED 0 i = 1 ∧ Raised t.m 0x0904 (d1 d ++ d1 w ++ d1 2) ∧
          RegsAndEvents (spare :: lights) { s.m with dark := [i] } t.m)) ∧
        (∀ ws : List Nat, s.m.warming = [(i, ws)] → Answers (.spareEmitterResult d w true) s (fun t => lit t true ∧
          t.m.fld F.PWR_LASER_SPARE 0 i = 1 ∧ Raised t.m 0x0904 (d1 d ++ d1 w ++ d1 1) ∧
          RegsAndEvents (spare :: lights) { s.m with warming := [] } t.m))) ∧
      (∀ ws : List Nat, s.m.warming = [(i, ws)] → Answers (.spareEmitterResult d w false) s (fun t => t.m.fld F.PWR_LASER_SPARE_FAILED 0 i = 1 ∧
        Raised t.m 0x0904 (d1 d ++ d1 w ++ d1 2) ∧ RegsAndEvents [spare] { s.m with warming := [], dark := s.m.dark ++ [i] } t.m)) ∧
      (s.m.fld F.LANE_CTL_PRBS_EN port = 1 → Answers (.prbsTest port [(lane, n)]) s (fun t => t.m.out = [] ∧
        t.m.fld F.LANE_COUNT_COUNT port 7 = (s.m.fld F.LANE_COUNT_COUNT port 7 + n) % 2 ^ 64 ∧
        (lane.val = s.m.fld F.LANE_PRBS_LANE_LANE port →
          t.m.fld F.LANE_PRBS_LANE_COUNT port = min (s.m.fld F.LANE_PRBS_LANE_COUNT port + n) 0xFFFFFFFF) ∧
        OnlyRegs [F.LANE_COUNT_COUNT.addr port 7, F.LANE_PRBS_LANE_COUNT.addr port 0] s.m t.m)) ∧
      (s.m.fld F.LANE_CTL_PRBS_EN port = 0 → Answers (.prbsTest port [(lane, n)]) s (fun t => t.m.out = [] ∧ OnlyRegs [] s.m t.m))) ∧
  (∀ (s : State), s.m.quiet = true → s.m.svcRun = none →
      let rails := [F.PWR_RAIL_ON.addr 0 28, F.PWR_RAIL_ON.addr 0 29]
      Answers .laserEnNDeassert s (fun t => t.m.laserOk = false ∧ t.m.laserLow = false ∧ t.m.warming = [] ∧ (∀ p < 10, t.m.laneState p = 0 ∧ t.m.fld F.LANE_TX_MASK_LIT p = 0) ∧
        t.m.fld F.PWR_RAIL_ON 0 28 = 0 ∧ t.m.fld F.PWR_RAIL_ON 0 29 = 0) ∧
      Answers .laserEnNAssert s (fun t => t.m.out = [] ∧ OnlyRegs [] { s.m with laserLow := true } t.m) ∧
      (s.m.laserLow = true → s.m.pwrgd = false → Answers .laserEnableQualified s (fun t => t.m.out = [] ∧
        OnlyRegs [] { s.m with laserQual := true } t.m)) ∧
      (s.m.laserLow = true → s.m.pwrgd = true → s.m.rstN = true → s.m.bootStopped = false → s.m.laserOk = false → s.m.dark = [] →
        s.m.fld F.PWR_RAIL_FAULT 0 28 = 0 → s.m.fld F.PWR_RAIL_FAULT 0 29 = 0 →
        Answers .laserEnableQualified s (fun t => t.m.laserOk = true ∧ t.m.fld F.PWR_RAIL_ON 0 28 = 1 ∧ t.m.fld F.PWR_RAIL_ON 0 29 = 1 ∧
          (∀ p < 10, t.m.fld F.LANE_TX_MASK_LIT p = 0xFFFFFFFF) ∧
          (∀ i < 16, (i, t.m.fld F.PWR_LASER_BIAS 0 i, t.m.fld F.PWR_LASER_HEATER 0 i) ∈ t.m.laserSaved) ∧
          (∀ p < 10, t.m.laneState p = if s.m.laneState p = 0 ∧ s.m.fld F.LANE_CTL_ENABLE p = 1 then 1 else s.m.laneState p) ∧
          OnlyRegs (rails ++ (List.range 10).map (fun p => F.LANE_STATUS_STATE.addr p 0) ++ (List.range 10).map (fun p => F.LANE_TX_MASK_LIT.addr p 0) ++
            (List.range 16).map (F.PWR_LASER_BIAS.addr 0))
            { s.m with laserOk := true, laserQual := true, laserSaved := t.m.laserSaved, fresh := t.m.fresh } t.m)))

/-! ## Die links (14) -/

/-- Frames. The expected data frame is accepted and its ACK and credits are taken from every good frame word; a bad frame is answered by NAK and
counted, and so is a NAK received; at NAK_LIMIT, at LANE_LIMIT parity errors of a lane in one window, or when told to, the bundle retrains
with event 0x0A01, and carries traffic again afterwards (14 R388-R390, R394, R399).

Completion of: frameReceive, frameNak, laneErrorWindow, bundleRetrain, bundleRetrainComplete. -/
def Obligations.DieLinksCarryFrames : Prop :=
  ∀ (ag : Agent) (port : Fin 17) (b : Fin 16) (s : State), s.m.quiet = true → regAgent ag = true → b.val < bundleCount port →
    port.val < s.m.dports.length → b.val < (s.m.dportOf port).bundles.length → s.m.fld F.D2D_STATUS_STATE port = 2 →
    let x := s.m.bundleOf port b
    let reg := F.D2D_BUNDLE_RETRAINING.addr port b
    let upd := fun (f : Bundle → Bundle) => { s.m with dports := modNth s.m.dports port (fun d => { d with bundles := modNth d.bundles b f }) }
    let replays := fun (t : State) => t.m.fld F.D2D_BUNDLE_REPLAYS port b = min (s.m.fld F.D2D_BUNDLE_REPLAYS port b + 1) 0xFFFFFFFF
    let retrains := fun (cause : Nat) (t : State) => t.m.fld F.D2D_BUNDLE_RETRAINING port b = 1 ∧ Raised t.m 0x0A01 (d1 port ++ d1 b ++ d1 cause) ∧
      RegsAndEvents [reg] { s.m with dports := t.m.dports } t.m
    (s.m.fld F.D2D_BUNDLE_RETRAINING port b = 0 → s.m.dirWidth port b true ≠ 3 →
      (∀ f : Frame, f.crcGood = true → f.sync = 0xB8 → f.badLanes = [] → f.cvc.val > 5 → f.kind.val = 1 → f.seq.toNat = x.expect →
        Answers (.frameReceive port b f) s (fun t => t.m.out = [] ∧ OnlyRegs [] (upd (fun x => { x with
          expect := (x.expect + 1) % 256, discard := false, naksSent := 0,
          lastAck := (f.ack.map BitVec.toNat).or x.lastAck, naksReceived := if f.ack.isSome then 0 else x.naksReceived })) t.m)) ∧
      (∀ f : Frame, f.crcGood = true → f.sync = 0xB8 → f.badLanes = [] → f.cvc.val ≤ 5 → f.kind.val ≠ 1 → f.ack = none →
        Answers (.frameReceive port b f) s (fun t => t.m.out = [] ∧ OnlyRegs [] { s.m with dports := modNth s.m.dports port (fun d => { d with
          freed := modNth d.freed f.cvc.val (· + (f.total.val + 4096 - nth d.totals f.cvc.val 0) % 4096),
          totals := modNth d.totals f.cvc.val (fun _ => f.total.val) }) } t.m)) ∧
      (∀ f : Frame, f.crcGood = false → f.badLanes = [] → x.discard = false →
        (x.naksSent + 1 < s.m.fld F.D2D_CTL_NAK_LIMIT port → Answers (.frameReceive port b f) s (fun t =>
          t.m.out = [.frameNak port b x.expect] ∧ replays t ∧
          OnlyRegs [reg] (upd (fun x => { x with discard := true, naksSent := x.naksSent + 1 })) t.m)) ∧
        (s.m.fld F.D2D_CTL_NAK_LIMIT port ≤ x.naksSent + 1 → Answers (.frameReceive port b f) s (retrains 1))) ∧
      (∀ (f : Frame) (k : Fin 8), f.badLanes = [k] → f.crcGood = true → f.sync = 0xB8 → f.kind.val = 1 → f.cvc.val > 5 → x.discard = false →
        x.naksSent + 1 < s.m.fld F.D2D_CTL_NAK_LIMIT port → Answers (.frameReceive port b f) s (fun t => t.m.out = [.frameNak port b x.expect] ∧
          t.m.fld F.D2D_LANE_ERR_LANE port b k = min (s.m.fld F.D2D_LANE_ERR_LANE port b k + 1) 255)) ∧
      (∀ n : BitVec 8, x.naksReceived + 1 < s.m.fld F.D2D_CTL_NAK_LIMIT port → Answers (.frameNak port b n) s (fun t =>
        t.m.out = [.frameResend port b n.toNat] ∧ replays t ∧
        OnlyRegs [reg] (upd (fun x => { x with naksReceived := x.naksReceived + 1, lastAck := some ((n.toNat + 255) % 256) })) t.m)) ∧
      (∀ data : Word, bits data.toNat 5 1 = s.m.fld F.D2D_BUNDLE_EXCLUDE port b → Answers (.bundleRetrain ag port b data) s (fun t =>
        retrains 4 t ∧ .done .ok [] ∈ t.m.out ∧ t.m.fld F.D2D_BUNDLE_RETRAINS port b = min (bits data.toNat 16 16 + 1) 0xFFFF)) ∧
      ((∀ c < bundleCount port, c ≠ b.val → (s.m.bundleOf port c).window.all (· < s.m.fld F.D2D_CTL_LANE_LIMIT port) = true) →
        (s.m.bundleOf port b).window.any (s.m.fld F.D2D_CTL_LANE_LIMIT port ≤ ·) = true → Answers (.laneErrorWindow port) s (retrains 2))) ∧
    ((∀ c < bundleCount port, (s.m.bundleOf port c).window.all (· < s.m.fld F.D2D_CTL_LANE_LIMIT port) = true) →
      Answers (.laneErrorWindow port) s (fun t => t.m.out = [] ∧ OnlyRegs [] { s.m with dports := modNth s.m.dports port (fun d =>
        { d with bundles := d.bundles.map (fun b => { b with window := List.replicate 8 0 }) }) } t.m)) ∧
    (∀ ts : List DirTest, ts = [⟨b, false, false, false, []⟩, ⟨b, true, false, false, []⟩] →
      (∀ c < bundleCount port, s.m.fld F.D2D_BUNDLE_RETRAINING port c = 1 ↔ c = b.val) → s.m.fld F.D2D_BUNDLE_EXCLUDE port b = 0 →
      s.m.spareMap port b false = [] → s.m.spareMap port b true = [] → Answers (.bundleRetrainComplete port ts) s (fun t =>
        t.m.out = [.frameResend port b (((x.lastAck.map (· + 1)).getD 0) % 256)] ∧ t.m.fld F.D2D_BUNDLE_RETRAINING port b = 0 ∧
        t.m.dirWidth port b false = 0 ∧ t.m.dirWidth port b true = 0 ∧
        OnlyRegs ([reg, F.D2D_STATUS_TX_UNITS.addr port 0, F.D2D_SPARE_VALID.addr port (spareReg b false), F.D2D_SPARE_VALID.addr port (spareReg b true)] ++
          (List.range 16).map (fun j => F.D2D_TRAIN_PARAM_VALUE.addr port (16 * b.val + j)))
          { s.m with dports := t.m.dports, fresh := t.m.fresh } t.m))

/-- Training and Slate. A training command starts its step on a port that is down and enabled, and is refused with ST_BUSY on an ACTIVE one; the
step's end reports PASS for the bundles whose directions both carry, FAIL for the others of its mask, and a step that brings the port up
makes it ACTIVE or FAILED, with event 0x0A06 on leaving Slate; a lost forwarded clock on every live bundle is Slate, with event 0x0A05, on
some of them a retrain (14 R391-R397, Table 14.8).

Completion of: d2dClock, d2dDeskew, d2dIct, d2dSpare, d2dParity, d2dApply, d2dColdTraining, d2dTrainStepDone, lossOfForwardedClock. -/
def Obligations.DieLinksTrain : Prop :=
  ∀ (ag : Agent) (port : Fin 17) (mask prbs : BitVec 16) (s : State), s.m.quiet = true → regAgent ag = true → port.val < s.m.dports.length →
    let st := s.m.fld F.D2D_STATUS_STATE port
    let status := [F.D2D_STATUS_STATE.addr port 0, F.D2D_TRAIN_STATUS_BUSY.addr port 0]
    (∀ r ∈ ([(.d2dClock, 1), (.d2dDeskew, 2), (.d2dIct, 3), (.d2dSpare, 4), (.d2dParity, 5), (.d2dApply, 6), (.d2dColdTraining, 7)] :
        List ((Agent → Fin 17 → BitVec 16 → BitVec 16 → Instr) × Nat)),
      (mask.toNat < 2 ^ bundleCount port → st = 0 ∨ st = 3 ∨ st = 4 → s.m.fld F.D2D_CTL_ENABLE port = 1 → (s.m.dportOf port).training = none →
        Answers (r.1 ag port mask prbs) s (fun t => t.m.out = [.done .ok []] ∧ t.m.fld F.D2D_TRAIN_STATUS_RESULT port = 0 ∧
          t.m.fld F.D2D_TRAIN_STATUS_BUSY port = 1 ∧ t.m.fld F.D2D_STATUS_STATE port = (if st = 3 then 3 else 1) ∧
          OnlyRegs status { s.m with dports := modNth s.m.dports port (fun d => { d with training := some (r.2, mask.toNat) }) } t.m)) ∧
      (mask.toNat < 2 ^ bundleCount port → st = 2 → isCore ag = false → Answers (r.1 ag port mask prbs) s (fun t =>
        t.m.out = [.done .busy []] ∧ t.m.fld F.D2D_TRAIN_STATUS_RESULT port = 0x11 ∧ OnlyRegs status s.m t.m))) ∧
    (∀ (ts : List DirTest) (op : Nat), (s.m.dportOf port).training = some (op, mask.toNat) → mask.toNat < 2 ^ bundleCount port →
      Answers (.d2dTrainStepDone port ts) s (fun t => (t.m.dportOf port).training = none ∧ t.m.fld F.D2D_TRAIN_STATUS_BUSY port = 0 ∧
        (∀ b < bundleCount port,
          let works := decide (t.m.dirWidth port b false ≠ 3 ∧ t.m.dirWidth port b true ≠ 3)
          bit (t.m.fld F.D2D_TRAIN_STATUS_PASS port) b = (bit mask.toNat b && works) ∧
          bit (t.m.fld F.D2D_TRAIN_STATUS_FAIL port) b = (bit mask.toNat b && !works)) ∧
        (op = 5 ∨ op = 7 → t.m.fld F.D2D_STATUS_STATE port = (if t.m.portWorks port then 2 else if st = 3 then 3 else 4) ∧
          (st = 3 → t.m.portWorks port = true →
            Raised t.m 0x0A06 (d1 port ++ d1 (t.m.dirUnits port false) ++ d1 (t.m.dirUnits port true)))) ∧
        (op ≠ 5 → op ≠ 7 → t.m.fld F.D2D_STATUS_STATE port = if st = 1 then 0 else st))) ∧
    (∀ (frame : Bool) (live : List Nat), st = 2 → s.m.svcRun = none →
      live = (List.range (bundleCount port)).filter (fun b => (s.m.bundleOf port b).trained && s.m.dirWidth port b true != 3) →
      (live ≠ [] → live.filter (bit mask.toNat) = live → Answers (.lossOfForwardedClock port mask frame) s (fun t =>
        t.m.fld F.D2D_STATUS_STATE port = 3 ∧ t.m.fld F.D2D_STATUS_SLATE_CAUSE port = (if frame then 2 else 1) ∧
        Raised t.m 0x0A05 (d1 port ++ d1 (if frame then 2 else 1)) ∧ (port.val < 16 → bit t.m.lostDies port = true) ∧
        (port.val = 16 → t.m.mgdHeld = true))) ∧
      (∀ b : Nat, live.filter (bit mask.toNat) = [b] → live ≠ [b] → s.m.fld F.D2D_BUNDLE_RETRAINING port b = 0 →
        Answers (.lossOfForwardedClock port mask frame) s (fun t => t.m.fld F.D2D_BUNDLE_RETRAINING port b = 1 ∧
          Raised t.m 0x0A01 (d1 port ++ d1 b ++ d1 3) ∧
          RegsAndEvents [F.D2D_BUNDLE_RETRAINING.addr port b] { s.m with dports := t.m.dports } t.m)))

/-! ## Registers (00, 01, 03, 15, 18) -/

/-- Writes of registers. A register without orders takes the bits of its writable fields that the access reaches, a W1C or W1S field its ones, when the
register's own rule takes the value; a whole register takes all of its fields, a 4-byte write only those of its half; a locked field keeps its
value; an access of another size or alignment, or by an agent without access, changes nothing and completes with ST_ACCESS; an address
between the register blocks completes with ST_RANGE (00 R7, R8, R11, R485, R486; 01 R27).

The hub's registers with rules of their own: the partition mode and the tile map are taken while nothing runs on the layout and refused
with ST_BUSY otherwise, LOCK of a die's repair is set, EVQ_BASE empties its queue, EVRAISE raises the record of the core's staging
words, FAULT clears with alert bit 4 (01 Table 01.9; 03 Tables 03.2, 03.7; 15 Table 15.4; 18 R463, R468, Table 18.4).

Completion of: registerWrite, hubPartitionWrite, hubTileMapWrite, repairLock, evqBaseWrite, evraise, faultClear. -/
def Obligations.RegistersWritten : Prop :=
  (∀ (ag : Agent) (addr data : Word) (a size : Nat) (s : State), s.m.quiet = true → s.m.decodeAddr addr.toNat = .here a →
      let writes := fun (n : Nat) (P : State → Prop) => Answers (.registerWrite ag addr n data) s P
      (regAgent ag = true → ∀ q < 4, let r := F.EVQ_CTL_CLASS_MASK.addr 0 q
        let old := s.m.reg r
        (a = r → writes 8 (fun t => t.m.out = [.done .ok []] ∧ t.m.reg r = (old &&& ~~~(0xFFFFFFFFF : Word)) ||| (data &&& 0xFFFFFFFFF) ∧ OnlyRegs [r] s.m t.m)) ∧
        (a = r → writes 4 (fun t => t.m.out = [.done .ok []] ∧ t.m.reg r = (old &&& ~~~(0xFFFFFFFF : Word)) ||| (data &&& 0xFFFFFFFF) ∧ OnlyRegs [r] s.m t.m)) ∧
        (a = r + 4 → writes 4 (fun t => t.m.out = [.done .ok []] ∧ OnlyRegs [r] s.m t.m ∧
          t.m.reg r = (old &&& ~~~(0xF00000000 : Word)) ||| ((data <<< 32) &&& 0xF00000000)))) ∧
      (∀ (b : Block) (i off k : Nat) (d : RegD), regAgent ag = true → blockAt a = some (b, i, off) → regAtOff b i (off / 8 * 8) = some (d, k) →
        d.name.acts = false → size = 4 ∨ size = 8 → a % size = 0 → s.m.blockGate ag b i off true = .ok →
        let r := a / 8 * 8
        let old := s.m.reg r
        let v := laneData a size data
        let new := d.stored (s.m.locked d.name i k) old v (laneMask a size)
        s.m.regCheck ag d.name i k old (d.asked old v (laneMask a size)) new = .ok → writes size (fun t => t.m.out = [.done .ok []] ∧
          t.m.reg r = new ∧ OnlyRegs [r] s.m t.m)) ∧
      (isCore ag = false → a = F.THM_LIMITS_WARN.addr 0 0 → s.m.fld F.THM_CTL_LOCK = 1 → writes 8 (fun t =>
        t.m.fld F.THM_LIMITS_TRIP = s.m.fld F.THM_LIMITS_TRIP ∧ OnlyRegs [a] s.m t.m)) ∧
      (isCore ag = false → 0x700000000000 ≤ a → mgdMemory a = false → (blockAt a).isSome = true → (size ≠ 4 ∧ size ≠ 8) ∨ a % size ≠ 0 → writes size (fun t =>
        t.m.out = [.done .access []] ∧ OnlyRegs [] s.m t.m)) ∧
      (regAgent ag = false → 0x700000000000 ≤ a → mgdMemory a = false → writes 8 (fun t => t.m.out = [.done .access []] ∧ OnlyRegs [] s.m t.m)) ∧
      (regAgent ag = true → isCore ag = false → 0x700000000000 ≤ a → mgdMemory a = false → blockAt a = none → writes 8 (fun t =>
        t.m.out = [.done .range []] ∧ OnlyRegs [] s.m t.m))) ∧
  (∀ (ag : Agent) (data : Word) (q : Fin 4) (die : Fin 16) (s : State), s.m.quiet = true → regAgent ag = true →
      let ok := fun (as : List Nat) (P : State → Prop) (t : State) => t.m.out = [.done .ok []] ∧ OnlyRegs as s.m t.m ∧ P t
      let dies := (List.range 16).map (fun p => bits data.toNat (4 * p) 4)
      let base := bits data.toNat 5 43 * 32
      let lg := bits data.toNat 48 4
      (s.m.layoutBusy = false → bits data.toNat 0 2 ≠ 3 → Answers (.hubPartitionWrite ag data) s
        (ok [F.HUB_PARTITION_MODE.addr 0 0] (fun t => t.m.fld F.HUB_PARTITION_MODE = bits data.toNat 0 2))) ∧
      (s.m.layoutBusy = false → (∀ d < 16, d ∈ dies) → Answers (.hubTileMapWrite ag data) s
        (ok [F.HUB_TILE_MAP_DIE.addr 0 0] (fun t => t.m.reg (F.HUB_TILE_MAP_DIE.addr 0 0) = data))) ∧
      (s.m.layoutBusy = true → isCore ag = false → bits data.toNat 0 2 ≠ 3 → Answers (.hubPartitionWrite ag data) s (fun t =>
        t.m.out = [.done .busy []] ∧ OnlyRegs [] s.m t.m)) ∧
      (s.m.state ≠ .parked → s.m.portSlate die = false → Answers (.repairLock ag die) s
        (ok [F.ECD_REPAIR_CTL_LOCK.addr die 0] (fun t => t.m.fld F.ECD_REPAIR_CTL_LOCK die = 1))) ∧
      ((lg = 0 ∨ (4 ≤ lg ∧ base % (32 * 2 ^ lg) = 0 ∧ 0x400000000000 ≤ base ∧ base + 32 * 2 ^ lg ≤ 0x400080000000)) →
        Answers (.evqBaseWrite ag q data) s (ok [F.EVQ_BASE_ADDR.addr 0 q, F.EVQ_TAIL_TAIL.addr 0 q, F.EVQ_HEAD_HEAD.addr 0 q] (fun t =>
          t.m.fld F.EVQ_BASE_ADDR 0 q = bits data.toNat 5 43 ∧ t.m.fld F.EVQ_BASE_LOG2_SLOTS 0 q = lg ∧
          t.m.fld F.EVQ_TAIL_TAIL 0 q = 0 ∧ t.m.fld F.EVQ_HEAD_HEAD 0 q = 0))) ∧
      (mgmtCore ag = true →
        Answers (.faultClear ag) s (ok [F.HUB_FAULT_PENDING.addr 0 0] (fun t => t.m.fld F.HUB_FAULT_PENDING = 0 ∧ bit t.m.alert 4 = false)) ∧
        (∀ (code : Nat) (lo hi : Nat), s.m.evStage.get? (stageOf ag) = some (code, lo, hi) → eventClassKnown code = true →
          Answers (.evraise ag data) s (fun t => Raised t.m code (d8 lo ++ d8 data.toNat) ∧ .done .ok [] ∈ t.m.out ∧ RegsAndEvents [] s.m t.m))))

/-- The root of trust takes EXTEND of measurements 5 to 7 and ATTEST from management cores while no command of it runs (15 R409, R418, R419).

A word of the flash is programmed where it is written, the first of a sector erases the sector before; the boot directory is closed while
DIR_LOCK is 1 (15 R401, Table 15.3).

Completion of: extend, rotAttest, flashWrite. -/
def Obligations.RootOfTrust : Prop :=
  (∀ (ag : Agent) (addr : Word) (i : Fin 8) (off : Nat) (s : State), s.m.quiet = true → mgmtCore ag = true →
      let a := bits addr.toNat 6 42 * 64
      sramAt a = some (16, off) →
      (s.m.rot = none → 5 ≤ i.val → Answers (.extend ag i addr) s (fun t => t.m.out = [.done .ok []] ∧
        OnlyRegs [] { s.m with rot := some (.extend i a) } t.m)) ∧
      (s.m.rot = none → s.m.fld F.MGD_STATUS_PUF_OK = 1 → Answers (.rotAttest ag addr) s (fun t => t.m.out = [.done .ok []] ∧
        OnlyRegs [] { s.m with rot := some (.attest a) } t.m)) ∧
      (i.val < 5 → Answers (.extend ag i addr) s (fun t => .done .access [] ∈ t.m.out ∧ t.m.rot = s.m.rot))) ∧
  (∀ (ag : Agent) (addr : Word) (a : Nat) (data : List Byte) (s : State), s.m.quiet = true → s.m.decodeAddr addr.toNat = .here a →
      0x7F0080000000 ≤ a → a + 8 ≤ 0x7F00A0000000 → a % 8 = 0 → data.length = 8 → regAgent ag = true → s.m.portSlate 16 = false →
      let written := fun (keeps : Nat → Prop) (t : State) => t.m.out = [.done .ok []] ∧ t.m.mem.readAt a 8 = data ∧
        SameRest { s.m with fresh := t.m.fresh } t.m ∧ SameRegsBut [] s.m t.m ∧ ∀ x, keeps x → t.m.mem.byte x = s.m.mem.byte x
      (0x7F0080040000 ≤ a ∨ s.m.fld F.MGD_STATUS_DIR_LOCK = 0 →
        (a % 0x10000 ≠ 0 → Answers (.flashWrite ag addr data) s (written (fun x => x < a ∨ a + 8 ≤ x))) ∧
        (a % 0x10000 = 0 → Answers (.flashWrite ag addr data) s (written (fun x => x < a ∨ (a + 0x10000 ≤ x ∧ x < 0x7F00A0000000))))) ∧
      (a < 0x7F0080040000 → s.m.fld F.MGD_STATUS_DIR_LOCK = 1 → isCore ag = false → Answers (.flashWrite ag addr data) s (fun t =>
        t.m.out = [.done .access []] ∧ OnlyRegs [] s.m t.m)))

/-- EXTEND sets its measurement to SHAKE256 of the measurement and the digest, taken to 64 bytes, and ends with RESULT ST_OK (15 R418). The digest's bytes
are read from the hub buffer, where no line of them waits.

Completion of: rotCommandComplete. -/
def Obligations.ExtendSetsMeasurement : Prop :=
  ∀ (i : Fin 8) (a off : Nat) (s : State), s.m.quiet = true → sramAt a = some (16, off) → a % 64 = 0 → s.m.rot = some (.extend i a) →
    s.m.svcRun = none → s.m.svcq = [] → s.m.dir = [] → s.m.bankState 16 (bankOf 16 off) = 0 → (s.m.sramOf 16).ywait = [] →
    (∀ j < 64, s.m.mem.parityBad (a + j) = false) → Answers .rotCommandComplete s (fun t => t.m.out = [] ∧
      t.m.meas i = padTo 64 (Config.shake256 (s.m.meas i ++ s.m.mem.readAt a 64) 64) ∧ t.m.fld F.MGD_ROT_STATUS_RESULT = 0 ∧
      OnlyRegs ([F.MGD_ROT_STATUS_RESULT.addr 0 0, F.DIR_COUNT_COUNT.addr 0 0] ++
        (List.range 8).map (fun j => F.MGD_MEAS_VALUE.addr 0 (8 * i.val + j))) { s.m with rot := none } t.m)

/-! ## Service frames and SMBus (15, 02) -/

/-- The service endpoint answers each frame while it is enabled and its link is up: STATUS to anyone, every other request when its TAG, BOOT_ID and
SEQ hold, with a TAG of its own; a request that does not hold is answered ST_ACCESS, counted, and has no effect. SEEK sets the bulk
address, bulk transfers move bytes from and to it and advance it, resets are noted for 1 ms later, SERVICE commands and ATTEST do what
their tables say (15 R410-R413, Tables 15.8, 15.9).

Completion of: status, eventRead, serviceResetWarm, serviceResetCold, serviceResetMgd, serviceResetPartition, bulkSeek, bulkRead, bulkWrite,
clearRepair, returnDie, locateOn, locateOff, svnCommit, setOperatorKey, attest. -/
def Obligations.ServiceAnswers : Prop :=
  ∀ (f : SvcFrame) (s : State), s.m.quiet = true → s.m.svcRun = none → s.m.svcq = [] → s.m.fld F.MGD_SVC_ENABLE = 1 → s.m.link = true →
    s.m.mgdHeld = false →
    let boot := s.m.reg (F.MGD_BOOT_ID_ID.addr 0 0)
    let reply := fun (op : Nat) (f : SvcFrame) (st : Status) (arg : Nat) (data : List Byte) (t : State) =>
      t.m.out = [.frame f.mac.toNat op st f.seq.toNat arg data
        (svcTag (s.m.serviceKey.getD []) (svcHeader op st.toNat 3 data.length boot f.seq (BitVec.ofNat 64 arg)) data)]
    let does := fun (op : Nat) (f : SvcFrame) (c : Instr) (as : List Nat) (n : Mod) => s.m.refusal op f = none → Answers c s (fun t =>
      reply op f .ok f.arg.toNat [] t ∧ OnlyRegs as { n with topSeq := f.seq.toNat + 1 } t.m)
    let reset := fun (k : Nat) (c : Instr) => (k = 3 → s.m.resetStatus 4 (bits f.arg.toNat 2 2) = .ok) →
      does 3 (withArg f 0 2 k) c [] { s.m with svcResets := s.m.svcResets ++ [{ kind := k, part := bits f.arg.toNat 2 2 }] }
    let die := bits f.arg.toNat 8 8
    let bulk := F.MGD_BULK_ADDR_ADDR.addr 0 0
    Answers (.status f) s (fun t => t.m.out = [.frame f.mac.toNat 1 .ok f.seq.toNat f.arg.toNat s.m.statusBytes []] ∧ OnlyRegs [] s.m t.m) ∧
    (∀ why, s.m.refusal 4 f = some why → Answers (.bulkSeek f) s (fun t => .frame f.mac.toNat 4 .access f.seq.toNat f.arg.toNat [] [] ∈ t.m.out ∧
      t.m.fld F.MGD_SVC_AUTH_FAIL = min (s.m.fld F.MGD_SVC_AUTH_FAIL + 1) 0xFFFFFFFF ∧
      RegsAndEvents [F.MGD_SVC_AUTH_FAIL.addr 0 0] { s.m with authEvent := true } t.m)) ∧
    (s.m.refusal 2 f = none → Answers (.eventRead f) s (fun t => reply 2 f (s.m.eventRead f.arg.toNat).1 f.arg.toNat (s.m.eventRead f.arg.toNat).2 t ∧
      OnlyRegs [] { s.m with topSeq := f.seq.toNat + 1 } t.m)) ∧
    reset 0 (.serviceResetWarm f) ∧ reset 1 (.serviceResetCold f) ∧ reset 2 (.serviceResetMgd f) ∧ reset 3 (.serviceResetPartition f) ∧
    (s.m.refusal 4 f = none → Answers (.bulkSeek f) s (fun t => reply 4 f .ok f.arg.toNat [] t ∧ t.m.reg bulk = f.arg ∧
      OnlyRegs [bulk] { s.m with topSeq := f.seq.toNat + 1 } t.m)) ∧
    (∀ (arr : Fin 16) (off n : Nat), s.m.decodeAddr s.m.bulkAddr = .here (sramBase arr + off) → 1 ≤ n → off % 64 + n ≤ 64 → off + n ≤ sramSize arr →
      s.m.dir = [] → s.m.portSlate arr = false → (s.m.sramOf arr).ywait = [] → s.m.bankState arr (bankOf arr off) = 0 →
      (∀ i < n, s.m.mem.parityBad (sramBase arr + off + i) = false) →
      let moved := fun (t : State) => (t.m.reg bulk).toNat = (s.m.bulkAddr + n) % 2 ^ 64 ∧ SameRegsBut [bulk] s.m t.m ∧
        SameRest { s.m with topSeq := f.seq.toNat + 1 } t.m
      (s.m.refusal 5 f = none → f.arg.toNat = n → Answers (.bulkRead f) s (fun t =>
        reply 5 f .ok n (s.m.mem.readAt (sramBase arr + off) n) t ∧ moved t ∧ SameMem s.m t.m)) ∧
      (s.m.refusal 6 f = none → f.payload.length = n → Answers (.bulkWrite f) s (fun t => reply 6 f .ok n [] t ∧ moved t ∧
        t.m.mem.readAt (sramBase arr + off) n = f.payload ∧
        ∀ x, x < sramBase arr + off ∨ sramBase arr + off + n ≤ x → t.m.mem.byte x = s.m.mem.byte x))) ∧
    (die < 16 → bit s.m.active die = false → does 7 (withArg f 0 8 1) (.clearRepair f) []
      { s.m with repairLists := modNth s.m.repairLists die (fun _ => []) }) ∧
    (die < 16 → bit s.m.bistPassed die = true → s.m.refusal 7 (withArg f 0 8 2) = none → Answers (.returnDie f) s (fun t =>
      reply 7 (withArg f 0 8 2) .ok (withArg f 0 8 2).arg.toNat [] t ∧ bit (t.m.fld F.HUB_DIE_MASK_ACTIVE) die = true ∧
      bit t.m.outOfService die = false ∧ bit t.m.cfgActive die = true ∧ OnlyRegs [F.HUB_DIE_MASK_ACTIVE.addr 0 0] { s.m with
        topSeq := f.seq.toNat + 1, outOfService := t.m.outOfService, cfgActive := t.m.cfgActive, bistPassed := t.m.bistPassed } t.m)) ∧
    does 7 (withArg f 0 8 3) (.locateOn f) [] { s.m with locate := true } ∧
    does 7 (withArg f 0 8 4) (.locateOff f) [] { s.m with locate := false } ∧
    (s.m.fld F.MGD_STATUS_RECOVERY = 0 → does 7 (withArg f 0 8 5) (.svnCommit f) [] { s.m with svnCommit := some (s.m.fld F.MGD_STATUS_SLOT_B == 1) }) ∧
    (∀ off : Nat, f.arg.toNat / 2 ^ 16 * 64 = 0x400000000000 + off → off < 0x80000000 → s.m.dir = [] → s.m.bankState 16 (bankOf 16 off) = 0 →
      (s.m.sramOf 16).ywait = [] → (∀ i < 64, s.m.mem.parityBad (0x400000000000 + off + i) = false) →
      does 7 (withArg f 0 8 6) (.setOperatorKey f) [] { s.m with newOperatorKey := some (s.m.mem.readAt (0x400000000000 + off) 64) }) ∧
    (s.m.refusal 8 f = none → s.m.fld F.MGD_STATUS_RECOVERY = 0 → s.m.fld F.MGD_STATUS_PUF_OK = 1 → f.payload.length = 32 → f.arg.toNat % 64 = 0 →
      inHubBuffer f.arg.toNat 1 = true → s.m.rot = none → Answers (.attest f) s (fun t => t.m.out = [] ∧ OnlyRegs [] { s.m with
        topSeq := f.seq.toNat + 1, rot := some (.service f.arg.toNat f.payload), svcRun := some { op := 8, frame := f } } t.m))

/-- The management link comes up while the management die runs, and a reset of the management die that the endpoint scheduled holds it in Slate; a
release lets it boot again (02 R51; 15 R416, Table 15.8; 14 R397).

Completion of: mgdResetRelease, serviceResetDelay, mgmtEthernetLinkUp, mgmtEthernetLinkDown. -/
def Obligations.ManagementDieRestarts : Prop :=
  ∀ (b : BootIn) (s : State), s.m.quiet = true →
    (s.m.pwrgd = true → s.m.rstN = true → s.m.mgdHeld = false → Answers .mgmtEthernetLinkUp s (fun t => t.m.out = [] ∧
      OnlyRegs [] { s.m with link := true } t.m)) ∧
    Answers .mgmtEthernetLinkDown s (fun t => t.m.out = [] ∧ OnlyRegs [] { s.m with link := false } t.m) ∧
    (∀ (part : Nat) (rest : List SvcReset), s.m.svcResets = { kind := 2, part := part } :: rest → s.m.fld F.D2D_STATUS_STATE 16 ≠ 3 →
      Answers (.serviceResetDelay b) s (fun t => t.m.svcResets = rest ∧ t.m.mgdHeld = true ∧ t.m.link = false ∧
        t.m.fld F.D2D_STATUS_STATE 16 = 3 ∧ t.m.fld F.D2D_STATUS_SLATE_CAUSE 16 = 3 ∧ Raised t.m 0x0A05 (d1 16 ++ d1 3))) ∧
    (s.m.mgdHeld = true → s.m.mgdStopped = false → b.mp = true → Answers (.mgdResetRelease b) s (fun t => t.m.mgdHeld = false ∧ t.m.topSeq = 0 ∧
      t.m.rot = none ∧ t.m.svcRun = none ∧ t.m.svcq = [] ∧ t.m.fld F.MGD_STATUS_PUF_OK = b2n b.puf ∧ t.m.fld F.MGD_STATUS_MIN_SVN = t.m.minSvn % 2 ^ 32 ∧
      t.m.fld F.MGD_SVC_AUTH_FAIL = s.m.fld F.MGD_SVC_AUTH_FAIL ∧ s.m.minSvn ≤ t.m.minSvn ∧
      (t.m.fld F.MGD_STATUS_RECOVERY = 0 → ∃ d, Raised t.m 0x0B05 d)))

/-- The always-on island answers every SMBus read of its table with the value and its PEC, takes writes whose PEC is good, and discards a write
whose PEC is wrong, or missing on the service key, with CML set; an unknown command is not acknowledged; the alert response releases
MOD_ALERT_N when no unmasked bit is left (02 R39, R40; 15 R414, R415, Table 15.10).

Completion of: smbusAlertResponse, smbusInvalidCommand, clearFaults, capability, statusWord, readVin, readIin, readPin, readTemperature1,
readTemperature2, pmbusRevision, mfrId, mfrModel, mfrRevision, mfrSerial, mfrInventory, mfrDieTemp, mfrCause, mfrAlertStatus, mfrAlertMask,
mfrLocate, mfrServiceKey, mfrState. -/
def Obligations.SmbusAnswers : Prop :=
  ∀ (reading : BitVec 16) (v : BitVec 16) (byte : Byte) (key : List Byte) (s : State), s.m.smbusOn = true →
    let addr := s.m.smbusAddr
    let reads := fun (c : Instr) (code : Nat) (data : List Byte) => Answers c s (fun t =>
      t.m.out = [.smbus data (crc8 ([BitVec.ofNat 8 (2 * addr), BitVec.ofNat 8 code, BitVec.ofNat 8 (2 * addr + 1)] ++ data))] ∧ OnlyRegs [] s.m t.m)
    let blocks := fun (c : Instr) (code : Nat) (data : List Byte) => reads c code (BitVec.ofNat 8 data.length :: data)
    let writes := fun (c : Pec → Instr) (n : Mod) => Answers (c .good) s (fun t => t.m.out = [] ∧ OnlyRegs [] n t.m) ∧
      Answers (c .bad) s (fun t => t.m.out = [] ∧ OnlyRegs [] { s.m with statusLatch := s.m.statusLatch ||| 2 } t.m)
    reads .capability 0x19 [0xD0] ∧ reads .statusWord 0x79 (d2 s.m.smbusStatus) ∧ reads (.readVin reading) 0x88 (d2 reading.toNat) ∧
    reads (.readIin reading) 0x89 (d2 (if s.m.stateCode < 2 then 0x7FFF else reading.toNat)) ∧
    reads (.readPin reading) 0x97 (d2 (if s.m.stateCode < 2 then 0x7FFF else reading.toNat)) ∧ reads .readTemperature1 0x8D (d2 s.m.hottest.toNat) ∧
    (∀ a b : Int, s.m.coolant = some (a, b) → reads .readTemperature2 0x8E (d2 (Config.linear11 b).toNat)) ∧ reads .pmbusRevision 0x98 [0x33] ∧
    blocks .mfrId 0x99 mfrIdText ∧ blocks .mfrModel 0x9A mfrModelText ∧ blocks .mfrRevision 0x9B mfrRevisionText ∧
    blocks .mfrSerial 0x9E (padTo 16 Config.serial) ∧ blocks .mfrInventory 0xD0 s.m.inventory ∧ blocks .mfrDieTemp 0xD1 s.m.dieTemps ∧
    blocks .mfrCause 0xD2 (padTo 128 ((s.m.causes.take 8).flatMap CauseRec.bytes)) ∧ reads .mfrState 0xD7 (d1 s.m.stateCode) ∧
    (∀ p : Pec, reads (.mfrAlertStatus none p) 0xD3 (d2 s.m.alert) ∧ reads (.mfrAlertMask none p) 0xD4 (d2 s.m.alertMask) ∧
      reads (.mfrLocate none p) 0xD5 (d1 (b2n s.m.locate)) ∧ reads (.mfrServiceKey none p) 0xD6 (d1 (b2n s.m.serviceKey.isSome))) ∧
    writes .clearFaults { s.m with statusLatch := 0 } ∧ writes (.mfrAlertMask (some v)) { s.m with alertMask := v.toNat } ∧
    writes (.mfrLocate (some byte)) { s.m with locate := bit byte.toNat 0 } ∧
    Answers (.mfrAlertStatus (some v) .good) s (fun t => t.m.out = [] ∧
      t.m.alert = (s.m.alert &&& (0xFFFF ^^^ (v.toNat &&& 0xFF)) &&& (if bit v.toNat 4 then 0xFFEF else 0xFFFF)) ||| s.m.alertHeld ∧
      t.m.fld F.HUB_FAULT_PENDING = (if bit v.toNat 4 then 0 else s.m.fld F.HUB_FAULT_PENDING) ∧ OnlyRegs [F.HUB_FAULT_PENDING.addr 0 0] s.m t.m) ∧
    (key.length = 32 → Answers (.mfrServiceKey (some key) .good) s (fun t => t.m.out = [] ∧
      t.m.fld F.MGD_STATUS_KEY_SET = s.m.fld F.MGD_STATUS_PUF_OK ∧
      OnlyRegs [F.MGD_STATUS_KEY_SET.addr 0 0] { s.m with serviceKey := some key } t.m)) ∧
    (∀ p : Pec, p ≠ .good → Answers (.mfrServiceKey (some key) p) s (fun t => t.m.out = [] ∧
      OnlyRegs [] { s.m with statusLatch := s.m.statusLatch ||| 2 } t.m)) ∧
    (∀ (code : Byte) (p : Pec), smbusCodes.contains code.toNat = false → Answers (.smbusInvalidCommand code p) s (fun t => t.m.out = [.nack] ∧
      OnlyRegs [] { s.m with statusLatch := s.m.statusLatch ||| 2 } t.m)) ∧
    (s.m.alertPin = true → Answers .smbusAlertResponse s (fun t =>
      t.m.out = [.smbus [BitVec.ofNat 8 (2 * addr)] (crc8 [0x19, BitVec.ofNat 8 (2 * addr)])] ∧
      t.m.alertPin = ((s.m.alert ||| s.m.alertHeld) &&& (0xFFFF ^^^ s.m.alertMask) != 0) ∧ OnlyRegs [] s.m t.m))

/-! ## Resets and boot (16, 02) -/

/-- A module reset, whoever asks for it, and a loss of the reference clock or of the hub's link to the management die record their cause and return
the module to its reset state before it boots; MOD_RST_N low holds it there, its rise boots it (16 R436, R438, Table 16.8; 01 R23; 14 R398;
02 R45).

The boot ends in ACTIVE: HUB_BOOT.STAGE is 15, alert bit 6 is set, event 0x0C02 reports it, a die is PRESENT only with a result of its own, and
the dies that are ACTIVE, PRESENT and not out of service run; the power-on boot enters ACTIVE from STANDBY with event 0x0D01 (16 R424, R435; 01 R29; 17 R443).

Completion of: referenceClockLost, modRstNAssert, modRstNRelease, hubLost, serviceResetDelay, moduleResetWarm, moduleResetCold,
bootComplete. -/
def Obligations.ModuleResets : Prop :=
  (∀ (ag : Agent) (target : Fin 128) (b : BootIn) (s : State),
      let empty := fun (t : State) => t.m.state = .reset ∧ t.m.ctxs = List.replicate 4 {} ∧ t.m.lines = [] ∧ t.m.dir = [] ∧ t.m.net = [] ∧
        t.m.retry = [] ∧ t.m.lanes = List.replicate 10 {} ∧ t.m.mc = List.replicate 24 {} ∧ t.m.resets = [] ∧ t.m.active = 0 ∧ t.m.opDone = [] ∧
        t.m.uncached = []
      let caused := fun (code : Nat) (t : State) => ∃ r ∈ t.m.causes.take 2, r.code = code
      let restarts := fun (c : Instr) (code : Nat) => Answers c s (fun t => empty t ∧ caused code t)
      (resetAgent ag = true → target.val = 0 → restarts (.moduleResetWarm ag target b) 0x09 ∧ restarts (.moduleResetCold ag target b) 0x09) ∧
      (resetAgent ag = true → target.val ≠ 0 → isCore ag = false → s.m.quiet = true → Answers (.moduleResetWarm ag target b) s (fun t =>
        t.m.out = [.done .range []] ∧ t.m.fld F.HUB_RESET_STATUS_RESULT = 0x0F ∧ OnlyRegs [F.HUB_RESET_STATUS_RESULT.addr 0 0] s.m t.m)) ∧
      (∀ (k part : Nat) (rest : List SvcReset), k < 2 → s.m.svcResets = { kind := k, part := part } :: rest → restarts (.serviceResetDelay b) 0x09) ∧
      (s.m.pwrgd = true → restarts (.referenceClockLost b) 0x07 ∧ restarts (.hubLost b) 0x0A ∧
        Answers (.modRstNAssert) s (fun t => empty t ∧ t.m.rstN = false ∧ t.m.causes = s.m.causes) ∧
        (s.m.powerOnBoot = false → Answers (.modRstNRelease b) s (fun t => t.m.rstN = true ∧ t.m.state = .reset ∧ caused 0x08 t ∧
          t.m.taps = List.replicate 18 .idcode)) ∧
        (s.m.powerOnBoot = true → Answers (.modRstNRelease b) s (fun t => t.m.rstN = true ∧ t.m.state = .boot)))) ∧
  (∀ (dies : List DieRun) (s : State), s.m.quiet = true → s.m.state = .boot ∨ s.m.state = .reset → s.m.bootStopped = false → s.m.mgdHeld = false →
      s.m.rstN = true → s.m.fld F.MGD_STATUS_RECOVERY = 0 → s.m.pwrgd = true →
      Answers (.bootComplete dies) s (fun t => t.m.state = .active ∧ t.m.fld F.HUB_BOOT_STAGE = 15 ∧ bit t.m.alert 6 = true ∧
        (∃ d, Raised t.m 0x0C02 d) ∧ t.m.bootPresent = t.m.fld F.HUB_DIE_MASK_PRESENT ∧
        (∀ d < 16, bit t.m.active d = (bit (t.m.fld F.HUB_DIE_MASK_ACTIVE) d && bit (t.m.fld F.HUB_DIE_MASK_PRESENT) d && !bit s.m.outOfService d)) ∧
        (∀ d < 16, bit (t.m.fld F.HUB_DIE_MASK_PRESENT) d = true → ∃ r ∈ dies, r.die.val = d) ∧
        (s.m.powerOnBoot = true → Raised t.m 0x0D01 (d1 1 ++ d1 3 ++ d1 0xFF))))

/-- A core, cluster or partition reset that the table allows begins at once: its RESULT is ST_OK, its busy bit is set, event 0x0C03 names it; a
compute die goes down into Slate and out of PRESENT, a partition's context is empty; its end clears the busy bit, reports in the LAST
fields and with event 0x0C04; at the drain limit requests for the unit end with ST_FENCED (16 R431-R437, R439, Tables 16.6, 16.9).

Completion of: coreResetClean, coreResetHard, clusterReset, partitionReset, resetFinish, coreResetComplete, drainLimit. -/
def Obligations.UnitResets : Prop :=
  ∀ (ag : Agent) (target : Fin 128) (dies : List DieRun) (s : State), s.m.quiet = true → s.m.svcRun = none → resetAgent ag = true →
    let begins := fun (level busy : Nat) (t : State) => t.m.fld F.HUB_RESET_STATUS_RESULT = 0 ∧ t.m.resets = [⟨level, target.val⟩] ∧
      bits (t.m.reg (F.HUB_RESET_STATUS_RESULT.addr 0 0)).toNat 0 3 = busy ∧ .done .ok [] ∈ t.m.out ∧
      Raised t.m 0x0C03 (d1 level ++ d1 target ++ d1 (classOf ag))
    let down := fun (d : Nat) (t : State) => t.m.fld F.D2D_STATUS_STATE d = 3 ∧ bit (t.m.fld F.HUB_DIE_MASK_PRESENT) d = false ∧
      bit t.m.active d = false
    let ends := fun (r : ResetRun) (t : State) => t.m.resets = [] ∧ t.m.fld F.HUB_RESET_STATUS_LAST_LEVEL = r.level ∧
      t.m.fld F.HUB_RESET_STATUS_LAST_TARGET = r.target ∧ t.m.fld F.HUB_RESET_STATUS_LAST_RESULT = 0 ∧
      bits (t.m.reg (F.HUB_RESET_STATUS_RESULT.addr 0 0)).toNat 0 3 = 0 ∧ ∃ d, Raised t.m 0x0C04 (d1 r.level ++ d1 r.target ++ d1 0 ++ d)
    (s.m.resets = [] → s.m.state ≠ .parked →
      (target.val ≤ 71 → Answers (.coreResetClean ag target) s (begins 1 1) ∧ Answers (.coreResetHard ag target) s (begins 2 1)) ∧
      (target.val < 16 → bit s.m.active target = false → Answers (.clusterReset ag target) s (fun t => begins 3 2 t ∧ down target t)) ∧
      (target.val = 16 → Answers (.clusterReset ag target) s (begins 3 2)) ∧
      (target.val < 4 → s.m.partition target ≠ [] → target.val < s.m.ctxs.length → Answers (.partitionReset ag target) s (fun t => begins 4 4 t ∧
        t.m.ctx target = {} ∧ ∀ d ∈ s.m.partition target, down d t))) ∧
    (∀ l : Nat, l ≤ 2 → s.m.resets = [⟨l, target.val⟩] → Answers (.coreResetComplete target) s (fun t => ends ⟨l, target.val⟩ t ∧
      RegsAndEvents [F.HUB_RESET_STATUS_RESULT.addr 0 0] { s.m with resets := [] } t.m)) ∧
    (∀ (i : Fin 2) (r : ResetRun), ag = .rt i → s.m.resets = [r] → r.level = 3 ∨ r.level = 4 → r.target < 128 →
      Answers (.resetFinish ag dies) s (fun t => ends r t ∧ t.m.fld F.HUB_RESET_STATUS_RESULT = 0 ∧ .done .ok [] ∈ t.m.out)) ∧
    (∀ (q : Fin 4) (seq key line off : Nat) (r : NcReq), target.val < 16 → s.m.resets = [⟨3, target.val⟩] → r.src = .op q seq key →
      sramAt r.addr = some (target.val, off) → s.m.retry = [(line, .nc r)] → s.m.reqSrc = [] → (s.m.sramOf target).ywait = [] → Answers (.drainLimit 3 target) s (fun t =>
        t.m.out = [.compl (.op q seq key) .fenced []] ∧
        OnlyRegs [] { s.m with retry := [], opDone := s.m.opDone ++ [(q.val, seq, key, .fenced, [])] } t.m))

/-! ## Power and temperature (02, 17) -/

/-- The supply: standby power starts the island in STANDBY and its loss leaves nothing but the flash; MOD_PWR_EN, VIN and the island together start the
conversion stages, rail group after rail group, and the last starts the boot; MOD_PWR_EN low, an input fault, a rail fault and a trip
return to STANDBY with their cause; a cooled module may start again (02 R34, R38, R42-R46, Table 02.7; 17 R441, R442, R456).

Completion of: standbyPowerUp, standbyPowerLost, modPwrEnAssert, vinStartThreshold, modPwrEnDeassert, inputFault, railGroupInRegulation,
thermalTrip, thermtripRestart, railFault, alwaysOnIslandReady. -/
def Obligations.SupplyRuns : Prop :=
  ∀ (s : State), s.m.quiet = true → s.m.svcRun = none →
    let off := fun (t : State) => t.m.state = .standby ∧ t.m.pwrgd = false ∧ t.m.laserOk = false ∧ t.m.ctxs = List.replicate 4 {} ∧ t.m.lines = [] ∧
      t.m.active = 0 ∧ ∀ r < 30, t.m.fld F.PWR_RAIL_ON 0 r = 0
    let cause := fun (code die kind : Nat) (t : State) => ∃ w, t.m.causes.head? = some { when_ := w, code := code, die := die, kind := kind }
    (∀ straps : BitVec 8, s.m.state = .off → Answers (.standbyPowerUp straps) s (fun t => t.m.state = .standby ∧ t.m.slotId = straps.toNat ∧
      t.m.powerOns = s.m.powerOns + 1 ∧ t.m.islandReady = false ∧
      OnlyRegs [] { s.m with state := .standby, slotId := straps.toNat, powerOns := s.m.powerOns + 1, islandReady := false, causes := t.m.causes, fresh := t.m.fresh } t.m)) ∧
    (s.m.state ≠ .off → Answers .standbyPowerLost s (fun t => t.m.state = .off ∧ t.m.pwrgd = false ∧ t.m.alert = t.m.alertHeld ∧ t.m.causes = s.m.causes ∧
      (∀ a, t.m.reg a = resetWord a) ∧ t.m.ctxs = List.replicate 4 {} ∧ t.m.lines = [] ∧
      ∀ x, 0x7F0080000000 ≤ x → x < 0x7F00A0000000 → t.m.mem.byte x = s.m.mem.byte x)) ∧
    (s.m.state = .standby → s.m.pwrEn = false → Answers .alwaysOnIslandReady s (fun t => t.m.out = [] ∧
      OnlyRegs [] { s.m with islandReady := true } t.m)) ∧
    (s.m.state = .standby → s.m.tripped = false → s.m.islandReady = true →
      (s.m.enIgnored = false → s.m.pwrEn = true → Answers .vinStartThreshold s (fun t => t.m.out = [] ∧
        OnlyRegs [] { s.m with vinOk := true, state := .powerUp, railGroup := 0, tripBlink := false } t.m)) ∧
      (∀ low : Bool, s.m.enIgnored = false ∨ low = true → Answers (.modPwrEnAssert low true) s (fun t => t.m.out = [] ∧ OnlyRegs [] { s.m with
        pwrEn := true, vinOk := true, enIgnored := false, state := .powerUp, railGroup := 0, tripBlink := false } t.m)) ∧
      Answers (.modPwrEnAssert false false) s (fun t => t.m.out = [] ∧ t.m.state = .standby ∧
        OnlyRegs [] { s.m with pwrEn := true, vinOk := false } t.m)) ∧
    (∀ b : BootIn, s.m.state = .powerUp → (∀ r < 30, s.m.fld F.PWR_RAIL_FAULT 0 r = 0) →
      (s.m.railGroup < 4 → Answers (.railGroupInRegulation b) s (fun t => t.m.out = [] ∧ (∀ r ∈ nth railGroups s.m.railGroup [], t.m.fld F.PWR_RAIL_ON 0 r = 1) ∧
        OnlyRegs ((nth railGroups s.m.railGroup []).map (F.PWR_RAIL_ON.addr 0)) { s.m with railGroup := s.m.railGroup + 1 } t.m)) ∧
      (s.m.railGroup = 4 → s.m.rstN = true → Answers (.railGroupInRegulation b) s (fun t => t.m.pwrgd = true ∧ t.m.state = .boot)) ∧
      (s.m.railGroup = 4 → s.m.rstN = false → Answers (.railGroupInRegulation b) s (fun t => t.m.pwrgd = true ∧ t.m.state = .powerUp))) ∧
    (s.m.powered = true →
      Answers .modPwrEnDeassert s (fun t => off t ∧ cause 2 0 0 t ∧ t.m.pwrEn = false) ∧
      (∀ high : Bool, Answers (.inputFault high) s (fun t => off t ∧ cause (if high then 4 else 3) 0 0 t ∧ t.m.enIgnored = true ∧ bit t.m.alert 3 = true)) ∧
      (∀ die : Fin 20, s.m.fld F.THM_TEMP_TRIP_DIS 0 die = 0 → Answers (.thermalTrip die) s (fun t => off t ∧ cause 6 die 0 t ∧ t.m.tripped = true ∧
        t.m.tripReport = some die.val ∧ bit t.m.alert 2 = true)) ∧
      (∀ (rail : Fin 30) (kind : Fin 4), 20 ≤ rail.val → rail.val < 28 → kind ≠ 0 → Answers (.railFault rail kind) s (fun t => off t ∧
        cause 0x0F rail kind t ∧ t.m.railReport = some (rail.val, kind.val))) ∧
      (∀ (rail : Fin 30) (kind : Fin 4), kind ≠ 0 → s.m.state = .active → rail.val < 20 ∨ 28 ≤ rail.val → Answers (.railFault rail kind) s (fun t =>
        t.m.state = .active ∧ t.m.fld F.PWR_RAIL_FAULT 0 rail = 1 ∧ t.m.fld F.PWR_RAIL_ON 0 rail = 0 ∧
        (rail.val < 16 → t.m.fld F.D2D_STATUS_STATE rail = 3) ∧
        (16 ≤ rail.val → rail.val < 20 → ∀ i < 4, t.m.fld F.D2D_STATUS_STATE (4 * (rail.val - 16) + i) = 3) ∧
        (28 ≤ rail.val → ∀ p ∈ portsOf (rail.val - 28), t.m.laneState p = if s.m.laneState p = 0 then 0 else 7)))) ∧
    (s.m.powered = false → Answers .modPwrEnDeassert s (fun t => t.m.out = [] ∧ OnlyRegs [] { s.m with pwrEn := false } t.m)) ∧
    (∀ outlet mgd : BitVec 16, s.m.tripped = true → outlet.toInt < 960 → mgd.toInt < 960 → Answers (.thermtripRestart outlet mgd) s (fun t =>
      t.m.out = [] ∧ OnlyRegs [] { s.m with tripped := false, enIgnored := true } t.m))

/-- Power states: PARKED is entered when no operation, reset or march runs, else refused with ST_BUSY, and left on a request for ACTIVE; a
request for STANDBY is taken in ACTIVE; array clocks are gated and ungated partition by partition, the last makes the module IDLE; the
cap loop moves its level and reports crossings (17 R443-R446, R449, R450, Table 17.4).

Completion of: activeRequest, parkedRequest, standbyRequest, parkedEntryComplete, parkedExitComplete, arrayClockGate, arrayClockUngate,
capLoopTick. -/
def Obligations.PowerStates : Prop :=
  ∀ (ag : Agent) (s : State), s.m.quiet = true → s.m.svcRun = none →
    let st := F.PWR_STATE_STATE.addr 0 0
    let recovery := s.m.fld F.MGD_STATUS_RECOVERY
    (regAgent ag = true →
      (s.m.state = .active → Answers (.activeRequest ag) s (fun t => t.m.out = [.done .ok []] ∧ t.m.fld F.PWR_STATE_RESULT = 0 ∧
        OnlyRegs [st] s.m t.m)) ∧
      (s.m.state = .parked → s.m.fld F.PWR_STATE_STATE = 2 → Answers (.activeRequest ag) s (fun t => t.m.out = [.done .ok []] ∧
        t.m.fld F.PWR_STATE_STATE = 4 ∧ OnlyRegs [st] { s.m with pwrWho := classOf ag } t.m)) ∧
      (s.m.state = .active → s.m.parkBusy = false → Answers (.parkedRequest ag) s (fun t => t.m.state = .parked ∧ t.m.fld F.PWR_STATE_STATE = 3 ∧
        t.m.fld F.PWR_STATE_RESULT = 0 ∧ t.m.pwrWho = classOf ag ∧ .done .ok [] ∈ t.m.out ∧ ∀ d < 16, ∀ b < 1024, t.m.bankState d b = 2)) ∧
      (s.m.state = .active → s.m.parkBusy = true → isCore ag = false → Answers (.parkedRequest ag) s (fun t => t.m.out = [.done .busy []] ∧
        t.m.fld F.PWR_STATE_RESULT = 0x11 ∧ OnlyRegs [st] s.m t.m)) ∧
      (s.m.state = .active → Answers (.standbyRequest ag) s (fun t => t.m.state = .standby ∧ t.m.pwrgd = false ∧ t.m.enIgnored = true ∧
        t.m.ctxs = List.replicate 4 {} ∧ (∃ r, t.m.causes.head? = some r ∧ r.code = 1) ∧ ∀ r < 30, t.m.fld F.PWR_RAIL_ON 0 r = 0))) ∧
    (s.m.state = .parked → s.m.fld F.PWR_STATE_STATE = 3 → Answers .parkedEntryComplete s (fun t => t.m.state = .parked ∧
      t.m.fld F.PWR_STATE_STATE = 2 ∧ (∀ r < 20, t.m.fld F.PWR_RAIL_ON 0 r = 0) ∧ (∀ d < 16, t.m.fld F.D2D_STATUS_STATE d = 0) ∧
      Raised t.m 0x0D01 (d1 (if s.m.partitions.all s.m.gated then 4 else 3) ++ d1 5 ++ d1 s.m.pwrWho))) ∧
    (∀ dies : List DieRun, s.m.state = .parked → s.m.fld F.PWR_STATE_STATE = 4 → Answers (.parkedExitComplete dies) s (fun t => t.m.state = .active ∧
      t.m.fld F.PWR_STATE_STATE = 0 ∧ t.m.fld F.PWR_IDLE_GATED = 0 ∧ (∀ r < 20, t.m.fld F.PWR_RAIL_ON 0 r = 1) ∧
      (recovery = 0 → Raised t.m 0x0D01 (d1 5 ++ d1 3 ++ d1 s.m.pwrWho)))) ∧
    (∀ q : Fin 4, let now := s.m.fld F.PWR_IDLE_GATED
      (s.m.fld F.PWR_IDLE_GATE_US ≠ 0 → s.m.partition q ≠ [] → s.m.gated q = false → (∀ o ∈ (s.m.ctx q).ops, o.st ≠ .dispatched) → s.m.state = .active →
        Answers (.arrayClockGate q) s (fun t => t.m.fld F.PWR_IDLE_GATED = now ||| 2 ^ q.val ∧
          (t.m.state = .idle ↔ s.m.partitions.all (fun i => bit (now ||| 2 ^ q.val) i) = true) ∧
          RegsAndEvents [F.PWR_IDLE_GATED.addr 0 0, st] { s.m with state := t.m.state } t.m)) ∧
      (s.m.gated q = true → Answers (.arrayClockUngate q) s (fun t => t.m.fld F.PWR_IDLE_GATED = now &&& (0xF ^^^ 2 ^ q.val) ∧
        t.m.state = (if s.m.state = .idle then .active else s.m.state) ∧
        RegsAndEvents [F.PWR_IDLE_GATED.addr 0 0, st] { s.m with state := t.m.state } t.m))) ∧
    (∀ peak average : BitVec 12, s.m.pwrgd = true → s.m.state ≠ .parked →
      let l := capLevel peak.toNat (s.m.fld F.PWR_CAP_WATTS) (s.m.fld F.PWR_CAP_STEP_W) (s.m.fld F.PWR_STATUS_LEVEL)
      Answers (.capLoopTick peak average) s (fun t => t.m.fld F.PWR_STATUS_LEVEL = l % 32 ∧ t.m.fld F.PWR_STATUS_CAP_N = 16 - min l 12 ∧
        t.m.fld F.PWR_STATUS_GATE = (l - 12) % 16 ∧ t.m.fld F.PWR_STATUS_LIMITING = (if 0 < l then 1 else 0) ∧
        t.m.fld F.PWR_STATUS_INPUT_W = average.toNat ∧ t.m.fld F.PWR_STATUS_PEAK_W = peak.toNat ∧
        (s.m.fld F.PWR_STATUS_LIMITING ≠ (if 0 < l then 1 else 0) → Raised t.m 0x0D02 (d1 l ++ d2 peak.toNat)) ∧
        RegsAndEvents [F.PWR_STATUS_LEVEL.addr 0 0] s.m t.m))

/-- Temperatures: a reading that reaches WARN or THROTTLE sets its flag and raises its event, one that falls below by the hysteresis clears it; a failed
sensor is reported and its trip disabled; a ceiling falls step by step while its die is hot and rises again; the coolant's limits raise
0x0D08 (17 R451-R455).

Completion of: sensorSample, throttleCeilingStep, coolantSample. -/
def Obligations.TemperaturesFollow : Prop :=
  ∀ (s : State), s.m.pwrgd = true →
    (∀ x : Sensor, x.failed = false → s.m.fld F.THM_TEMP_FAILED 0 0 = 0 →
      let warn : Int := s.m.fld F.THM_LIMITS_WARN * 16
      let thr : Int := s.m.fld F.THM_LIMITS_THROTTLE * 16
      let hyst : Int := s.m.fld F.THM_LIMITS_HYST * 16
      let t0 := x.raw.toInt
      Answers (.sensorSample [x]) s (fun t => t.m.fld F.THM_TEMP_READING 0 0 = x.raw.toNat ∧ t.m.fld F.THM_TEMP_FAILED 0 0 = 0 ∧
        t.m.fld F.THM_TEMP_WARN 0 0 = (if s.m.fld F.THM_TEMP_WARN 0 0 = 0 then (if warn ≤ t0 then 1 else 0) else (if t0 ≤ warn - hyst then 0 else 1)) ∧
        t.m.fld F.THM_TEMP_THROTTLE 0 0 =
          (if s.m.fld F.THM_TEMP_THROTTLE 0 0 = 0 then (if thr ≤ t0 then 1 else 0) else (if t0 ≤ thr - hyst then 0 else 1)) ∧
        (s.m.fld F.THM_TEMP_WARN 0 0 = 0 → warn ≤ t0 → Raised t.m 0x0D04 (d1 0 ++ d2 x.raw.toNat)) ∧
        RegsAndEvents (moduleSensors.map (F.THM_TEMP_READING.addr 0)) s.m t.m)) ∧
    (∀ (pre : List Sensor) (x : Sensor) (i : Nat), i = pre.length → i < 20 → i ≠ 0 → i ≠ 17 → x.failed = true → s.m.fld F.THM_TEMP_FAILED 0 i = 0 →
      Answers (.sensorSample (pre ++ [x])) s (fun t => t.m.fld F.THM_TEMP_FAILED 0 i = 1 ∧ t.m.fld F.THM_TEMP_TRIP_DIS 0 i = 1 ∧
        t.m.fld F.THM_TEMP_SUBSTITUTED 0 i = 0 ∧ ∃ d, Raised t.m 0x0D06 (d1 i ++ d2 x.raw.toNat ++ d))) ∧
    (∀ i : Fin 20, moduleSensors.contains i.val = false → let c := s.m.fld F.THM_TEMP_CEILING 0 i
      (s.m.fld F.THM_TEMP_THROTTLE 0 i = 1 → Answers (.throttleCeilingStep i) s (fun t => t.m.out = [] ∧
        t.m.fld F.THM_TEMP_CEILING 0 i = (if s.m.fld F.THM_CTL_FLOOR < c then c - 1 else c) ∧ OnlyRegs [F.THM_TEMP_CEILING.addr 0 i] s.m t.m)) ∧
      (s.m.fld F.THM_TEMP_THROTTLE 0 i = 0 → Answers (.throttleCeilingStep i) s (fun t => t.m.out = [] ∧
        t.m.fld F.THM_TEMP_CEILING 0 i = min 16 (c + 1) ∧ OnlyRegs [F.THM_TEMP_CEILING.addr 0 i] s.m t.m))) ∧
    (∀ inlet outlet : BitVec 16, let bad := decide (640 < inlet.toInt) || decide (1040 < outlet.toInt)
      let good := decide (inlet.toInt ≤ 608) && decide (outlet.toInt ≤ 1008)
      Answers (.coolantSample inlet outlet) s (fun t => t.m.coolant = some (inlet.toInt, outlet.toInt) ∧
        t.m.coolantBad = (if s.m.coolantBad then !good else bad) ∧ (s.m.coolantBad = false → bad = true → Raised t.m 0x0D08 (d2 inlet.toNat ++ d2 outlet.toNat)) ∧
        t.m.fld F.THM_TEMP_READING 0 20 = inlet.toNat ∧ t.m.fld F.THM_TEMP_READING 0 21 = outlet.toNat ∧
        RegsAndEvents [F.THM_TEMP_READING.addr 0 20, F.THM_TEMP_READING.addr 0 21]
          { s.m with coolant := some (inlet.toInt, outlet.toInt), coolantBad := t.m.coolantBad } t.m))

/-! ## Selftest and test access ports (19) -/

/-- A die test that DT_CMD may start puts its die into Slate, sets BUSY and LAST_OP, and ends with DONE, the signature, PASS when it is the expected
one, and event 0x0C09; a refused one only sets RESULT; DT_EXPECT recomputes PASS; a field test of LPDDR pages sets BUSY until it ends, and FAIL
when it found one (19 R474-R478, R481, Tables 19.1, 19.3).

Test access ports load their instruction while MOD_PWRGD is high and the port is in the chain, the hub's always, another where STACK_SELECT
chose it; while MOD_RST_N is high those that drive pins or select act as BYPASS (19 R482, Table 19.5).

Completion of: fieldTestGo, fieldTestEnd, logicBistBoot, logicBistField, memoryBist, standaloneTest, dieTestEnd, dtExpectWrite, idcode,
samplePreload, extest, clamp, highz, stackSelect, bypass. -/
def Obligations.TestsRun : Prop :=
  (∀ (ag : Agent) (s : State), s.m.quiet = true → s.m.svcRun = none → regAgent ag = true →
      (∀ r ∈ ([(.logicBistBoot, 1), (.logicBistField, 2), (.memoryBist, 3), (.standaloneTest, 4)] : List ((Agent → Fin 18 → Instr) × Nat)), ∀ n : Fin 18,
        let status := F.DT_STATUS_BUSY.addr 0 n
        (n.val < 16 → bit s.m.active n = false → s.m.resets = [] → s.m.tests = [] → s.m.state ≠ .parked → Answers (r.1 ag n) s (fun t =>
          t.m.fld F.DT_STATUS_RESULT 0 n = 0 ∧ t.m.fld F.DT_STATUS_BUSY 0 n = 1 ∧ t.m.fld F.DT_STATUS_LAST_OP 0 n = r.2 ∧
          t.m.fld F.DT_STATUS_STANDALONE 0 n = (if r.2 = 4 then 1 else 0) ∧ t.m.tests = [(n.val, r.2)] ∧ t.m.fld F.D2D_STATUS_STATE n = 3 ∧
          .done .ok [] ∈ t.m.out)) ∧
        (16 ≤ n.val → isCore ag = false → Answers (r.1 ag n) s (fun t => t.m.out = [.done .access []] ∧ t.m.fld F.DT_STATUS_RESULT 0 n = 0x0D ∧
          OnlyRegs [status] s.m t.m)) ∧
        (n.val < 16 → bit s.m.active n = true → isCore ag = false → Answers (r.1 ag n) s (fun t => t.m.out = [.done .busy []] ∧
          t.m.fld F.DT_STATUS_RESULT 0 n = 0x11 ∧ OnlyRegs [status] s.m t.m))) ∧
      (∀ (d : Fin 16) (op : Nat) (sig : Word), s.m.tests = [(d.val, op)] → let pass := s.m.reg (F.DT_EXPECT_EXPECT.addr 0 d) == sig
        Answers (.dieTestEnd d sig) s (fun t => t.m.tests = [] ∧ t.m.fld F.DT_STATUS_BUSY 0 d = 0 ∧ t.m.fld F.DT_STATUS_DONE 0 d = 1 ∧
          t.m.fld F.DT_STATUS_OUTCOME 0 d = 0 ∧ t.m.fld F.DT_STATUS_PASS 0 d = b2n pass ∧ t.m.reg (F.DT_SIG_SIG.addr 0 d) = sig ∧
          (op = 3 → ∀ off < 0x38000000, t.m.mem.byte (sramBase d + off) = 0) ∧
          (bit t.m.bistPassed d = true ↔ bit s.m.bistPassed d = true ∨ (op = 2 ∧ pass = true ∧ bit s.m.outOfService d = true)) ∧
          Raised t.m 0x0C09 (d1 d ++ d1 op ++ d1 0 ++ d1 (b2n pass)))) ∧
      (∀ (n : Fin 18) (w : Word), n.val < 16 ∨ s.m.state = .active → Answers (.dtExpectWrite ag n w) s (fun t => t.m.out = [.done .ok []] ∧
        t.m.reg (F.DT_EXPECT_EXPECT.addr 0 n) = w ∧
        (t.m.fld F.DT_STATUS_PASS 0 n = 1 ↔ s.m.fld F.DT_STATUS_LAST_OP 0 n ≠ 0 ∧ s.m.fld F.DT_STATUS_BUSY 0 n = 0 ∧
          s.m.fld F.DT_STATUS_OUTCOME 0 n = 0 ∧ s.m.reg (F.DT_SIG_SIG.addr 0 n) = w) ∧
        OnlyRegs [F.DT_EXPECT_EXPECT.addr 0 n, F.DT_STATUS_PASS.addr 0 n] s.m t.m)) ∧
      (∀ (k : Fin 24) (data : Word), let first := bits data.toNat 16 15
        let last := bits data.toNat 32 15
        let outside := fun (t : State) => ∀ x, (∀ o, lpddrAt x ≠ some (k.val, o)) → x < 0x7F00A0000000 → t.m.mem.byte x = s.m.mem.byte x
        (bits data.toNat 48 2 ≠ 3 → first ≤ last → last < 28416 → k.val ∉ s.m.ftests → s.m.fld F.MC_CTL_ENABLE k = 1 → Answers (.fieldTestGo ag k data) s (fun t =>
          t.m.out = [.done .ok []] ∧ t.m.fld F.MC_FTEST_RESULT k = 0 ∧ t.m.fld F.MC_FTEST_BUSY k = 1 ∧ t.m.fld F.MC_FTEST_FIRST k = first ∧
          t.m.fld F.MC_FTEST_LAST k = last ∧ t.m.fld F.MC_FTEST_PATTERN k = bits data.toNat 48 2 ∧ outside t ∧ SameRegsBut [F.MC_FTEST_BUSY.addr k 0] s.m t.m ∧
          SameRest { s.m with ftests := s.m.ftests ++ [k.val], fresh := t.m.fresh } t.m)) ∧
        (∀ fail : Bool, k.val ∈ s.m.ftests → Answers (.fieldTestEnd k fail) s (fun t => t.m.out = [] ∧ t.m.fld F.MC_FTEST_BUSY k = 0 ∧
          t.m.fld F.MC_FTEST_FAIL k = (if fail then 1 else s.m.fld F.MC_FTEST_FAIL k) ∧ outside t ∧ SameRegsBut [F.MC_FTEST_BUSY.addr k 0] s.m t.m ∧
          SameRest { s.m with ftests := s.m.ftests.filter (· != k.val), fresh := t.m.fresh } t.m)))) ∧
  (∀ (s : State), s.m.pwrgd = true →
      let loads := fun (c : Instr) (t : Tap) (i : TapInstr) (v : Nat) => Answers c s (fun t' => t'.m.out = [.tap t i v] ∧
        OnlyRegs [] { s.m with taps := modNth s.m.taps t.val (fun _ => i) } t'.m)
      (∀ t : Tap, (t.val = 16 ∨ bit s.m.stack (if t.val = 17 then 16 else t.val) = true) →
        loads (.idcode t) t .idcode (0x10000001 + (if t.val = 16 then 0x4C20 else if t.val = 17 then 0x4C22 else 0x4C21) * 0x1000 + Config.jep106.toNat * 2) ∧
        loads (.samplePreload t) t .samplePreload 0 ∧ loads (.bypass t) t .bypass 0 ∧
        (s.m.rstN = false → loads (.extest t) t .extest 0 ∧ loads (.clamp t) t .clamp 0 ∧ loads (.highz t) t .highz 0) ∧
        (s.m.rstN = true → loads (.extest t) t .bypass 0 ∧ loads (.clamp t) t .bypass 0 ∧ loads (.highz t) t .bypass 0)) ∧
      (∀ selection : BitVec 17, (s.m.rstN = true → loads (.stackSelect selection) 16 .bypass 0) ∧
        (s.m.rstN = false → Answers (.stackSelect selection) s (fun t => t.m.out = [.tap 16 .stackSelect 0] ∧
          OnlyRegs [] { s.m with taps := modNth s.m.taps 16 (fun _ => .stackSelect), stack := selection.toNat } t.m))) ∧
      (∀ t : Tap, t.val ≠ 16 → bit s.m.stack (if t.val = 17 then 16 else t.val) = false → Answers (.bypass t) s (fun t' => t'.m.out = [] ∧ OnlyRegs [] s.m t'.m)))

/-! ## After reset -/

/-- What the machine holds right after reset: the canonical form holds, nothing is written, nothing waits, no operation, no line, no request; the supply is off; registers hold
the reset values of their tables (01 Table 01.9; 10 Table 10.6; 17 Tables 17.7, 17.8; 02 Table 02.7). -/
def Obligations.ResetValues : Prop :=
  let m := State.reset.m
  State.reset.Safe ∧ State.reset.pending = [] ∧ m.out = [] ∧ m.mem.cells = [] ∧ m.state = .off ∧ m.pwrgd = false ∧ m.tripped = false ∧ m.ctxs = List.replicate 4 {} ∧
  m.lanes = List.replicate 10 {} ∧ m.mc = List.replicate 24 {} ∧ m.dports = List.replicate 17 {} ∧ m.sram = List.replicate 17 {} ∧ m.lines = [] ∧ m.dir = [] ∧
  m.retry = [] ∧ m.fab = {} ∧ m.och = [] ∧ m.resets = [] ∧ m.rot = none ∧ m.alertPin = false ∧ m.quiet = true ∧
  (∀ a, m.reg a = resetWord a) ∧ m.fld F.THM_LIMITS_WARN = 95 ∧ m.fld F.THM_LIMITS_THROTTLE = 105 ∧ m.fld F.THM_LIMITS_TRIP = 115 ∧
  m.fld F.THM_LIMITS_HYST = 5 ∧ (∀ q < 4, m.fld F.EVQ_CTL_CLASS_MASK 0 q = if q = 3 then 0xFFFFFFFF else 0)
end

