-- ==== Sys2Proof/Laws/Tables.lean ====
section
/-! SUPPORT. Laws of the sparse tables and the bit fields. -/

namespace Sys2Proof.Machine

/-! ## Tables -/

theorem get?_cons_self {α : Type} (k : Nat) (v : α) (t : Sparse α) : Sparse.get? ((k, v) :: t) k = some v := by
  simp [Sparse.get?]

theorem get?_cons_ne {α : Type} {k k' : Nat} (v : α) (t : Sparse α) (h : k' ≠ k) : Sparse.get? ((k', v) :: t) k = Sparse.get? t k := by
  simp [Sparse.get?, h]

theorem get?_filter_ne {α : Type} (t : Sparse α) {k k' : Nat} (h : k' ≠ k) :
    Sparse.get? (t.filter (fun e => e.1 != k)) k' = Sparse.get? t k' := by
  induction t with
  | nil => rfl
  | cons e t ih =>
    obtain ⟨a, v⟩ := e
    by_cases hk : a = k
    · subst hk; simp [Sparse.get?, Ne.symm h, ih]
    · by_cases ha : a = k' <;> simp [Sparse.get?, hk, ha, ih]
      subst ha; simp [Sparse.get?, hk]

@[simp] theorem get?_set_self {α : Type} (t : Sparse α) (k : Nat) (v : α) : Sparse.get? (Sparse.set t k v) k = some v := by
  simp [Sparse.set, Sparse.get?]

theorem get?_set_ne {α : Type} (t : Sparse α) {k k' : Nat} (v : α) (h : k' ≠ k) : Sparse.get? (Sparse.set t k v) k' = Sparse.get? t k' := by
  simp [Sparse.set, Sparse.del, Sparse.get?, Ne.symm h, get?_filter_ne t h]

/-- Every key of the table is larger than `k`. -/
def allAbove {α : Type} (k : Nat) (t : Sparse α) : Prop := ∀ e ∈ t, k < e.1

theorem keysRise_cons {α : Type} (k : Nat) (v : α) (t : Sparse α) :
    keysRise ((k, v) :: t) = true ↔ allAbove k t ∧ keysRise t = true := by
  induction t generalizing k v with
  | nil => simp [keysRise, allAbove]
  | cons e t ih =>
    obtain ⟨a, w⟩ := e
    simp only [keysRise, Bool.and_eq_true, decide_eq_true_eq, allAbove, List.mem_cons, forall_eq_or_imp]
    constructor
    · intro h
      refine ⟨⟨h.1, fun e he => ?_⟩, h.2⟩
      exact lt_trans h.1 (((ih a w).mp h.2).1 e he)
    · exact fun h => ⟨h.1.1, h.2⟩

theorem get?_above {α : Type} {k : Nat} {t : Sparse α} (h : allAbove k t) : Sparse.get? t k = none := by
  induction t with
  | nil => rfl
  | cons e t ih =>
    obtain ⟨a, v⟩ := e
    have ha : k < a := h (a, v) (by simp)
    rw [get?_cons_ne v t (by omega)]
    exact ih (fun e he => h e (by simp [he]))

theorem mem_insertKey {α : Type} {k : Nat} {v : α} {t : Sparse α} {e : Nat × α} (h : e ∈ insertKey k v t) : e = (k, v) ∨ e ∈ t := by
  induction t with
  | nil => simpa [insertKey] using h
  | cons x t ih =>
    obtain ⟨a, w⟩ := x
    unfold insertKey at h
    split at h
    · simpa using h
    · split at h
      · rcases List.mem_cons.mp h with h | h
        · exact .inl h
        · exact .inr (by simp [h])
      · rcases List.mem_cons.mp h with h | h
        · exact .inr (by simp [h])
        · rcases ih h with h | h
          · exact .inl h
          · exact .inr (by simp [h])

theorem keysRise_insertKey {α : Type} (k : Nat) (v : α) (t : Sparse α) (h : keysRise t = true) : keysRise (insertKey k v t) = true := by
  induction t with
  | nil => simp [insertKey, keysRise]
  | cons x t ih =>
    obtain ⟨a, w⟩ := x
    have ht := (keysRise_cons a w t).mp h
    unfold insertKey
    split
    · rename_i hk
      exact (keysRise_cons k v _).mpr ⟨fun e he => by
        rcases List.mem_cons.mp he with rfl | he
        · exact hk
        · exact lt_trans hk (ht.1 e he), h⟩
    · split
      · rename_i hk
        subst hk
        exact (keysRise_cons _ v t).mpr ht
      · refine (keysRise_cons a w _).mpr ⟨fun e he => ?_, ih ht.2⟩
        rcases mem_insertKey he with rfl | he
        · show a < k
          omega
        · exact ht.1 e he

theorem get?_insertKey_self {α : Type} (k : Nat) (v : α) (t : Sparse α) : Sparse.get? (insertKey k v t) k = some v := by
  induction t with
  | nil => simp [insertKey, Sparse.get?]
  | cons x t ih =>
    obtain ⟨a, w⟩ := x
    unfold insertKey
    split
    · simp [Sparse.get?]
    · split
      · simp [Sparse.get?]
      · rename_i h1 h2
        rw [get?_cons_ne w _ (by omega)]
        exact ih

theorem get?_insertKey_ne {α : Type} {k k' : Nat} (v : α) (t : Sparse α) (h : k' ≠ k) : Sparse.get? (insertKey k v t) k' = Sparse.get? t k' := by
  induction t with
  | nil => simp [insertKey, Sparse.get?, Ne.symm h]
  | cons x t ih =>
    obtain ⟨a, w⟩ := x
    unfold insertKey
    split
    · rw [get?_cons_ne v _ (Ne.symm h)]
    · split
      · rename_i h1 h2
        subst h2
        rw [get?_cons_ne v _ (Ne.symm h), get?_cons_ne w _ (Ne.symm h)]
      · by_cases ha : a = k'
        · subst ha; simp [Sparse.get?]
        · rw [get?_cons_ne w _ ha, get?_cons_ne w _ ha, ih]

/-- Sorting a table keeps what it says of every key. -/
@[simp] theorem get?_sortKeys {α : Type} (t : Sparse α) (k : Nat) : Sparse.get? (sortKeys t) k = Sparse.get? t k := by
  induction t with
  | nil => rfl
  | cons e t ih =>
    obtain ⟨a, v⟩ := e
    show Sparse.get? (insertKey a v (sortKeys t)) k = _
    by_cases h : a = k
    · subst h; rw [get?_insertKey_self, get?_cons_self]
    · rw [get?_insertKey_ne v _ (Ne.symm h), get?_cons_ne v _ h, ih]

theorem keysRise_sortKeys {α : Type} (t : Sparse α) : keysRise (sortKeys t) = true := by
  induction t with
  | nil => rfl
  | cons e t ih => exact keysRise_insertKey _ _ _ ih

theorem allAbove_filter {α : Type} {k : Nat} {t : Sparse α} (p : Nat × α → Bool) (h : allAbove k t) : allAbove k (t.filter p) :=
  fun e he => h e (List.mem_filter.mp he).1

theorem keysRise_filter {α : Type} (t : Sparse α) (p : Nat × α → Bool) (h : keysRise t = true) : keysRise (t.filter p) = true := by
  induction t with
  | nil => rfl
  | cons e t ih =>
    obtain ⟨a, v⟩ := e
    have ht := (keysRise_cons a v t).mp h
    by_cases hp : p (a, v) = true
    · rw [List.filter_cons_of_pos hp]
      exact (keysRise_cons a v _).mpr ⟨allAbove_filter p ht.1, ih ht.2⟩
    · rw [List.filter_cons_of_neg hp]
      exact ih ht.2

theorem get?_filter_rise {α : Type} (t : Sparse α) (p : Nat × α → Bool) (h : keysRise t = true) (k : Nat) :
    Sparse.get? (t.filter p) k = (Sparse.get? t k).filter (fun v => p (k, v)) := by
  induction t with
  | nil => rfl
  | cons e t ih =>
    obtain ⟨a, v⟩ := e
    have ht := (keysRise_cons a v t).mp h
    by_cases ha : a = k
    · subst ha
      rw [get?_cons_self]
      by_cases hp : p (a, v) = true
      · rw [List.filter_cons_of_pos hp, get?_cons_self]; simp [Option.filter, hp]
      · rw [List.filter_cons_of_neg hp, get?_above (allAbove_filter p ht.1)]; simp [Option.filter, hp]
    · rw [get?_cons_ne v t ha]
      by_cases hp : p (a, v) = true
      · rw [List.filter_cons_of_pos hp, get?_cons_ne v _ ha, ih ht.2]
      · rw [List.filter_cons_of_neg hp, ih ht.2]

theorem canonical_settleMap {α : Type} [DecidableEq α] (d : Nat → Option α) (t : Sparse α) : canonical d (settleMap d t) = true := by
  simp only [canonical, settleMap, Bool.and_eq_true]
  exact ⟨keysRise_filter _ _ (keysRise_sortKeys t), by
    simp only [List.all_eq_true]
    exact fun e he => (List.mem_filter.mp he).2⟩

/-- A settled table means what the table meant: an entry it drops held the value of an unlisted key. -/
theorem getD_settleMap {α : Type} [DecidableEq α] (d : Nat → α) (t : Sparse α) (k : Nat) :
    (Sparse.get? (settleMap (fun a => some (d a)) t) k).getD (d k) = (Sparse.get? t k).getD (d k) := by
  unfold settleMap
  rw [get?_filter_rise _ _ (keysRise_sortKeys t), get?_sortKeys]
  cases h : Sparse.get? t k with
  | none => rfl
  | some v =>
    by_cases hv : d k = v
    · subst hv; simp [Option.filter]
    · simp [Option.filter, hv]

/-! ## Bit fields -/

theorem bits_lt (v lo w : Nat) : bits v lo w < 2 ^ w := Nat.mod_lt _ (Nat.two_pow_pos w)

theorem bits_eq_div (v lo w : Nat) : bits v lo w = v / 2 ^ lo % 2 ^ w := by simp [bits, Nat.shiftRight_eq_div_pow]

theorem putBits_eq (v lo w x : Nat) :
    putBits v lo w x = v % 2 ^ lo + (x % 2 ^ w + v / 2 ^ (lo + w) * 2 ^ w) * 2 ^ lo := by
  unfold putBits
  rw [Nat.shiftRight_eq_div_pow, Nat.add_mul, Nat.mul_assoc, ← Nat.pow_add, Nat.add_comm w lo, Nat.add_assoc]

/-- A field just written reads back. -/
theorem bits_putBits_self (v lo w x : Nat) : bits (putBits v lo w x) lo w = x % 2 ^ w := by
  rw [bits_eq_div, putBits_eq, Nat.add_mul_div_right _ _ (Nat.two_pow_pos lo),
    Nat.div_eq_of_lt (Nat.mod_lt _ (Nat.two_pow_pos lo)), Nat.zero_add, Nat.add_mul_mod_self_right, Nat.mod_mod]

theorem putBits_div_above (v lo w x : Nat) : putBits v lo w x / 2 ^ (lo + w) = v / 2 ^ (lo + w) := by
  unfold putBits
  rw [Nat.shiftRight_eq_div_pow, Nat.add_mul_div_right _ _ (Nat.two_pow_pos _)]
  have h1 : v % 2 ^ lo < 2 ^ lo := Nat.mod_lt _ (Nat.two_pow_pos _)
  have h2 : x % 2 ^ w < 2 ^ w := Nat.mod_lt _ (Nat.two_pow_pos _)
  have h3 : v % 2 ^ lo + x % 2 ^ w * 2 ^ lo < 2 ^ (lo + w) := by
    rw [Nat.pow_add]
    calc v % 2 ^ lo + x % 2 ^ w * 2 ^ lo < 2 ^ lo + x % 2 ^ w * 2 ^ lo := by omega
      _ = (x % 2 ^ w + 1) * 2 ^ lo := by ring
      _ ≤ 2 ^ w * 2 ^ lo := Nat.mul_le_mul_right _ h2
      _ = 2 ^ lo * 2 ^ w := Nat.mul_comm _ _
  rw [Nat.div_eq_of_lt h3, Nat.zero_add]

theorem putBits_mod_below (v lo w x : Nat) : putBits v lo w x % 2 ^ lo = v % 2 ^ lo := by
  rw [putBits_eq, Nat.add_mul_mod_self_right, Nat.mod_mod]

theorem bits_mod (v lo w n : Nat) (h : lo + w ≤ n) : bits (v % 2 ^ n) lo w = bits v lo w := by
  obtain ⟨k, rfl⟩ := Nat.exists_eq_add_of_le h
  rw [bits_eq_div, bits_eq_div, Nat.add_assoc lo w k, Nat.pow_add, Nat.mod_mul_right_div_self, Nat.pow_add,
    Nat.mod_mul_right_mod]

/-- A field above the one written keeps its value. -/
theorem bits_putBits_above (v lo w x lo' w' : Nat) (h : lo + w ≤ lo') : bits (putBits v lo w x) lo' w' = bits v lo' w' := by
  obtain ⟨k, rfl⟩ := Nat.exists_eq_add_of_le h
  rw [bits_eq_div, bits_eq_div, Nat.pow_add, ← Nat.div_div_eq_div_mul, putBits_div_above, Nat.div_div_eq_div_mul]

/-- A field below the one written keeps its value. -/
theorem bits_putBits_below (v lo w x lo' w' : Nat) (h : lo' + w' ≤ lo) : bits (putBits v lo w x) lo' w' = bits v lo' w' := by
  rw [← bits_mod _ lo' w' lo h, putBits_mod_below, bits_mod _ lo' w' lo h]

theorem putBits_lt (v lo w x n : Nat) (hv : v < 2 ^ n) (h : lo + w ≤ n) : putBits v lo w x < 2 ^ n := by
  obtain ⟨k, rfl⟩ := Nat.exists_eq_add_of_le h
  have h1 := putBits_div_above v lo w x
  have h2 : putBits v lo w x % 2 ^ (lo + w) < 2 ^ (lo + w) := Nat.mod_lt _ (Nat.two_pow_pos _)
  have h3 : v / 2 ^ (lo + w) < 2 ^ k := by
    rw [Nat.div_lt_iff_lt_mul (Nat.two_pow_pos _), ← Nat.pow_add, Nat.add_comm k]
    exact hv
  have h4 := Nat.div_add_mod (putBits v lo w x) (2 ^ (lo + w))
  rw [h1] at h4
  calc putBits v lo w x = 2 ^ (lo + w) * (v / 2 ^ (lo + w)) + putBits v lo w x % 2 ^ (lo + w) := h4.symm
    _ < 2 ^ (lo + w) * (v / 2 ^ (lo + w)) + 2 ^ (lo + w) := by omega
    _ = 2 ^ (lo + w) * (v / 2 ^ (lo + w) + 1) := by ring
    _ ≤ 2 ^ (lo + w) * 2 ^ k := Nat.mul_le_mul_left _ h3
    _ = 2 ^ (lo + w + k) := by rw [Nat.pow_add (2) (lo + w) k]

end Sys2Proof.Machine
end

