-- ==== Sys2Proof/Laws/State.lean ====
section
/-! SUPPORT. Laws of State and of its updates: what each shared update leaves, field by field, and what the registers and their fields
read after a write. -/

namespace Sys2Proof.Machine

open Sys2Proof

/-! ## A register is written -/

@[simp] theorem setReg_out (m : Mod) (a : Nat) (w : Word) : (m.setReg a w).out = m.out := rfl
@[simp] theorem setReg_mem (m : Mod) (a : Nat) (w : Word) : (m.setReg a w).mem = m.mem := rfl
@[simp] theorem setReg_fresh (m : Mod) (a : Nat) (w : Word) : (m.setReg a w).fresh = m.fresh := rfl
@[simp] theorem setReg_evSeq (m : Mod) (a : Nat) (w : Word) : (m.setReg a w).evSeq = m.evSeq := rfl
@[simp] theorem setReg_evStage (m : Mod) (a : Nat) (w : Word) : (m.setReg a w).evStage = m.evStage := rfl
@[simp] theorem setReg_sram (m : Mod) (a : Nat) (w : Word) : (m.setReg a w).sram = m.sram := rfl
@[simp] theorem setReg_mc (m : Mod) (a : Nat) (w : Word) : (m.setReg a w).mc = m.mc := rfl
@[simp] theorem setReg_lpNext (m : Mod) (a : Nat) (w : Word) : (m.setReg a w).lpNext = m.lpNext := rfl
@[simp] theorem setReg_och (m : Mod) (a : Nat) (w : Word) : (m.setReg a w).och = m.och := rfl
@[simp] theorem setReg_ochSrc (m : Mod) (a : Nat) (w : Word) : (m.setReg a w).ochSrc = m.ochSrc := rfl
@[simp] theorem setReg_regul (m : Mod) (a : Nat) (w : Word) : (m.setReg a w).regul = m.regul := rfl
@[simp] theorem setReg_lines (m : Mod) (a : Nat) (w : Word) : (m.setReg a w).lines = m.lines := rfl
@[simp] theorem setReg_dir (m : Mod) (a : Nat) (w : Word) : (m.setReg a w).dir = m.dir := rfl
@[simp] theorem setReg_retry (m : Mod) (a : Nat) (w : Word) : (m.setReg a w).retry = m.retry := rfl
@[simp] theorem setReg_reqSrc (m : Mod) (a : Nat) (w : Word) : (m.setReg a w).reqSrc = m.reqSrc := rfl
@[simp] theorem setReg_stale (m : Mod) (a : Nat) (w : Word) : (m.setReg a w).stale = m.stale := rfl
@[simp] theorem setReg_pushDue (m : Mod) (a : Nat) (w : Word) : (m.setReg a w).pushDue = m.pushDue := rfl
@[simp] theorem setReg_poisonDue (m : Mod) (a : Nat) (w : Word) : (m.setReg a w).poisonDue = m.poisonDue := rfl
@[simp] theorem setReg_retryFilled (m : Mod) (a : Nat) (w : Word) : (m.setReg a w).retryFilled = m.retryFilled := rfl
@[simp] theorem setReg_net (m : Mod) (a : Nat) (w : Word) : (m.setReg a w).net = m.net := rfl
@[simp] theorem setReg_ncAcks (m : Mod) (a : Nat) (w : Word) : (m.setReg a w).ncAcks = m.ncAcks := rfl
@[simp] theorem setReg_alert (m : Mod) (a : Nat) (w : Word) : (m.setReg a w).alert = m.alert := rfl
@[simp] theorem setReg_alertMask (m : Mod) (a : Nat) (w : Word) : (m.setReg a w).alertMask = m.alertMask := rfl
@[simp] theorem setReg_alertPin (m : Mod) (a : Nat) (w : Word) : (m.setReg a w).alertPin = m.alertPin := rfl
@[simp] theorem setReg_araRead (m : Mod) (a : Nat) (w : Word) : (m.setReg a w).araRead = m.araRead := rfl
@[simp] theorem setReg_statusLatch (m : Mod) (a : Nat) (w : Word) : (m.setReg a w).statusLatch = m.statusLatch := rfl
@[simp] theorem setReg_locate (m : Mod) (a : Nat) (w : Word) : (m.setReg a w).locate = m.locate := rfl
@[simp] theorem setReg_operatorKey (m : Mod) (a : Nat) (w : Word) : (m.setReg a w).operatorKey = m.operatorKey := rfl
@[simp] theorem setReg_newOperatorKey (m : Mod) (a : Nat) (w : Word) : (m.setReg a w).newOperatorKey = m.newOperatorKey := rfl
@[simp] theorem setReg_serviceKey (m : Mod) (a : Nat) (w : Word) : (m.setReg a w).serviceKey = m.serviceKey := rfl
@[simp] theorem setReg_minSvn (m : Mod) (a : Nat) (w : Word) : (m.setReg a w).minSvn = m.minSvn := rfl
@[simp] theorem setReg_svnCommit (m : Mod) (a : Nat) (w : Word) : (m.setReg a w).svnCommit = m.svnCommit := rfl
@[simp] theorem setReg_runVersion (m : Mod) (a : Nat) (w : Word) : (m.setReg a w).runVersion = m.runVersion := rfl
@[simp] theorem setReg_outOfService (m : Mod) (a : Nat) (w : Word) : (m.setReg a w).outOfService = m.outOfService := rfl
@[simp] theorem setReg_bistPassed (m : Mod) (a : Nat) (w : Word) : (m.setReg a w).bistPassed = m.bistPassed := rfl
@[simp] theorem setReg_cfgActive (m : Mod) (a : Nat) (w : Word) : (m.setReg a w).cfgActive = m.cfgActive := rfl
@[simp] theorem setReg_cfgNode (m : Mod) (a : Nat) (w : Word) : (m.setReg a w).cfgNode = m.cfgNode := rfl
@[simp] theorem setReg_bootPresent (m : Mod) (a : Nat) (w : Word) : (m.setReg a w).bootPresent = m.bootPresent := rfl
@[simp] theorem setReg_repairLists (m : Mod) (a : Nat) (w : Word) : (m.setReg a w).repairLists = m.repairLists := rfl
@[simp] theorem setReg_wordLists (m : Mod) (a : Nat) (w : Word) : (m.setReg a w).wordLists = m.wordLists := rfl
@[simp] theorem setReg_slotId (m : Mod) (a : Nat) (w : Word) : (m.setReg a w).slotId = m.slotId := rfl
@[simp] theorem setReg_causes (m : Mod) (a : Nat) (w : Word) : (m.setReg a w).causes = m.causes := rfl
@[simp] theorem setReg_powerOns (m : Mod) (a : Nat) (w : Word) : (m.setReg a w).powerOns = m.powerOns := rfl
@[simp] theorem setReg_topSeq (m : Mod) (a : Nat) (w : Word) : (m.setReg a w).topSeq = m.topSeq := rfl
@[simp] theorem setReg_authEvent (m : Mod) (a : Nat) (w : Word) : (m.setReg a w).authEvent = m.authEvent := rfl
@[simp] theorem setReg_rot (m : Mod) (a : Nat) (w : Word) : (m.setReg a w).rot = m.rot := rfl
@[simp] theorem setReg_svcRun (m : Mod) (a : Nat) (w : Word) : (m.setReg a w).svcRun = m.svcRun := rfl
@[simp] theorem setReg_svcq (m : Mod) (a : Nat) (w : Word) : (m.setReg a w).svcq = m.svcq := rfl
@[simp] theorem setReg_svcResets (m : Mod) (a : Nat) (w : Word) : (m.setReg a w).svcResets = m.svcResets := rfl
@[simp] theorem setReg_mgdHeld (m : Mod) (a : Nat) (w : Word) : (m.setReg a w).mgdHeld = m.mgdHeld := rfl
@[simp] theorem setReg_mgdStopped (m : Mod) (a : Nat) (w : Word) : (m.setReg a w).mgdStopped = m.mgdStopped := rfl
@[simp] theorem setReg_mgdLosses (m : Mod) (a : Nat) (w : Word) : (m.setReg a w).mgdLosses = m.mgdLosses := rfl
@[simp] theorem setReg_link (m : Mod) (a : Nat) (w : Word) : (m.setReg a w).link = m.link := rfl
@[simp] theorem setReg_state (m : Mod) (a : Nat) (w : Word) : (m.setReg a w).state = m.state := rfl
@[simp] theorem setReg_islandReady (m : Mod) (a : Nat) (w : Word) : (m.setReg a w).islandReady = m.islandReady := rfl
@[simp] theorem setReg_pwrEn (m : Mod) (a : Nat) (w : Word) : (m.setReg a w).pwrEn = m.pwrEn := rfl
@[simp] theorem setReg_enIgnored (m : Mod) (a : Nat) (w : Word) : (m.setReg a w).enIgnored = m.enIgnored := rfl
@[simp] theorem setReg_vinOk (m : Mod) (a : Nat) (w : Word) : (m.setReg a w).vinOk = m.vinOk := rfl
@[simp] theorem setReg_rstN (m : Mod) (a : Nat) (w : Word) : (m.setReg a w).rstN = m.rstN := rfl
@[simp] theorem setReg_pwrgd (m : Mod) (a : Nat) (w : Word) : (m.setReg a w).pwrgd = m.pwrgd := rfl
@[simp] theorem setReg_railGroup (m : Mod) (a : Nat) (w : Word) : (m.setReg a w).railGroup = m.railGroup := rfl
@[simp] theorem setReg_tripped (m : Mod) (a : Nat) (w : Word) : (m.setReg a w).tripped = m.tripped := rfl
@[simp] theorem setReg_tripBlink (m : Mod) (a : Nat) (w : Word) : (m.setReg a w).tripBlink = m.tripBlink := rfl
@[simp] theorem setReg_tripReport (m : Mod) (a : Nat) (w : Word) : (m.setReg a w).tripReport = m.tripReport := rfl
@[simp] theorem setReg_railReport (m : Mod) (a : Nat) (w : Word) : (m.setReg a w).railReport = m.railReport := rfl
@[simp] theorem setReg_laserLow (m : Mod) (a : Nat) (w : Word) : (m.setReg a w).laserLow = m.laserLow := rfl
@[simp] theorem setReg_laserQual (m : Mod) (a : Nat) (w : Word) : (m.setReg a w).laserQual = m.laserQual := rfl
@[simp] theorem setReg_laserSaved (m : Mod) (a : Nat) (w : Word) : (m.setReg a w).laserSaved = m.laserSaved := rfl
@[simp] theorem setReg_coolant (m : Mod) (a : Nat) (w : Word) : (m.setReg a w).coolant = m.coolant := rfl
@[simp] theorem setReg_coolantBad (m : Mod) (a : Nat) (w : Word) : (m.setReg a w).coolantBad = m.coolantBad := rfl
@[simp] theorem setReg_powerOnBoot (m : Mod) (a : Nat) (w : Word) : (m.setReg a w).powerOnBoot = m.powerOnBoot := rfl
@[simp] theorem setReg_bootStopped (m : Mod) (a : Nat) (w : Word) : (m.setReg a w).bootStopped = m.bootStopped := rfl
@[simp] theorem setReg_bistStop (m : Mod) (a : Nat) (w : Word) : (m.setReg a w).bistStop = m.bistStop := rfl
@[simp] theorem setReg_resets (m : Mod) (a : Nat) (w : Word) : (m.setReg a w).resets = m.resets := rfl
@[simp] theorem setReg_lostDies (m : Mod) (a : Nat) (w : Word) : (m.setReg a w).lostDies = m.lostDies := rfl
@[simp] theorem setReg_heldDies (m : Mod) (a : Nat) (w : Word) : (m.setReg a w).heldDies = m.heldDies := rfl
@[simp] theorem setReg_tests (m : Mod) (a : Nat) (w : Word) : (m.setReg a w).tests = m.tests := rfl
@[simp] theorem setReg_ftests (m : Mod) (a : Nat) (w : Word) : (m.setReg a w).ftests = m.ftests := rfl
@[simp] theorem setReg_taps (m : Mod) (a : Nat) (w : Word) : (m.setReg a w).taps = m.taps := rfl
@[simp] theorem setReg_stack (m : Mod) (a : Nat) (w : Word) : (m.setReg a w).stack = m.stack := rfl
@[simp] theorem setReg_pwrWho (m : Mod) (a : Nat) (w : Word) : (m.setReg a w).pwrWho = m.pwrWho := rfl
@[simp] theorem setReg_fab (m : Mod) (a : Nat) (w : Word) : (m.setReg a w).fab = m.fab := rfl
@[simp] theorem setReg_lanes (m : Mod) (a : Nat) (w : Word) : (m.setReg a w).lanes = m.lanes := rfl
@[simp] theorem setReg_laserOk (m : Mod) (a : Nat) (w : Word) : (m.setReg a w).laserOk = m.laserOk := rfl
@[simp] theorem setReg_warming (m : Mod) (a : Nat) (w : Word) : (m.setReg a w).warming = m.warming := rfl
@[simp] theorem setReg_dark (m : Mod) (a : Nat) (w : Word) : (m.setReg a w).dark = m.dark := rfl
@[simp] theorem setReg_opDone (m : Mod) (a : Nat) (w : Word) : (m.setReg a w).opDone = m.opDone := rfl
@[simp] theorem setReg_coreq (m : Mod) (a : Nat) (w : Word) : (m.setReg a w).coreq = m.coreq := rfl
@[simp] theorem setReg_uncached (m : Mod) (a : Nat) (w : Word) : (m.setReg a w).uncached = m.uncached := rfl
@[simp] theorem setReg_dports (m : Mod) (a : Nat) (w : Word) : (m.setReg a w).dports = m.dports := rfl
@[simp] theorem setReg_ctxs (m : Mod) (a : Nat) (w : Word) : (m.setReg a w).ctxs = m.ctxs := rfl
@[simp] theorem setReg_active (m : Mod) (a : Nat) (w : Word) : (m.setReg a w).active = m.active := rfl

/-! ## A field is written -/

@[simp] theorem setFld_out (m : Mod) (f : Fld) (v i k j : Nat) : (m.setFld f v i k j).out = m.out := rfl
@[simp] theorem setFld_mem (m : Mod) (f : Fld) (v i k j : Nat) : (m.setFld f v i k j).mem = m.mem := rfl
@[simp] theorem setFld_fresh (m : Mod) (f : Fld) (v i k j : Nat) : (m.setFld f v i k j).fresh = m.fresh := rfl
@[simp] theorem setFld_evSeq (m : Mod) (f : Fld) (v i k j : Nat) : (m.setFld f v i k j).evSeq = m.evSeq := rfl
@[simp] theorem setFld_evStage (m : Mod) (f : Fld) (v i k j : Nat) : (m.setFld f v i k j).evStage = m.evStage := rfl
@[simp] theorem setFld_sram (m : Mod) (f : Fld) (v i k j : Nat) : (m.setFld f v i k j).sram = m.sram := rfl
@[simp] theorem setFld_mc (m : Mod) (f : Fld) (v i k j : Nat) : (m.setFld f v i k j).mc = m.mc := rfl
@[simp] theorem setFld_lpNext (m : Mod) (f : Fld) (v i k j : Nat) : (m.setFld f v i k j).lpNext = m.lpNext := rfl
@[simp] theorem setFld_och (m : Mod) (f : Fld) (v i k j : Nat) : (m.setFld f v i k j).och = m.och := rfl
@[simp] theorem setFld_ochSrc (m : Mod) (f : Fld) (v i k j : Nat) : (m.setFld f v i k j).ochSrc = m.ochSrc := rfl
@[simp] theorem setFld_regul (m : Mod) (f : Fld) (v i k j : Nat) : (m.setFld f v i k j).regul = m.regul := rfl
@[simp] theorem setFld_lines (m : Mod) (f : Fld) (v i k j : Nat) : (m.setFld f v i k j).lines = m.lines := rfl
@[simp] theorem setFld_dir (m : Mod) (f : Fld) (v i k j : Nat) : (m.setFld f v i k j).dir = m.dir := rfl
@[simp] theorem setFld_retry (m : Mod) (f : Fld) (v i k j : Nat) : (m.setFld f v i k j).retry = m.retry := rfl
@[simp] theorem setFld_reqSrc (m : Mod) (f : Fld) (v i k j : Nat) : (m.setFld f v i k j).reqSrc = m.reqSrc := rfl
@[simp] theorem setFld_stale (m : Mod) (f : Fld) (v i k j : Nat) : (m.setFld f v i k j).stale = m.stale := rfl
@[simp] theorem setFld_pushDue (m : Mod) (f : Fld) (v i k j : Nat) : (m.setFld f v i k j).pushDue = m.pushDue := rfl
@[simp] theorem setFld_poisonDue (m : Mod) (f : Fld) (v i k j : Nat) : (m.setFld f v i k j).poisonDue = m.poisonDue := rfl
@[simp] theorem setFld_retryFilled (m : Mod) (f : Fld) (v i k j : Nat) : (m.setFld f v i k j).retryFilled = m.retryFilled := rfl
@[simp] theorem setFld_net (m : Mod) (f : Fld) (v i k j : Nat) : (m.setFld f v i k j).net = m.net := rfl
@[simp] theorem setFld_ncAcks (m : Mod) (f : Fld) (v i k j : Nat) : (m.setFld f v i k j).ncAcks = m.ncAcks := rfl
@[simp] theorem setFld_alert (m : Mod) (f : Fld) (v i k j : Nat) : (m.setFld f v i k j).alert = m.alert := rfl
@[simp] theorem setFld_alertMask (m : Mod) (f : Fld) (v i k j : Nat) : (m.setFld f v i k j).alertMask = m.alertMask := rfl
@[simp] theorem setFld_alertPin (m : Mod) (f : Fld) (v i k j : Nat) : (m.setFld f v i k j).alertPin = m.alertPin := rfl
@[simp] theorem setFld_araRead (m : Mod) (f : Fld) (v i k j : Nat) : (m.setFld f v i k j).araRead = m.araRead := rfl
@[simp] theorem setFld_statusLatch (m : Mod) (f : Fld) (v i k j : Nat) : (m.setFld f v i k j).statusLatch = m.statusLatch := rfl
@[simp] theorem setFld_locate (m : Mod) (f : Fld) (v i k j : Nat) : (m.setFld f v i k j).locate = m.locate := rfl
@[simp] theorem setFld_operatorKey (m : Mod) (f : Fld) (v i k j : Nat) : (m.setFld f v i k j).operatorKey = m.operatorKey := rfl
@[simp] theorem setFld_newOperatorKey (m : Mod) (f : Fld) (v i k j : Nat) : (m.setFld f v i k j).newOperatorKey = m.newOperatorKey := rfl
@[simp] theorem setFld_serviceKey (m : Mod) (f : Fld) (v i k j : Nat) : (m.setFld f v i k j).serviceKey = m.serviceKey := rfl
@[simp] theorem setFld_minSvn (m : Mod) (f : Fld) (v i k j : Nat) : (m.setFld f v i k j).minSvn = m.minSvn := rfl
@[simp] theorem setFld_svnCommit (m : Mod) (f : Fld) (v i k j : Nat) : (m.setFld f v i k j).svnCommit = m.svnCommit := rfl
@[simp] theorem setFld_runVersion (m : Mod) (f : Fld) (v i k j : Nat) : (m.setFld f v i k j).runVersion = m.runVersion := rfl
@[simp] theorem setFld_outOfService (m : Mod) (f : Fld) (v i k j : Nat) : (m.setFld f v i k j).outOfService = m.outOfService := rfl
@[simp] theorem setFld_bistPassed (m : Mod) (f : Fld) (v i k j : Nat) : (m.setFld f v i k j).bistPassed = m.bistPassed := rfl
@[simp] theorem setFld_cfgActive (m : Mod) (f : Fld) (v i k j : Nat) : (m.setFld f v i k j).cfgActive = m.cfgActive := rfl
@[simp] theorem setFld_cfgNode (m : Mod) (f : Fld) (v i k j : Nat) : (m.setFld f v i k j).cfgNode = m.cfgNode := rfl
@[simp] theorem setFld_bootPresent (m : Mod) (f : Fld) (v i k j : Nat) : (m.setFld f v i k j).bootPresent = m.bootPresent := rfl
@[simp] theorem setFld_repairLists (m : Mod) (f : Fld) (v i k j : Nat) : (m.setFld f v i k j).repairLists = m.repairLists := rfl
@[simp] theorem setFld_wordLists (m : Mod) (f : Fld) (v i k j : Nat) : (m.setFld f v i k j).wordLists = m.wordLists := rfl
@[simp] theorem setFld_slotId (m : Mod) (f : Fld) (v i k j : Nat) : (m.setFld f v i k j).slotId = m.slotId := rfl
@[simp] theorem setFld_causes (m : Mod) (f : Fld) (v i k j : Nat) : (m.setFld f v i k j).causes = m.causes := rfl
@[simp] theorem setFld_powerOns (m : Mod) (f : Fld) (v i k j : Nat) : (m.setFld f v i k j).powerOns = m.powerOns := rfl
@[simp] theorem setFld_topSeq (m : Mod) (f : Fld) (v i k j : Nat) : (m.setFld f v i k j).topSeq = m.topSeq := rfl
@[simp] theorem setFld_authEvent (m : Mod) (f : Fld) (v i k j : Nat) : (m.setFld f v i k j).authEvent = m.authEvent := rfl
@[simp] theorem setFld_rot (m : Mod) (f : Fld) (v i k j : Nat) : (m.setFld f v i k j).rot = m.rot := rfl
@[simp] theorem setFld_svcRun (m : Mod) (f : Fld) (v i k j : Nat) : (m.setFld f v i k j).svcRun = m.svcRun := rfl
@[simp] theorem setFld_svcq (m : Mod) (f : Fld) (v i k j : Nat) : (m.setFld f v i k j).svcq = m.svcq := rfl
@[simp] theorem setFld_svcResets (m : Mod) (f : Fld) (v i k j : Nat) : (m.setFld f v i k j).svcResets = m.svcResets := rfl
@[simp] theorem setFld_mgdHeld (m : Mod) (f : Fld) (v i k j : Nat) : (m.setFld f v i k j).mgdHeld = m.mgdHeld := rfl
@[simp] theorem setFld_mgdStopped (m : Mod) (f : Fld) (v i k j : Nat) : (m.setFld f v i k j).mgdStopped = m.mgdStopped := rfl
@[simp] theorem setFld_mgdLosses (m : Mod) (f : Fld) (v i k j : Nat) : (m.setFld f v i k j).mgdLosses = m.mgdLosses := rfl
@[simp] theorem setFld_link (m : Mod) (f : Fld) (v i k j : Nat) : (m.setFld f v i k j).link = m.link := rfl
@[simp] theorem setFld_state (m : Mod) (f : Fld) (v i k j : Nat) : (m.setFld f v i k j).state = m.state := rfl
@[simp] theorem setFld_islandReady (m : Mod) (f : Fld) (v i k j : Nat) : (m.setFld f v i k j).islandReady = m.islandReady := rfl
@[simp] theorem setFld_pwrEn (m : Mod) (f : Fld) (v i k j : Nat) : (m.setFld f v i k j).pwrEn = m.pwrEn := rfl
@[simp] theorem setFld_enIgnored (m : Mod) (f : Fld) (v i k j : Nat) : (m.setFld f v i k j).enIgnored = m.enIgnored := rfl
@[simp] theorem setFld_vinOk (m : Mod) (f : Fld) (v i k j : Nat) : (m.setFld f v i k j).vinOk = m.vinOk := rfl
@[simp] theorem setFld_rstN (m : Mod) (f : Fld) (v i k j : Nat) : (m.setFld f v i k j).rstN = m.rstN := rfl
@[simp] theorem setFld_pwrgd (m : Mod) (f : Fld) (v i k j : Nat) : (m.setFld f v i k j).pwrgd = m.pwrgd := rfl
@[simp] theorem setFld_railGroup (m : Mod) (f : Fld) (v i k j : Nat) : (m.setFld f v i k j).railGroup = m.railGroup := rfl
@[simp] theorem setFld_tripped (m : Mod) (f : Fld) (v i k j : Nat) : (m.setFld f v i k j).tripped = m.tripped := rfl
@[simp] theorem setFld_tripBlink (m : Mod) (f : Fld) (v i k j : Nat) : (m.setFld f v i k j).tripBlink = m.tripBlink := rfl
@[simp] theorem setFld_tripReport (m : Mod) (f : Fld) (v i k j : Nat) : (m.setFld f v i k j).tripReport = m.tripReport := rfl
@[simp] theorem setFld_railReport (m : Mod) (f : Fld) (v i k j : Nat) : (m.setFld f v i k j).railReport = m.railReport := rfl
@[simp] theorem setFld_laserLow (m : Mod) (f : Fld) (v i k j : Nat) : (m.setFld f v i k j).laserLow = m.laserLow := rfl
@[simp] theorem setFld_laserQual (m : Mod) (f : Fld) (v i k j : Nat) : (m.setFld f v i k j).laserQual = m.laserQual := rfl
@[simp] theorem setFld_laserSaved (m : Mod) (f : Fld) (v i k j : Nat) : (m.setFld f v i k j).laserSaved = m.laserSaved := rfl
@[simp] theorem setFld_coolant (m : Mod) (f : Fld) (v i k j : Nat) : (m.setFld f v i k j).coolant = m.coolant := rfl
@[simp] theorem setFld_coolantBad (m : Mod) (f : Fld) (v i k j : Nat) : (m.setFld f v i k j).coolantBad = m.coolantBad := rfl
@[simp] theorem setFld_powerOnBoot (m : Mod) (f : Fld) (v i k j : Nat) : (m.setFld f v i k j).powerOnBoot = m.powerOnBoot := rfl
@[simp] theorem setFld_bootStopped (m : Mod) (f : Fld) (v i k j : Nat) : (m.setFld f v i k j).bootStopped = m.bootStopped := rfl
@[simp] theorem setFld_bistStop (m : Mod) (f : Fld) (v i k j : Nat) : (m.setFld f v i k j).bistStop = m.bistStop := rfl
@[simp] theorem setFld_resets (m : Mod) (f : Fld) (v i k j : Nat) : (m.setFld f v i k j).resets = m.resets := rfl
@[simp] theorem setFld_lostDies (m : Mod) (f : Fld) (v i k j : Nat) : (m.setFld f v i k j).lostDies = m.lostDies := rfl
@[simp] theorem setFld_heldDies (m : Mod) (f : Fld) (v i k j : Nat) : (m.setFld f v i k j).heldDies = m.heldDies := rfl
@[simp] theorem setFld_tests (m : Mod) (f : Fld) (v i k j : Nat) : (m.setFld f v i k j).tests = m.tests := rfl
@[simp] theorem setFld_ftests (m : Mod) (f : Fld) (v i k j : Nat) : (m.setFld f v i k j).ftests = m.ftests := rfl
@[simp] theorem setFld_taps (m : Mod) (f : Fld) (v i k j : Nat) : (m.setFld f v i k j).taps = m.taps := rfl
@[simp] theorem setFld_stack (m : Mod) (f : Fld) (v i k j : Nat) : (m.setFld f v i k j).stack = m.stack := rfl
@[simp] theorem setFld_pwrWho (m : Mod) (f : Fld) (v i k j : Nat) : (m.setFld f v i k j).pwrWho = m.pwrWho := rfl
@[simp] theorem setFld_fab (m : Mod) (f : Fld) (v i k j : Nat) : (m.setFld f v i k j).fab = m.fab := rfl
@[simp] theorem setFld_lanes (m : Mod) (f : Fld) (v i k j : Nat) : (m.setFld f v i k j).lanes = m.lanes := rfl
@[simp] theorem setFld_laserOk (m : Mod) (f : Fld) (v i k j : Nat) : (m.setFld f v i k j).laserOk = m.laserOk := rfl
@[simp] theorem setFld_warming (m : Mod) (f : Fld) (v i k j : Nat) : (m.setFld f v i k j).warming = m.warming := rfl
@[simp] theorem setFld_dark (m : Mod) (f : Fld) (v i k j : Nat) : (m.setFld f v i k j).dark = m.dark := rfl
@[simp] theorem setFld_opDone (m : Mod) (f : Fld) (v i k j : Nat) : (m.setFld f v i k j).opDone = m.opDone := rfl
@[simp] theorem setFld_coreq (m : Mod) (f : Fld) (v i k j : Nat) : (m.setFld f v i k j).coreq = m.coreq := rfl
@[simp] theorem setFld_uncached (m : Mod) (f : Fld) (v i k j : Nat) : (m.setFld f v i k j).uncached = m.uncached := rfl
@[simp] theorem setFld_dports (m : Mod) (f : Fld) (v i k j : Nat) : (m.setFld f v i k j).dports = m.dports := rfl
@[simp] theorem setFld_ctxs (m : Mod) (f : Fld) (v i k j : Nat) : (m.setFld f v i k j).ctxs = m.ctxs := rfl
@[simp] theorem setFld_active (m : Mod) (f : Fld) (v i k j : Nat) : (m.setFld f v i k j).active = m.active := rfl

/-! ## An output -/

@[simp] theorem emit_regs (m : Mod) (o : Out) : (m.emit o).regs = m.regs := rfl
@[simp] theorem emit_mem (m : Mod) (o : Out) : (m.emit o).mem = m.mem := rfl
@[simp] theorem emit_fresh (m : Mod) (o : Out) : (m.emit o).fresh = m.fresh := rfl
@[simp] theorem emit_evSeq (m : Mod) (o : Out) : (m.emit o).evSeq = m.evSeq := rfl
@[simp] theorem emit_evStage (m : Mod) (o : Out) : (m.emit o).evStage = m.evStage := rfl
@[simp] theorem emit_sram (m : Mod) (o : Out) : (m.emit o).sram = m.sram := rfl
@[simp] theorem emit_mc (m : Mod) (o : Out) : (m.emit o).mc = m.mc := rfl
@[simp] theorem emit_lpNext (m : Mod) (o : Out) : (m.emit o).lpNext = m.lpNext := rfl
@[simp] theorem emit_och (m : Mod) (o : Out) : (m.emit o).och = m.och := rfl
@[simp] theorem emit_ochSrc (m : Mod) (o : Out) : (m.emit o).ochSrc = m.ochSrc := rfl
@[simp] theorem emit_regul (m : Mod) (o : Out) : (m.emit o).regul = m.regul := rfl
@[simp] theorem emit_lines (m : Mod) (o : Out) : (m.emit o).lines = m.lines := rfl
@[simp] theorem emit_dir (m : Mod) (o : Out) : (m.emit o).dir = m.dir := rfl
@[simp] theorem emit_retry (m : Mod) (o : Out) : (m.emit o).retry = m.retry := rfl
@[simp] theorem emit_reqSrc (m : Mod) (o : Out) : (m.emit o).reqSrc = m.reqSrc := rfl
@[simp] theorem emit_stale (m : Mod) (o : Out) : (m.emit o).stale = m.stale := rfl
@[simp] theorem emit_pushDue (m : Mod) (o : Out) : (m.emit o).pushDue = m.pushDue := rfl
@[simp] theorem emit_poisonDue (m : Mod) (o : Out) : (m.emit o).poisonDue = m.poisonDue := rfl
@[simp] theorem emit_retryFilled (m : Mod) (o : Out) : (m.emit o).retryFilled = m.retryFilled := rfl
@[simp] theorem emit_net (m : Mod) (o : Out) : (m.emit o).net = m.net := rfl
@[simp] theorem emit_ncAcks (m : Mod) (o : Out) : (m.emit o).ncAcks = m.ncAcks := rfl
@[simp] theorem emit_alert (m : Mod) (o : Out) : (m.emit o).alert = m.alert := rfl
@[simp] theorem emit_alertMask (m : Mod) (o : Out) : (m.emit o).alertMask = m.alertMask := rfl
@[simp] theorem emit_alertPin (m : Mod) (o : Out) : (m.emit o).alertPin = m.alertPin := rfl
@[simp] theorem emit_araRead (m : Mod) (o : Out) : (m.emit o).araRead = m.araRead := rfl
@[simp] theorem emit_statusLatch (m : Mod) (o : Out) : (m.emit o).statusLatch = m.statusLatch := rfl
@[simp] theorem emit_locate (m : Mod) (o : Out) : (m.emit o).locate = m.locate := rfl
@[simp] theorem emit_operatorKey (m : Mod) (o : Out) : (m.emit o).operatorKey = m.operatorKey := rfl
@[simp] theorem emit_newOperatorKey (m : Mod) (o : Out) : (m.emit o).newOperatorKey = m.newOperatorKey := rfl
@[simp] theorem emit_serviceKey (m : Mod) (o : Out) : (m.emit o).serviceKey = m.serviceKey := rfl
@[simp] theorem emit_minSvn (m : Mod) (o : Out) : (m.emit o).minSvn = m.minSvn := rfl
@[simp] theorem emit_svnCommit (m : Mod) (o : Out) : (m.emit o).svnCommit = m.svnCommit := rfl
@[simp] theorem emit_runVersion (m : Mod) (o : Out) : (m.emit o).runVersion = m.runVersion := rfl
@[simp] theorem emit_outOfService (m : Mod) (o : Out) : (m.emit o).outOfService = m.outOfService := rfl
@[simp] theorem emit_bistPassed (m : Mod) (o : Out) : (m.emit o).bistPassed = m.bistPassed := rfl
@[simp] theorem emit_cfgActive (m : Mod) (o : Out) : (m.emit o).cfgActive = m.cfgActive := rfl
@[simp] theorem emit_cfgNode (m : Mod) (o : Out) : (m.emit o).cfgNode = m.cfgNode := rfl
@[simp] theorem emit_bootPresent (m : Mod) (o : Out) : (m.emit o).bootPresent = m.bootPresent := rfl
@[simp] theorem emit_repairLists (m : Mod) (o : Out) : (m.emit o).repairLists = m.repairLists := rfl
@[simp] theorem emit_wordLists (m : Mod) (o : Out) : (m.emit o).wordLists = m.wordLists := rfl
@[simp] theorem emit_slotId (m : Mod) (o : Out) : (m.emit o).slotId = m.slotId := rfl
@[simp] theorem emit_causes (m : Mod) (o : Out) : (m.emit o).causes = m.causes := rfl
@[simp] theorem emit_powerOns (m : Mod) (o : Out) : (m.emit o).powerOns = m.powerOns := rfl
@[simp] theorem emit_topSeq (m : Mod) (o : Out) : (m.emit o).topSeq = m.topSeq := rfl
@[simp] theorem emit_authEvent (m : Mod) (o : Out) : (m.emit o).authEvent = m.authEvent := rfl
@[simp] theorem emit_rot (m : Mod) (o : Out) : (m.emit o).rot = m.rot := rfl
@[simp] theorem emit_svcRun (m : Mod) (o : Out) : (m.emit o).svcRun = m.svcRun := rfl
@[simp] theorem emit_svcq (m : Mod) (o : Out) : (m.emit o).svcq = m.svcq := rfl
@[simp] theorem emit_svcResets (m : Mod) (o : Out) : (m.emit o).svcResets = m.svcResets := rfl
@[simp] theorem emit_mgdHeld (m : Mod) (o : Out) : (m.emit o).mgdHeld = m.mgdHeld := rfl
@[simp] theorem emit_mgdStopped (m : Mod) (o : Out) : (m.emit o).mgdStopped = m.mgdStopped := rfl
@[simp] theorem emit_mgdLosses (m : Mod) (o : Out) : (m.emit o).mgdLosses = m.mgdLosses := rfl
@[simp] theorem emit_link (m : Mod) (o : Out) : (m.emit o).link = m.link := rfl
@[simp] theorem emit_state (m : Mod) (o : Out) : (m.emit o).state = m.state := rfl
@[simp] theorem emit_islandReady (m : Mod) (o : Out) : (m.emit o).islandReady = m.islandReady := rfl
@[simp] theorem emit_pwrEn (m : Mod) (o : Out) : (m.emit o).pwrEn = m.pwrEn := rfl
@[simp] theorem emit_enIgnored (m : Mod) (o : Out) : (m.emit o).enIgnored = m.enIgnored := rfl
@[simp] theorem emit_vinOk (m : Mod) (o : Out) : (m.emit o).vinOk = m.vinOk := rfl
@[simp] theorem emit_rstN (m : Mod) (o : Out) : (m.emit o).rstN = m.rstN := rfl
@[simp] theorem emit_pwrgd (m : Mod) (o : Out) : (m.emit o).pwrgd = m.pwrgd := rfl
@[simp] theorem emit_railGroup (m : Mod) (o : Out) : (m.emit o).railGroup = m.railGroup := rfl
@[simp] theorem emit_tripped (m : Mod) (o : Out) : (m.emit o).tripped = m.tripped := rfl
@[simp] theorem emit_tripBlink (m : Mod) (o : Out) : (m.emit o).tripBlink = m.tripBlink := rfl
@[simp] theorem emit_tripReport (m : Mod) (o : Out) : (m.emit o).tripReport = m.tripReport := rfl
@[simp] theorem emit_railReport (m : Mod) (o : Out) : (m.emit o).railReport = m.railReport := rfl
@[simp] theorem emit_laserLow (m : Mod) (o : Out) : (m.emit o).laserLow = m.laserLow := rfl
@[simp] theorem emit_laserQual (m : Mod) (o : Out) : (m.emit o).laserQual = m.laserQual := rfl
@[simp] theorem emit_laserSaved (m : Mod) (o : Out) : (m.emit o).laserSaved = m.laserSaved := rfl
@[simp] theorem emit_coolant (m : Mod) (o : Out) : (m.emit o).coolant = m.coolant := rfl
@[simp] theorem emit_coolantBad (m : Mod) (o : Out) : (m.emit o).coolantBad = m.coolantBad := rfl
@[simp] theorem emit_powerOnBoot (m : Mod) (o : Out) : (m.emit o).powerOnBoot = m.powerOnBoot := rfl
@[simp] theorem emit_bootStopped (m : Mod) (o : Out) : (m.emit o).bootStopped = m.bootStopped := rfl
@[simp] theorem emit_bistStop (m : Mod) (o : Out) : (m.emit o).bistStop = m.bistStop := rfl
@[simp] theorem emit_resets (m : Mod) (o : Out) : (m.emit o).resets = m.resets := rfl
@[simp] theorem emit_lostDies (m : Mod) (o : Out) : (m.emit o).lostDies = m.lostDies := rfl
@[simp] theorem emit_heldDies (m : Mod) (o : Out) : (m.emit o).heldDies = m.heldDies := rfl
@[simp] theorem emit_tests (m : Mod) (o : Out) : (m.emit o).tests = m.tests := rfl
@[simp] theorem emit_ftests (m : Mod) (o : Out) : (m.emit o).ftests = m.ftests := rfl
@[simp] theorem emit_taps (m : Mod) (o : Out) : (m.emit o).taps = m.taps := rfl
@[simp] theorem emit_stack (m : Mod) (o : Out) : (m.emit o).stack = m.stack := rfl
@[simp] theorem emit_pwrWho (m : Mod) (o : Out) : (m.emit o).pwrWho = m.pwrWho := rfl
@[simp] theorem emit_fab (m : Mod) (o : Out) : (m.emit o).fab = m.fab := rfl
@[simp] theorem emit_lanes (m : Mod) (o : Out) : (m.emit o).lanes = m.lanes := rfl
@[simp] theorem emit_laserOk (m : Mod) (o : Out) : (m.emit o).laserOk = m.laserOk := rfl
@[simp] theorem emit_warming (m : Mod) (o : Out) : (m.emit o).warming = m.warming := rfl
@[simp] theorem emit_dark (m : Mod) (o : Out) : (m.emit o).dark = m.dark := rfl
@[simp] theorem emit_opDone (m : Mod) (o : Out) : (m.emit o).opDone = m.opDone := rfl
@[simp] theorem emit_coreq (m : Mod) (o : Out) : (m.emit o).coreq = m.coreq := rfl
@[simp] theorem emit_uncached (m : Mod) (o : Out) : (m.emit o).uncached = m.uncached := rfl
@[simp] theorem emit_dports (m : Mod) (o : Out) : (m.emit o).dports = m.dports := rfl
@[simp] theorem emit_ctxs (m : Mod) (o : Out) : (m.emit o).ctxs = m.ctxs := rfl
@[simp] theorem emit_active (m : Mod) (o : Out) : (m.emit o).active = m.active := rfl

/-! ## The outputs are cleared -/

@[simp] theorem clearOut_regs (m : Mod) : (m.clearOut).regs = m.regs := rfl
@[simp] theorem clearOut_mem (m : Mod) : (m.clearOut).mem = m.mem := rfl
@[simp] theorem clearOut_fresh (m : Mod) : (m.clearOut).fresh = m.fresh := rfl
@[simp] theorem clearOut_evSeq (m : Mod) : (m.clearOut).evSeq = m.evSeq := rfl
@[simp] theorem clearOut_evStage (m : Mod) : (m.clearOut).evStage = m.evStage := rfl
@[simp] theorem clearOut_sram (m : Mod) : (m.clearOut).sram = m.sram := rfl
@[simp] theorem clearOut_mc (m : Mod) : (m.clearOut).mc = m.mc := rfl
@[simp] theorem clearOut_lpNext (m : Mod) : (m.clearOut).lpNext = m.lpNext := rfl
@[simp] theorem clearOut_och (m : Mod) : (m.clearOut).och = m.och := rfl
@[simp] theorem clearOut_ochSrc (m : Mod) : (m.clearOut).ochSrc = m.ochSrc := rfl
@[simp] theorem clearOut_regul (m : Mod) : (m.clearOut).regul = m.regul := rfl
@[simp] theorem clearOut_lines (m : Mod) : (m.clearOut).lines = m.lines := rfl
@[simp] theorem clearOut_dir (m : Mod) : (m.clearOut).dir = m.dir := rfl
@[simp] theorem clearOut_retry (m : Mod) : (m.clearOut).retry = m.retry := rfl
@[simp] theorem clearOut_reqSrc (m : Mod) : (m.clearOut).reqSrc = m.reqSrc := rfl
@[simp] theorem clearOut_stale (m : Mod) : (m.clearOut).stale = m.stale := rfl
@[simp] theorem clearOut_pushDue (m : Mod) : (m.clearOut).pushDue = m.pushDue := rfl
@[simp] theorem clearOut_poisonDue (m : Mod) : (m.clearOut).poisonDue = m.poisonDue := rfl
@[simp] theorem clearOut_retryFilled (m : Mod) : (m.clearOut).retryFilled = m.retryFilled := rfl
@[simp] theorem clearOut_net (m : Mod) : (m.clearOut).net = m.net := rfl
@[simp] theorem clearOut_ncAcks (m : Mod) : (m.clearOut).ncAcks = m.ncAcks := rfl
@[simp] theorem clearOut_alert (m : Mod) : (m.clearOut).alert = m.alert := rfl
@[simp] theorem clearOut_alertMask (m : Mod) : (m.clearOut).alertMask = m.alertMask := rfl
@[simp] theorem clearOut_alertPin (m : Mod) : (m.clearOut).alertPin = m.alertPin := rfl
@[simp] theorem clearOut_araRead (m : Mod) : (m.clearOut).araRead = m.araRead := rfl
@[simp] theorem clearOut_statusLatch (m : Mod) : (m.clearOut).statusLatch = m.statusLatch := rfl
@[simp] theorem clearOut_locate (m : Mod) : (m.clearOut).locate = m.locate := rfl
@[simp] theorem clearOut_operatorKey (m : Mod) : (m.clearOut).operatorKey = m.operatorKey := rfl
@[simp] theorem clearOut_newOperatorKey (m : Mod) : (m.clearOut).newOperatorKey = m.newOperatorKey := rfl
@[simp] theorem clearOut_serviceKey (m : Mod) : (m.clearOut).serviceKey = m.serviceKey := rfl
@[simp] theorem clearOut_minSvn (m : Mod) : (m.clearOut).minSvn = m.minSvn := rfl
@[simp] theorem clearOut_svnCommit (m : Mod) : (m.clearOut).svnCommit = m.svnCommit := rfl
@[simp] theorem clearOut_runVersion (m : Mod) : (m.clearOut).runVersion = m.runVersion := rfl
@[simp] theorem clearOut_outOfService (m : Mod) : (m.clearOut).outOfService = m.outOfService := rfl
@[simp] theorem clearOut_bistPassed (m : Mod) : (m.clearOut).bistPassed = m.bistPassed := rfl
@[simp] theorem clearOut_cfgActive (m : Mod) : (m.clearOut).cfgActive = m.cfgActive := rfl
@[simp] theorem clearOut_cfgNode (m : Mod) : (m.clearOut).cfgNode = m.cfgNode := rfl
@[simp] theorem clearOut_bootPresent (m : Mod) : (m.clearOut).bootPresent = m.bootPresent := rfl
@[simp] theorem clearOut_repairLists (m : Mod) : (m.clearOut).repairLists = m.repairLists := rfl
@[simp] theorem clearOut_wordLists (m : Mod) : (m.clearOut).wordLists = m.wordLists := rfl
@[simp] theorem clearOut_slotId (m : Mod) : (m.clearOut).slotId = m.slotId := rfl
@[simp] theorem clearOut_causes (m : Mod) : (m.clearOut).causes = m.causes := rfl
@[simp] theorem clearOut_powerOns (m : Mod) : (m.clearOut).powerOns = m.powerOns := rfl
@[simp] theorem clearOut_topSeq (m : Mod) : (m.clearOut).topSeq = m.topSeq := rfl
@[simp] theorem clearOut_authEvent (m : Mod) : (m.clearOut).authEvent = m.authEvent := rfl
@[simp] theorem clearOut_rot (m : Mod) : (m.clearOut).rot = m.rot := rfl
@[simp] theorem clearOut_svcRun (m : Mod) : (m.clearOut).svcRun = m.svcRun := rfl
@[simp] theorem clearOut_svcq (m : Mod) : (m.clearOut).svcq = m.svcq := rfl
@[simp] theorem clearOut_svcResets (m : Mod) : (m.clearOut).svcResets = m.svcResets := rfl
@[simp] theorem clearOut_mgdHeld (m : Mod) : (m.clearOut).mgdHeld = m.mgdHeld := rfl
@[simp] theorem clearOut_mgdStopped (m : Mod) : (m.clearOut).mgdStopped = m.mgdStopped := rfl
@[simp] theorem clearOut_mgdLosses (m : Mod) : (m.clearOut).mgdLosses = m.mgdLosses := rfl
@[simp] theorem clearOut_link (m : Mod) : (m.clearOut).link = m.link := rfl
@[simp] theorem clearOut_state (m : Mod) : (m.clearOut).state = m.state := rfl
@[simp] theorem clearOut_islandReady (m : Mod) : (m.clearOut).islandReady = m.islandReady := rfl
@[simp] theorem clearOut_pwrEn (m : Mod) : (m.clearOut).pwrEn = m.pwrEn := rfl
@[simp] theorem clearOut_enIgnored (m : Mod) : (m.clearOut).enIgnored = m.enIgnored := rfl
@[simp] theorem clearOut_vinOk (m : Mod) : (m.clearOut).vinOk = m.vinOk := rfl
@[simp] theorem clearOut_rstN (m : Mod) : (m.clearOut).rstN = m.rstN := rfl
@[simp] theorem clearOut_pwrgd (m : Mod) : (m.clearOut).pwrgd = m.pwrgd := rfl
@[simp] theorem clearOut_railGroup (m : Mod) : (m.clearOut).railGroup = m.railGroup := rfl
@[simp] theorem clearOut_tripped (m : Mod) : (m.clearOut).tripped = m.tripped := rfl
@[simp] theorem clearOut_tripBlink (m : Mod) : (m.clearOut).tripBlink = m.tripBlink := rfl
@[simp] theorem clearOut_tripReport (m : Mod) : (m.clearOut).tripReport = m.tripReport := rfl
@[simp] theorem clearOut_railReport (m : Mod) : (m.clearOut).railReport = m.railReport := rfl
@[simp] theorem clearOut_laserLow (m : Mod) : (m.clearOut).laserLow = m.laserLow := rfl
@[simp] theorem clearOut_laserQual (m : Mod) : (m.clearOut).laserQual = m.laserQual := rfl
@[simp] theorem clearOut_laserSaved (m : Mod) : (m.clearOut).laserSaved = m.laserSaved := rfl
@[simp] theorem clearOut_coolant (m : Mod) : (m.clearOut).coolant = m.coolant := rfl
@[simp] theorem clearOut_coolantBad (m : Mod) : (m.clearOut).coolantBad = m.coolantBad := rfl
@[simp] theorem clearOut_powerOnBoot (m : Mod) : (m.clearOut).powerOnBoot = m.powerOnBoot := rfl
@[simp] theorem clearOut_bootStopped (m : Mod) : (m.clearOut).bootStopped = m.bootStopped := rfl
@[simp] theorem clearOut_bistStop (m : Mod) : (m.clearOut).bistStop = m.bistStop := rfl
@[simp] theorem clearOut_resets (m : Mod) : (m.clearOut).resets = m.resets := rfl
@[simp] theorem clearOut_lostDies (m : Mod) : (m.clearOut).lostDies = m.lostDies := rfl
@[simp] theorem clearOut_heldDies (m : Mod) : (m.clearOut).heldDies = m.heldDies := rfl
@[simp] theorem clearOut_tests (m : Mod) : (m.clearOut).tests = m.tests := rfl
@[simp] theorem clearOut_ftests (m : Mod) : (m.clearOut).ftests = m.ftests := rfl
@[simp] theorem clearOut_taps (m : Mod) : (m.clearOut).taps = m.taps := rfl
@[simp] theorem clearOut_stack (m : Mod) : (m.clearOut).stack = m.stack := rfl
@[simp] theorem clearOut_pwrWho (m : Mod) : (m.clearOut).pwrWho = m.pwrWho := rfl
@[simp] theorem clearOut_fab (m : Mod) : (m.clearOut).fab = m.fab := rfl
@[simp] theorem clearOut_lanes (m : Mod) : (m.clearOut).lanes = m.lanes := rfl
@[simp] theorem clearOut_laserOk (m : Mod) : (m.clearOut).laserOk = m.laserOk := rfl
@[simp] theorem clearOut_warming (m : Mod) : (m.clearOut).warming = m.warming := rfl
@[simp] theorem clearOut_dark (m : Mod) : (m.clearOut).dark = m.dark := rfl
@[simp] theorem clearOut_opDone (m : Mod) : (m.clearOut).opDone = m.opDone := rfl
@[simp] theorem clearOut_coreq (m : Mod) : (m.clearOut).coreq = m.coreq := rfl
@[simp] theorem clearOut_uncached (m : Mod) : (m.clearOut).uncached = m.uncached := rfl
@[simp] theorem clearOut_dports (m : Mod) : (m.clearOut).dports = m.dports := rfl
@[simp] theorem clearOut_ctxs (m : Mod) : (m.clearOut).ctxs = m.ctxs := rfl
@[simp] theorem clearOut_active (m : Mod) : (m.clearOut).active = m.active := rfl

/-! ## The tables settle -/

@[simp] theorem settle_out (m : Mod) : (m.settle).out = m.out := rfl
@[simp] theorem settle_fresh (m : Mod) : (m.settle).fresh = m.fresh := rfl
@[simp] theorem settle_evSeq (m : Mod) : (m.settle).evSeq = m.evSeq := rfl
@[simp] theorem settle_sram (m : Mod) : (m.settle).sram = m.sram := rfl
@[simp] theorem settle_mc (m : Mod) : (m.settle).mc = m.mc := rfl
@[simp] theorem settle_lpNext (m : Mod) : (m.settle).lpNext = m.lpNext := rfl
@[simp] theorem settle_och (m : Mod) : (m.settle).och = m.och := rfl
@[simp] theorem settle_ochSrc (m : Mod) : (m.settle).ochSrc = m.ochSrc := rfl
@[simp] theorem settle_regul (m : Mod) : (m.settle).regul = m.regul := rfl
@[simp] theorem settle_lines (m : Mod) : (m.settle).lines = m.lines := rfl
@[simp] theorem settle_dir (m : Mod) : (m.settle).dir = m.dir := rfl
@[simp] theorem settle_retry (m : Mod) : (m.settle).retry = m.retry := rfl
@[simp] theorem settle_reqSrc (m : Mod) : (m.settle).reqSrc = m.reqSrc := rfl
@[simp] theorem settle_stale (m : Mod) : (m.settle).stale = m.stale := rfl
@[simp] theorem settle_pushDue (m : Mod) : (m.settle).pushDue = m.pushDue := rfl
@[simp] theorem settle_poisonDue (m : Mod) : (m.settle).poisonDue = m.poisonDue := rfl
@[simp] theorem settle_retryFilled (m : Mod) : (m.settle).retryFilled = m.retryFilled := rfl
@[simp] theorem settle_net (m : Mod) : (m.settle).net = m.net := rfl
@[simp] theorem settle_ncAcks (m : Mod) : (m.settle).ncAcks = m.ncAcks := rfl
@[simp] theorem settle_alertMask (m : Mod) : (m.settle).alertMask = m.alertMask := rfl
@[simp] theorem settle_statusLatch (m : Mod) : (m.settle).statusLatch = m.statusLatch := rfl
@[simp] theorem settle_locate (m : Mod) : (m.settle).locate = m.locate := rfl
@[simp] theorem settle_operatorKey (m : Mod) : (m.settle).operatorKey = m.operatorKey := rfl
@[simp] theorem settle_newOperatorKey (m : Mod) : (m.settle).newOperatorKey = m.newOperatorKey := rfl
@[simp] theorem settle_serviceKey (m : Mod) : (m.settle).serviceKey = m.serviceKey := rfl
@[simp] theorem settle_minSvn (m : Mod) : (m.settle).minSvn = m.minSvn := rfl
@[simp] theorem settle_svnCommit (m : Mod) : (m.settle).svnCommit = m.svnCommit := rfl
@[simp] theorem settle_runVersion (m : Mod) : (m.settle).runVersion = m.runVersion := rfl
@[simp] theorem settle_outOfService (m : Mod) : (m.settle).outOfService = m.outOfService := rfl
@[simp] theorem settle_bistPassed (m : Mod) : (m.settle).bistPassed = m.bistPassed := rfl
@[simp] theorem settle_cfgActive (m : Mod) : (m.settle).cfgActive = m.cfgActive := rfl
@[simp] theorem settle_cfgNode (m : Mod) : (m.settle).cfgNode = m.cfgNode := rfl
@[simp] theorem settle_bootPresent (m : Mod) : (m.settle).bootPresent = m.bootPresent := rfl
@[simp] theorem settle_repairLists (m : Mod) : (m.settle).repairLists = m.repairLists := rfl
@[simp] theorem settle_wordLists (m : Mod) : (m.settle).wordLists = m.wordLists := rfl
@[simp] theorem settle_slotId (m : Mod) : (m.settle).slotId = m.slotId := rfl
@[simp] theorem settle_causes (m : Mod) : (m.settle).causes = m.causes := rfl
@[simp] theorem settle_powerOns (m : Mod) : (m.settle).powerOns = m.powerOns := rfl
@[simp] theorem settle_topSeq (m : Mod) : (m.settle).topSeq = m.topSeq := rfl
@[simp] theorem settle_authEvent (m : Mod) : (m.settle).authEvent = m.authEvent := rfl
@[simp] theorem settle_rot (m : Mod) : (m.settle).rot = m.rot := rfl
@[simp] theorem settle_svcRun (m : Mod) : (m.settle).svcRun = m.svcRun := rfl
@[simp] theorem settle_svcq (m : Mod) : (m.settle).svcq = m.svcq := rfl
@[simp] theorem settle_svcResets (m : Mod) : (m.settle).svcResets = m.svcResets := rfl
@[simp] theorem settle_mgdHeld (m : Mod) : (m.settle).mgdHeld = m.mgdHeld := rfl
@[simp] theorem settle_mgdStopped (m : Mod) : (m.settle).mgdStopped = m.mgdStopped := rfl
@[simp] theorem settle_mgdLosses (m : Mod) : (m.settle).mgdLosses = m.mgdLosses := rfl
@[simp] theorem settle_link (m : Mod) : (m.settle).link = m.link := rfl
@[simp] theorem settle_state (m : Mod) : (m.settle).state = m.state := rfl
@[simp] theorem settle_islandReady (m : Mod) : (m.settle).islandReady = m.islandReady := rfl
@[simp] theorem settle_pwrEn (m : Mod) : (m.settle).pwrEn = m.pwrEn := rfl
@[simp] theorem settle_enIgnored (m : Mod) : (m.settle).enIgnored = m.enIgnored := rfl
@[simp] theorem settle_vinOk (m : Mod) : (m.settle).vinOk = m.vinOk := rfl
@[simp] theorem settle_rstN (m : Mod) : (m.settle).rstN = m.rstN := rfl
@[simp] theorem settle_pwrgd (m : Mod) : (m.settle).pwrgd = m.pwrgd := rfl
@[simp] theorem settle_railGroup (m : Mod) : (m.settle).railGroup = m.railGroup := rfl
@[simp] theorem settle_tripped (m : Mod) : (m.settle).tripped = m.tripped := rfl
@[simp] theorem settle_tripBlink (m : Mod) : (m.settle).tripBlink = m.tripBlink := rfl
@[simp] theorem settle_tripReport (m : Mod) : (m.settle).tripReport = m.tripReport := rfl
@[simp] theorem settle_railReport (m : Mod) : (m.settle).railReport = m.railReport := rfl
@[simp] theorem settle_laserLow (m : Mod) : (m.settle).laserLow = m.laserLow := rfl
@[simp] theorem settle_laserQual (m : Mod) : (m.settle).laserQual = m.laserQual := rfl
@[simp] theorem settle_laserSaved (m : Mod) : (m.settle).laserSaved = m.laserSaved := rfl
@[simp] theorem settle_coolant (m : Mod) : (m.settle).coolant = m.coolant := rfl
@[simp] theorem settle_coolantBad (m : Mod) : (m.settle).coolantBad = m.coolantBad := rfl
@[simp] theorem settle_powerOnBoot (m : Mod) : (m.settle).powerOnBoot = m.powerOnBoot := rfl
@[simp] theorem settle_bootStopped (m : Mod) : (m.settle).bootStopped = m.bootStopped := rfl
@[simp] theorem settle_bistStop (m : Mod) : (m.settle).bistStop = m.bistStop := rfl
@[simp] theorem settle_resets (m : Mod) : (m.settle).resets = m.resets := rfl
@[simp] theorem settle_lostDies (m : Mod) : (m.settle).lostDies = m.lostDies := rfl
@[simp] theorem settle_heldDies (m : Mod) : (m.settle).heldDies = m.heldDies := rfl
@[simp] theorem settle_tests (m : Mod) : (m.settle).tests = m.tests := rfl
@[simp] theorem settle_ftests (m : Mod) : (m.settle).ftests = m.ftests := rfl
@[simp] theorem settle_taps (m : Mod) : (m.settle).taps = m.taps := rfl
@[simp] theorem settle_stack (m : Mod) : (m.settle).stack = m.stack := rfl
@[simp] theorem settle_pwrWho (m : Mod) : (m.settle).pwrWho = m.pwrWho := rfl
@[simp] theorem settle_fab (m : Mod) : (m.settle).fab = m.fab := rfl
@[simp] theorem settle_lanes (m : Mod) : (m.settle).lanes = m.lanes := rfl
@[simp] theorem settle_laserOk (m : Mod) : (m.settle).laserOk = m.laserOk := rfl
@[simp] theorem settle_warming (m : Mod) : (m.settle).warming = m.warming := rfl
@[simp] theorem settle_dark (m : Mod) : (m.settle).dark = m.dark := rfl
@[simp] theorem settle_opDone (m : Mod) : (m.settle).opDone = m.opDone := rfl
@[simp] theorem settle_coreq (m : Mod) : (m.settle).coreq = m.coreq := rfl
@[simp] theorem settle_uncached (m : Mod) : (m.settle).uncached = m.uncached := rfl
@[simp] theorem settle_dports (m : Mod) : (m.settle).dports = m.dports := rfl
@[simp] theorem settle_ctxs (m : Mod) : (m.settle).ctxs = m.ctxs := rfl
@[simp] theorem settle_active (m : Mod) : (m.settle).active = m.active := rfl

/-! ## A context changes -/

@[simp] theorem modCtx_regs (m : Mod) (q : Nat) (g : Ctx → Ctx) : (m.modCtx q g).regs = m.regs := rfl
@[simp] theorem modCtx_mem (m : Mod) (q : Nat) (g : Ctx → Ctx) : (m.modCtx q g).mem = m.mem := rfl
@[simp] theorem modCtx_out (m : Mod) (q : Nat) (g : Ctx → Ctx) : (m.modCtx q g).out = m.out := rfl
@[simp] theorem modCtx_lanes (m : Mod) (q : Nat) (g : Ctx → Ctx) : (m.modCtx q g).lanes = m.lanes := rfl
@[simp] theorem modCtx_fab (m : Mod) (q : Nat) (g : Ctx → Ctx) : (m.modCtx q g).fab = m.fab := rfl
@[simp] theorem modCtx_mc (m : Mod) (q : Nat) (g : Ctx → Ctx) : (m.modCtx q g).mc = m.mc := rfl
@[simp] theorem modCtx_sram (m : Mod) (q : Nat) (g : Ctx → Ctx) : (m.modCtx q g).sram = m.sram := rfl
@[simp] theorem modCtx_dports (m : Mod) (q : Nat) (g : Ctx → Ctx) : (m.modCtx q g).dports = m.dports := rfl
@[simp] theorem modCtx_fresh (m : Mod) (q : Nat) (g : Ctx → Ctx) : (m.modCtx q g).fresh = m.fresh := rfl
@[simp] theorem modCtx_evSeq (m : Mod) (q : Nat) (g : Ctx → Ctx) : (m.modCtx q g).evSeq = m.evSeq := rfl
@[simp] theorem modCtx_lines (m : Mod) (q : Nat) (g : Ctx → Ctx) : (m.modCtx q g).lines = m.lines := rfl
@[simp] theorem modCtx_dir (m : Mod) (q : Nat) (g : Ctx → Ctx) : (m.modCtx q g).dir = m.dir := rfl
@[simp] theorem modCtx_net (m : Mod) (q : Nat) (g : Ctx → Ctx) : (m.modCtx q g).net = m.net := rfl
@[simp] theorem modCtx_svcRun (m : Mod) (q : Nat) (g : Ctx → Ctx) : (m.modCtx q g).svcRun = m.svcRun := rfl
@[simp] theorem modCtx_svcq (m : Mod) (q : Nat) (g : Ctx → Ctx) : (m.modCtx q g).svcq = m.svcq := rfl
@[simp] theorem modCtx_uncached (m : Mod) (q : Nat) (g : Ctx → Ctx) : (m.modCtx q g).uncached = m.uncached := rfl

/-! ## A port changes -/

@[simp] theorem modLane_regs (m : Mod) (p : Nat) (g : Lane → Lane) : (m.modLane p g).regs = m.regs := rfl
@[simp] theorem modLane_mem (m : Mod) (p : Nat) (g : Lane → Lane) : (m.modLane p g).mem = m.mem := rfl
@[simp] theorem modLane_out (m : Mod) (p : Nat) (g : Lane → Lane) : (m.modLane p g).out = m.out := rfl
@[simp] theorem modLane_ctxs (m : Mod) (p : Nat) (g : Lane → Lane) : (m.modLane p g).ctxs = m.ctxs := rfl
@[simp] theorem modLane_fab (m : Mod) (p : Nat) (g : Lane → Lane) : (m.modLane p g).fab = m.fab := rfl
@[simp] theorem modLane_mc (m : Mod) (p : Nat) (g : Lane → Lane) : (m.modLane p g).mc = m.mc := rfl
@[simp] theorem modLane_sram (m : Mod) (p : Nat) (g : Lane → Lane) : (m.modLane p g).sram = m.sram := rfl
@[simp] theorem modLane_dports (m : Mod) (p : Nat) (g : Lane → Lane) : (m.modLane p g).dports = m.dports := rfl
@[simp] theorem modLane_fresh (m : Mod) (p : Nat) (g : Lane → Lane) : (m.modLane p g).fresh = m.fresh := rfl
@[simp] theorem modLane_evSeq (m : Mod) (p : Nat) (g : Lane → Lane) : (m.modLane p g).evSeq = m.evSeq := rfl
@[simp] theorem modLane_lines (m : Mod) (p : Nat) (g : Lane → Lane) : (m.modLane p g).lines = m.lines := rfl
@[simp] theorem modLane_dir (m : Mod) (p : Nat) (g : Lane → Lane) : (m.modLane p g).dir = m.dir := rfl
@[simp] theorem modLane_net (m : Mod) (p : Nat) (g : Lane → Lane) : (m.modLane p g).net = m.net := rfl
@[simp] theorem modLane_svcRun (m : Mod) (p : Nat) (g : Lane → Lane) : (m.modLane p g).svcRun = m.svcRun := rfl
@[simp] theorem modLane_svcq (m : Mod) (p : Nat) (g : Lane → Lane) : (m.modLane p g).svcq = m.svcq := rfl
@[simp] theorem modLane_uncached (m : Mod) (p : Nat) (g : Lane → Lane) : (m.modLane p g).uncached = m.uncached := rfl

/-! ## The fabric engine changes -/

@[simp] theorem modFab_regs (m : Mod) (g : Fab → Fab) : (m.modFab g).regs = m.regs := rfl
@[simp] theorem modFab_mem (m : Mod) (g : Fab → Fab) : (m.modFab g).mem = m.mem := rfl
@[simp] theorem modFab_out (m : Mod) (g : Fab → Fab) : (m.modFab g).out = m.out := rfl
@[simp] theorem modFab_ctxs (m : Mod) (g : Fab → Fab) : (m.modFab g).ctxs = m.ctxs := rfl
@[simp] theorem modFab_lanes (m : Mod) (g : Fab → Fab) : (m.modFab g).lanes = m.lanes := rfl
@[simp] theorem modFab_mc (m : Mod) (g : Fab → Fab) : (m.modFab g).mc = m.mc := rfl
@[simp] theorem modFab_sram (m : Mod) (g : Fab → Fab) : (m.modFab g).sram = m.sram := rfl
@[simp] theorem modFab_dports (m : Mod) (g : Fab → Fab) : (m.modFab g).dports = m.dports := rfl
@[simp] theorem modFab_fresh (m : Mod) (g : Fab → Fab) : (m.modFab g).fresh = m.fresh := rfl
@[simp] theorem modFab_evSeq (m : Mod) (g : Fab → Fab) : (m.modFab g).evSeq = m.evSeq := rfl
@[simp] theorem modFab_lines (m : Mod) (g : Fab → Fab) : (m.modFab g).lines = m.lines := rfl
@[simp] theorem modFab_dir (m : Mod) (g : Fab → Fab) : (m.modFab g).dir = m.dir := rfl
@[simp] theorem modFab_net (m : Mod) (g : Fab → Fab) : (m.modFab g).net = m.net := rfl
@[simp] theorem modFab_svcRun (m : Mod) (g : Fab → Fab) : (m.modFab g).svcRun = m.svcRun := rfl
@[simp] theorem modFab_svcq (m : Mod) (g : Fab → Fab) : (m.modFab g).svcq = m.svcq := rfl
@[simp] theorem modFab_uncached (m : Mod) (g : Fab → Fab) : (m.modFab g).uncached = m.uncached := rfl

/-! ## A controller changes -/

@[simp] theorem modMc_regs (m : Mod) (k : Nat) (g : Mc → Mc) : (m.modMc k g).regs = m.regs := rfl
@[simp] theorem modMc_mem (m : Mod) (k : Nat) (g : Mc → Mc) : (m.modMc k g).mem = m.mem := rfl
@[simp] theorem modMc_out (m : Mod) (k : Nat) (g : Mc → Mc) : (m.modMc k g).out = m.out := rfl
@[simp] theorem modMc_ctxs (m : Mod) (k : Nat) (g : Mc → Mc) : (m.modMc k g).ctxs = m.ctxs := rfl
@[simp] theorem modMc_lanes (m : Mod) (k : Nat) (g : Mc → Mc) : (m.modMc k g).lanes = m.lanes := rfl
@[simp] theorem modMc_fab (m : Mod) (k : Nat) (g : Mc → Mc) : (m.modMc k g).fab = m.fab := rfl
@[simp] theorem modMc_sram (m : Mod) (k : Nat) (g : Mc → Mc) : (m.modMc k g).sram = m.sram := rfl
@[simp] theorem modMc_dports (m : Mod) (k : Nat) (g : Mc → Mc) : (m.modMc k g).dports = m.dports := rfl
@[simp] theorem modMc_fresh (m : Mod) (k : Nat) (g : Mc → Mc) : (m.modMc k g).fresh = m.fresh := rfl
@[simp] theorem modMc_evSeq (m : Mod) (k : Nat) (g : Mc → Mc) : (m.modMc k g).evSeq = m.evSeq := rfl
@[simp] theorem modMc_lines (m : Mod) (k : Nat) (g : Mc → Mc) : (m.modMc k g).lines = m.lines := rfl
@[simp] theorem modMc_dir (m : Mod) (k : Nat) (g : Mc → Mc) : (m.modMc k g).dir = m.dir := rfl
@[simp] theorem modMc_net (m : Mod) (k : Nat) (g : Mc → Mc) : (m.modMc k g).net = m.net := rfl
@[simp] theorem modMc_svcRun (m : Mod) (k : Nat) (g : Mc → Mc) : (m.modMc k g).svcRun = m.svcRun := rfl
@[simp] theorem modMc_svcq (m : Mod) (k : Nat) (g : Mc → Mc) : (m.modMc k g).svcq = m.svcq := rfl
@[simp] theorem modMc_uncached (m : Mod) (k : Nat) (g : Mc → Mc) : (m.modMc k g).uncached = m.uncached := rfl

/-! ## An array changes -/

@[simp] theorem modSram_regs (m : Mod) (k : Nat) (g : Sram → Sram) : (m.modSram k g).regs = m.regs := rfl
@[simp] theorem modSram_mem (m : Mod) (k : Nat) (g : Sram → Sram) : (m.modSram k g).mem = m.mem := rfl
@[simp] theorem modSram_out (m : Mod) (k : Nat) (g : Sram → Sram) : (m.modSram k g).out = m.out := rfl
@[simp] theorem modSram_ctxs (m : Mod) (k : Nat) (g : Sram → Sram) : (m.modSram k g).ctxs = m.ctxs := rfl
@[simp] theorem modSram_lanes (m : Mod) (k : Nat) (g : Sram → Sram) : (m.modSram k g).lanes = m.lanes := rfl
@[simp] theorem modSram_fab (m : Mod) (k : Nat) (g : Sram → Sram) : (m.modSram k g).fab = m.fab := rfl
@[simp] theorem modSram_mc (m : Mod) (k : Nat) (g : Sram → Sram) : (m.modSram k g).mc = m.mc := rfl
@[simp] theorem modSram_dports (m : Mod) (k : Nat) (g : Sram → Sram) : (m.modSram k g).dports = m.dports := rfl
@[simp] theorem modSram_fresh (m : Mod) (k : Nat) (g : Sram → Sram) : (m.modSram k g).fresh = m.fresh := rfl
@[simp] theorem modSram_evSeq (m : Mod) (k : Nat) (g : Sram → Sram) : (m.modSram k g).evSeq = m.evSeq := rfl
@[simp] theorem modSram_lines (m : Mod) (k : Nat) (g : Sram → Sram) : (m.modSram k g).lines = m.lines := rfl
@[simp] theorem modSram_dir (m : Mod) (k : Nat) (g : Sram → Sram) : (m.modSram k g).dir = m.dir := rfl
@[simp] theorem modSram_net (m : Mod) (k : Nat) (g : Sram → Sram) : (m.modSram k g).net = m.net := rfl
@[simp] theorem modSram_svcRun (m : Mod) (k : Nat) (g : Sram → Sram) : (m.modSram k g).svcRun = m.svcRun := rfl
@[simp] theorem modSram_svcq (m : Mod) (k : Nat) (g : Sram → Sram) : (m.modSram k g).svcq = m.svcq := rfl
@[simp] theorem modSram_uncached (m : Mod) (k : Nat) (g : Sram → Sram) : (m.modSram k g).uncached = m.uncached := rfl

/-! ## A die port changes -/

@[simp] theorem modDport_regs (m : Mod) (p : Nat) (g : DPort → DPort) : (m.modDport p g).regs = m.regs := rfl
@[simp] theorem modDport_mem (m : Mod) (p : Nat) (g : DPort → DPort) : (m.modDport p g).mem = m.mem := rfl
@[simp] theorem modDport_out (m : Mod) (p : Nat) (g : DPort → DPort) : (m.modDport p g).out = m.out := rfl
@[simp] theorem modDport_ctxs (m : Mod) (p : Nat) (g : DPort → DPort) : (m.modDport p g).ctxs = m.ctxs := rfl
@[simp] theorem modDport_lanes (m : Mod) (p : Nat) (g : DPort → DPort) : (m.modDport p g).lanes = m.lanes := rfl
@[simp] theorem modDport_fab (m : Mod) (p : Nat) (g : DPort → DPort) : (m.modDport p g).fab = m.fab := rfl
@[simp] theorem modDport_mc (m : Mod) (p : Nat) (g : DPort → DPort) : (m.modDport p g).mc = m.mc := rfl
@[simp] theorem modDport_sram (m : Mod) (p : Nat) (g : DPort → DPort) : (m.modDport p g).sram = m.sram := rfl
@[simp] theorem modDport_fresh (m : Mod) (p : Nat) (g : DPort → DPort) : (m.modDport p g).fresh = m.fresh := rfl
@[simp] theorem modDport_evSeq (m : Mod) (p : Nat) (g : DPort → DPort) : (m.modDport p g).evSeq = m.evSeq := rfl
@[simp] theorem modDport_lines (m : Mod) (p : Nat) (g : DPort → DPort) : (m.modDport p g).lines = m.lines := rfl
@[simp] theorem modDport_dir (m : Mod) (p : Nat) (g : DPort → DPort) : (m.modDport p g).dir = m.dir := rfl
@[simp] theorem modDport_net (m : Mod) (p : Nat) (g : DPort → DPort) : (m.modDport p g).net = m.net := rfl
@[simp] theorem modDport_svcRun (m : Mod) (p : Nat) (g : DPort → DPort) : (m.modDport p g).svcRun = m.svcRun := rfl
@[simp] theorem modDport_svcq (m : Mod) (p : Nat) (g : DPort → DPort) : (m.modDport p g).svcq = m.svcq := rfl
@[simp] theorem modDport_uncached (m : Mod) (p : Nat) (g : DPort → DPort) : (m.modDport p g).uncached = m.uncached := rfl

/-! ## What an update changes -/

@[simp] theorem clearOut_out (m : Mod) : m.clearOut.out = [] := rfl
@[simp] theorem emit_out (m : Mod) (o : Out) : (m.emit o).out = m.out ++ [o] := rfl
@[simp] theorem done_eq (m : Mod) (st : Status) (d : List Byte) : m.done st d = m.emit (.done st d) := rfl
@[simp] theorem draw_fst (m : Mod) : m.draw.1 = { m with fresh := m.fresh + 1 } := rfl
@[simp] theorem draw_snd (m : Mod) : m.draw.2 = m.fresh := rfl
@[simp] theorem modCtx_ctxs (m : Mod) (q : Nat) (g : Ctx → Ctx) : (m.modCtx q g).ctxs = modNth m.ctxs q g := rfl
@[simp] theorem modLane_lanes (m : Mod) (p : Nat) (g : Lane → Lane) : (m.modLane p g).lanes = modNth m.lanes p g := rfl
@[simp] theorem modFab_fab (m : Mod) (g : Fab → Fab) : (m.modFab g).fab = g m.fab := rfl
@[simp] theorem modMc_mc (m : Mod) (k : Nat) (g : Mc → Mc) : (m.modMc k g).mc = modNth m.mc k g := rfl
@[simp] theorem modSram_sram (m : Mod) (k : Nat) (g : Sram → Sram) : (m.modSram k g).sram = modNth m.sram k g := rfl
@[simp] theorem modDport_dports (m : Mod) (p : Nat) (g : DPort → DPort) : (m.modDport p g).dports = modNth m.dports p g := rfl

/-! ## Elements of lists -/

theorem nth_modNth_self {α : Type} (l : List α) (i : Nat) (f : α → α) (d : α) (h : i < l.length) : nth (modNth l i f) i d = f (nth l i d) := by
  induction l generalizing i with
  | nil => simp at h
  | cons x xs ih =>
    cases i with
    | zero => rfl
    | succ i => simpa [modNth, nth] using ih i (by simpa using h)

theorem nth_modNth_ne {α : Type} (l : List α) (i j : Nat) (f : α → α) (d : α) (h : i ≠ j) : nth (modNth l i f) j d = nth l j d := by
  induction l generalizing i j with
  | nil => rfl
  | cons x xs ih =>
    cases i with
    | zero =>
      cases j with
      | zero => exact absurd rfl h
      | succ j => rfl
    | succ i =>
      cases j with
      | zero => rfl
      | succ j => simpa [modNth, nth] using ih i j (by omega)

theorem modNth_modNth {α : Type} (l : List α) (i : Nat) (f g : α → α) : modNth (modNth l i f) i g = modNth l i (fun x => g (f x)) := by
  induction l generalizing i with
  | nil => rfl
  | cons x xs ih => cases i <;> simp [modNth, ih]

@[simp] theorem length_modNth {α : Type} (l : List α) (i : Nat) (f : α → α) : (modNth l i f).length = l.length := by
  induction l generalizing i with
  | nil => rfl
  | cons x xs ih => cases i <;> simp [modNth, ih]

theorem ctx_modCtx_self (m : Mod) (q : Nat) (g : Ctx → Ctx) (h : q < m.ctxs.length) : (m.modCtx q g).ctx q = g (m.ctx q) :=
  nth_modNth_self m.ctxs q g {} h
theorem ctx_modCtx_ne (m : Mod) (q q' : Nat) (g : Ctx → Ctx) (h : q ≠ q') : (m.modCtx q g).ctx q' = m.ctx q' :=
  nth_modNth_ne m.ctxs q q' g {} h

/-! ## Registers -/

/-- What registers read depends on the register table alone. -/
theorem reg_congr {m n : Mod} (h : m.regs = n.regs) (a : Nat) : m.reg a = n.reg a := by simp [Mod.reg, h]
theorem fld_congr {m n : Mod} (h : m.regs = n.regs) (f : Fld) (i k j : Nat) : m.fld f i k j = n.fld f i k j := by simp [Mod.fld, Mod.reg, h]

@[simp] theorem reg_emit (m : Mod) (o : Out) (a : Nat) : (m.emit o).reg a = m.reg a := rfl
@[simp] theorem fld_emit (m : Mod) (o : Out) (f : Fld) (i k j : Nat) : (m.emit o).fld f i k j = m.fld f i k j := rfl
@[simp] theorem reg_clearOut (m : Mod) (a : Nat) : m.clearOut.reg a = m.reg a := rfl
@[simp] theorem fld_clearOut (m : Mod) (f : Fld) (i k j : Nat) : m.clearOut.fld f i k j = m.fld f i k j := rfl
@[simp] theorem ctx_clearOut (m : Mod) (q : Nat) : m.clearOut.ctx q = m.ctx q := rfl
@[simp] theorem fld_modCtx (m : Mod) (q : Nat) (g : Ctx → Ctx) (f : Fld) (i k j : Nat) : (m.modCtx q g).fld f i k j = m.fld f i k j := rfl
@[simp] theorem fld_modLane (m : Mod) (p : Nat) (g : Lane → Lane) (f : Fld) (i k j : Nat) : (m.modLane p g).fld f i k j = m.fld f i k j := rfl
@[simp] theorem fld_modFab (m : Mod) (g : Fab → Fab) (f : Fld) (i k j : Nat) : (m.modFab g).fld f i k j = m.fld f i k j := rfl
@[simp] theorem fld_modMc (m : Mod) (x : Nat) (g : Mc → Mc) (f : Fld) (i k j : Nat) : (m.modMc x g).fld f i k j = m.fld f i k j := rfl
@[simp] theorem fld_modSram (m : Mod) (x : Nat) (g : Sram → Sram) (f : Fld) (i k j : Nat) : (m.modSram x g).fld f i k j = m.fld f i k j := rfl
@[simp] theorem fld_modDport (m : Mod) (x : Nat) (g : DPort → DPort) (f : Fld) (i k j : Nat) : (m.modDport x g).fld f i k j = m.fld f i k j := rfl

@[simp] theorem reg_setReg_self (m : Mod) (a : Nat) (w : Word) : (m.setReg a w).reg a = w := by simp [Mod.reg, Mod.setReg]
theorem reg_setReg_ne (m : Mod) {a b : Nat} (w : Word) (h : b ≠ a) : (m.setReg a w).reg b = m.reg b := by
  simp [Mod.reg, Mod.setReg, get?_set_ne _ w h]

theorem reg_setFld_ne (m : Mod) (f : Fld) (v i k j : Nat) {b : Nat} (h : b ≠ f.addr i k) : (m.setFld f v i k j).reg b = m.reg b :=
  reg_setReg_ne _ _ h

/-- The field written reads as the value written, cut to the field's width. -/
theorem fld_setFld_self (m : Mod) (f : Fld) (v i k j : Nat) (h : f.lo + j * f.bs + f.w ≤ 64) :
    (m.setFld f v i k j).fld f i k j = v % 2 ^ f.w := by
  simp only [Mod.fld, Mod.setFld, reg_setReg_self, BitVec.toNat_ofNat]
  rw [bits_mod _ _ _ _ h, bits_putBits_self]

/-- A field of another register keeps its value. -/
theorem fld_setFld_addr (m : Mod) (f g : Fld) (v i k j i' k' j' : Nat) (h : g.addr i' k' ≠ f.addr i k) :
    (m.setFld f v i k j).fld g i' k' j' = m.fld g i' k' j' := by
  simp only [Mod.fld, Mod.setFld, reg_setReg_ne _ _ h]

/-- Another field of the same register keeps its value. -/
theorem fld_setFld_bits (m : Mod) (f g : Fld) (v i k j i' k' j' : Nat) (ha : g.addr i' k' = f.addr i k)
    (h : g.lo + j' * g.bs + g.w ≤ f.lo + j * f.bs ∨ f.lo + j * f.bs + f.w ≤ g.lo + j' * g.bs) (h64 : g.lo + j' * g.bs + g.w ≤ 64) :
    (m.setFld f v i k j).fld g i' k' j' = m.fld g i' k' j' := by
  simp only [Mod.fld, Mod.setFld, ha, reg_setReg_self, BitVec.toNat_ofNat]
  rw [bits_mod _ _ _ _ h64]
  rcases h with h | h
  · exact bits_putBits_below _ _ _ _ _ _ h
  · exact bits_putBits_above _ _ _ _ _ _ h

/-! ## Settling -/

@[simp] theorem regs_alertSettle (m : Mod) : m.alertSettle.regs = m.regs := rfl

@[simp] theorem reg_settle (m : Mod) (a : Nat) : m.settle.reg a = m.reg a := getD_settleMap resetWord m.regs a
@[simp] theorem fld_settle (m : Mod) (f : Fld) (i k j : Nat) : m.settle.fld f i k j = m.fld f i k j := by
  simp only [Mod.fld, reg_settle]

/-- The fill of every unit survives settling. -/
@[simp] theorem fill_settle (x : Mem) (d : Nat → Byte → Bool) (u : Nat) : (x.settle d).fill u = x.fill u := by
  simp [Mem.fill, Mem.settle]

theorem unlisted_of_isDefault (x : Mem) (a : Nat) (b : Byte) (h : x.isDefault a b = true) : x.unlisted a = b := by
  unfold Mem.isDefault at h
  unfold Mem.unlisted
  split at h <;> simp_all

@[simp] theorem isDefault_sorted (x : Mem) (a : Nat) (b : Byte) :
    ({ x with fills := sortKeys x.fills } : Mem).isDefault a b = x.isDefault a b := by
  simp [Mem.isDefault, Mem.fill]

/-- Every byte of memory survives settling. -/
@[simp] theorem byte_settle (m : Mod) (a : Nat) : m.settle.mem.byte a = m.mem.byte a := by
  have hf : m.settle.mem.unlisted a = m.mem.unlisted a := by simp [Mem.unlisted, Mod.settle, Mod.alertSettle, Mem.fill, Mem.settle]
  have hc : Sparse.get? m.settle.mem.cells a = (Sparse.get? m.mem.cells a).filter (fun b => !m.mem.isDefault a b) := by
    show Sparse.get? ((sortKeys m.mem.cells).filter (fun e => !({ m.mem with fills := sortKeys m.mem.fills } : Mem).isDefault e.1 e.2)) a = _
    rw [get?_filter_rise _ _ (keysRise_sortKeys _), get?_sortKeys]
    simp
  unfold Mem.byte
  rw [hc, hf]
  cases h : Sparse.get? m.mem.cells a with
  | none => rfl
  | some b =>
    by_cases hd : m.mem.isDefault a b = true
    · simp [Option.filter, hd, unlisted_of_isDefault _ _ _ hd]
    · simp [Option.filter, hd]

@[simp] theorem badPar_settle (m : Mod) (a : Nat) : Sparse.get? m.settle.mem.badPar a = Sparse.get? m.mem.badPar a :=
  get?_sortKeys m.mem.badPar a
@[simp] theorem poison_settle (m : Mod) (a : Nat) : Sparse.get? m.settle.mem.poison a = Sparse.get? m.mem.poison a :=
  get?_sortKeys m.mem.poison a

/-- Whatever a command does, the tables it leaves are in canonical form. -/
theorem settle_canonical (m : Mod) : m.settle.mem.wf ∧ m.settle.regsWf := by
  refine ⟨⟨?_, ?_, keysRise_sortKeys _, ?_, keysRise_sortKeys _, keysRise_sortKeys _, keysRise_sortKeys _⟩, canonical_settleMap _ _⟩
  · exact keysRise_filter _ _ (keysRise_sortKeys _)
  · rw [List.all_eq_true]
    intro e he
    have h := (List.mem_filter.mp he).2
    have hd : m.settle.mem.isDefault e.1 e.2 = m.mem.isDefault e.1 e.2 := by
      simp [Mem.isDefault, Mod.settle, Mod.alertSettle, Mem.fill, Mem.settle]
    rw [hd]
    simpa [Mod.alertSettle] using h
  · exact keysRise_sortKeys _

end Sys2Proof.Machine
end

