-- ==== Sys2Proof/Laws/Run.lean ====
section
/-! SUPPORT. Laws of the run of one command: what it answers, and when the end of a command moves nothing. -/

namespace Sys2Proof.Machine

open Sys2Proof

/-! ## The run of a command -/

/-- A command always answers a next state: its effect with empty outputs, settled. -/
theorem run_next (s : State) (f : Mod → Mod) : s.run f = .next { s with m := (f s.m.clearOut).settle } := rfl

theorem runF_next (s : State) (f : Mod → Mod) : s.runF f = .next { s with m := (f s.m.clearOut).conclude.settle } := rfl

theorem answers_run {c : Instr} {s : State} {f : Mod → Mod} {P : State → Prop} (h : exec c s = s.run f)
    (hp : P { s with m := (f s.m.clearOut).settle }) : Answers c s P := ⟨_, h, hp⟩

/-- The state a command leaves is in canonical form. -/
theorem run_safe {s t : State} {f : Mod → Mod} (h : s.run f = .next t) : t.Safe := by
  simp only [run_next, Host.Outcome.next.injEq] at h
  subst h
  exact settle_canonical _

/-- Neither the queue nor the free values' counter is touched by settling. -/
theorem run_pending {s t : State} {f : Mod → Mod} (h : s.run f = .next t) : t.pending = s.pending := by
  simp only [run_next, Host.Outcome.next.injEq] at h
  subst h
  rfl

/-! ## Frames -/

theorem sameRest_refl (m : Mod) : SameRest m m := rfl

theorem sameRest_settle {m n : Mod} (h : SameRest m n) : SameRest m n.settle := by
  unfold SameRest at h ⊢
  rw [h]
  rfl

/-- A frame of an effect is a frame of the state its command leaves. -/
theorem onlyRegs_settle {as : List Nat} {m n : Mod} (h : SameRest m n) (hm : n.mem = m.mem) (hr : SameRegsBut as m n) :
    OnlyRegs as m n.settle :=
  ⟨sameRest_settle h, fun a => by rw [byte_settle, hm], fun a ha => by rw [reg_settle, hr a ha]⟩

/-! ## Writes by an agent (01 R27, 00 R485, R486) -/

theorem storeDone_ok (m : Mod) (ag : Agent) (addr : Nat) : m.storeDone ag addr .ok = m.emit (.done .ok []) := rfl

theorem storeDone_quiet (m : Mod) (ag : Agent) (addr : Nat) (st : Status) (h : isCore ag = false) :
    m.storeDone ag addr st = m.emit (.done st []) := by simp [Mod.storeDone, h]

/-- A write that an agent may make and that its register takes completes with ST_OK. -/
theorem byAgent_ok {m : Mod} {ag : Agent} {addr : Nat} {f : Mod → Mod × Status} (h : regAgent ag = true) (hf : (f m).2 = .ok) :
    m.byAgent ag addr f = (f m).1.emit (.done .ok []) := by
  simp [Mod.byAgent, h, hf, storeDone_ok]

/-- A write that its register refuses completes with the status; a core's raises 0x0E01 besides. -/
theorem byAgent_refused {m : Mod} {ag : Agent} {addr : Nat} {f : Mod → Mod × Status} (h : regAgent ag = true) (hc : isCore ag = false) :
    m.byAgent ag addr f = (f m).1.emit (.done (f m).2 []) := by
  simp [Mod.byAgent, h, storeDone_quiet _ _ _ _ hc]

/-! ## A module where nothing waits -/

/-- Outputs that leave the block as they are. -/
theorem route1_stays (m : Mod) (o : Out) (h : o.stays = true) : m.route1 o = m.emit o := by
  cases o <;> first | rfl | (simp [Out.stays] at h)

theorem foldl_route1 (m : Mod) (os : List Out) (h : os.all Out.stays = true) :
    os.foldl (fun m o => m.route1 o) m = { m with out := m.out ++ os } := by
  induction os generalizing m with
  | nil => simp
  | cons o os ih =>
    simp only [List.all_cons, Bool.and_eq_true] at h
    rw [List.foldl_cons, route1_stays m o h.1, ih _ h.2]
    simp [Mod.emit]

theorem foldl_id {α β : Type} (l : List β) (m : α) (f : α → β → α) (h : ∀ x ∈ l, f m x = m) : l.foldl f m = m := by
  induction l with
  | nil => rfl
  | cons x xs ih =>
    rw [List.foldl_cons, h x (by simp)]
    exact ih (fun y hy => h y (by simp [hy]))

theorem retryFabric_quiet (m : Mod) (h : m.fabricQuiet = true) : m.retryFabric = m := by
  simp only [Mod.fabricQuiet, Bool.and_eq_true, List.isEmpty_iff, Bool.not_eq_true', List.all_eq_true, Option.isNone_iff_eq_none] at h
  obtain ⟨⟨⟨⟨-, hg⟩, hp⟩, hs⟩, hf⟩ := h
  have h1 : m.fab.grt.filter (fun e => e.waiting.isSome) = [] := by
    rw [List.filter_eq_nil_iff]
    intro e he
    simp [hg e he]
  have h2 : (m.modFab (fun f => { f with parked := [] })) = m := by
    show { m with fab := { m.fab with parked := [] } } = m
    rw [← hp]
  have h3 : (m.modFab (fun f => { f with fullSeen := false })) = m := by
    show { m with fab := { m.fab with fullSeen := false } } = m
    rw [← hf]
  have h4 : (m.modFab (fun f => { f with stalled := [] })) = m := by
    show { m with fab := { m.fab with stalled := [] } } = m
    rw [← hs]
  simp [Mod.retryFabric, h1, hp, h2, h3, hs, h4]

theorem pump_quiet (m : Mod) (p : Nat) (h : (m.laneOf p).txq = []) : m.pump p = m := by
  simp [Mod.pump, h]

theorem collLosses_quiet (m : Mod) (h : m.collQuiet = true) : m.collLosses = m := by
  simp only [Mod.collQuiet, List.all_eq_true, Option.isNone_iff_eq_none] at h
  refine foldl_id _ _ _ (fun q hq => foldl_id _ _ _ (fun op hop => ?_))
  have hc : op.coll = none := by
    have hm : nth m.ctxs q {} ∈ m.ctxs ∨ nth m.ctxs q {} = {} := by
      unfold nth
      rw [List.getD_eq_getElem?_getD]
      rcases lt_or_ge q m.ctxs.length with hl | hl
      · rw [List.getElem?_eq_getElem hl]; exact .inl (List.getElem_mem hl)
      · rw [List.getElem?_eq_none hl]; exact .inr rfl
    rcases hm with hm | hm
    · exact h _ hm op hop
    · rw [hm] at hop; simp at hop
  simp [hc]

/-- A module where nothing waits ends a command as the command left it. -/
theorem finish_quiet (m : Mod) (h : m.idle = true) (ho : m.out.all Out.stays = true) : m.finish = m := by
  simp only [Mod.idle, Bool.and_eq_true] at h
  obtain ⟨⟨hf, hl⟩, hc⟩ := h
  have hp : ∀ p ∈ List.range 10, m.pump p = m := fun p _ => pump_quiet m p (by
    simp only [List.all_eq_true, List.isEmpty_iff] at hl
    have : m.laneOf p ∈ m.lanes ∨ m.laneOf p = {} := by
      unfold Mod.laneOf nth
      rw [List.getD_eq_getElem?_getD]
      rcases lt_or_ge p m.lanes.length with hk | hk
      · rw [List.getElem?_eq_getElem hk]; exact .inl (List.getElem_mem hk)
      · rw [List.getElem?_eq_none hk]; exact .inr rfl
    rcases this with h | h
    · exact hl _ h
    · rw [h])
  have hr : (List.range 10).foldl (fun m p => m.pump p) m = m := foldl_id _ _ _ hp
  simp only [Mod.finish, retryFabric_quiet m hf, hr, collLosses_quiet m hc, foldl_route1 _ _ ho]
  rfl

theorem svcLoop_quiet (m : Mod) (n : Nat) (h : m.svcReady = false) : m.svcLoop n = m := by
  cases n <;> simp [Mod.svcLoop, h]

theorem memSettle_quiet (m : Mod) (h : m.memQuiet = true) : m.memSettle = m := by simp [Mod.memSettle, h]

theorem coreSettle_quiet (m : Mod) (h : m.memQuiet = true) : m.coreSettle = m := by
  simp only [Mod.memQuiet, Bool.and_eq_true] at h
  simp [Mod.coreSettle, h.1.2]

theorem fabReady_calm (m : Mod) (h : m.fab.calm = true) : m.fabReady = false := by
  simp only [Fab.calm, Bool.and_eq_true, List.isEmpty_iff, Option.isNone_iff_eq_none, Bool.not_eq_true'] at h
  obtain ⟨⟨⟨⟨h1, h2⟩, h3⟩, h4⟩, h5⟩ := h
  simp [Mod.fabReady, h1, h2, h3, h4, h5]

theorem fabLoop_quiet (m : Mod) (n : Nat) (h : m.idle = true) : m.fabLoop n = m := by
  have hc : m.fab.calm = true := by
    simp only [Mod.idle, Mod.fabricQuiet, Bool.and_eq_true] at h
    exact h.1.1.1.1.1.1
  cases n <;> simp [Mod.fabLoop, fabReady_calm m hc]

/-- The end of a command moves nothing when nothing waits and the outputs leave the block. -/
theorem conclude_quiet (m : Mod) (h : m.idle = true) (hm : m.memQuiet = true) (hs : m.svcReady = false) (ho : m.out.all Out.stays = true) :
    m.conclude = m := by
  unfold Mod.conclude
  rw [memSettle_quiet m hm, coreSettle_quiet m hm, finish_quiet m h ho, fabLoop_quiet m _ h]
  exact svcLoop_quiet m _ hs

/-- A command whose effect leaves a quiet module answers that effect, settled. -/
theorem runF_quiet (s : State) (f : Mod → Mod) (h : (f s.m.clearOut).idle = true) (hm : (f s.m.clearOut).memQuiet = true) (hs : (f s.m.clearOut).svcReady = false)
    (ho : (f s.m.clearOut).out.all Out.stays = true) :
    s.runF f = .next { s with m := (f s.m.clearOut).settle } := by
  rw [runF_next, conclude_quiet _ h hm hs ho]

/-- A command that may complete requests answers its effect, settled, when that effect leaves a quiet module. -/
theorem answers_runF {c : Instr} {s : State} {f : Mod → Mod} {P : State → Prop} (h : exec c s = s.runF f)
    (hq : (f s.m.clearOut).quiet = true) (ho : (f s.m.clearOut).out.all Out.stays = true)
    (hp : P { s with m := (f s.m.clearOut).settle }) : Answers c s P := by
  simp only [Mod.quiet, Bool.and_eq_true, Bool.not_eq_true'] at hq
  exact ⟨_, h.trans (runF_quiet s f hq.1.1 hq.1.2 hq.2 ho), hp⟩

/-! ## What keeps a module quiet -/

theorem quiet_congr {m n : Mod} (hl : n.lanes = m.lanes) (hf : n.fab = m.fab) (hc : n.ctxs = m.ctxs) (hm : n.memQuiet = m.memQuiet)
    (hs : n.svcReady = m.svcReady) : n.quiet = m.quiet := by
  simp only [Mod.quiet, Mod.idle, Mod.fabricQuiet, Mod.collQuiet, hl, hf, hc, hm, hs]

/-- Requests of memory wait or not by these fields alone. -/
theorem memQuiet_congr {m n : Mod} (h1 : n.mc = m.mc) (h2 : n.dir = m.dir) (h3 : n.ochSrc = m.ochSrc) (h4 : n.pushDue = m.pushDue)
    (h5 : n.coreq = m.coreq) (h6 : n.fld F.DIR_STATUS_DRAINING = m.fld F.DIR_STATUS_DRAINING) : n.memQuiet = m.memQuiet := by
  simp only [Mod.memQuiet, h1, h2, h3, h4, h5, h6]

/-- A context changes and no collective starts. -/
theorem quiet_ctxs {m n : Mod} (h : m.quiet = true) (hl : n.lanes = m.lanes) (hf : n.fab = m.fab) (hm : n.memQuiet = m.memQuiet)
    (hs : n.svcReady = m.svcReady) (hc : n.collQuiet = true) : n.quiet = true := by
  simp only [Mod.quiet, Mod.idle, Mod.fabricQuiet, hl, hf, hm, hs, hc, Bool.and_true] at h ⊢
  simp_all

theorem collQuiet_modNth (l : List Ctx) (q : Nat) (f : Ctx → Ctx) (h : l.all (fun c => c.ops.all (fun o => o.coll.isNone)) = true)
    (hf : ∀ c, c.ops.all (fun o => o.coll.isNone) = true → (f c).ops.all (fun o => o.coll.isNone) = true) :
    (modNth l q f).all (fun c => c.ops.all (fun o => o.coll.isNone)) = true := by
  induction l generalizing q with
  | nil => rfl
  | cons x xs ih =>
    simp only [List.all_cons, Bool.and_eq_true] at h
    cases q with
    | zero => simp only [modNth, List.all_cons, Bool.and_eq_true]; exact ⟨hf _ h.1, h.2⟩
    | succ q => simp only [modNth, List.all_cons, Bool.and_eq_true]; exact ⟨h.1, ih q h.2⟩

/-- The endpoint has work or not by its own fields alone. -/
theorem svcReady_congr {m n : Mod} (h1 : n.svcRun = m.svcRun) (h2 : n.svcq = m.svcq) (h3 : n.rot = m.rot) : n.svcReady = m.svcReady := by
  simp only [Mod.svcReady, h1, h2, h3]

end Sys2Proof.Machine
end

