-- ==== Sys2Proof/Laws/Dispatch.lean ====
section
/-! SUPPORT. The arm of every command, and that every command answers a next state whose tables have settled. -/

namespace Sys2Proof.Machine

open Sys2Proof

theorem exec_registerWrite ag addr size data s : exec (.registerWrite ag addr size data) s = execRegisterWrite ag addr size data s := rfl
theorem exec_referenceClockLost b s : exec (.referenceClockLost b) s = execReferenceClockLost b s := rfl
theorem exec_standbyPowerUp straps s : exec (.standbyPowerUp straps) s = execStandbyPowerUp straps s := rfl
theorem exec_standbyPowerLost s : exec (.standbyPowerLost) s = execStandbyPowerLost s := rfl
theorem exec_modPwrEnAssert lowLongEnough vin s : exec (.modPwrEnAssert lowLongEnough vin) s = execModPwrEnAssert lowLongEnough vin s := rfl
theorem exec_vinStartThreshold s : exec (.vinStartThreshold) s = execVinStartThreshold s := rfl
theorem exec_modPwrEnDeassert s : exec (.modPwrEnDeassert) s = execModPwrEnDeassert s := rfl
theorem exec_inputFault high s : exec (.inputFault high) s = execInputFault high s := rfl
theorem exec_railGroupInRegulation b s : exec (.railGroupInRegulation b) s = execRailGroupInRegulation b s := rfl
theorem exec_modRstNAssert s : exec (.modRstNAssert) s = execModRstNAssert s := rfl
theorem exec_modRstNRelease b s : exec (.modRstNRelease b) s = execModRstNRelease b s := rfl
theorem exec_thermalTrip die s : exec (.thermalTrip die) s = execThermalTrip die s := rfl
theorem exec_thermtripRestart outlet mgd s : exec (.thermtripRestart outlet mgd) s = execThermtripRestart outlet mgd s := rfl
theorem exec_laserEnNDeassert s : exec (.laserEnNDeassert) s = execLaserEnNDeassert s := rfl
theorem exec_laserEnNAssert s : exec (.laserEnNAssert) s = execLaserEnNAssert s := rfl
theorem exec_laserEnableQualified s : exec (.laserEnableQualified) s = execLaserEnableQualified s := rfl
theorem exec_smbusAlertResponse s : exec (.smbusAlertResponse) s = execSmbusAlertResponse s := rfl
theorem exec_smbusInvalidCommand code pec s : exec (.smbusInvalidCommand code pec) s = execSmbusInvalidCommand code pec s := rfl
theorem exec_clearFaults pec s : exec (.clearFaults pec) s = execClearFaults pec s := rfl
theorem exec_capability s : exec (.capability) s = execCapability s := rfl
theorem exec_statusWord s : exec (.statusWord) s = execStatusWord s := rfl
theorem exec_readVin reading s : exec (.readVin reading) s = execReadVin reading s := rfl
theorem exec_readIin reading s : exec (.readIin reading) s = execReadIin reading s := rfl
theorem exec_readPin reading s : exec (.readPin reading) s = execReadPin reading s := rfl
theorem exec_readTemperature1 s : exec (.readTemperature1) s = execReadTemperature1 s := rfl
theorem exec_readTemperature2 s : exec (.readTemperature2) s = execReadTemperature2 s := rfl
theorem exec_pmbusRevision s : exec (.pmbusRevision) s = execPmbusRevision s := rfl
theorem exec_mfrId s : exec (.mfrId) s = execMfrId s := rfl
theorem exec_mfrModel s : exec (.mfrModel) s = execMfrModel s := rfl
theorem exec_mfrRevision s : exec (.mfrRevision) s = execMfrRevision s := rfl
theorem exec_mfrSerial s : exec (.mfrSerial) s = execMfrSerial s := rfl
theorem exec_mfrInventory s : exec (.mfrInventory) s = execMfrInventory s := rfl
theorem exec_mfrDieTemp s : exec (.mfrDieTemp) s = execMfrDieTemp s := rfl
theorem exec_mfrCause s : exec (.mfrCause) s = execMfrCause s := rfl
theorem exec_mfrAlertStatus w pec s : exec (.mfrAlertStatus w pec) s = execMfrAlertStatus w pec s := rfl
theorem exec_mfrAlertMask w pec s : exec (.mfrAlertMask w pec) s = execMfrAlertMask w pec s := rfl
theorem exec_mfrLocate w pec s : exec (.mfrLocate w pec) s = execMfrLocate w pec s := rfl
theorem exec_mfrServiceKey w pec s : exec (.mfrServiceKey w pec) s = execMfrServiceKey w pec s := rfl
theorem exec_mfrState s : exec (.mfrState) s = execMfrState s := rfl
theorem exec_hubPartitionWrite ag data s : exec (.hubPartitionWrite ag data) s = execHubPartitionWrite ag data s := rfl
theorem exec_hubTileMapWrite ag data s : exec (.hubTileMapWrite ag data) s = execHubTileMapWrite ag data s := rfl
theorem exec_repairLock ag die s : exec (.repairLock ag die) s = execRepairLock ag die s := rfl
theorem exec_streamParityError q r s : exec (.streamParityError q r) s = execStreamParityError q r s := rfl
theorem exec_tileReport q die s : exec (.tileReport q die) s = execTileReport q die s := rfl
theorem exec_partialSumArrival q die n s : exec (.partialSumArrival q die n) s = execPartialSumArrival q die n s := rfl
theorem exec_reductionComplete q s : exec (.reductionComplete q) s = execReductionComplete q s := rfl
theorem exec_ringTailWrite ag q data s : exec (.ringTailWrite ag q data) s = execRingTailWrite ag q data s := rfl
theorem exec_ringBaseWrite ag q data s : exec (.ringBaseWrite ag q data) s = execRingBaseWrite ag q data s := rfl
theorem exec_cplBaseWrite ag q data s : exec (.cplBaseWrite ag q data) s = execCplBaseWrite ag q data s := rfl
theorem exec_cplHeadWrite ag q data s : exec (.cplHeadWrite ag q data) s = execCplHeadWrite ag q data s := rfl
theorem exec_fetchStart q s : exec (.fetchStart q) s = execFetchStart q s := rfl
theorem exec_fetchComplete q s : exec (.fetchComplete q) s = execFetchComplete q s := rfl
theorem exec_nop q s : exec (.nop q) s = execNop q s := rfl
theorem exec_jump q s : exec (.jump q) s = execJump q s := rfl
theorem exec_call q s : exec (.call q) s = execCall q s := rfl
theorem exec_ret q s : exec (.ret q) s = execRet q s := rfl
theorem exec_loop q s : exec (.loop q) s = execLoop q s := rfl
theorem exec_branchIf q s : exec (.branchIf q) s = execBranchIf q s := rfl
theorem exec_halt q s : exec (.halt q) s = execHalt q s := rfl
theorem exec_fence q s : exec (.fence q) s = execFence q s := rfl
theorem exec_waitFlag q s : exec (.waitFlag q) s = execWaitFlag q s := rfl
theorem exec_signalFlag q s : exec (.signalFlag q) s = execSignalFlag q s := rfl
theorem exec_trap q s : exec (.trap q) s = execTrap q s := rfl
theorem exec_flagWaitPass q s : exec (.flagWaitPass q) s = execFlagWaitPass q s := rfl
theorem exec_flagWrite ag n data s : exec (.flagWrite ag n data) s = execFlagWrite ag n data s := rfl
theorem exec_flagAdd ag n data s : exec (.flagAdd ag n data) s = execFlagAdd ag n data s := rfl
theorem exec_stagingStart q s : exec (.stagingStart q) s = execStagingStart q s := rfl
theorem exec_stagingComplete q s : exec (.stagingComplete q) s = execStagingComplete q s := rfl
theorem exec_contract q s : exec (.contract q) s = execContract q s := rfl
theorem exec_contractSparse q s : exec (.contractSparse q) s = execContractSparse q s := rfl
theorem exec_contractSplit32 q s : exec (.contractSplit32 q) s = execContractSplit32 q s := rfl
theorem exec_contractWindow q s : exec (.contractWindow q) s = execContractWindow q s := rfl
theorem exec_attend q s : exec (.attend q) s = execAttend q s := rfl
theorem exec_attendPaged q s : exec (.attendPaged q) s = execAttendPaged q s := rfl
theorem exec_scanLinear q s : exec (.scanLinear q) s = execScanLinear q s := rfl
theorem exec_scanAssoc q s : exec (.scanAssoc q) s = execScanAssoc q s := rfl
theorem exec_map q s : exec (.map q) s = execMap q s := rfl
theorem exec_map2 q s : exec (.map2 q) s = execMap2 q s := rfl
theorem exec_norm q s : exec (.norm q) s = execNorm q s := rfl
theorem exec_softmax q s : exec (.softmax q) s = execSoftmax q s := rfl
theorem exec_quantize q s : exec (.quantize q) s = execQuantize q s := rfl
theorem exec_topk q s : exec (.topk q) s = execTopk q s := rfl
theorem exec_sort q s : exec (.sort q) s = execSort q s := rfl
theorem exec_reduce q s : exec (.reduce q) s = execReduce q s := rfl
theorem exec_gather q s : exec (.gather q) s = execGather q s := rfl
theorem exec_scatter q s : exec (.scatter q) s = execScatter q s := rfl
theorem exec_scatterAdd q s : exec (.scatterAdd q) s = execScatterAdd q s := rfl
theorem exec_copy q s : exec (.copy q) s = execCopy q s := rfl
theorem exec_fill q s : exec (.fill q) s = execFill q s := rfl
theorem exec_prefetch q s : exec (.prefetch q) s = execPrefetch q s := rfl
theorem exec_evict q s : exec (.evict q) s = execEvict q s := rfl
theorem exec_allreduce q s : exec (.allreduce q) s = execAllreduce q s := rfl
theorem exec_reduceScatter q s : exec (.reduceScatter q) s = execReduceScatter q s := rfl
theorem exec_allgather q s : exec (.allgather q) s = execAllgather q s := rfl
theorem exec_alltoall q s : exec (.alltoall q) s = execAlltoall q s := rfl
theorem exec_broadcast q s : exec (.broadcast q) s = execBroadcast q s := rfl
theorem exec_send q s : exec (.send q) s = execSend q s := rfl
theorem exec_recv q s : exec (.recv q) s = execRecv q s := rfl
theorem exec_atomic q s : exec (.atomic q) s = execAtomic q s := rfl
theorem exec_memoryRequestComplete q s : exec (.memoryRequestComplete q) s = execMemoryRequestComplete q s := rfl
theorem exec_retire q s : exec (.retire q) s = execRetire q s := rfl
theorem exec_completionRecordWrite q s : exec (.completionRecordWrite q) s = execCompletionRecordWrite q s := rfl
theorem exec_abortRequest ag q s : exec (.abortRequest ag q) s = execAbortRequest ag q s := rfl
theorem exec_abortTaken q s : exec (.abortTaken q) s = execAbortTaken q s := rfl
theorem exec_detachTimeout q s : exec (.detachTimeout q) s = execDetachTimeout q s := rfl
theorem exec_abortComplete q s : exec (.abortComplete q) s = execAbortComplete q s := rfl
theorem exec_resume ag q s : exec (.resume ag q) s = execResume ag q s := rfl
theorem exec_contextTrap q s : exec (.contextTrap q) s = execContextTrap q s := rfl
theorem exec_reloadComplete q s : exec (.reloadComplete q) s = execReloadComplete q s := rfl
theorem exec_sequencerDieLost q die s : exec (.sequencerDieLost q die) s = execSequencerDieLost q die s := rfl
theorem exec_yPortAccess ag arr off op sport s : exec (.yPortAccess ag arr off op sport) s = execYPortAccess ag arr off op sport s := rfl
theorem exec_yAccessPerformed arr bank sub s : exec (.yAccessPerformed arr bank sub) s = execYAccessPerformed arr bank sub s := rfl
theorem exec_aliasWrite ag addr size data s : exec (.aliasWrite ag addr size data) s = execAliasWrite ag addr size data s := rfl
theorem exec_bankCmdOn ag arr first last s : exec (.bankCmdOn ag arr first last) s = execBankCmdOn ag arr first last s := rfl
theorem exec_bankCmdRet ag arr first last s : exec (.bankCmdRet ag arr first last) s = execBankCmdRet ag arr first last s := rfl
theorem exec_bankCmdOff ag arr first last s : exec (.bankCmdOff ag arr first last) s = execBankCmdOff ag arr first last s := rfl
theorem exec_bankCmdTest ag arr first last s : exec (.bankCmdTest ag arr first last) s = execBankCmdTest ag arr first last s := rfl
theorem exec_bankWakeComplete arr bank s : exec (.bankWakeComplete arr bank) s = execBankWakeComplete arr bank s := rfl
theorem exec_marchDestructive ag arr first last repair fails s : exec (.marchDestructive ag arr first last repair fails) s = execMarchDestructive ag arr first last repair fails s := rfl
theorem exec_marchPreserving ag arr first last fails s : exec (.marchPreserving ag arr first last fails) s = execMarchPreserving ag arr first last fails s := rfl
theorem exec_marchCancel ag arr s : exec (.marchCancel ag arr) s = execMarchCancel ag arr s := rfl
theorem exec_marchEnd arr fails s : exec (.marchEnd arr fails) s = execMarchEnd arr fails s := rfl
theorem exec_spareAdd ag arr bank word s : exec (.spareAdd ag arr bank word) s = execSpareAdd ag arr bank word s := rfl
theorem exec_lpddrCommandSlot k c arrivals errs s : exec (.lpddrCommandSlot k c arrivals errs) s = execLpddrCommandSlot k c arrivals errs s := rfl
theorem exec_ochreRequest src addr size s : exec (.ochreRequest src addr size) s = execOchreRequest src addr size s := rfl
theorem exec_ochreAgeExpired id s : exec (.ochreAgeExpired id) s = execOchreAgeExpired id s := rfl
theorem exec_refresh k c bank s : exec (.refresh k c bank) s = execRefresh k c bank s := rfl
theorem exec_temperatureReport k temp s : exec (.temperatureReport k temp) s = execTemperatureReport k temp s := rfl
theorem exec_thermalHoldTimeout k id s : exec (.thermalHoldTimeout k id) s = execThermalHoldTimeout k id s := rfl
theorem exec_selfRefreshIdle k s : exec (.selfRefreshIdle k) s = execSelfRefreshIdle k s := rfl
theorem exec_patrolScrub k unit errs s : exec (.patrolScrub k unit errs) s = execPatrolScrub k unit errs s := rfl
theorem exec_rowRemap k errs dirty s : exec (.rowRemap k errs dirty) s = execRowRemap k errs dirty s := rfl
theorem exec_logClear ag k s : exec (.logClear ag k) s = execLogClear ag k s := rfl
theorem exec_zqCalibration ag k mask s : exec (.zqCalibration ag k mask) s = execZqCalibration ag k mask s := rfl
theorem exec_commandAddressTraining ag k mask s : exec (.commandAddressTraining ag k mask) s = execCommandAddressTraining ag k mask s := rfl
theorem exec_writeLeveling ag k mask s : exec (.writeLeveling ag k mask) s = execWriteLeveling ag k mask s := rfl
theorem exec_readDqTraining ag k mask s : exec (.readDqTraining ag k mask) s = execReadDqTraining ag k mask s := rfl
theorem exec_writeDqTraining ag k mask s : exec (.writeDqTraining ag k mask) s = execWriteDqTraining ag k mask s := rfl
theorem exec_patternCheck ag k mask s : exec (.patternCheck ag k mask) s = execPatternCheck ag k mask s := rfl
theorem exec_applyTrainingParam ag k mask s : exec (.applyTrainingParam ag k mask) s = execApplyTrainingParam ag k mask s := rfl
theorem exec_lpddrTrainingStepDone k pass pins s : exec (.lpddrTrainingStepDone k pass pins) s = execLpddrTrainingStepDone k pass pins s := rfl
theorem exec_fieldTestGo ag k data s : exec (.fieldTestGo ag k data) s = execFieldTestGo ag k data s := rfl
theorem exec_fieldTestEnd k fail s : exec (.fieldTestEnd k fail) s = execFieldTestEnd k fail s := rfl
theorem exec_deadlineTick s : exec (.deadlineTick) s = execDeadlineTick s := rfl
theorem exec_reservationWindow k s : exec (.reservationWindow k) s = execReservationWindow k s := rfl
theorem exec_reservationWrite ag k data s : exec (.reservationWrite ag k data) s = execReservationWrite ag k data s := rfl
theorem exec_queueLevelBroadcast k s : exec (.queueLevelBroadcast k) s = execQueueLevelBroadcast k s := rfl
theorem exec_capacityRecompute s : exec (.capacityRecompute) s = execCapacityRecompute s := rfl
theorem exec_coreLoad ag addr size s : exec (.coreLoad ag addr size) s = execCoreLoad ag addr size s := rfl
theorem exec_coreStore ag addr data s : exec (.coreStore ag addr data) s = execCoreStore ag addr data s := rfl
theorem exec_lineReplacement a line s : exec (.lineReplacement a line) s = execLineReplacement a line s := rfl
theorem exec_rds h line s : exec (.rds h line) s = execRds h line s := rfl
theorem exec_rdx h line s : exec (.rdx h line) s = execRdx h line s := rfl
theorem exec_upg h line s : exec (.upg h line) s = execUpg h line s := rfl
theorem exec_ncRd src ag addr size s : exec (.ncRd src ag addr size) s = execNcRd src ag addr size s := rfl
theorem exec_ncWr src ag addr data hint s : exec (.ncWr src ag addr data hint) s = execNcWr src ag addr data hint s := rfl
theorem exec_ncAtom src ag addr op s : exec (.ncAtom src ag addr op) s = execNcAtom src ag addr op s := rfl
theorem exec_recallS dst line s : exec (.recallS dst line) s = execRecallS dst line s := rfl
theorem exec_recallI dst line s : exec (.recallI dst line) s = execRecallI dst line s := rfl
theorem exec_inv dst line s : exec (.inv dst line) s = execInv dst line s := rfl
theorem exec_invAck h line s : exec (.invAck h line) s = execInvAck h line s := rfl
theorem exec_recallAck h line kind s : exec (.recallAck h line kind) s = execRecallAck h line kind s := rfl
theorem exec_wbPend h line s : exec (.wbPend h line) s = execWbPend h line s := rfl
theorem exec_wbAck a line s : exec (.wbAck a line) s = execWbAck a line s := rfl
theorem exec_grantM dst line s : exec (.grantM dst line) s = execGrantM dst line s := rfl
theorem exec_data dst line data grant poison s : exec (.data dst line data grant poison) s = execData dst line data grant poison s := rfl
theorem exec_recallData h line data poison s : exec (.recallData h line data poison) s = execRecallData h line data poison s := rfl
theorem exec_wbData h line data poison s : exec (.wbData h line data poison) s = execWbData h line data poison s := rfl
theorem exec_push a line room s : exec (.push a line room) s = execPush a line room s := rfl
theorem exec_pushAck a line s : exec (.pushAck a line) s = execPushAck a line s := rfl
theorem exec_pushDrop a line s : exec (.pushDrop a line) s = execPushDrop a line s := rfl
theorem exec_ncAck src s : exec (.ncAck src) s = execNcAck src s := rfl
theorem exec_retryQueueRelease line s : exec (.retryQueueRelease line) s = execRetryQueueRelease line s := rfl
theorem exec_remoteEnClear ag s : exec (.remoteEnClear ag) s = execRemoteEnClear ag s := rfl
theorem exec_proxyDrainComplete s : exec (.proxyDrainComplete) s = execProxyDrainComplete s := rfl
theorem exec_rd64 port p s : exec (.rd64 port p) s = execRd64 port p s := rfl
theorem exec_rdn port p s : exec (.rdn port p) s = execRdn port p s := rfl
theorem exec_wr64 port p s : exec (.wr64 port p) s = execWr64 port p s := rfl
theorem exec_wrm port p s : exec (.wrm port p) s = execWrm port p s := rfl
theorem exec_atom port p s : exec (.atom port p) s = execAtom port p s := rfl
theorem exec_bulkr port p s : exec (.bulkr port p) s = execBulkr port p s := rfl
theorem exec_bulkw port p s : exec (.bulkw port p) s = execBulkw port p s := rfl
theorem exec_dbell port p s : exec (.dbell port p) s = execDbell port p s := rfl
theorem exec_redc port p s : exec (.redc port p) s = execRedc port p s := rfl
theorem exec_collReady port p s : exec (.collReady port p) s = execCollReady port p s := rfl
theorem exec_collCredit port p s : exec (.collCredit port p) s = execCollCredit port p s := rfl
theorem exec_rsp port p s : exec (.rsp port p) s = execRsp port p s := rfl
theorem exec_rspd port p s : exec (.rspd port p) s = execRspd port p s := rfl
theorem exec_mrd port p s : exec (.mrd port p) s = execMrd port p s := rfl
theorem exec_mwr port p s : exec (.mwr port p) s = execMwr port p s := rfl
theorem exec_join port p s : exec (.join port p) s = execJoin port p s := rfl
theorem exec_joinAck port p s : exec (.joinAck port p) s = execJoinAck port p s := rfl
theorem exec_nodeDown port p s : exec (.nodeDown port p) s = execNodeDown port p s := rfl
theorem exec_fabricFence port p s : exec (.fabricFence port p) s = execFabricFence port p s := rfl
theorem exec_unfence port p s : exec (.unfence port p) s = execUnfence port p s := rfl
theorem exec_eventPacket port p s : exec (.eventPacket port p) s = execEventPacket port p s := rfl
theorem exec_bcw port p s : exec (.bcw port p) s = execBcw port p s := rfl
theorem exec_packetForward port p s : exec (.packetForward port p) s = execPacketForward port p s := rfl
theorem exec_fabricEnable ag s : exec (.fabricEnable ag) s = execFabricEnable ag s := rfl
theorem exec_fabricDisable ag s : exec (.fabricDisable ag) s = execFabricDisable ag s := rfl
theorem exec_joinRepeat s : exec (.joinRepeat) s = execJoinRepeat s := rfl
theorem exec_nodeDownFailover n s : exec (.nodeDownFailover n) s = execNodeDownFailover n s := rfl
theorem exec_nodeDownConfirm n alive s : exec (.nodeDownConfirm n alive) s = execNodeDownConfirm n alive s := rfl
theorem exec_grtTimeout idx s : exec (.grtTimeout idx) s = execGrtTimeout idx s := rfl
theorem exec_quarantineExpiry idx s : exec (.quarantineExpiry idx) s = execQuarantineExpiry idx s := rfl
theorem exec_portDrain ag port data s : exec (.portDrain ag port data) s = execPortDrain ag port data s := rfl
theorem exec_drainEnd ag port data s : exec (.drainEnd ag port data) s = execDrainEnd ag port data s := rfl
theorem exec_emitterFailure d w s : exec (.emitterFailure d w) s = execEmitterFailure d w s := rfl
theorem exec_spareEmitterResult d w locked s : exec (.spareEmitterResult d w locked) s = execSpareEmitterResult d w locked s := rfl
theorem exec_flitReceived port f s : exec (.flitReceived port f) s = execFlitReceived port f s := rfl
theorem exec_ack port n wrap s : exec (.ack port n wrap) s = execAck port n wrap s := rfl
theorem exec_nak port n s : exec (.nak port n) s = execNak port n s := rfl
theorem exec_nakResendTimeout port s : exec (.nakResendTimeout port) s = execNakResendTimeout port s := rfl
theorem exec_crd port vc sub total s : exec (.crd port vc sub total) s = execCrd port vc sub total s := rfl
theorem exec_hbt port node s : exec (.hbt port node) s = execHbt port node s := rfl
theorem exec_heartbeatSend port s : exec (.heartbeatSend port) s = execHeartbeatSend port s := rfl
theorem exec_heartbeatTimeout port light s : exec (.heartbeatTimeout port light) s = execHeartbeatTimeout port light s := rfl
theorem exec_bar port answer s : exec (.bar port answer) s = execBar port answer s := rfl
theorem exec_slp port s : exec (.slp port) s = execSlp port s := rfl
theorem exec_lossOfSignal port mask s : exec (.lossOfSignal port mask) s = execLossOfSignal port mask s := rfl
theorem exec_portEnable ag port s : exec (.portEnable ag port) s = execPortEnable ag port s := rfl
theorem exec_portDisable ag port s : exec (.portDisable ag port) s = execPortDisable ag port s := rfl
theorem exec_partnerBeaconDetected port s : exec (.partnerBeaconDetected port) s = execPartnerBeaconDetected port s := rfl
theorem exec_trainDone port taps s : exec (.trainDone port taps) s = execTrainDone port taps s := rfl
theorem exec_laneSlip ag port lane s : exec (.laneSlip ag port lane) s = execLaneSlip ag port lane s := rfl
theorem exec_slipDone ag port s : exec (.slipDone ag port) s = execSlipDone ag port s := rfl
theorem exec_deskewDone port skewed s : exec (.deskewDone port skewed) s = execDeskewDone port skewed s := rfl
theorem exec_capabilityRecord port r s : exec (.capabilityRecord port r) s = execCapabilityRecord port r s := rfl
theorem exec_stageTimeout port incomplete s : exec (.stageTimeout port incomplete) s = execStageTimeout port incomplete s := rfl
theorem exec_retrainBudgetExpired port s : exec (.retrainBudgetExpired port) s = execRetrainBudgetExpired port s := rfl
theorem exec_downDarkExpiry port s : exec (.downDarkExpiry port) s = execDownDarkExpiry port s := rfl
theorem exec_trainingSetReceived port s : exec (.trainingSetReceived port) s = execTrainingSetReceived port s := rfl
theorem exec_laneRetrain ag port s : exec (.laneRetrain ag port) s = execLaneRetrain ag port s := rfl
theorem exec_txSleepEntry port s : exec (.txSleepEntry port) s = execTxSleepEntry port s := rfl
theorem exec_txWake port ag s : exec (.txWake port ag) s = execTxWake port ag s := rfl
theorem exec_wakeTimeout port reverse s : exec (.wakeTimeout port reverse) s = execWakeTimeout port reverse s := rfl
theorem exec_loopbackNone ag port s : exec (.loopbackNone ag port) s = execLoopbackNone ag port s := rfl
theorem exec_loopbackNearSerial ag port s : exec (.loopbackNearSerial ag port) s = execLoopbackNearSerial ag port s := rfl
theorem exec_loopbackNearParallel ag port s : exec (.loopbackNearParallel ag port) s = execLoopbackNearParallel ag port s := rfl
theorem exec_loopbackFarEnd ag port s : exec (.loopbackFarEnd ag port) s = execLoopbackFarEnd ag port s := rfl
theorem exec_prbsTest port errors s : exec (.prbsTest port errors) s = execPrbsTest port errors s := rfl
theorem exec_frameReceive port b f s : exec (.frameReceive port b f) s = execFrameReceive port b f s := rfl
theorem exec_frameNak port b n s : exec (.frameNak port b n) s = execFrameNak port b n s := rfl
theorem exec_laneErrorWindow port s : exec (.laneErrorWindow port) s = execLaneErrorWindow port s := rfl
theorem exec_bundleRetrain ag port b data s : exec (.bundleRetrain ag port b data) s = execBundleRetrain ag port b data s := rfl
theorem exec_bundleRetrainComplete port tests s : exec (.bundleRetrainComplete port tests) s = execBundleRetrainComplete port tests s := rfl
theorem exec_d2dClock ag port mask prbs s : exec (.d2dClock ag port mask prbs) s = execD2dClock ag port mask prbs s := rfl
theorem exec_d2dDeskew ag port mask prbs s : exec (.d2dDeskew ag port mask prbs) s = execD2dDeskew ag port mask prbs s := rfl
theorem exec_d2dIct ag port mask prbs s : exec (.d2dIct ag port mask prbs) s = execD2dIct ag port mask prbs s := rfl
theorem exec_d2dSpare ag port mask prbs s : exec (.d2dSpare ag port mask prbs) s = execD2dSpare ag port mask prbs s := rfl
theorem exec_d2dParity ag port mask prbs s : exec (.d2dParity ag port mask prbs) s = execD2dParity ag port mask prbs s := rfl
theorem exec_d2dApply ag port mask prbs s : exec (.d2dApply ag port mask prbs) s = execD2dApply ag port mask prbs s := rfl
theorem exec_d2dColdTraining ag port mask prbs s : exec (.d2dColdTraining ag port mask prbs) s = execD2dColdTraining ag port mask prbs s := rfl
theorem exec_d2dTrainStepDone port tests s : exec (.d2dTrainStepDone port tests) s = execD2dTrainStepDone port tests s := rfl
theorem exec_lossOfForwardedClock port mask frame s : exec (.lossOfForwardedClock port mask frame) s = execLossOfForwardedClock port mask frame s := rfl
theorem exec_hubLost b s : exec (.hubLost b) s = execHubLost b s := rfl
theorem exec_mgdResetRelease b s : exec (.mgdResetRelease b) s = execMgdResetRelease b s := rfl
theorem exec_evqBaseWrite ag q data s : exec (.evqBaseWrite ag q data) s = execEvqBaseWrite ag q data s := rfl
theorem exec_evraise ag data s : exec (.evraise ag data) s = execEvraise ag data s := rfl
theorem exec_faultClear ag s : exec (.faultClear ag) s = execFaultClear ag s := rfl
theorem exec_flashWrite ag addr data s : exec (.flashWrite ag addr data) s = execFlashWrite ag addr data s := rfl
theorem exec_extend ag index addr s : exec (.extend ag index addr) s = execExtend ag index addr s := rfl
theorem exec_rotAttest ag addr s : exec (.rotAttest ag addr) s = execRotAttest ag addr s := rfl
theorem exec_rotCommandComplete s : exec (.rotCommandComplete) s = execRotCommandComplete s := rfl
theorem exec_status f s : exec (.status f) s = execStatus f s := rfl
theorem exec_eventRead f s : exec (.eventRead f) s = execEventRead f s := rfl
theorem exec_serviceResetWarm f s : exec (.serviceResetWarm f) s = execServiceResetWarm f s := rfl
theorem exec_serviceResetCold f s : exec (.serviceResetCold f) s = execServiceResetCold f s := rfl
theorem exec_serviceResetMgd f s : exec (.serviceResetMgd f) s = execServiceResetMgd f s := rfl
theorem exec_serviceResetPartition f s : exec (.serviceResetPartition f) s = execServiceResetPartition f s := rfl
theorem exec_serviceResetDelay b s : exec (.serviceResetDelay b) s = execServiceResetDelay b s := rfl
theorem exec_bulkSeek f s : exec (.bulkSeek f) s = execBulkSeek f s := rfl
theorem exec_bulkRead f s : exec (.bulkRead f) s = execBulkRead f s := rfl
theorem exec_bulkWrite f s : exec (.bulkWrite f) s = execBulkWrite f s := rfl
theorem exec_clearRepair f s : exec (.clearRepair f) s = execClearRepair f s := rfl
theorem exec_returnDie f s : exec (.returnDie f) s = execReturnDie f s := rfl
theorem exec_locateOn f s : exec (.locateOn f) s = execLocateOn f s := rfl
theorem exec_locateOff f s : exec (.locateOff f) s = execLocateOff f s := rfl
theorem exec_svnCommit f s : exec (.svnCommit f) s = execSvnCommit f s := rfl
theorem exec_setOperatorKey f s : exec (.setOperatorKey f) s = execSetOperatorKey f s := rfl
theorem exec_attest f s : exec (.attest f) s = execAttest f s := rfl
theorem exec_coreResetClean ag target s : exec (.coreResetClean ag target) s = execCoreResetClean ag target s := rfl
theorem exec_coreResetHard ag target s : exec (.coreResetHard ag target) s = execCoreResetHard ag target s := rfl
theorem exec_clusterReset ag target s : exec (.clusterReset ag target) s = execClusterReset ag target s := rfl
theorem exec_partitionReset ag target s : exec (.partitionReset ag target) s = execPartitionReset ag target s := rfl
theorem exec_moduleResetWarm ag target b s : exec (.moduleResetWarm ag target b) s = execModuleResetWarm ag target b s := rfl
theorem exec_moduleResetCold ag target b s : exec (.moduleResetCold ag target b) s = execModuleResetCold ag target b s := rfl
theorem exec_resetFinish ag dies s : exec (.resetFinish ag dies) s = execResetFinish ag dies s := rfl
theorem exec_coreResetComplete target s : exec (.coreResetComplete target) s = execCoreResetComplete target s := rfl
theorem exec_drainLimit level target s : exec (.drainLimit level target) s = execDrainLimit level target s := rfl
theorem exec_bootComplete dies s : exec (.bootComplete dies) s = execBootComplete dies s := rfl
theorem exec_railFault rail kind s : exec (.railFault rail kind) s = execRailFault rail kind s := rfl
theorem exec_activeRequest ag s : exec (.activeRequest ag) s = execActiveRequest ag s := rfl
theorem exec_parkedRequest ag s : exec (.parkedRequest ag) s = execParkedRequest ag s := rfl
theorem exec_standbyRequest ag s : exec (.standbyRequest ag) s = execStandbyRequest ag s := rfl
theorem exec_parkedEntryComplete s : exec (.parkedEntryComplete) s = execParkedEntryComplete s := rfl
theorem exec_parkedExitComplete dies s : exec (.parkedExitComplete dies) s = execParkedExitComplete dies s := rfl
theorem exec_arrayClockGate q s : exec (.arrayClockGate q) s = execArrayClockGate q s := rfl
theorem exec_arrayClockUngate q s : exec (.arrayClockUngate q) s = execArrayClockUngate q s := rfl
theorem exec_capLoopTick peak average s : exec (.capLoopTick peak average) s = execCapLoopTick peak average s := rfl
theorem exec_sensorSample sensors s : exec (.sensorSample sensors) s = execSensorSample sensors s := rfl
theorem exec_throttleCeilingStep n s : exec (.throttleCeilingStep n) s = execThrottleCeilingStep n s := rfl
theorem exec_coolantSample inlet outlet s : exec (.coolantSample inlet outlet) s = execCoolantSample inlet outlet s := rfl
theorem exec_cacheParityError a line s : exec (.cacheParityError a line) s = execCacheParityError a line s := rfl
theorem exec_logicBistBoot ag n s : exec (.logicBistBoot ag n) s = execLogicBistBoot ag n s := rfl
theorem exec_logicBistField ag n s : exec (.logicBistField ag n) s = execLogicBistField ag n s := rfl
theorem exec_memoryBist ag n s : exec (.memoryBist ag n) s = execMemoryBist ag n s := rfl
theorem exec_standaloneTest ag n s : exec (.standaloneTest ag n) s = execStandaloneTest ag n s := rfl
theorem exec_dieTestEnd die sig s : exec (.dieTestEnd die sig) s = execDieTestEnd die sig s := rfl
theorem exec_dtExpectWrite ag n data s : exec (.dtExpectWrite ag n data) s = execDtExpectWrite ag n data s := rfl
theorem exec_idcode tap s : exec (.idcode tap) s = execIdcode tap s := rfl
theorem exec_samplePreload tap s : exec (.samplePreload tap) s = execSamplePreload tap s := rfl
theorem exec_extest tap s : exec (.extest tap) s = execExtest tap s := rfl
theorem exec_clamp tap s : exec (.clamp tap) s = execClamp tap s := rfl
theorem exec_highz tap s : exec (.highz tap) s = execHighz tap s := rfl
theorem exec_stackSelect selection s : exec (.stackSelect selection) s = execStackSelect selection s := rfl
theorem exec_bypass tap s : exec (.bypass tap) s = execBypass tap s := rfl
theorem exec_alwaysOnIslandReady s : exec (.alwaysOnIslandReady) s = execAlwaysOnIslandReady s := rfl
theorem exec_commaLocked port lane pos locked s : exec (.commaLocked port lane pos locked) s = execCommaLocked port lane pos locked s := rfl
theorem exec_receiverWake port s : exec (.receiverWake port) s = execReceiverWake port s := rfl
theorem exec_segmentBlock port s : exec (.segmentBlock port) s = execSegmentBlock port s := rfl
theorem exec_mgmtEthernetLinkUp s : exec (.mgmtEthernetLinkUp) s = execMgmtEthernetLinkUp s := rfl
theorem exec_mgmtEthernetLinkDown s : exec (.mgmtEthernetLinkDown) s = execMgmtEthernetLinkDown s := rfl
theorem exec_coreInstructionFetch ag addr size s : exec (.coreInstructionFetch ag addr size) s = execCoreInstructionFetch ag addr size s := rfl
theorem exec_coreAmo ag addr size fn operand s : exec (.coreAmo ag addr size fn operand) s = execCoreAmo ag addr size fn operand s := rfl

/-- The outcome is a next state with the same queue and with settled tables. -/
def Runs (s : State) (o : Host.Outcome State Fault Refusal) : Prop := ∃ m : Mod, o = .next { s with m := m.settle }

theorem runs_run (s : State) (f : Mod → Mod) : Runs s (s.run f) := ⟨_, rfl⟩
theorem runs_runF (s : State) (f : Mod → Mod) : Runs s (s.runF f) := ⟨_, rfl⟩

/-- What every command does to a state. -/
theorem exec_runs (c : Instr) (s : State) : Runs s (exec c s) := by
  cases c with
  | registerWrite ag addr size data => rw [exec_registerWrite]; exact runs_runF _ _
  | referenceClockLost b => rw [exec_referenceClockLost]; exact runs_runF _ _
  | standbyPowerUp straps => rw [exec_standbyPowerUp]; exact runs_run _ _
  | standbyPowerLost => rw [exec_standbyPowerLost]; exact runs_run _ _
  | modPwrEnAssert lowLongEnough vin => rw [exec_modPwrEnAssert]; exact runs_run _ _
  | vinStartThreshold => rw [exec_vinStartThreshold]; exact runs_run _ _
  | modPwrEnDeassert => rw [exec_modPwrEnDeassert]; exact runs_runF _ _
  | inputFault high => rw [exec_inputFault]; exact runs_runF _ _
  | railGroupInRegulation b => rw [exec_railGroupInRegulation]; exact runs_runF _ _
  | modRstNAssert => rw [exec_modRstNAssert]; exact runs_runF _ _
  | modRstNRelease b => rw [exec_modRstNRelease]; exact runs_runF _ _
  | thermalTrip die => rw [exec_thermalTrip]; exact runs_runF _ _
  | thermtripRestart outlet mgd => rw [exec_thermtripRestart]; exact runs_run _ _
  | laserEnNDeassert => rw [exec_laserEnNDeassert]; exact runs_runF _ _
  | laserEnNAssert => rw [exec_laserEnNAssert]; exact runs_run _ _
  | laserEnableQualified => rw [exec_laserEnableQualified]; exact runs_runF _ _
  | smbusAlertResponse => rw [exec_smbusAlertResponse]; exact runs_run _ _
  | smbusInvalidCommand code pec => rw [exec_smbusInvalidCommand]; exact runs_run _ _
  | clearFaults pec => rw [exec_clearFaults]; exact runs_run _ _
  | capability => rw [exec_capability]; exact runs_run _ _
  | statusWord => rw [exec_statusWord]; exact runs_run _ _
  | readVin reading => rw [exec_readVin]; exact runs_run _ _
  | readIin reading => rw [exec_readIin]; exact runs_run _ _
  | readPin reading => rw [exec_readPin]; exact runs_run _ _
  | readTemperature1 => rw [exec_readTemperature1]; exact runs_run _ _
  | readTemperature2 => rw [exec_readTemperature2]; exact runs_run _ _
  | pmbusRevision => rw [exec_pmbusRevision]; exact runs_run _ _
  | mfrId => rw [exec_mfrId]; exact runs_run _ _
  | mfrModel => rw [exec_mfrModel]; exact runs_run _ _
  | mfrRevision => rw [exec_mfrRevision]; exact runs_run _ _
  | mfrSerial => rw [exec_mfrSerial]; exact runs_run _ _
  | mfrInventory => rw [exec_mfrInventory]; exact runs_run _ _
  | mfrDieTemp => rw [exec_mfrDieTemp]; exact runs_run _ _
  | mfrCause => rw [exec_mfrCause]; exact runs_run _ _
  | mfrAlertStatus w pec => rw [exec_mfrAlertStatus]; exact runs_run _ _
  | mfrAlertMask w pec => rw [exec_mfrAlertMask]; exact runs_run _ _
  | mfrLocate w pec => rw [exec_mfrLocate]; exact runs_run _ _
  | mfrServiceKey w pec => rw [exec_mfrServiceKey]; exact runs_run _ _
  | mfrState => rw [exec_mfrState]; exact runs_run _ _
  | hubPartitionWrite ag data => rw [exec_hubPartitionWrite]; exact runs_runF _ _
  | hubTileMapWrite ag data => rw [exec_hubTileMapWrite]; exact runs_runF _ _
  | repairLock ag die => rw [exec_repairLock]; exact runs_runF _ _
  | streamParityError q r => rw [exec_streamParityError]; exact runs_runF _ _
  | tileReport q die => rw [exec_tileReport]; exact runs_runF _ _
  | partialSumArrival q die n => rw [exec_partialSumArrival]; exact runs_run _ _
  | reductionComplete q => rw [exec_reductionComplete]; exact runs_runF _ _
  | ringTailWrite ag q data => rw [exec_ringTailWrite]; exact runs_run _ _
  | ringBaseWrite ag q data => rw [exec_ringBaseWrite]; exact runs_run _ _
  | cplBaseWrite ag q data => rw [exec_cplBaseWrite]; exact runs_run _ _
  | cplHeadWrite ag q data => rw [exec_cplHeadWrite]; exact runs_run _ _
  | fetchStart q => rw [exec_fetchStart]; exact runs_run _ _
  | fetchComplete q => rw [exec_fetchComplete]; exact runs_runF _ _
  | nop q => rw [exec_nop]; exact runs_runF _ _
  | jump q => rw [exec_jump]; exact runs_runF _ _
  | call q => rw [exec_call]; exact runs_runF _ _
  | ret q => rw [exec_ret]; exact runs_runF _ _
  | loop q => rw [exec_loop]; exact runs_runF _ _
  | branchIf q => rw [exec_branchIf]; exact runs_run _ _
  | halt q => rw [exec_halt]; exact runs_run _ _
  | fence q => rw [exec_fence]; exact runs_run _ _
  | waitFlag q => rw [exec_waitFlag]; exact runs_run _ _
  | signalFlag q => rw [exec_signalFlag]; exact runs_run _ _
  | trap q => rw [exec_trap]; exact runs_run _ _
  | flagWaitPass q => rw [exec_flagWaitPass]; exact runs_run _ _
  | flagWrite ag n data => rw [exec_flagWrite]; exact runs_run _ _
  | flagAdd ag n data => rw [exec_flagAdd]; exact runs_run _ _
  | stagingStart q => rw [exec_stagingStart]; exact runs_run _ _
  | stagingComplete q => rw [exec_stagingComplete]; exact runs_runF _ _
  | contract q => rw [exec_contract]; exact runs_runF _ _
  | contractSparse q => rw [exec_contractSparse]; exact runs_runF _ _
  | contractSplit32 q => rw [exec_contractSplit32]; exact runs_runF _ _
  | contractWindow q => rw [exec_contractWindow]; exact runs_runF _ _
  | attend q => rw [exec_attend]; exact runs_runF _ _
  | attendPaged q => rw [exec_attendPaged]; exact runs_runF _ _
  | scanLinear q => rw [exec_scanLinear]; exact runs_runF _ _
  | scanAssoc q => rw [exec_scanAssoc]; exact runs_runF _ _
  | map q => rw [exec_map]; exact runs_runF _ _
  | map2 q => rw [exec_map2]; exact runs_runF _ _
  | norm q => rw [exec_norm]; exact runs_runF _ _
  | softmax q => rw [exec_softmax]; exact runs_runF _ _
  | quantize q => rw [exec_quantize]; exact runs_runF _ _
  | topk q => rw [exec_topk]; exact runs_runF _ _
  | sort q => rw [exec_sort]; exact runs_runF _ _
  | reduce q => rw [exec_reduce]; exact runs_runF _ _
  | gather q => rw [exec_gather]; exact runs_runF _ _
  | scatter q => rw [exec_scatter]; exact runs_runF _ _
  | scatterAdd q => rw [exec_scatterAdd]; exact runs_runF _ _
  | copy q => rw [exec_copy]; exact runs_runF _ _
  | fill q => rw [exec_fill]; exact runs_runF _ _
  | prefetch q => rw [exec_prefetch]; exact runs_runF _ _
  | evict q => rw [exec_evict]; exact runs_runF _ _
  | allreduce q => rw [exec_allreduce]; exact runs_runF _ _
  | reduceScatter q => rw [exec_reduceScatter]; exact runs_runF _ _
  | allgather q => rw [exec_allgather]; exact runs_runF _ _
  | alltoall q => rw [exec_alltoall]; exact runs_runF _ _
  | broadcast q => rw [exec_broadcast]; exact runs_runF _ _
  | send q => rw [exec_send]; exact runs_runF _ _
  | recv q => rw [exec_recv]; exact runs_runF _ _
  | atomic q => rw [exec_atomic]; exact runs_runF _ _
  | memoryRequestComplete q => rw [exec_memoryRequestComplete]; exact runs_runF _ _
  | retire q => rw [exec_retire]; exact runs_runF _ _
  | completionRecordWrite q => rw [exec_completionRecordWrite]; exact runs_runF _ _
  | abortRequest ag q => rw [exec_abortRequest]; exact runs_run _ _
  | abortTaken q => rw [exec_abortTaken]; exact runs_runF _ _
  | detachTimeout q => rw [exec_detachTimeout]; exact runs_run _ _
  | abortComplete q => rw [exec_abortComplete]; exact runs_runF _ _
  | resume ag q => rw [exec_resume]; exact runs_run _ _
  | contextTrap q => rw [exec_contextTrap]; exact runs_runF _ _
  | reloadComplete q => rw [exec_reloadComplete]; exact runs_runF _ _
  | sequencerDieLost q die => rw [exec_sequencerDieLost]; exact runs_run _ _
  | yPortAccess ag arr off op sport => rw [exec_yPortAccess]; exact runs_runF _ _
  | yAccessPerformed arr bank sub => rw [exec_yAccessPerformed]; exact runs_runF _ _
  | aliasWrite ag addr size data => rw [exec_aliasWrite]; exact runs_run _ _
  | bankCmdOn ag arr first last => rw [exec_bankCmdOn]; exact runs_runF _ _
  | bankCmdRet ag arr first last => rw [exec_bankCmdRet]; exact runs_runF _ _
  | bankCmdOff ag arr first last => rw [exec_bankCmdOff]; exact runs_runF _ _
  | bankCmdTest ag arr first last => rw [exec_bankCmdTest]; exact runs_runF _ _
  | bankWakeComplete arr bank => rw [exec_bankWakeComplete]; exact runs_run _ _
  | marchDestructive ag arr first last repair fails => rw [exec_marchDestructive]; exact runs_runF _ _
  | marchPreserving ag arr first last fails => rw [exec_marchPreserving]; exact runs_runF _ _
  | marchCancel ag arr => rw [exec_marchCancel]; exact runs_runF _ _
  | marchEnd arr fails => rw [exec_marchEnd]; exact runs_run _ _
  | spareAdd ag arr bank word => rw [exec_spareAdd]; exact runs_runF _ _
  | lpddrCommandSlot k c arrivals errs => rw [exec_lpddrCommandSlot]; exact runs_runF _ _
  | ochreRequest src addr size => rw [exec_ochreRequest]; exact runs_runF _ _
  | ochreAgeExpired id => rw [exec_ochreAgeExpired]; exact runs_run _ _
  | refresh k c bank => rw [exec_refresh]; exact runs_run _ _
  | temperatureReport k temp => rw [exec_temperatureReport]; exact runs_runF _ _
  | thermalHoldTimeout k id => rw [exec_thermalHoldTimeout]; exact runs_runF _ _
  | selfRefreshIdle k => rw [exec_selfRefreshIdle]; exact runs_run _ _
  | patrolScrub k unit errs => rw [exec_patrolScrub]; exact runs_run _ _
  | rowRemap k errs dirty => rw [exec_rowRemap]; exact runs_runF _ _
  | logClear ag k => rw [exec_logClear]; exact runs_run _ _
  | zqCalibration ag k mask => rw [exec_zqCalibration]; exact runs_run _ _
  | commandAddressTraining ag k mask => rw [exec_commandAddressTraining]; exact runs_run _ _
  | writeLeveling ag k mask => rw [exec_writeLeveling]; exact runs_run _ _
  | readDqTraining ag k mask => rw [exec_readDqTraining]; exact runs_run _ _
  | writeDqTraining ag k mask => rw [exec_writeDqTraining]; exact runs_run _ _
  | patternCheck ag k mask => rw [exec_patternCheck]; exact runs_run _ _
  | applyTrainingParam ag k mask => rw [exec_applyTrainingParam]; exact runs_run _ _
  | lpddrTrainingStepDone k pass pins => rw [exec_lpddrTrainingStepDone]; exact runs_run _ _
  | fieldTestGo ag k data => rw [exec_fieldTestGo]; exact runs_runF _ _
  | fieldTestEnd k fail => rw [exec_fieldTestEnd]; exact runs_runF _ _
  | deadlineTick => rw [exec_deadlineTick]; exact runs_run _ _
  | reservationWindow k => rw [exec_reservationWindow]; exact runs_run _ _
  | reservationWrite ag k data => rw [exec_reservationWrite]; exact runs_run _ _
  | queueLevelBroadcast k => rw [exec_queueLevelBroadcast]; exact runs_run _ _
  | capacityRecompute => rw [exec_capacityRecompute]; exact runs_run _ _
  | coreLoad ag addr size => rw [exec_coreLoad]; exact runs_runF _ _
  | coreStore ag addr data => rw [exec_coreStore]; exact runs_runF _ _
  | lineReplacement a line => rw [exec_lineReplacement]; exact runs_runF _ _
  | rds h line => rw [exec_rds]; exact runs_runF _ _
  | rdx h line => rw [exec_rdx]; exact runs_runF _ _
  | upg h line => rw [exec_upg]; exact runs_runF _ _
  | ncRd src ag addr size => rw [exec_ncRd]; exact runs_runF _ _
  | ncWr src ag addr data hint => rw [exec_ncWr]; exact runs_runF _ _
  | ncAtom src ag addr op => rw [exec_ncAtom]; exact runs_runF _ _
  | recallS dst line => rw [exec_recallS]; exact runs_runF _ _
  | recallI dst line => rw [exec_recallI]; exact runs_runF _ _
  | inv dst line => rw [exec_inv]; exact runs_runF _ _
  | invAck h line => rw [exec_invAck]; exact runs_runF _ _
  | recallAck h line kind => rw [exec_recallAck]; exact runs_runF _ _
  | wbPend h line => rw [exec_wbPend]; exact runs_runF _ _
  | wbAck a line => rw [exec_wbAck]; exact runs_runF _ _
  | grantM dst line => rw [exec_grantM]; exact runs_runF _ _
  | data dst line data grant poison => rw [exec_data]; exact runs_runF _ _
  | recallData h line data poison => rw [exec_recallData]; exact runs_runF _ _
  | wbData h line data poison => rw [exec_wbData]; exact runs_runF _ _
  | push a line room => rw [exec_push]; exact runs_runF _ _
  | pushAck a line => rw [exec_pushAck]; exact runs_runF _ _
  | pushDrop a line => rw [exec_pushDrop]; exact runs_runF _ _
  | ncAck src => rw [exec_ncAck]; exact runs_runF _ _
  | retryQueueRelease line => rw [exec_retryQueueRelease]; exact runs_runF _ _
  | remoteEnClear ag => rw [exec_remoteEnClear]; exact runs_runF _ _
  | proxyDrainComplete => rw [exec_proxyDrainComplete]; exact runs_runF _ _
  | rd64 port p => rw [exec_rd64]; exact runs_runF _ _
  | rdn port p => rw [exec_rdn]; exact runs_runF _ _
  | wr64 port p => rw [exec_wr64]; exact runs_runF _ _
  | wrm port p => rw [exec_wrm]; exact runs_runF _ _
  | atom port p => rw [exec_atom]; exact runs_runF _ _
  | bulkr port p => rw [exec_bulkr]; exact runs_runF _ _
  | bulkw port p => rw [exec_bulkw]; exact runs_runF _ _
  | dbell port p => rw [exec_dbell]; exact runs_runF _ _
  | redc port p => rw [exec_redc]; exact runs_runF _ _
  | collReady port p => rw [exec_collReady]; exact runs_runF _ _
  | collCredit port p => rw [exec_collCredit]; exact runs_runF _ _
  | rsp port p => rw [exec_rsp]; exact runs_runF _ _
  | rspd port p => rw [exec_rspd]; exact runs_runF _ _
  | mrd port p => rw [exec_mrd]; exact runs_runF _ _
  | mwr port p => rw [exec_mwr]; exact runs_runF _ _
  | join port p => rw [exec_join]; exact runs_runF _ _
  | joinAck port p => rw [exec_joinAck]; exact runs_runF _ _
  | nodeDown port p => rw [exec_nodeDown]; exact runs_runF _ _
  | fabricFence port p => rw [exec_fabricFence]; exact runs_runF _ _
  | unfence port p => rw [exec_unfence]; exact runs_runF _ _
  | eventPacket port p => rw [exec_eventPacket]; exact runs_runF _ _
  | bcw port p => rw [exec_bcw]; exact runs_runF _ _
  | packetForward port p => rw [exec_packetForward]; exact runs_runF _ _
  | fabricEnable ag => rw [exec_fabricEnable]; exact runs_runF _ _
  | fabricDisable ag => rw [exec_fabricDisable]; exact runs_runF _ _
  | joinRepeat => rw [exec_joinRepeat]; exact runs_runF _ _
  | nodeDownFailover n => rw [exec_nodeDownFailover]; exact runs_runF _ _
  | nodeDownConfirm n alive => rw [exec_nodeDownConfirm]; exact runs_runF _ _
  | grtTimeout idx => rw [exec_grtTimeout]; exact runs_runF _ _
  | quarantineExpiry idx => rw [exec_quarantineExpiry]; exact runs_runF _ _
  | portDrain ag port data => rw [exec_portDrain]; exact runs_runF _ _
  | drainEnd ag port data => rw [exec_drainEnd]; exact runs_runF _ _
  | emitterFailure d w => rw [exec_emitterFailure]; exact runs_runF _ _
  | spareEmitterResult d w locked => rw [exec_spareEmitterResult]; exact runs_runF _ _
  | flitReceived port f => rw [exec_flitReceived]; exact runs_runF _ _
  | ack port n wrap => rw [exec_ack]; exact runs_runF _ _
  | nak port n => rw [exec_nak]; exact runs_runF _ _
  | nakResendTimeout port => rw [exec_nakResendTimeout]; exact runs_runF _ _
  | crd port vc sub total => rw [exec_crd]; exact runs_runF _ _
  | hbt port node => rw [exec_hbt]; exact runs_runF _ _
  | heartbeatSend port => rw [exec_heartbeatSend]; exact runs_runF _ _
  | heartbeatTimeout port light => rw [exec_heartbeatTimeout]; exact runs_runF _ _
  | bar port answer => rw [exec_bar]; exact runs_runF _ _
  | slp port => rw [exec_slp]; exact runs_runF _ _
  | lossOfSignal port mask => rw [exec_lossOfSignal]; exact runs_runF _ _
  | portEnable ag port => rw [exec_portEnable]; exact runs_runF _ _
  | portDisable ag port => rw [exec_portDisable]; exact runs_runF _ _
  | partnerBeaconDetected port => rw [exec_partnerBeaconDetected]; exact runs_runF _ _
  | trainDone port taps => rw [exec_trainDone]; exact runs_runF _ _
  | laneSlip ag port lane => rw [exec_laneSlip]; exact runs_runF _ _
  | slipDone ag port => rw [exec_slipDone]; exact runs_runF _ _
  | deskewDone port skewed => rw [exec_deskewDone]; exact runs_runF _ _
  | capabilityRecord port r => rw [exec_capabilityRecord]; exact runs_runF _ _
  | stageTimeout port incomplete => rw [exec_stageTimeout]; exact runs_runF _ _
  | retrainBudgetExpired port => rw [exec_retrainBudgetExpired]; exact runs_runF _ _
  | downDarkExpiry port => rw [exec_downDarkExpiry]; exact runs_runF _ _
  | trainingSetReceived port => rw [exec_trainingSetReceived]; exact runs_runF _ _
  | laneRetrain ag port => rw [exec_laneRetrain]; exact runs_runF _ _
  | txSleepEntry port => rw [exec_txSleepEntry]; exact runs_runF _ _
  | txWake port ag => rw [exec_txWake]; exact runs_runF _ _
  | wakeTimeout port reverse => rw [exec_wakeTimeout]; exact runs_runF _ _
  | loopbackNone ag port => rw [exec_loopbackNone]; exact runs_runF _ _
  | loopbackNearSerial ag port => rw [exec_loopbackNearSerial]; exact runs_runF _ _
  | loopbackNearParallel ag port => rw [exec_loopbackNearParallel]; exact runs_runF _ _
  | loopbackFarEnd ag port => rw [exec_loopbackFarEnd]; exact runs_runF _ _
  | prbsTest port errors => rw [exec_prbsTest]; exact runs_runF _ _
  | frameReceive port b f => rw [exec_frameReceive]; exact runs_runF _ _
  | frameNak port b n => rw [exec_frameNak]; exact runs_runF _ _
  | laneErrorWindow port => rw [exec_laneErrorWindow]; exact runs_runF _ _
  | bundleRetrain ag port b data => rw [exec_bundleRetrain]; exact runs_runF _ _
  | bundleRetrainComplete port tests => rw [exec_bundleRetrainComplete]; exact runs_runF _ _
  | d2dClock ag port mask prbs => rw [exec_d2dClock]; exact runs_run _ _
  | d2dDeskew ag port mask prbs => rw [exec_d2dDeskew]; exact runs_run _ _
  | d2dIct ag port mask prbs => rw [exec_d2dIct]; exact runs_run _ _
  | d2dSpare ag port mask prbs => rw [exec_d2dSpare]; exact runs_run _ _
  | d2dParity ag port mask prbs => rw [exec_d2dParity]; exact runs_run _ _
  | d2dApply ag port mask prbs => rw [exec_d2dApply]; exact runs_run _ _
  | d2dColdTraining ag port mask prbs => rw [exec_d2dColdTraining]; exact runs_run _ _
  | d2dTrainStepDone port tests => rw [exec_d2dTrainStepDone]; exact runs_runF _ _
  | lossOfForwardedClock port mask frame => rw [exec_lossOfForwardedClock]; exact runs_runF _ _
  | hubLost b => rw [exec_hubLost]; exact runs_runF _ _
  | mgdResetRelease b => rw [exec_mgdResetRelease]; exact runs_runF _ _
  | evqBaseWrite ag q data => rw [exec_evqBaseWrite]; exact runs_runF _ _
  | evraise ag data => rw [exec_evraise]; exact runs_runF _ _
  | faultClear ag => rw [exec_faultClear]; exact runs_runF _ _
  | flashWrite ag addr data => rw [exec_flashWrite]; exact runs_runF _ _
  | extend ag index addr => rw [exec_extend]; exact runs_runF _ _
  | rotAttest ag addr => rw [exec_rotAttest]; exact runs_runF _ _
  | rotCommandComplete => rw [exec_rotCommandComplete]; exact runs_runF _ _
  | status f => rw [exec_status]; exact runs_runF _ _
  | eventRead f => rw [exec_eventRead]; exact runs_runF _ _
  | serviceResetWarm f => rw [exec_serviceResetWarm]; exact runs_runF _ _
  | serviceResetCold f => rw [exec_serviceResetCold]; exact runs_runF _ _
  | serviceResetMgd f => rw [exec_serviceResetMgd]; exact runs_runF _ _
  | serviceResetPartition f => rw [exec_serviceResetPartition]; exact runs_runF _ _
  | serviceResetDelay b => rw [exec_serviceResetDelay]; exact runs_runF _ _
  | bulkSeek f => rw [exec_bulkSeek]; exact runs_runF _ _
  | bulkRead f => rw [exec_bulkRead]; exact runs_runF _ _
  | bulkWrite f => rw [exec_bulkWrite]; exact runs_runF _ _
  | clearRepair f => rw [exec_clearRepair]; exact runs_runF _ _
  | returnDie f => rw [exec_returnDie]; exact runs_runF _ _
  | locateOn f => rw [exec_locateOn]; exact runs_runF _ _
  | locateOff f => rw [exec_locateOff]; exact runs_runF _ _
  | svnCommit f => rw [exec_svnCommit]; exact runs_runF _ _
  | setOperatorKey f => rw [exec_setOperatorKey]; exact runs_runF _ _
  | attest f => rw [exec_attest]; exact runs_runF _ _
  | coreResetClean ag target => rw [exec_coreResetClean]; exact runs_runF _ _
  | coreResetHard ag target => rw [exec_coreResetHard]; exact runs_runF _ _
  | clusterReset ag target => rw [exec_clusterReset]; exact runs_runF _ _
  | partitionReset ag target => rw [exec_partitionReset]; exact runs_runF _ _
  | moduleResetWarm ag target b => rw [exec_moduleResetWarm]; exact runs_runF _ _
  | moduleResetCold ag target b => rw [exec_moduleResetCold]; exact runs_runF _ _
  | resetFinish ag dies => rw [exec_resetFinish]; exact runs_runF _ _
  | coreResetComplete target => rw [exec_coreResetComplete]; exact runs_runF _ _
  | drainLimit level target => rw [exec_drainLimit]; exact runs_runF _ _
  | bootComplete dies => rw [exec_bootComplete]; exact runs_runF _ _
  | railFault rail kind => rw [exec_railFault]; exact runs_runF _ _
  | activeRequest ag => rw [exec_activeRequest]; exact runs_runF _ _
  | parkedRequest ag => rw [exec_parkedRequest]; exact runs_runF _ _
  | standbyRequest ag => rw [exec_standbyRequest]; exact runs_runF _ _
  | parkedEntryComplete => rw [exec_parkedEntryComplete]; exact runs_runF _ _
  | parkedExitComplete dies => rw [exec_parkedExitComplete]; exact runs_runF _ _
  | arrayClockGate q => rw [exec_arrayClockGate]; exact runs_run _ _
  | arrayClockUngate q => rw [exec_arrayClockUngate]; exact runs_run _ _
  | capLoopTick peak average => rw [exec_capLoopTick]; exact runs_run _ _
  | sensorSample sensors => rw [exec_sensorSample]; exact runs_run _ _
  | throttleCeilingStep n => rw [exec_throttleCeilingStep]; exact runs_run _ _
  | coolantSample inlet outlet => rw [exec_coolantSample]; exact runs_run _ _
  | cacheParityError a line => rw [exec_cacheParityError]; exact runs_runF _ _
  | logicBistBoot ag n => rw [exec_logicBistBoot]; exact runs_runF _ _
  | logicBistField ag n => rw [exec_logicBistField]; exact runs_runF _ _
  | memoryBist ag n => rw [exec_memoryBist]; exact runs_runF _ _
  | standaloneTest ag n => rw [exec_standaloneTest]; exact runs_runF _ _
  | dieTestEnd die sig => rw [exec_dieTestEnd]; exact runs_runF _ _
  | dtExpectWrite ag n data => rw [exec_dtExpectWrite]; exact runs_run _ _
  | idcode tap => rw [exec_idcode]; exact runs_run _ _
  | samplePreload tap => rw [exec_samplePreload]; exact runs_run _ _
  | extest tap => rw [exec_extest]; exact runs_run _ _
  | clamp tap => rw [exec_clamp]; exact runs_run _ _
  | highz tap => rw [exec_highz]; exact runs_run _ _
  | stackSelect selection => rw [exec_stackSelect]; exact runs_run _ _
  | bypass tap => rw [exec_bypass]; exact runs_run _ _
  | alwaysOnIslandReady => rw [exec_alwaysOnIslandReady]; exact runs_run _ _
  | commaLocked port lane pos locked => rw [exec_commaLocked]; exact runs_runF _ _
  | receiverWake port => rw [exec_receiverWake]; exact runs_runF _ _
  | segmentBlock port => rw [exec_segmentBlock]; exact runs_runF _ _
  | mgmtEthernetLinkUp => rw [exec_mgmtEthernetLinkUp]; exact runs_run _ _
  | mgmtEthernetLinkDown => rw [exec_mgmtEthernetLinkDown]; exact runs_run _ _
  | coreInstructionFetch ag addr size => rw [exec_coreInstructionFetch]; exact runs_runF _ _
  | coreAmo ag addr size fn operand => rw [exec_coreAmo]; exact runs_runF _ _

end Sys2Proof.Machine
end

