-- ==== Sys2Proof/Laws/Events.lean ====
section
/-! SUPPORT. Laws of event records: what raising one may change, and that it is put out. -/

namespace Sys2Proof.Machine

open Sys2Proof

/-! ## Frames -/

theorem regsAndEvents_refl (as : List Nat) (m : Mod) : RegsAndEvents as m m := ⟨rfl, fun _ _ => rfl, fun _ _ => rfl⟩

theorem regsAndEvents_trans {as : List Nat} {l m n : Mod} (h : RegsAndEvents as l m) (g : RegsAndEvents as m n) : RegsAndEvents as l n := by
  obtain ⟨h1, h2, h3⟩ := h
  obtain ⟨g1, g2, g3⟩ := g
  refine ⟨?_, fun a ha => (g2 a ha).trans (h2 a ha), fun a ha => (g3 a ha).trans (h3 a ha)⟩
  rw [g1, h1]

theorem regsAndEvents_mono {as bs : List Nat} {m n : Mod} (h : RegsAndEvents as m n) (hs : ∀ a ∈ as, a ∈ bs) : RegsAndEvents bs m n :=
  ⟨h.1, h.2.1, fun a ha => h.2.2 a (fun hm => ha (by
    simp only [List.mem_append] at hm ⊢
    exact hm.imp (hs a) id))⟩

/-- A field of a listed register is set. -/
theorem regsAndEvents_setFld {as : List Nat} {m n : Mod} (h : RegsAndEvents as m n) (f : Fld) (v i k j : Nat)
    (hf : f.addr i k ∈ as ++ eventRegs) : RegsAndEvents as m (n.setFld f v i k j) :=
  regsAndEvents_trans h ⟨rfl, fun _ _ => rfl, fun _ ha => reg_setFld_ne _ _ _ _ _ _ (fun he => ha (he ▸ hf))⟩

theorem regsAndEvents_satFld {as : List Nat} {m n : Mod} (h : RegsAndEvents as m n) (f : Fld) (v i k : Nat)
    (hf : f.addr i k ∈ as ++ eventRegs) : RegsAndEvents as m (n.satFld f v i k) := regsAndEvents_setFld h f _ i k 0 hf

theorem regsAndEvents_emit {as : List Nat} {m n : Mod} (h : RegsAndEvents as m n) (o : Out) : RegsAndEvents as m (n.emit o) :=
  regsAndEvents_trans h ⟨rfl, fun _ _ => rfl, fun _ _ => rfl⟩

theorem regsAndEvents_settle {as : List Nat} {m n : Mod} (h : RegsAndEvents as m n) : RegsAndEvents as m n.settle :=
  regsAndEvents_trans h ⟨rfl, fun a _ => byte_settle n a, fun a _ => reg_settle n a⟩

/-! ## The hub's own writes -/

theorem byte_setByte_ne (x : Mem) (a b : Nat) (v : Byte) (h : b ≠ a) : (x.setByte a v).byte b = x.byte b := by
  show ((Sparse.set x.cells a v).get? b).getD (x.unlisted b) = (Sparse.get? x.cells b).getD (x.unlisted b)
  rw [get?_set_ne x.cells v h]

theorem byte_write1_ne (x : Mem) (a b : Nat) (v : Byte) (h : b ≠ a) : (x.write1 a v).byte b = x.byte b := byte_setByte_ne x a b v h

theorem setBankState_hub_mem (b : Nat) (h : b < 640) : F.BANK_STATE_ST.addr 16 (b / 32) ∈ eventRegs := by
  have : b / 32 < 20 := by omega
  simp only [eventRegs, List.mem_append, List.mem_map, List.mem_range]
  exact .inr ⟨b / 32, this, rfl⟩

/-- One byte that the hub writes. -/
def hubByte (a : Nat) (data : List Byte) (m : Mod) (i : Nat) : Mod :=
  match sramAt (a + i) with
  | some (16, off) =>
    let (m, st) := m.meetBank 16 (bankOf 16 off)
    if 2 ≤ st then m else { m with mem := m.mem.write1 (a + i) (nth data i 0) }
  | _ => m

theorem hubWrite_eq (m : Mod) (a : Nat) (data : List Byte) : m.hubWrite a data = (List.range data.length).foldl (hubByte a data) m := rfl

/-- Meeting a bank of the hub buffer changes its BANK_STATE at most. -/
theorem regsAndEvents_meetBank {as : List Nat} {m n : Mod} (h : RegsAndEvents as m n) (b : Nat) (hb : b < 640) :
    RegsAndEvents as m (n.meetBank 16 b).1 := by
  unfold Mod.meetBank
  simp only
  split
  · split
    · exact h
    · exact regsAndEvents_setFld h _ _ _ _ _ (List.mem_append_right _ (setBankState_hub_mem _ hb))
  · exact h

theorem regsAndEvents_hubByte {as : List Nat} {m n : Mod} (h : RegsAndEvents as m n) (a : Nat) (data : List Byte) (i : Nat) :
    RegsAndEvents as m (hubByte a data n i) := by
  unfold hubByte
  split
  · rename_i off hs
    simp only
    split
    · exact regsAndEvents_meetBank h _ (Nat.mod_lt _ (by decide))
    · refine regsAndEvents_trans (regsAndEvents_meetBank h _ (Nat.mod_lt _ (by decide))) ⟨rfl, fun b hb => byte_write1_ne _ _ _ _ (fun he => ?_), fun _ _ => rfl⟩
      subst he
      exact hb off hs
  · exact h

theorem foldl_keeps {α β : Type} (P : α → Prop) (f : α → β → α) (hf : ∀ x y, P x → P (f x y)) (l : List β) (x : α) (h : P x) :
    P (l.foldl f x) := by
  induction l generalizing x with
  | nil => exact h
  | cons y ys ih => exact ih _ (hf x y h)

/-- A record's bytes go to the hub buffer: a bank in RET wakes, nothing else changes. -/
theorem regsAndEvents_hubWrite {as : List Nat} {m n : Mod} (h : RegsAndEvents as m n) (a : Nat) (data : List Byte) :
    RegsAndEvents as m (n.hubWrite a data) := by
  rw [hubWrite_eq]
  exact foldl_keeps (RegsAndEvents as m) _ (fun x i hx => regsAndEvents_hubByte hx a data i) _ n h

/-! ## Raising a record -/

theorem tail_mem (q : Nat) (h : q < 4) (f : Fld) (hf : f.addr 0 q = F.EVQ_TAIL_TAIL.addr 0 q) : f.addr 0 q ∈ eventRegs := by
  rw [hf]
  simp only [eventRegs, List.mem_append, List.mem_map, List.mem_range]
  exact .inl (.inl ⟨q, h, rfl⟩)

theorem regsAndEvents_enqueue {as : List Nat} {m n : Mod} (h : RegsAndEvents as m n) (q : Nat) (hq : q < 4) (bytes : List Byte) :
    RegsAndEvents as m (n.enqueueEvent q bytes) := by
  unfold Mod.enqueueEvent
  simp only
  split
  · exact regsAndEvents_setFld (regsAndEvents_hubWrite h _ _) _ _ _ _ _ (List.mem_append_right _ (tail_mem q hq _ rfl))
  · exact regsAndEvents_satFld h _ _ _ _ (List.mem_append_right _ (tail_mem q hq _ rfl))

theorem foldl_keeps_mem {α β : Type} (P : α → Prop) (f : α → β → α) (l : List β) (hf : ∀ x, ∀ y ∈ l, P x → P (f x y)) (x : α) (h : P x) :
    P (l.foldl f x) := by
  induction l generalizing x with
  | nil => exact h
  | cons y ys ih => exact ih (fun x z hz => hf x z (by simp [hz])) _ (hf x y (by simp) h)

theorem regsAndEvents_deliver {as : List Nat} {m n : Mod} (h : RegsAndEvents as m n) (r : EventRec) : RegsAndEvents as m (n.deliver r) := by
  unfold Mod.deliver
  simp only
  refine regsAndEvents_emit ?_ _
  have h1 : RegsAndEvents as m (if ([0, 1, 2, 3].filter (fun q => n.queueTakes q r.code)).isEmpty then n.satFld F.HUB_EVQ_UNROUTED_COUNT 1
      else ([0, 1, 2, 3].filter (fun q => n.queueTakes q r.code)).foldl (fun m q => m.enqueueEvent q r.bytes) n) := by
    split
    · refine regsAndEvents_satFld h _ _ _ _ (List.mem_append_right _ ?_)
      simp [eventRegs]
    · refine foldl_keeps_mem (RegsAndEvents as m) _ _ (fun x q hq hx => regsAndEvents_enqueue hx q ?_ _) _ h
      have := (List.mem_filter.mp hq).1
      simp only [List.mem_cons, List.not_mem_nil, or_false] at this
      omega
  split
  · refine regsAndEvents_trans h1 (regsAndEvents_trans (regsAndEvents_setFld (regsAndEvents_refl as _) F.HUB_FAULT_PENDING 1 0 0 0
      (List.mem_append_right _ ?_)) ⟨rfl, fun _ _ => rfl, fun _ _ => rfl⟩)
    simp [eventRegs]
  · exact h1

/-- Raising a record changes what records change, and nothing else. -/
theorem regsAndEvents_raise {as : List Nat} {m n : Mod} (h : RegsAndEvents as m n) (code : Nat) (data : List Byte) :
    RegsAndEvents as m (n.raise code data) := by
  unfold Mod.raise Mod.raiseWith Mod.draw
  simp only
  refine regsAndEvents_deliver ?_ _
  exact regsAndEvents_trans h ⟨rfl, fun _ _ => rfl, fun _ _ => rfl⟩

theorem out_meetBank (m : Mod) (arr b : Nat) : (m.meetBank arr b).1.out = m.out := by
  unfold Mod.meetBank
  simp only
  split
  · split
    · rfl
    · exact setFld_out _ _ _ _ _ _
  · rfl

theorem out_hubWrite (m : Mod) (a : Nat) (d : List Byte) : (m.hubWrite a d).out = m.out := by
  rw [hubWrite_eq]
  refine foldl_keeps (fun x => x.out = m.out) _ (fun x i hx => ?_) _ m rfl
  unfold hubByte
  split
  · simp only
    split
    · exact (out_meetBank x 16 _).trans hx
    · exact (out_meetBank x 16 _).trans hx
  · exact hx

theorem out_satFld (m : Mod) (f : Fld) (n i k : Nat) : (m.satFld f n i k).out = m.out := setFld_out m f (satAdd f.w (m.fld f i k) n) i k 0

theorem out_enqueueEvent (m : Mod) (q : Nat) (b : List Byte) : (m.enqueueEvent q b).out = m.out := by
  unfold Mod.enqueueEvent
  simp only
  split
  · rw [setFld_out, out_hubWrite]
  · exact out_satFld _ _ _ _ _

theorem out_enqueueAll (m : Mod) (bytes : List Byte) (l : List Nat) : (l.foldl (fun m q => m.enqueueEvent q bytes) m).out = m.out := by
  induction l generalizing m with
  | nil => rfl
  | cons q l ih => rw [List.foldl_cons, ih, out_enqueueEvent]

/-- The queues that take a record, or HUB_EVQ_UNROUTED, change no output. -/
theorem out_queued (m : Mod) (bytes : List Byte) (l : List Nat) :
    (if l.isEmpty = true then m.satFld F.HUB_EVQ_UNROUTED_COUNT 1 else l.foldl (fun m q => m.enqueueEvent q bytes) m).out = m.out := by
  cases l with
  | nil => rw [if_pos List.isEmpty_nil, out_satFld]
  | cons q l =>
    rw [if_neg (by simp), out_enqueueAll]

theorem out_faulted (n : Mod) (b : Bool) :
    (if b = true then { n.setFld F.HUB_FAULT_PENDING 1 with alert := n.alert ||| 0x10 } else n).out = n.out := by
  cases b
  · rfl
  · exact setFld_out n F.HUB_FAULT_PENDING 1 0 0 0

/-- The outputs after a record is raised: the record comes last. -/
theorem out_deliver (m : Mod) (r : EventRec) : (m.deliver r).out = m.out ++ [.event r] := by
  unfold Mod.deliver Mod.emit
  simp only
  rw [out_faulted, out_queued]

theorem raised_raise (m : Mod) (code : Nat) (data : List Byte) : Raised (m.raise code data) code data := by
  unfold Mod.raise Mod.raiseWith Mod.draw
  simp only
  refine ⟨{ code := code, flags := 0, seq := m.evSeq, time := Config.freeTime m.fresh,
            node := Mod.recordNode { m with fresh := m.fresh + 1 }, data := padTo 16 data }, rfl, rfl, ?_⟩
  rw [out_deliver]
  simp

theorem raised_settle {m : Mod} {code : Nat} {data : List Byte} (h : Raised m code data) : Raised m.settle code data := h

end Sys2Proof.Machine
end

