-- ==== Sys2Proof/WellFormed.lean ====
section
/-! DEFINITION. What a well-formed command is: the lengths and ranges that its operands have on the buses and frames they come from, and
that their types do not say. A command that is not well formed names no event of the hardware; step runs it all the same, by the same
definitions. -/

namespace Sys2Proof

namespace WellFormed

/-- Width in bytes of a core's access (16 R420: RV64 loads, stores and atomics). -/
def width (n : Nat) : Bool := n == 1 || n == 2 || n == 4 || n == 8

/-- A memory access covers at least one byte and at most `n`. -/
def memOp (n : Nat) : MemOp → Bool
  | .read k => decide (1 ≤ k ∧ k ≤ n)
  | .write d => decide (1 ≤ d.length ∧ d.length ≤ n)

/-- A line's data is 64 bytes (11 R294). -/
def line (d : List Byte) : Bool := d.length == 64

/-- A packet's first flit carries 64 payload bytes; its body flits carry at most LEN × 64 (12 Table 12.2). -/
def packet (p : Packet) : Bool := p.head.length == 64 && decide (p.body.length ≤ 64 * p.len.toNat)

/-- A service frame's payload length fits its 4-byte LEN; the TAG of an authenticated request has 16 bytes (15 Table 15.7, R411). -/
def frame (f : SvcFrame) : Bool := decide (f.payload.length < 2 ^ 32) && (!f.auth || f.tag.length == 16)

/-- Every die once. -/
def dies (ds : List DieRun) : Bool := decide ((ds.map (fun d => d.die)).Nodup)

/-- One reading for each of the 20 sensors (17 R451). -/
def sensors (s : List Sensor) : Bool := s.length == 20

/-- An LPDDR request that a channel queue takes: within one 64-byte unit (10 R280). -/
def lpReq (r : LpReq) : Bool := memOp 64 r.op

/-- One bitmap of failing pins for each channel (09 Table 09.9). -/
def pins (p : List (BitVec 16)) : Bool := p.length == 4

end WellFormed

/-- The command's operands have the lengths and ranges of the buses and frames they come from. -/
def Instr.wf (i : Instr) : Bool :=
  match i with
  | .registerWrite _ _ size _ | .aliasWrite _ _ size _ | .coreLoad _ _ size | .coreAmo _ _ size _ _ => WellFormed.width size
  | .coreStore _ _ ds => WellFormed.width ds.length
  | .coreInstructionFetch _ _ size => size == 2 || size == 4
  | .yPortAccess _ _ _ op _ => WellFormed.memOp 64 op
  | .ncRd _ _ _ size => WellFormed.memOp 64 (.read size)
  | .ncWr _ _ _ ds _ => WellFormed.memOp 64 (.write ds)
  | .ochreRequest _ _ size => decide (1 ≤ size ∧ size ≤ 4096)
  | .lpddrCommandSlot _ _ arrivals _ => arrivals.all WellFormed.lpReq
  | .lpddrTrainingStepDone _ _ ps => WellFormed.pins ps
  | .data _ _ ds _ _ | .recallData _ _ ds _ | .wbData _ _ ds _ => WellFormed.line ds
  | .rd64 _ p | .rdn _ p | .wr64 _ p | .wrm _ p | .atom _ p | .bulkr _ p | .bulkw _ p | .dbell _ p | .redc _ p | .collReady _ p
  | .collCredit _ p | .rsp _ p | .rspd _ p | .mrd _ p | .mwr _ p | .join _ p | .joinAck _ p | .nodeDown _ p | .fabricFence _ p
  | .unfence _ p | .eventPacket _ p | .bcw _ p | .packetForward _ p => WellFormed.packet p
  | .flashWrite _ _ ds => ds.length == 8
  | .status f | .eventRead f | .serviceResetWarm f | .serviceResetCold f | .serviceResetMgd f | .serviceResetPartition f | .bulkSeek f
  | .bulkRead f | .bulkWrite f | .clearRepair f | .returnDie f | .locateOn f | .locateOff f | .svnCommit f | .setOperatorKey f
  | .attest f => WellFormed.frame f
  | .resetFinish _ ds | .bootComplete ds | .parkedExitComplete ds => WellFormed.dies ds
  | .sensorSample s => WellFormed.sensors s
  | _ => true

end Sys2Proof
end

