-- ==== Sys2Proof/Tests/Slice0.lean ====
section
/-! SUPPORT. Tests: what WellFormed refuses, single steps whose results the spec gives, and for each statement with hypotheses states and operands that
meet them. -/

namespace Sys2Proof.Tests
open Sys2Proof Sys2Proof.Machine

set_option Elab.async false

/-- The state of a module, no command waiting. -/
def st (m : Mod) : State := ⟨[], m⟩

/-- A module with fields of registers written: field, value, instance, index. -/
def regs (m : Mod) (l : List (Fld × Nat × Nat × Nat)) : Mod := l.foldl (fun m x => m.setFld x.1 x.2.1 x.2.2.1 x.2.2.2) m

/-- Memory whose arrays ECD0-ECD3, hub buffer and packages LP0, LP1 hold 0, with bytes written. -/
def memory (l : List (Nat × List Byte)) : Mem :=
  { cells := l.flatMap (fun w => (List.zip ((List.range w.2.length).map (w.1 + ·)) w.2).filter (fun c => c.2 != 0))
    fills := [20000, 20001, 25000, 25001, 25002, 25003, 25016].map (fun k => (k, Fill.zero)) }

/-- A module that runs: powered, ACTIVE, sixteen dies, memory 0. -/
def on : Mod := { pwrgd := true, state := .active, active := 0xFFFF, islandReady := true, vinOk := true, pwrEn := true, mem := memory [] }

/-- A module with the states of some banks changed. -/
def banks (l : List (Nat × Nat × Nat)) : Mod := l.foldl (fun m b => m.setBankState b.1 b.2.1 b.2.2) on

/-- A descriptor: bytes by offset, length and value. -/
def desc (l : List (Nat × Nat × Nat)) : List Byte := l.foldl (fun d x => splice d x.1 (toBytes x.2.1 x.2.2)) (List.replicate 128 0)

/-- A context changed. -/
def ctx (m : Mod) (q : Nat) (c : Ctx) : Mod := { m with ctxs := modNth m.ctxs q (fun _ => c) }

/-- SQ0 with a ring of 64 slots in the hub buffer, one slot submitted, and a descriptor being fetched from it or from a chain. -/
def fetching (ring : Bool) (d : List Byte) (stack : List (Option Nat)) : State :=
  st (ctx { regs on [(F.SQ_CTL_ENABLE, 1, 0, 0), (F.SQ_RING_BASE_ADDR, 0x8000000000, 0, 0), (F.SQ_RING_BASE_LOG2_SLOTS, 6, 0, 0),
      (F.SQ_RING_TAIL_TAIL, 1, 0, 0)] with mem := memory [(if ring then 0x400000000000 else 0x400000010000, d)] } 0
    { inFetch := some (if ring then 0x400000000000 else 0x400000010000, ring), pc := if ring then 0 else 0x400000010000, stack := stack })

/-- A chain's operation with a target. -/
def jumpTo (op : Nat) (l : List (Nat × Nat × Nat)) : List Byte := desc ((0, 1, op) :: (0x50, 8, 0x400000020000) :: l)

/-- A tensor descriptor of FP32 or INT32 elements in the hub buffer, dense. -/
def tensorDesc (base fmt : Nat) (sizes : List Nat) : List Byte :=
  let b := padTo 64 (toBytes 8 base ++ toBytes 8 (nth (sizes.map (· - 1)) 0 0 * 2 ^ 42) ++ toBytes 8 (fmt * 2 ^ 42 + sizes.length * 2 ^ 47))
  ((List.range 5).foldl (fun (a : List Byte × Nat) k =>
    if k + 1 < sizes.length then
      (splice a.1 (0x1D + 7 * k) (toBytes 7 ((nth sizes (k + 1) 1 - 1) + a.2 * 2 ^ 20)), a.2 * nth sizes (k + 1) 1)
    else a) (b, 4 * nth sizes 0 1)).1

/-- An operation with tensors of the given sizes, each in a MiB of the hub buffer of its own. -/
def opWith (d : List (Nat × Nat × Nat)) (ts : List (Nat × List Nat)) : ROp :=
  { seq := 7, addr := 0x400000000000, ring := true, desc := desc d, st := .staged,
    tensors := (List.range ts.length).map (fun i => (i, tensorDesc (0x400001000000 + 0x100000 * i) (nth ts i (0, [])).1 (nth ts i (0, [])).2)) }

/-- SQ0 with one operation, every die's repair map locked. -/
def running (op : ROp) : State := st (ctx { regs on ((List.range 16).map (fun d => (F.ECD_REPAIR_CTL_LOCK, 1, d, 0))) with mem := memory [(0x400001880000, [1])] } 0 { ops := [op] })

/-- The operation dispatched, with the bytes of every piece of its inputs read. -/
def readAll (s : State) (op : ROp) : ROp :=
  let at_ := fun (op : ROp) => s.m.envOf 0 { op with st := .dispatched, dispTick := some s.m.ticks }
  let get := fun (op : ROp) (lvl : Nat) =>
    { op with got := List.append op.got (((at_ op).pieces lvl).map (fun p => (p, s.m.mem.readAt p.addr p.len))) }
  get (get (get op 0) 1) 2

/-- Node 5, a MEMBER, with ports 1 and 2 ACTIVE; nodes 7 and 9 are reached through port 1 and port 2. -/
def member (l : List (Fld × Nat × Nat × Nat)) : Mod :=
  regs on ([(F.FAB_NODE_ID, 5, 0, 0), (F.FAB_NODE_LOCK, 1, 0, 0), (F.FAB_ROLE_ROLE, 1, 0, 0), (F.FAB_ROLE_STATE, 2, 0, 0), (F.FAB_ROLE_MANAGER, 7, 0, 0),
    (F.FAB_CTL_ENABLE, 1, 0, 0), (F.LANE_STATUS_STATE, 6, 1, 0), (F.LANE_STATUS_STATE, 6, 2, 0), (F.FAB_PORT_ROUTE_EN, 1, 0, 1), (F.FAB_PORT_ROUTE_EN, 1, 0, 2),
    (F.FAB_ROUTE_VALID, 1, 0, 7), (F.FAB_ROUTE_C0, 1, 0, 7), (F.FAB_ROUTE_C1, 15, 0, 7), (F.FAB_ROUTE_C2, 15, 0, 7), (F.FAB_ROUTE_C3, 15, 0, 7),
    (F.FAB_ROUTE_VALID, 1, 0, 9), (F.FAB_ROUTE_C0, 2, 0, 9), (F.FAB_ROUTE_C1, 15, 0, 9), (F.FAB_ROUTE_C2, 15, 0, 9), (F.FAB_ROUTE_C3, 15, 0, 9)] ++ l)

/-- A packet of node 7 for node 5: class, TYPE, first payload by offset, length and value, body. -/
def packet (vc : Fin 8) (ty : BitVec 8) (head : List (Nat × Nat × Nat)) (body : List Byte) : Packet :=
  { vc := vc, sub := false, ty := ty, dst := 5, ord := false, srcrt := false, src := 7, tag := 21, len := BitVec.ofNat 8 (body.length / 64),
    status := 0, hops := 30, hint := 0, head := (desc head).take 64, body := body, reserved := false, coll := none }

/-! ## The machine -/

theorem witness_StepKeepsSafe : State.reset.Safe ∧ step State.reset = .next State.reset :=
  ⟨⟨by decide, by decide⟩, rfl⟩

theorem witness_AlertPinFollowsStatus : (st { on with alert := 1 }).m.settle.alert &&& (0xFFFF ^^^ (st { on with alert := 1 }).m.settle.alertMask) ≠ 0 := by
  decide

theorem witness_AlertPinFollowsStatus_2 :
    let s := st { on with alert := 1, alertPin := true }
    let t := { s with m := s.m.clearOut.alertResponse.settle }
    let u := { t with m := (t.m.clearOut.alertClear 1).settle }
    s.m.smbusOn = true ∧ s.m.alertPin = true ∧ u.m.alert &&& (0xFFFF ^^^ u.m.alertMask) = 0 := by decide

/-! ## Flags and rings -/

theorem witness_FlagWritten : regAgent (.rt 0) = true ∧ 1 < on.ctxs.length := by decide

theorem witness_RingPointers :
    let m := regs on [(F.SQ_RING_BASE_LOG2_SLOTS, 6, 0, 0), (F.SQ_CPL_BASE_LOG2_SLOTS, 4, 0, 0)]
    regAgent (.fabMgmt) = true ∧ m.ctxDisabled 0 = false ∧ (m.ctx 0).dieLost = false ∧ m.fld F.SQ_RING_BASE_LOG2_SLOTS 0 ≠ 0 ∧
    m.fld F.SQ_CPL_BASE_LOG2_SLOTS 0 ≠ 0 ∧ (64 + 2 ^ 32 - m.fld F.SQ_RING_HEAD_HEAD 0) % 2 ^ 32 ≤ 2 ^ m.fld F.SQ_RING_BASE_LOG2_SLOTS 0 ∧
    (m.fld F.SQ_CPL_TAIL_TAIL 0 + 2 ^ 32 - 0) % 2 ^ 32 ≤ 2 ^ m.fld F.SQ_CPL_BASE_LOG2_SLOTS 0 ∧ isCore (.fabMgmt) = false ∧ m.ctxDisabled 3 = true := by
  decide

theorem witness_RingPointers_2 :
    (on.ctx 0).ops = [] ∧ on.fld F.SQ_RING_HEAD_HEAD 0 = on.fld F.SQ_RING_TAIL_TAIL 0 ∧ 6 ≤ bits 0x0006400000000000 48 4 ∧
    ringOk (bits 0x0006400000000000 7 41 * 128) (128 * 2 ^ 6) = true ∧ 4 ≤ bits 0x0004400000000000 48 4 ∧
    ringOk (bits 0x0004400000000000 5 43 * 32) (32 * 2 ^ 4) = true := by decide

theorem witness_DisabledContexts : regAgent (.ac 1) = true ∧ (∀ d ∈ on.partition 3, bit on.active d = false) ∧
    (∀ d ∈ (regs { on with active := 0xFF0F } [(F.HUB_PARTITION_MODE, 2, 0, 0)]).partition 1, bit 0xFF0F d = false) := by decide

/-! ## Fetch and control operations -/

/-- The premises of a fetch that completes, for the descriptor at an address, and what else is asked of the module after the read. -/
def fetches (s : State) (a : Nat) (ring : Bool) (d : List Byte) (also : Mod → Bool) : Bool :=
  (s.m.ctx 0).inFetch == some (a, ring) && !(s.m.ctx 0).fetchWait &&
  match s.m.clearOut.fetchRead 0 (s.m.fld F.SQ_SEQ_NEXT 0) 5 a 128 128 with
  | (m1, .done .ok d') => d' == d && m1.quiet && m1.out.all Out.stays && (m1.ctx 0).inFetch == some (a, ring) &&
    (!ring || m1.fld F.SQ_RING_HEAD_HEAD 0 != m1.fld F.SQ_RING_TAIL_TAIL 0) && also m1
  | _ => false

theorem witness_FetchAdmits : let d := desc [(0, 1, 0x50)]
    fetches (fetching true d []) 0x400000000000 true d (fun _ => true) = true ∧ opcodes.contains (opcodeOf d) = true ∧
    fetchResolved (opcodeOf d) = false ∧ opcodeOf d ≠ 0x02 ∧ opcodeOf d ≠ 0x06 ∧ opcodeOf d ≠ 0x0A ∧ isControl (opcodeOf d) = false := by
  decide +kernel

theorem witness_FetchAdmits_2 : let d := desc [(0, 1, 8), (1, 1, 0x20)]
    fetches (fetching false d [none]) 0x400000010000 false d (fun m1 => m1.controlOk 0 d false) = true ∧ opcodes.contains (opcodeOf d) = true ∧
    fetchResolved (opcodeOf d) = false ∧ isControl (opcodeOf d) = true := by decide +kernel

theorem witness_FetchAdmits_3 : (st (ctx (fetching true (desc []) []).m 0 {})).m.fetchOk 0 = true := by decide +kernel

theorem witness_FetchAdmits_4 : (fetching true (desc []) []).m.hubOpen 0x400000000000 128 ∧ 0x400000000000 % 128 = 0 := by
  unfold Mod.hubOpen
  decide +kernel

theorem witness_FetchResolvedOperations_nop : let d := desc [(0, 1, 0)]
    fetches (fetching true d []) 0x400000000000 true d (fun m1 => m1.controlOk 0 d true) = true ∧
    fetches (fetching false d [none]) 0x400000010000 false d (fun m1 => m1.controlOk 0 d false) = true := by decide +kernel

theorem witness_FetchResolvedOperations_jump : let d := jumpTo 1 []
    fetches (fetching false d [none]) 0x400000010000 false d (fun m1 => m1.controlOk 0 d false) = true := by decide +kernel

theorem witness_FetchResolvedOperations_call : let d := jumpTo 4 []
    fetches (fetching true d []) 0x400000000000 true d (fun m1 => m1.controlOk 0 d true) = true := by decide +kernel

theorem witness_FetchResolvedOperations_return : let d := desc [(0, 1, 5)]
    fetches (fetching false d [some 0x400000030000, none]) 0x400000010000 false d
      (fun m1 => m1.controlOk 0 d false && (m1.ctx 0).stack == [some 0x400000030000, none]) = true ∧
    fetches (fetching false d [none]) 0x400000010000 false d (fun m1 => m1.controlOk 0 d false && (m1.ctx 0).stack == [none]) = true := by
  decide +kernel

theorem witness_FetchResolvedOperations_loop : let d := jumpTo 3 [(0x5C, 4, 3)]
    fetches (fetching false d [none]) 0x400000010000 false d (fun m1 => m1.controlOk 0 d false) = true := by decide +kernel

theorem witness_ControlOperations : ∀ o ∈ [2, 6, 7, 8, 9, 10], let op := opWith [(0, 1, o)] []
    ((running op).m.ctx 0).ops = [op] ∧ op.st = .staged ∧ ((running op).m.ctx 0).trapped = false ∧ ((running op).m.ctx 0).aborting = false ∧
    opcodeOf op.desc = o := by decide

/-- `BRANCH_IF` on a flag less than its reference (comparison 0) and not: distance 0 and distance 2³¹. -/
theorem witness_ControlOperations_branch : (on.flag 0 + 2 ^ 32 - 0) % 2 ^ 32 < 2 ^ 31 ∧ ¬ (on.flag 0 + 2 ^ 32 - 2 ^ 31) % 2 ^ 32 < 2 ^ 31 := by decide

/-! ## Staging, dispatch and execution -/

theorem witness_StagingCompletes :
    let op := { opWith [(0, 4, 0x03020050), (8, 8, 0x400000004000), (0x10, 8, 0x400000004080)] [(0, [4]), (0, [4])] with st := .staging }
    let s := running op
    s.m.quiet = true ∧ (s.m.ctx 0).ops = [op] ∧ op.st = .staging ∧ op.status = .ok ∧ headerOk op.desc = true ∧ op.open_ = [] ∧ op.bad = none ∧
    (∀ x < 4, bit (tvalid op.desc) x = true → (op.tensors.get? x).isSome = true) ∧ s.m.clearOut.stagingCheck 0 op = .ok ∧
    deadlineClass op.desc = 2 := by decide +kernel

theorem witness_StagingCompletes_2 : let op := { opWith [(0, 4, 0x03030050)] [] with st := .staging }
    (running op).m.quiet = true ∧ headerOk op.desc = false := by decide +kernel

theorem witness_StagingCompletes_3 :
    let op := { opWith [(0, 4, 0x03020050)] [] with st := .fetched }
    let wait := { opWith [(0, 4, 0x00002008)] [] with st := .fetched, waitPassed := true }
    (running op).m.stageNext 0 = some op ∧ isControl (opcodeOf op.desc) = false ∧ (running wait).m.stageNext 0 = some wait ∧
    isControl (opcodeOf wait.desc) = true ∧ headerOk wait.desc = true := by decide +kernel

/-- Operations with small tensors, one for each opcode that runs on the array or as a collective. -/
def samples : List ROp :=
  let gemm := [(0x5C, 4, 2), (0x60, 4, 2), (0x64, 4, 2)]
  let m := fun (c : Nat) => opWith ((0, 1, c) :: gemm) [(0, [2, 2]), (0, [2, 2]), (0, [2, 2])]
  let q := (0, [2, 1, 1, 1])
  let two := fun (c : Nat) => opWith [(0, 1, c)] [(0, [4]), (0, [4])]
  let coll := fun (c n : Nat) => opWith [(0, 1, c), (0x50, 8, 0x400001800000), (0x58, 2, 2)] (List.replicate n (0, [4]))
  [m 0x10, m 0x11, m 0x12, m 0x13, opWith [(0, 1, 0x30)] [q, q, q, q],
   opWith [(0, 1, 0x31), (0x68, 8, 0x400001880000), (0x60, 8, 0x400001900000), (0x7C, 4, 1)] [q, q, q, q],
   opWith [(0, 1, 0x40)] [(0, [4]), (0, [4]), (0, [4])], two 0x41, two 0x50, opWith [(0, 1, 0x51)] [(0, [4]), (0, [4]), (0, [4])], two 0x52, two 0x53,
   two 0x54, opWith [(0, 1, 0x55)] [(0, [4]), (0, [4]), (0xA, [4])], two 0x56, opWith [(0, 1, 0x70)] [(0, [4]), (0, [1])],
   opWith [(0, 1, 0x80)] [(0, [4, 2]), (0xA, [1]), (0, [4, 1])], opWith [(0, 1, 0x81)] [(0, [4, 1]), (0xA, [1]), (0, [4, 2])],
   opWith [(0, 1, 0x82)] [(0, [4, 1]), (0xA, [1]), (0, [4, 2])], two 0x90, opWith [(0, 1, 0x91)] [(0, [4])], two 0x92,
   opWith [(0, 1, 0x93), (0x51, 1, 1)] [(0, [4]), (0, [4])], coll 0xA0 2, coll 0xA1 2, coll 0xA2 2, coll 0xA3 2, coll 0xA4 1, coll 0xA5 1, coll 0xA6 1,
   opWith [(0, 1, 0xB0), (0x50, 8, 0x400001800000)] []]

/-- The sample operation of an opcode. -/
def sample (code : Nat) : ROp := (samples.find? (fun o => opcodeOf o.desc == code)).getD (opWith [] [])

/-- The module with the operation dispatched. -/
def dispatched (op : ROp) : Mod :=
  { (running op).m.clearOut with ctxs := modNth (running op).m.ctxs 0 (fun c => { c with ops := [{ op with st := .dispatched, dispTick := some (running op).m.ticks }] }) }

/-- The operation with its reads of level 0 open. -/
def opened (op : ROp) : ROp := { op with open_ := ((running op).m.envOf 0 { op with st := .dispatched }).pieces 0 }

/-- The premises of a dispatch that waits for its inputs. -/
def mayDispatch (op : ROp) : Bool :=
  let s := running op
  let ps := ((dispatched op).envOf 0 { op with st := .dispatched, dispTick := some s.m.ticks }).pieces 0
  s.m.quiet && s.m.canDispatch 0 op && op.bad.isNone && !op.computed && !op.redWrite && ps.all (fun p => op.open_.any (fun x => x.key == p.key)) &&
  ps.any (fun p => !op.got.any (fun x => x.1.key == p.key))

theorem witness_OperationsDispatch : [0x10, 0x11, 0x12, 0x13, 0x30, 0x31, 0x40, 0x41, 0x50, 0x51].all (fun c =>
    opcodeOf (sample c).desc == c && mayDispatch (opened (sample c))) = true := by decide +kernel

theorem witness_OperationsDispatch_2 : [0x52, 0x53, 0x54, 0x55, 0x56, 0x70, 0x80, 0x81, 0x82, 0x90].all (fun c =>
    opcodeOf (sample c).desc == c && mayDispatch (opened (sample c))) = true := by decide +kernel

theorem witness_OperationsDispatch_3 : [0x92, 0x93, 0xA0, 0xA1, 0xA2, 0xA3, 0xA4, 0xA5, 0xA6].all (fun c =>
    opcodeOf (sample c).desc == c && mayDispatch (opened (sample c))) = true := by decide +kernel

/-- The premises of an operation that acts: its inputs have all been read. -/
def mayAct (op : ROp) : Bool :=
  let s := running op
  let e := (dispatched op).envOf 0 { op with st := .dispatched, dispTick := some s.m.ticks }
  s.m.quiet && s.m.canDispatch 0 op && op.bad.isNone && !op.computed && op.srCount.isNone && rndOf op.desc != 2 &&
  !(dispatched op).fragmentHeld 0 { op with st := .dispatched, dispTick := some s.m.ticks } &&
  (List.range 3).all (fun lvl => (e.pieces lvl).all (fun p => op.got.any (fun x => x.1.key == p.key)))

/-- The premises of an operation that computes. -/
def mayCompute (op : ROp) : Bool :=
  let x := ((dispatched op).envOf 0 { op with st := .dispatched, dispTick := some (running op).m.ticks }).result
  mayAct op && !op.undef && x.status == .ok && !x.undef

/-- The sample operation with its inputs read. -/
def full (c : Nat) : ROp := readAll (running (sample c)) (sample c)

theorem witness_OperationsCompute : [0x10, 0x11, 0x12, 0x13].all (fun c => mayCompute (full c)) = true := by decide +kernel

theorem witness_OperationsCompute_2 : [0x30, 0x31, 0x40, 0x41].all (fun c => mayCompute (full c)) = true := by decide +kernel

theorem witness_OperationsCompute_3 : [0x50, 0x51, 0x52, 0x53, 0x54].all (fun c => mayCompute (full c)) = true := by decide +kernel

theorem witness_OperationsCompute_4 : [0x55, 0x56, 0x70, 0x80].all (fun c => mayCompute (full c)) = true := by decide +kernel

theorem witness_OperationsCompute_5 : [0x81, 0x90, 0x91, 0x93].all (fun c => mayCompute (full c)) = true := by decide +kernel

theorem witness_OperationsAct : [0x82, 0x92, 0xA0, 0xA1, 0xA2].all (fun c => opcodeOf (sample c).desc == c && mayAct (full c)) = true := by
  decide +kernel

theorem witness_OperationsAct_2 : [0xA3, 0xA4, 0xA5, 0xA6, 0xB0].all (fun c => opcodeOf (sample c).desc == c && mayAct (full c)) = true := by
  decide +kernel

/-! ## Reports, replay and retirement -/

/-- A MAP operation of four elements, with a header. -/
def mapOp (h : Nat) : ROp := opWith [(0, 4, h)] [(0, [4]), (0, [4])]

/-- One open request with a key. -/
def piece (k : Nat) : Piece := ⟨k, none, 0x400001000000, 16, 0⟩

/-- SQ0 enabled with both rings, in a state of its own. -/
def sq (c : Ctx) (l : List (Fld × Nat × Nat × Nat)) : State :=
  st (ctx (regs on ([(F.SQ_CTL_ENABLE, 1, 0, 0), (F.SQ_RING_BASE_LOG2_SLOTS, 6, 0, 0), (F.SQ_CPL_BASE_LOG2_SLOTS, 4, 0, 0),
    (F.SQ_CPL_BASE_ADDR, 0x20000008000, 0, 0), (F.SQ_RING_TAIL_TAIL, 9, 0, 0)] ++ l)) 0 c)

theorem witness_ParityErrorReports :
    let op := { mapOp 0x0850 with st := .dispatched }
    let s := running op
    let r : ParityReport := { slot := 0, addr := 0x400100000040, len := 16, aux := false, own := false }
    s.m.quiet = true ∧ (s.m.ctx 0).ops = [op] ∧ op.st = .dispatched ∧ op.status = .ok ∧ op.replayed = false ∧ idempotent op.desc = true ∧
    replayClass (opcodeOf op.desc) = true ∧ (s.m.envOf 0 op).inPlace = false ∧ r.own = false ∧ idempotent (mapOp 0x50).desc = false := by decide +kernel

/-- An error in an array's own bytes: an auxiliary access, a tensor without and one with a backing copy. -/
theorem witness_ParityErrorReports_own :
    let op := { mapOp 0x0850 with st := .dispatched }
    let backed := { mapOp 0x1850 with st := .dispatched,
                                      tensors := op.tensors.map (fun t => (t.1, splice t.2 0x17 (toBytes 1 1))) }
    let r : ParityReport := { slot := 0, addr := 0x400100000040, len := 16, aux := true, own := true }
    r.own = true ∧ r.aux = true ∧ ((running op).m.envOf 0 op).inPlace = false ∧ (((running op).m.envOf 0 op).t 0).isSome = true ∧
    (((running op).m.envOf 0 op).t 0).any (fun x => x.backing.isNone) = true ∧ (running backed).m.quiet = true ∧
    backedInput backed.desc = true ∧ idempotent backed.desc = true ∧ ((running backed).m.envOf 0 backed).inPlace = false ∧
    (((running backed).m.envOf 0 backed).t 0).any (fun x => x.backing.isSome) = true := by decide +kernel

theorem witness_ParityErrorReports_2 :
    let op := { mapOp 0x50 with st := .dispatched, computed := true, tiles := [1, 2] }
    let one := { op with tiles := [1] }
    let m := (running op).m
    (running op).m.quiet = true ∧ op.tiles.contains 1 = true ∧ op.parts.any (fun p => p.1 == 1 && p.2.2.1 != 0) = false ∧
    m.fld F.ECD_REPAIR_CTL_LOCK 1 ≠ 0 ∧ op.tiles.filter (· ≠ 1) ≠ [] ∧ one.tiles.filter (· ≠ 1) = [] ∧ one.redDone = true ∧ one.open_ = [] ∧
    opcodeOf op.desc ≠ 0x93 ∧ (regs m [(F.ECD_REPAIR_CTL_LOCK, 0, 1, 0)]).fld F.ECD_REPAIR_CTL_LOCK 1 = 0 ∧ op.redWrite = false := by decide +kernel

theorem witness_ReductionEngine :
    let op := { mapOp 0x50 with st := .dispatched, computed := true, redDone := false, tiles := [1], parts := [(1, 0, 7, 9)] }
    let all := { op with tiles := [], parts := [(1, 0, 0, 9)] }
    (running op).m.quiet = true ∧ op.parts.any (fun p => p.1 == 1 && p.2.2.1 != 0) = true ∧ all.parts.all (fun p => p.2.2.1 == 0) = true ∧
    op.redWrite = false ∧ op.computed = true ∧ all.redDone = false ∧ all.held = [] ∧ all.status = .ok ∧ all.open_ = [] ∧ opcodeOf all.desc ≠ 0x93 := by decide +kernel

theorem witness_RequestCompletes :
    let op := { mapOp 0x50 with st := .staging, open_ := [piece 5] }
    let m := { (running op).m with opDone := [(0, 7, 5, .ok, [1, 2])] }
    m.quiet = true ∧ m.opDone = [((0 : Fin 4).val, 7, 5, .ok, [1, 2])] ∧ (m.ctx 0).fetchWait = false ∧ op.seq = 7 ∧ (piece 5).key = 5 + 8 * 0 ∧
    op.recWait = false ∧ (m.ctx 0).detached.contains (7, 5) = false := by decide +kernel

theorem witness_RequestCompletes_2 :
    let op := { mapOp 0x50 with st := .reported, open_ := [piece 6] }
    let m := { (running op).m with opDone := [(0, 7, 6, .ok, [])] }
    m.quiet = true ∧ op.status = .ok ∧ op.seq = 7 ∧ (piece 6).key = 6 ∧ (m.ctx 0).detached.contains (7, 6) = false := by decide +kernel

theorem witness_RequestCompletes_3 :
    let two := { (sq { detached := [(7, 8), (7, 16)] } [(F.SQ_DETACHED_COUNT, 2, 0, 0)]).m with opDone := [(0, 7, 8, .ok, [])] }
    two.quiet = true ∧ (two.ctx 0).detached.contains (7, 8) = true ∧ 2 ≤ two.fld F.SQ_DETACHED_COUNT 0 ∧
    (sq { detached := [(7, 8)] } [(F.SQ_DETACHED_COUNT, 1, 0, 0)]).m.fld F.SQ_DETACHED_COUNT 0 = 1 := by decide +kernel

/-- The bytes of an input, of a discarded fetch, and of a request nothing waits for. -/
theorem witness_RequestCompletes_5 :
    let op := { mapOp 0x50 with st := .staging, open_ := [piece 8] }
    let none_ := { (sq { staleFetches := [4] } []).m with opDone := [(0, 7, 5 + 8 * 12, .ok, [])] }
    (running op).m.quiet = true ∧ op.seq = 7 ∧ op.status = .ok ∧ (piece 8).key % 8 < 5 ∧ (piece 8).key / 8 % 4 ≠ 3 ∧ op.st ≠ .reload ∧
    none_.quiet = true ∧ (none_.ctx 0).fetchWait = false ∧ (none_.ctx 0).ops = [] ∧ (none_.ctx 0).detached.contains (7, 101) = false ∧
    (101 : Nat) % 8 = 5 := by decide +kernel

theorem witness_RequestCompletes_4 :
    let op := { mapOp 0x020850 with st := .reload, got := [(piece 8, [1])], nan := true }
    (running op).m.quiet = true ∧ op.st = .reload ∧ op.open_ = [] ∧ op.reloads = [] ∧ deadlineClass op.desc = 2 := by decide +kernel

theorem witness_Retires :
    let op := { mapOp 0x50 with st := .reported }
    let silent := { mapOp 0x200050 with st := .reported }
    let halt := { opWith [(0, 4, 0x200006)] [] with st := .reported }
    let signal := { opWith [(0, 8, 0x14000004050), (0x2C, 2, 3)] [] with st := .reported }
    (running op).m.quiet = true ∧ op.status = .ok ∧ op.open_ = [] ∧ op.replayed = false ∧ isCollective (opcodeOf op.desc) = false ∧ op.desc ≠ [] ∧
    signalAfter op.desc = false ∧ op.needsRecord = true ∧ silent.needsRecord = false ∧ opcodeOf silent.desc ≠ 0x02 ∧
    halt.needsRecord = false ∧ opcodeOf halt.desc = 0x06 ∧ ((running halt).m.ctx 0).trapped = false ∧
    ((running halt).m.ctx 0).aborting = false ∧ (let trap := opWith [(0, 4, 0x20000A)] []
      let branch := { opWith [(0, 4, 0x200002)] [] with st := .reported, next := some 0x400000020000 }
      opcodeOf trap.desc = 0x0A ∧ signalAfter trap.desc = false ∧ opcodeOf branch.desc = 0x02 ∧ branch.needsRecord = false ∧
      signalAfter branch.desc = false ∧ ((running branch).m.ctx 0).trapped = false) ∧
    signalAfter signal.desc = true ∧ signal.signalled = false ∧ signalRemote signal.desc = false ∧ signal.needsRecord = true := by decide +kernel

/-- The record's write ends and leaves the operation where it was. -/
def recordWritten (s : State) (op : ROp) : Bool :=
  match s.m.clearOut.memAccess (opSrc 0 op.seq 37) (.sqFetch 0)
    (s.m.fld F.SQ_CPL_BASE_ADDR 0 * 32 + 32 * (s.m.fld F.SQ_CPL_TAIL_TAIL 0 % 2 ^ s.m.fld F.SQ_CPL_BASE_LOG2_SLOTS 0)) (.write ((s.m.record op false).map some)) with
  | (m1, .done .ok []) => m1.quiet && m1.out.all Out.stays && (m1.ctx 0).ops == [op]
  | _ => false

theorem witness_RecordWritten :
    let op := { mapOp 0x50 with st := .retired, computed := true, retTick := some 5 }
    let s := { sq { ops := [op] } [] with pending := [] }
    recordWritten s op = true ∧ op.recWait = false ∧ op.status = .ok ∧ opcodeOf op.desc ≠ 0x0A ∧ opcodeOf op.desc ≠ 0x02 ∧ opcodeOf op.desc ≠ 0x06 ∧
    isCollective (opcodeOf op.desc) = false ∧ op.needsRecord = true ∧ s.m.cplFree 0 = true := by decide +kernel

/-! ## Aborts, traps and lost dies -/

theorem witness_Aborts :
    let req : Ctx := { abortReq := true }
    regAgent (.rt 0) = true ∧ 0 < on.ctxs.length ∧ ((sq req []).m.ctx 0).abortReq = true ∧ (sq req []).m.quiet = true ∧
    (sq req [(F.SQ_RING_HEAD_HEAD, 9, 0, 0)]).m.ctxState 0 = 1 ∧ (sq { req with halted := true } []).m.ctxState 0 = 4 ∧
    (sq { req with trapped := true } []).m.ctxState 0 = 5 ∧
    (let s := sq { req with ops := [{ mapOp 0x50 with st := .dispatched }] } []
     s.m.ctxState 0 = 2 ∧ ∀ o ∈ (s.m.ctx 0).ops, o.st ≠ .reported) := by decide +kernel

theorem witness_ContextTraps :
    let s := sq { trapAt := some (.protocol, 3, 0x400000000080, true), stack := [none] } []
    s.m.quiet = true ∧ (s.m.ctx 0).ops = [] ∧ (s.m.ctx 0).trapAt = some (.protocol, 3, 0x400000000080, true) ∧ (s.m.ctx 0).aborting = false ∧
    (s.m.ctx 0).trapped = false := by decide +kernel

/-- A TRAP without a record, and an operation that writes its record first. -/
theorem witness_ContextTraps_record :
    let op := { opWith [(0, 4, 0x20000A), (0x58, 2, 3)] [] with st := .retired }
    let failed := { mapOp 0x8050 with st := .failed, status := .dataLost, trapAlways := true, retTick := some 5 }
    let s := sq { ops := [failed] } []
    op.recWait = false ∧ op.needsRecord = false ∧ opcodeOf op.desc = 0x0A ∧ (sq { ops := [op] } []).m.quiet = true ∧ s.m.quiet = true ∧
    failed.ready = true ∧ failed.traps = true ∧ failed.needsRecord = true ∧ s.m.cplFree 0 = true ∧ opcodeOf failed.desc ≠ 0x02 ∧
    isCollective (opcodeOf failed.desc) = false ∧ s.m.fld F.SQ_CPL_BASE_ADDR 0 * 32 = 0x400000100000 := by decide +kernel

theorem witness_RecordWritten_2 : (sq {} []).m.hubOpen 0x400000100000 32 := by
  unfold Mod.hubOpen
  decide +kernel

theorem witness_ContextTraps_2 :
    let op := { mapOp 0x50 with st := .failed, status := .aborted, open_ := [piece 8, piece 16] }
    let s := sq { aborting := true, ops := [op], staleFetches := [1] } []
    let done := sq { aborting := true, aborted := 3, detachedNow := 70000 } []
    (s.m.ctx 0).aborting = true ∧ (s.m.ctx 0).ops = [op] ∧ op.recWait = false ∧ op.open_ ≠ [] ∧ (done.m.ctx 0).ops = [] ∧
    (done.m.ctx 0).staleFetches = [] ∧ (done.m.ctx 0).aborting = true ∧ done.m.quiet = true := by
  decide +kernel

theorem witness_ContextTraps_3 :
    let op := { mapOp 0x50 with st := .dispatched }
    let s := sq { lossDue := [1], ops := [op] } []
    (s.m.ctx 0).lossDue.contains 1 = true ∧ (s.m.ctx 0).trapped = false ∧ (s.m.ctx 0).ops = [op] ∧ op.st = .dispatched ∧
    ((sq { lossDue := [2, 1] } []).m.ctx 0).ops = [] := by
  decide +kernel

/-! ## On-chip memory -/

/-- A byte whose parity is wrong. -/
def badAt (m : Mod) (a : Nat) : Mod := { m with mem := { m.mem with cells := [(a, 3)], badPar := [(a, ())] } }

theorem witness_YAccess :
    on.quiet = true ∧ 64 % 64 + 2 ≤ 64 ∧ 64 + 2 ≤ sramSize 3 ∧ (on.sramOf 3).ywait = [] ∧ on.bankState 3 (bankOf 3 64) = 0 ∧
    (∀ i < 2, ¬ on.mem.parityBad (sramBase 3 + 64 + i) = true) ∧ (badAt on (sramBase 3 + 65)).mem.parityBad (sramBase 3 + 64 + 1) = true ∧
    (∀ j < 1, ¬ (badAt on (sramBase 3 + 65)).mem.parityBad (sramBase 3 + 64 + j) = true) ∧ (banks [(3, 1, 1)]).bankState 3 (bankOf 3 64) = 1 ∧
    ((banks [(3, 1, 1)]).sramOf 3).wakes = [] ∧ (banks [(3, 1, 2)]).bankState 3 (bankOf 3 64) = 2 ∧
    (banks [(3, 1, 3)]).bankState 3 (bankOf 3 64) = 3 := by decide +kernel

/-- The last byte of the hub buffer, alone in its access. -/
theorem witness_YAccess_end : (0x80000000 - 1) % 64 + 1 ≤ 64 ∧ 0x80000000 - 1 + 1 ≤ sramSize 16 ∧ on.bankState 16 (bankOf 16 (0x80000000 - 1)) = 0 := by
  decide +kernel

theorem witness_YAccess_2 :
    wordOf 3 64 = 0 ∧ 0 % 2 = wordOf 3 64 % 2 ∧ bankOf 3 64 = 1 ∧ 3 < on.sram.length ∧
    (∀ i < 2, on.mem.parityBad (sramBase 3 + 64 + i) = false) := by decide +kernel

/-- An access from outside a die in Slate. -/
theorem witness_YAccess_slate : (3 : Fin 17).val < 16 ∧ (regs on [(F.D2D_STATUS_STATE, 3, 3, 0)]).portSlate (3 : Fin 17) = true ∧
    ownDie (.rt 0) 3 = false ∧ on.portSlate 3 = false := by
  decide +kernel

/-- The word of an array and of the hub buffer through the bit-set and the bit-clear alias. -/
theorem witness_AliasWrites :
    on.decodeAddr 0x5001C0000040 = .here 0x5001C0000040 ∧ aliasOf 0x5001C0000040 = some (true, sramBase 3 + 64) ∧
    on.decodeAddr 0x6001C0000040 = .here 0x6001C0000040 ∧ aliasOf 0x6001C0000040 = some (false, sramBase 3 + 64) ∧ on.dir = [] ∧ on.retry = [] ∧ on.reqSrc = [] ∧
    on.portSlate 3 = false ∧ on.bankState 3 (bankOf 3 64) = 0 ∧ (on.sramOf 3).ywait = [] ∧
    (∀ i < 8, on.mem.parityBad (sramBase 3 + 64 + i) = false) := by decide +kernel

/-- The premises of a bank command on banks 0 to 5 of array 3, which are ON, in RET and OFF. -/
theorem witness_BankCommands :
    let m := banks [(3, 4, 1), (3, 5, 2)]
    m.quiet = true ∧ regAgent (.fabMgmt) = true ∧ (∀ c < 4, m.blockGate (.fabMgmt) .sram 3 c true = .ok) ∧ 5 < bankCount 3 ∧ m.state ≠ .parked ∧
    (m.sramOf 3).wakes = [] ∧ (m.sramOf 3).march = none ∧ (m.sramOf 3).ywait = [] ∧ 3 < m.sram.length ∧
    (∀ b ≤ 5, m.bankProtected 3 b = false) ∧ m.bankState 3 0 = 0 ∧ m.bankState 3 4 = 1 ∧ m.bankState 3 5 = 2 := by decide +kernel

/-- A module with a March test or wakes of array 3. -/
def array3 (m : Mod) (f : Sram → Sram) : Mod := { m with sram := modNth m.sram 3 f }

theorem witness_BankCommands_2 :
    ((array3 on (fun z => { z with wakes := [(3, 0)] })).sramOf 3).wakes = [((3 : Fin 1024).val, 0)] ∧ (0 : Nat) < 4 := by decide +kernel

theorem witness_MarchTests :
    let test := banks [(3, 3, 3), (3, 4, 3)]
    (on.quiet = true ∧ test.quiet = true) ∧ on.blockGate (.rt 0) .sram 3 0x10 true = .ok ∧ test.blockGate (.rt 0) .sram 3 0x10 true = .ok ∧
    4 < bankCount 3 ∧ 3 < test.sram.length ∧ (test.sramOf 3).march = none ∧ (test.sramOf 3).wakes = [] ∧ test.bankState 3 3 = 3 ∧
    test.bankState 3 4 = 3 ∧ on.bankState 3 3 = 0 ∧ on.bankState 3 4 = 0 ∧ on.mem.badPar = [] := by decide +kernel

theorem witness_MarchTests_2 : ((array3 on (fun z => { z with march := some ⟨3, 4, false, true, false⟩ })).sramOf 3).march = some ⟨3, 4, false, true, false⟩ ∧
    52428 < wordCount 16 5 ∧ (5 : Nat) < bankCount 16 ∧ on.sparesUsed 16 5 52428 < 8 ∧ on.blockGate (.rt 0) .sram 16 0x10 true = .ok := by decide +kernel

/-! ## LPDDR and its regulation -/

/-- Package 2 enabled. -/
def lpddr (l : List (Fld × Nat × Nat × Nat)) (f : Mc → Mc) : Mod := { regs on ((F.MC_CTL_ENABLE, 1, 2, 0) :: l) with mc := modNth on.mc 2 f }

/-- A STREAM request of an operation. -/
def lpReq (a : Nat) (op : MemOp) : LpReq := { src := .op 1 5 8, cls := 0, addr := a, op := op, deadline := 9, lateAtIssue := false }

/-- A request in a queue of its channel. -/
def lpWait (id deadline : Nat) : LpWait := { id := id, req := lpReq 192 (.read 64), deadline := deadline, late := false, tick := 0, target := 0 }

/-- The premises for a request at the first block and at the last block of package 2, and for one that holds. -/
theorem witness_LpddrServes :
    let m := lpddr [] id
    let hot := lpddr [(F.MC_THERM_STEP, 3, 2, 0)] id
    (∀ o ∈ [0, 0xDE0000000 - 64], o + 64 ≤ 0xDE0000000 ∧ o % 64 + 64 ≤ 64 ∧ m.pageRetired 2 (o / 0x200000) = false ∧
      hot.pageRetired 2 (o / 0x200000) = false ∧ m.mem.poison.get? (0x2000000000 + o) = none ∧
      m.mem.wrong.get? (0x2000000000 + o) = none) ∧ 0 < m.slack 9 ∧ (m.mcOf 2).refreshing = [] ∧ (hot.mcOf 2).queues = [[], [], [], []] ∧
    m.quiet = true ∧ (m.mcOf 2).queues = [[], [], [], []] ∧ (m.mcOf 2).level = 0 ∧ m.och = [] ∧ m.fld F.MC_CTL_FAILED 2 = 0 ∧
    m.fld F.MC_CTL_ENABLE 2 = 1 ∧ 2 < m.mc.length ∧ m.inHold 2 = false ∧ hot.quiet = true ∧ hot.inHold 2 = true ∧ hot.fld F.MC_CTL_ENABLE 2 = 1 ∧
    hot.fld F.MC_CTL_FAILED 2 = 0 ∧ hot.och = [] := by decide +kernel

theorem witness_LpddrServes_2 : (decodeBlock ((lpddr [] id).markedPin 2 (lpMap 192).ch) false (lpMap 192).slot [0, 8, 20, 33, 40, 50]).ok = false ∧
    [3, 4, 5, 6].length ≤ 4 := by decide +kernel

theorem witness_OchreHolds :
    let m := lpddr [] id
    m.quiet = true ∧ 0xDE0000000 - 4096 + 4096 ≤ 0xDE0000000 ∧ m.fld F.MC_CTL_FAILED 2 = 0 ∧ m.fld F.MC_CTL_ENABLE 2 = 1 ∧ m.och.length < 4096 ∧
    m.inHold 2 = false ∧ m.dir = [] ∧ m.retry = [] ∧ m.reqSrc = [] ∧ (m.mcOf 2).level = 0 := by
  decide +kernel

theorem witness_LpddrThermal :
    let m := fun (n : Nat) => lpddr [(F.MC_THERM_STEP, n, 2, 0)] id
    (∀ n ∈ [0, 1, 2], (m n).quiet = true ∧ (m n).fld F.FAB_ROLE_STATE ≠ 2 ∧ (m n).fld F.MC_THERM_STEP 2 = n) ∧
    85 < (86 : BitVec 8).toInt ∧ (86 : BitVec 8).toInt ≤ 105 ∧ 95 < (105 : BitVec 8).toInt ∧ (105 : BitVec 8).toInt ≤ 105 ∧
    105 < (106 : BitVec 8).toInt ∧ 2 < (m 2).mc.length := by decide +kernel

theorem witness_LpddrThermal_2 :
    let m := lpddr [(F.MC_THERM_STEP, 3, 2, 0)] (fun x => { x with holdExpired := true })
    m.quiet = true ∧ m.fld F.FAB_ROLE_STATE ≠ 2 ∧ m.fld F.MC_THERM_STEP 2 = 3 ∧ (lpWait 3 0).fill = none ∧ (lpWait 3 0).req.src = .op 1 5 8 ∧
    (m.mcOf 2).holdExpired = true ∧ { m with state := .parked }.quiet = true := by decide +kernel

/-- The first and the last row unit of a package. -/
theorem witness_LpddrRepairs : ∀ u ∈ [0, 33254838],
    let m := lpddr [(F.MC_CTL_SCRUB_EN, 1, 2, 0)] id
    let a := u * 28 * 64
    m.quiet = true ∧ regAgent (.rt 0) = true ∧ 2 < m.mc.length ∧ 0 < unitBlocks u ∧ m.fld F.MC_CTL_SCRUB_EN 2 = 1 ∧ m.fld F.MC_CTL_ENABLE 2 = 1 ∧
    m.fld F.MC_CTL_FAILED 2 = 0 ∧ m.inHold 2 = false ∧ m.pageRetired 2 (a / 0x200000) = false ∧ m.mem.poison.get? (0x2000000000 + a) = none ∧
    (∀ i < unitBlocks u, m.mem.wrong.get? (0x2000000000 + (u * 28 + i) * 64) = none) ∧
    (decodeBlock (m.markedPin 2 (lpMap a).ch) (m.fld F.MC_CTL_AUTO_MARK 2 == 1) (lpMap a).slot [0, 8, 20, 33, 40, 50]).ok = false := by
  decide +kernel

theorem witness_LpddrRepairs_2 :
    let m := lpddr [(F.MC_SPARE_NEXT_NEXT, 2, 2, 32 * 1 + 3), (F.MC_REMAP_VALID, 1, 2, 256)] (fun x => { x with remaps := [(1, 3, 2)] })
    m.quiet = true ∧ (m.mcOf 2).remaps = [(1, 3, 2)] ∧ m.inHold 2 = false ∧ m.remapEntry 2 1 3 2 = none ∧
    (∀ i < unitBlocks (rowUnit 1 3 2), m.mem.wrong.get? (0x2000000000 + (rowUnit 1 3 2 * 28 + i) * 64) = none) ∧ m.fld F.MC_SPARE_NEXT_NEXT 2 (32 * 1 + 3) = 2 ∧
    m.fld F.MC_REMAP_VALID 2 (256 * 1 + 1) = 0 ∧ m.fld F.MC_REMAP_VALID 2 (256 * 1 + 0) = 1 := by decide +kernel

theorem witness_LpddrTraining : (regs on [(F.MC_CTL_ENABLE, 0, 2, 0)]).fld F.MC_CTL_ENABLE 2 = 0 ∧ on.fld F.MC_TRAIN_STATUS_BUSY 2 = 0 ∧
    (lpddr [] id).fld F.MC_CTL_ENABLE 2 = 1 ∧ isCore (.fabMgmt) = false ∧
    ((lpddr [] (fun x => { x with training := some (7, (3 : Fin 16).val) })).mcOf 2).training = some (7, (3 : Fin 16).val) := by decide +kernel

/-- Reservations of 204 in all and of 205. -/
theorem witness_RegulatorRuns : (∀ x ∈ [(204, 204), (205, 205), (0x3210010203, 0x32 + 0x10 + 1 + 2 + 3)],
    bits x.1 0 8 + bits x.1 8 8 + bits x.1 16 8 + bits x.1 24 8 + bits x.1 32 8 = x.2) ∧ regAgent (.fabMgmt) = true ∧ isCore (.fabMgmt) = false := by decide

theorem witness_RegulatorRuns_2 :
    let m := fun (l : List (Fld × Nat × Nat × Nat)) => { lpddr l id with regul := { on.regul with changes := [(2, 0)] } }
    (m []).regul.changes = (2, 0) :: [] ∧ maskOf ((List.range 24).filter (fun k => ((m []).capOf k).2.2)) = 0 ∧ (m []).fld F.REG_STATUS_OVERSUB = 0 ∧
    (m [(F.REG_STATUS_OVERSUB, 1, 0, 0)]).fld F.REG_STATUS_OVERSUB = 1 ∧
    maskOf ((List.range 24).filter (fun k => ((m [(F.REG_STATUS_OVERSUB, 1, 0, 0)]).capOf k).2.2)) = 0 ∧
    (let o := m [(F.REG_RES_STREAM, 204, 0, 2), (F.MC_THERM_STEP, 3, 2, 0)]
     maskOf ((List.range 24).filter (fun k => (o.capOf k).2.2)) ≠ 0 ∧ o.fld F.REG_STATUS_OVERSUB = 0) := by decide +kernel

/-! ## Coherence and cores -/

/-- A line of the hub buffer. -/
def ln : Nat := 0x400000000040

/-- A message of the line, to or from agent 2. -/
def msg (k : MsgKind) (up : Bool) : CohMsg :=
  { kind := k, src := if up then some 2 else none, dst := if up then none else some 2, line := ln, data := List.replicate 64 3, grant := .e }

/-- The line in agent 2's cache, with an access that waits. -/
def line (x : LState) (op : MemOp) : Line :=
  { agent := 2, addr := ln, st := x, data := List.replicate 64 9, poison := false, access := some { ag := .ac 1, kind := 1, addr := ln + 8, op := op },
    snoop := none, l1 := none }

/-- The line's directory entry: agent 2 owns it. -/
def entry (b : Option DirTxn) : DirEntry := { line := ln, proxy := false, owner := some (.agent 2), agents := [], members := [], busy := b }

/-- What the statements on the home ask of the line: its bank is ON and its bytes have their parity. -/
theorem witness_HomeServes : on.quiet = true ∧ (BitVec.ofNat 64 ln).toNat = 0x400000000000 + 0x40 ∧ on.bankState 16 (bankOf 16 0x40) = 0 ∧
    (on.sramOf 16).ywait = [] ∧ (∀ i < 64, on.mem.parityBad ((BitVec.ofNat 64 ln).toNat + i) = false) ∧ on.retry = [] ∧ on.reqSrc = [] ∧ on.dir = [] := by decide +kernel

theorem witness_HomeServes_2 : ∀ k ∈ [MsgKind.rdS, .rdX, .upg],
    let m := { on with net := [{ kind := k, src := some 2, dst := none, line := ln }] }
    m.quiet = true ∧ m.net = [{ kind := k, src := some 2, dst := none, line := ln }] := by decide +kernel

/-- A non-caching access at the line's first word and at its last. -/
theorem witness_HomeServes_3 : ∀ i ∈ [0, 56], i + 8 ≤ 64 ∧ i % 8 = 0 ∧ (BitVec.ofNat 64 (ln + i)).toNat = ln + i := by decide

theorem witness_AgentsAnswer : ∀ x ∈ [(MsgKind.recallS, LState.m), (.recallS, .e), (.recallI, .m), (.recallI, .wbPend), (.inv, .s), (.wbAck, .wbPend),
      (.data, .isE), (.grantM, .sm), (.push, .s)],
    let l := line x.2 (if x.2 = .sm then .write ([1, 2].map some) else .read 4)
    let m := { on with lines := [l], net := [msg x.1 false] }
    m.quiet = true ∧ m.lines = [l] ∧ l.agent = (2 : Fin 65).val ∧ l.addr = (BitVec.ofNat 64 ln).toNat ∧ m.net = [msg x.1 false] ∧
    (msg x.1 false).line = (BitVec.ofNat 64 ln).toNat ∧ (msg x.1 false).dst = some 2 ∧ l.snoop = none ∧ l.access.isSome = true ∧ l.poison = false ∧
    (msg x.1 false).poison = false := by decide +kernel

theorem witness_AgentsAnswer_2 : let m := { on with net := [msg .push false] }
    m.quiet = true ∧ m.lines = [] ∧ m.net = [msg .push false] ∧ (msg .push false).kind = .push := by decide +kernel

theorem witness_DirectoryAnswers : ∀ x ∈ [(MsgKind.invAck, [Holder.agent 2], [], none), (.recallAck .clean, [.agent 2], [], none),
      (.recallAck .dirtyFollows, [.agent 2], [], none), (.wbPend, [.agent 2], [], none), (.recallData, [], [.agent 2], none),
      (.wbData, [], [.agent 2], none), (.pushAck, [], [], some 2), (.pushDrop, [], [], some 2)],
    let e := entry (some { req := .evict, await := x.2.1, data := x.2.2.1, push := x.2.2.2 })
    let m := { on with dir := [e], net := [msg x.1 true] }
    m.quiet = true ∧ m.dir = [e] ∧ e.members = [] ∧ e.agents = [] ∧ e.owner = some (.agent 2) ∧ m.net = [msg x.1 true] ∧
    (msg x.1 true).src = some 2 ∧ (msg x.1 true).line = (BitVec.ofNat 64 ln).toNat ∧ (msg x.1 true).data.length = 64 ∧
    (msg x.1 true).poison = false ∧ m.stale = [] ∧ m.reqSrc = [] := by decide +kernel

theorem witness_DirectoryAnswers_2 :
    let m := { regs on [(F.DIR_CTL_REMOTE_EN, 1, 0, 0)] with
      dir := [entry none], net := [msg .invAck true], ncAcks := [(.op 1 5 8, .ok, [3])], retry := [((BitVec.ofNat 64 ln).toNat, .upg (.agent 2))] }
    m.quiet = true ∧ (∀ i < 64, m.mem.parityBad ((BitVec.ofNat 64 ln).toNat + i) = false) ∧ m.ncAcks = [(.op 1 5 8, .ok, [3])] ∧ m.retry = [((BitVec.ofNat 64 ln).toNat, .upg (.agent 2))] ∧ (entry none).busy = none ∧
    (entry none).proxy = false ∧ m.fld F.DIR_CTL_REMOTE_EN = 1 ∧ (m.setFld F.DIR_STATUS_DRAINING 1 0 0).fld F.DIR_STATUS_DRAINING = 1 ∧
    regAgent (.rt 0) = true := by decide +kernel

theorem witness_CoreAccesses : ∀ ag ∈ [Agent.ac 1, .tc 3 1],
    let c := (cacheOf ag).getD 0
    let l := { line .m (.read 1) with agent := c.val, access := none }
    let a := BitVec.ofNat 64 (ln + 56)
    on.quiet = true ∧ { on with lines := [l] }.quiet = true ∧ cacheOf ag = some c ∧ on.cacheLine a.toNat = some ln ∧
    { on with lines := [l] }.cacheLine a.toNat = some ln ∧ a.toNat % 64 + 8 ≤ 64 ∧ a.toNat % 8 = 0 ∧ l.poison = false ∧ 64 < a.toNat % 64 + 9 := by
  decide +kernel

/-! ## Packets -/

/-- The packet is taken. -/
def mayTake (m : Mod) (port : Nat) (p : Packet) : Bool := decide (m.laneState port = 6 ∧ m.accepts p = true ∧ m.violationOf port p = none)

theorem mayTake_takes (m : Mod) (port : Nat) (p : Packet) (h : mayTake m port p = true) : m.takes port p := by
  simpa [mayTake, Mod.takes] using h

/-- The packet has room on a port. -/
def room (m : Mod) (i : Option Nat) (q : Nat) (x : Packet) : Bool :=
  decide (q < m.lanes.length ∧ m.laneState q = 6 ∧ m.fld F.LANE_STATUS_TX_ASLEEP q = 0 ∧
    1 + x.len.toNat ≤ min ((m.laneOf q).freeCredits (m.creditOf i q x)) (4096 - (m.laneOf q).replay.length))

theorem room_hasRoom (m : Mod) (i : Option Nat) (q : Nat) (x : Packet) (h : room m i q x = true) : m.hasRoom i q x := by
  simpa only [room, Mod.hasRoom, decide_eq_true_eq] using h

/-- The packet leaves at once. -/
def mayLeave (m : Mod) (i : Option Nat) (q : Nat) (x : Packet) : Bool := decide (m.route i x = .port q) && room m i q x

theorem mayLeave_leaves (m : Mod) (i : Option Nat) (q : Nat) (x : Packet) (h : mayLeave m i q x = true) : m.leaves i q x := by
  simp only [mayLeave, Bool.and_eq_true, decide_eq_true_eq] at h
  exact ⟨h.1, room_hasRoom m i q x h.2⟩

/-- The last `n` bytes of array 2. -/
def lastBytes (n : Nat) : Nat := sramBase 2 + (sramSize 2 - n)

/-- Sixty-four bytes. -/
def b64 : List Byte := (List.range 64).map (fun i => BitVec.ofNat 8 (i + 100))

/-- The response to a packet. -/
def response (p : Packet) (n : Nat) (lines : Bool) : Packet :=
  mkPacket (if lines then 3 else 2) (if lines then 0x41 else 0x40) p.src.val p.dst.val p.tag.val 0 (List.replicate (min n 64) 0) (List.replicate (n - 64) 0)

/-- Requests for the last bytes of array 2: each is taken from port 1 and its response leaves through port 1. -/
theorem witness_RequestsAnswered : ∀ x ∈ [(packet 0 1 [(0, 8, lastBytes 64)] [], 64, true), (packet 0 2 [(0, 8, lastBytes 16), (0x18, 1, 4)] [], 16, false),
      (packet 0 6 [(0, 8, lastBytes 128), (0x19, 1, 2)] [], 128, true), (packet 0 3 [(0, 8, lastBytes 64)] b64, 0, false),
      (packet 0 4 [(0, 8, lastBytes 64), (8, 8, 0xF0F1)] b64, 0, false), (packet 0 7 [(0, 8, lastBytes 128), (0x19, 1, 2)] (b64 ++ b64), 0, false),
      (packet 0 5 [(0, 8, lastBytes 8), (8, 8, 3)] [], 8, false), (packet 5 0x60 [(0, 8, lastBytes 8)] [], 8, false),
      (packet 5 0x61 [(0, 8, lastBytes 8), (8, 8, 3)] [], 0, false)],
    mayTake (member []) 1 x.1 = true ∧ mayLeave (member []) none 1 (response x.1 x.2.1 x.2.2) = true := by decide +kernel

theorem witness_RequestsAnswered_2 :
    let m := { member [] with mem := memory [(lastBytes 128, List.replicate 128 1)] }
    m.quiet = true ∧ m.fld F.FAB_ROLE_STATE = 2 ∧ (5 : Nat) = m.fld F.FAB_NODE_ID ∧ m.dir = [] ∧ m.retry = [] ∧ m.reqSrc = [] ∧
    (packet 0 1 [(0, 8, lastBytes 64)] []).addr = lastBytes 64 ∧
    m.portSlate 2 = false ∧ (m.sramOf 2).ywait = [] ∧ (∀ i < 128, m.mem.parityBad (lastBytes 128 + i) = false) ∧ m.fld F.FAB_ROLE_MANAGER = 7 := by
  decide +kernel

theorem witness_RequestsAnswered_3 : ∀ b < 1024, on.bankState 2 b = 0 := by decide +kernel

theorem witness_PacketsPass :
    let m := member []
    let p := { packet 0 1 [(0, 8, 64)] [] with dst := 9 }
    let r := { packet 0 1 [(0, 8, 64), (0x30, 2, 0x22), (0x36, 1, 2), (0x37, 1, 1)] [] with dst := 9, srcrt := true }
    m.quiet = true ∧ mayTake m 1 p = true ∧ p.dst.val ≠ m.fld F.FAB_NODE_ID ∧ m.fenced p.dst.val = false ∧
    mayLeave m (some 1) 2 { p with hops := p.hops - 1 } = true ∧ mayTake m 1 r = true ∧ r.pathEntry r.pathPos = 2 ∧
    room m (some 1) 2 { r with hops := r.hops - 1 } = true ∧ mayTake m 1 { p with hops := 1 } = true := by decide +kernel

theorem witness_PacketsPass_2 :
    let m := member []
    let p := { packet 0 1 [(0, 8, 64)] [] with src := 11 }
    m.quiet = true ∧ m.laneState 1 = 6 ∧ m.accepts p = true ∧ m.violationOf 1 p = some 6 ∧ bit m.fab.violSeen 6 = false ∧ m.laneState 3 ≠ 6 ∧
    (let n := member [(F.FAB_ROLE_STATE, 0, 0, 0)]
     n.laneState 1 = 6 ∧ n.accepts p = false) := by decide +kernel

/-- The fields of a collective's packet. -/
def collFields (o : Nat) : CollFields :=
  { id := 3, rank := 1, groupSize := 2, opcode := o, redOp := 0, flags := 0, peer := 0, count := 4, format := 0, crc := 0 }

theorem witness_DoorbellsAndCollectives :
    let m := member [(F.FAB_TREE_VALID, 1, 0, 3), (F.FAB_TREE_PARENT, 1, 0, 3), (F.FAB_TREE_LOCAL, 1, 0, 3)]
    let x := mkPacket 2 0x40 7 5 21 0 [] []
    let d := packet 0 8 [(0x20, 2, 1022), (0x24, 4, 0xFFFFFFFF)] []
    let b := { packet 4 0x70 [(0, 8, lastBytes 64), (0x19, 1, 1), (0x1A, 1, 3)] b64 with hops := 1 }
    m.quiet = true ∧ m.fld F.FAB_ROLE_STATE = 2 ∧ mayLeave m none 1 x = true ∧ mayTake m 1 d = true ∧ leAt d.head 0x20 2 < 1023 ∧ leAt d.head 0x24 4 ≠ 0 ∧
    m.dir = [] ∧ m.retry = [] ∧ m.reqSrc = [] ∧ (collFields 0xA0).opcode ≠ 0x82 ∧
    m.collOf (collFields 0xA0).id = none ∧ mayTake m 1 { packet 0 9 [] b64 with coll := some (collFields 0xA0) } = true ∧
    mayTake m 1 { packet 0 0xA [] b64 with len := 1, coll := some (collFields 0xA0) } = true ∧
    mayTake m 1 { packet 0 0xA [] [] with coll := some (collFields 0xA0) } = true ∧ mayTake m 1 b = true ∧ b.hops.toNat = 1 ∧ b.addr = lastBytes 64 ∧
    m.fld F.FAB_TREE_LOCAL 0 (b.byteAt 0x1A) = 1 := by decide +kernel

/-- A pass of Saffron in which a unit of the session's map is missing. -/
theorem witness_DoorbellsAndCollectives_2 : bit ({ session := 1, bitmap := 5, pass := 255, state := 1, missing := 2 } : Saffron).bitmap 2 = true := by decide

/-- A request of SQ2 to node 7, tag 21. -/
def request (q : Bool) : GrtEntry :=
  { idx := 21, src := .op 2 5 8, node := 7, port := some 1, ord := false, quarantined := q, waiting := none, held := false }

theorem witness_ResponsesEndRequests : ∀ q ∈ [true, false], ∀ p ∈ [packet 2 0x40 [(0, 8, 0x1234)] [], packet 3 0x41 [] b64],
    let m := { member [] with fab := { grt := [request q] } }
    m.quiet = true ∧ m.fab.grt = [request q] ∧ (request q).src = .op 2 5 8 ∧ (p.ty = 0x40 ∨ p.ty = 0x41) ∧ mayTake m 1 p = true ∧
    p.dst.val = m.fld F.FAB_NODE_ID ∧ (request q).idx = p.tag.val ∧ (request q).node = p.src.val ∧ (request q).port = some 1 ∧
    m.portHeld 1 = false := by decide +kernel

theorem witness_MembershipJoins :
    let mgr := member [(F.FAB_ROLE_STATE, 0, 0, 0), (F.FAB_ROLE_ROLE, 2, 0, 0)]
    let w := member [(F.FAB_ROLE_STATE, 0, 0, 0), (F.LANE_STATUS_STATE, 0, 1, 0), (F.LANE_STATUS_STATE, 0, 2, 0)]
    let free := regs on [(F.FAB_NODE_LOCK, 0, 0, 0)]
    mgr.quiet = true ∧ mgr.fab.grt = [] ∧ mgr.lines = [] ∧ mgr.dir = [] ∧ mgr.net = [] ∧ mgr.retry = [] ∧ mgr.fld F.FAB_NODE_LOCK = 1 ∧
    mgr.fld F.FAB_ROLE_STATE = 0 ∧ mgr.fab.domainMap = [] ∧ mgr.fab.peers = [] ∧ mgr.fld F.FAB_ROLE_ROLE = 2 ∧ w.quiet = true ∧ w.fld F.FAB_NODE_LOCK = 1 ∧
    w.fld F.FAB_ROLE_STATE = 0 ∧ (∀ q < 10, w.laneState q ≠ 6) ∧ w.fld F.FAB_ROLE_ROLE = 1 ∧ free.quiet = true ∧ free.fld F.FAB_NODE_LOCK = 0 ∧
    isCore (.fabMgmt) = false ∧ (member []).fld F.FAB_ROLE_STATE ≠ 0 := by decide +kernel

theorem witness_MembershipJoins_2 :
    let m := member [(F.FAB_ROLE_STATE, 1, 0, 0), (F.LANE_STATUS_STATE, 0, 2, 0)]
    m.quiet = true ∧ m.fld F.FAB_ROLE_STATE = 1 ∧ (∀ q < 10, m.laneState q = 6 ↔ q = 1) ∧ m.fld F.FAB_PORT_DATELINE 0 1 = 0 ∧
    room m none 1 (mkPacket 5 0x62 0 5 0 0 [] []) = true ∧
    (∀ x ∈ [Status.ok, .busy, .access], mayTake m 1 { packet 5 0x63 [] [] with status := BitVec.ofNat 8 x.toNat } = true) := by decide +kernel

theorem witness_MembershipJoins_3 :
    let m := member [(F.FAB_ROLE_ROLE, 2, 0, 0)]
    let p := { packet 5 0x62 [] [] with src := 77 }
    m.quiet = true ∧ mayTake m 1 p = true ∧ m.fld F.FAB_ROLE_STATE = 2 ∧ m.fld F.FAB_ROLE_ROLE = 2 ∧ p.pathPos = 0 ∧ 77 / 64 ≠ m.fld F.FAB_NODE_ID / 64 ∧
    m.fenced 77 = false ∧ m.fab.domainMap = [] ∧ 1 < m.lanes.length ∧ m.fld F.LANE_STATUS_TX_ASLEEP 1 = 0 ∧
    (m.laneOf 1).used = List.replicate 12 0 ∧ (m.laneOf 1).replay = [] := by decide +kernel

/-- The response to the last write of a join. -/
theorem witness_MembershipJoins_4 :
    let m := member [(F.FAB_ROLE_ROLE, 2, 0, 0)]
    let e : GrtEntry := { idx := 21, src := .manager 7 0, node := 7, port := some 1, ord := false, quarantined := false, waiting := none, held := false }
    let n := { m with fab := { m.fab with grt := [e], joins := [{ node := 7, port := 1, packet := packet 5 0x62 [] [], left := 1 }] } }
    m.quiet = true ∧ n.quiet = true ∧ mayTake m 1 (packet 2 0x40 [] []) = true ∧ e.idx = (packet 2 0x40 [] []).tag.val ∧ m.fenced 7 = false ∧
    m.fld F.FAB_ROLE_STATE = 2 ∧ 1 < m.lanes.length ∧ m.fld F.LANE_STATUS_TX_ASLEEP 1 = 0 ∧ (m.laneOf 1).used = List.replicate 12 0 ∧
    (m.laneOf 1).replay = [] := by decide +kernel

theorem witness_MembershipLosses :
    let m := member []
    let mgr := member [(F.FAB_ROLE_ROLE, 2, 0, 0)]
    m.quiet = true ∧ mgr.quiet = true ∧ m.fab.grt = [] ∧ mgr.fld F.FAB_ROLE_ROLE = 2 ∧ m.fld F.FAB_ROLE_ROLE ≠ 2 ∧ m.fld F.FAB_ROLE_STATE = 2 ∧
    mayTake mgr 1 (packet 5 0x64 [(0, 2, 9)] []) = true ∧ leAt (packet 5 0x64 [(0, 2, 9)] []).head 0 2 = 9 ∧
    mayTake m 1 (packet 5 0x65 [(0, 2, 9)] []) = true ∧ mayTake m 1 (packet 5 0x65 [(0, 2, 5)] []) = true ∧
    mayTake m 1 (packet 5 0x66 [(0, 2, 9)] []) = true ∧ mayTake m 1 (packet 5 0x67 [] b64) = true := by decide +kernel

theorem witness_MembershipLosses_2 :
    let m := { member [(F.FAB_FAILOVER_INDEX, 9, 0, 0), (F.FAB_FAILOVER_VALID, 1, 0, 0)] with fab := { reported := [(77, 7)] } }
    m.quiet = true ∧ m.successors = 9 :: [] ∧ ¬ m.successors.contains 7 = true ∧ 9 ≠ m.fld F.FAB_NODE_ID ∧
    mayLeave m none 2 (mkPacket 5 0x64 9 5 0 0 (toBytes 2 77) []) = true := by decide +kernel

theorem witness_MembershipLosses_3 :
    let m := { member [] with fab := { confirming := [(7, 9)] } }
    let mgr := { member [(F.FAB_ROLE_ROLE, 2, 0, 0)] with fab := { confirming := [(77, 9)] } }
    m.quiet = true ∧ mgr.quiet = true ∧ mayLeave m none 2 (mkPacket 5 0x66 9 5 0 0 (toBytes 2 7) []) = true ∧ mgr.fld F.FAB_TREE_VALID 0 0 = 0 ∧
    m.fld F.FAB_ROLE_MANAGER = 7 ∧ m.fab.domainMap = [] ∧ mgr.fab.peers = [] := by decide +kernel

/-! ## Optical ports -/

/-- Port 1 with a lane state, of a member. -/
def lane (m : Mod) (l : Lane) : Mod := { m with lanes := modNth m.lanes 1 (fun _ => l) }

/-- A flit. -/
def flit (n : Fin 4096) (good : Bool) : Flit :=
  { num := n, sof := true, crcGood := good, violations := 0, vc := 0, sub := false, kind := 0, ty := 1, src := 7, len := 0 }

/-- A port that expects flit 4095, with a replay buffer that wraps. -/
def wraps : Lane := { expect := 4095, accepted := 8191, replay := [(4095, 3), (0, 2), (1, 5)], acked := 8190, naksReceived := 6, naksSent := 6 }

theorem witness_FlitsMove :
    let m := lane (member []) wraps
    let l := m.laneOf 1
    m.quiet = true ∧ m.laneState 1 = 6 ∧ 1 < m.lanes.length ∧ l = wraps ∧ l.naksSent < 7 ∧ (flit 4095 true).num.val = l.expect ∧ l.discard = false ∧
    l.openVc = [] ∧ l.skipVc = [] ∧ (modNth l.held 0 (· + 1)).all (· ≤ 64) = true ∧ l.replay = [(4095, 3)] ++ ((0 : Fin 4096).val, 2) :: [(1, 5)] ∧
    (∀ e ∈ [(4095, 3)], e.1 ≠ 0) ∧ l.retryTx = none ∧ l.naksReceived < 7 ∧ m.fld F.LANE_STATUS_TX_ASLEEP 1 = 0 ∧ l.held.all (· == 0) = true ∧
    l.blocks ≠ 15 := by decide +kernel

theorem witness_FlitsMove_2 :
    let m := { lane (member []) { wraps with discard := true, held := List.replicate 12 3 } with fab := { draining := [1] } }
    m.quiet = true ∧ m.laneState 1 = 6 ∧ (m.laneOf 1).discard = true ∧ (m.laneOf 1).held.all (· == 0) = false ∧ m.fab.draining.contains 1 = true := by
  decide +kernel

theorem witness_PortsSleepAndDrain :
    let m := lane (member [(F.LANE_SLEEP_AUTO, 1, 1, 0)]) {}
    m.quiet = true ∧ regAgent (.rt 1) = true ∧ 1 < m.lanes.length ∧ m.fab.draining.contains 1 = false ∧ m.fld F.LANE_SLEEP_AUTO 1 = 1 ∧ m.laneState 1 = 6 ∧
    m.fld F.LANE_STATUS_TX_ASLEEP 1 = 0 ∧ (m.laneOf 1).replay = [] ∧ (m.laneOf 1).ackDue = false ∧ (m.laneOf 1).nakDue = false ∧
    (m.laneOf 1).crdDue = [] := by decide +kernel

/-- Port 1 of a member in a state of training. -/
def training (s : Nat) (l : List (Fld × Nat × Nat × Nat)) : Mod :=
  { member ([(F.LANE_STATUS_STATE, s, 1, 0), (F.LANE_RX_MASK_USABLE, 0xFFFFFFFF, 1, 0), (F.LANE_TX_MASK_LIT, 0xFFFFFFFF, 1, 0)] ++ l) with laserOk := true }

theorem witness_PortsTrain : ∀ s < 6,
    let m := training s []
    m.quiet = true ∧ regAgent (.fabMgmt) = true ∧ 1 < m.lanes.length ∧ m.laneState 1 = s ∧ m.laserOk = true ∧ m.fld F.LANE_STATUS_RETRAINING 1 = 0 ∧
    m.fld F.LANE_STATUS_ATTEMPTS 1 + 1 < 3 := by decide +kernel

/-- With exactly 8 lanes left a stage goes on. -/
theorem witness_PortsTrain_2 : ∀ s ∈ [2, 4],
    8 ≤ popCount 32 (((training s []).modLane 1 (fun l => { l with excluded := l.excluded ||| 0xFFFFFF })).usableLanes 1) := by decide +kernel

theorem witness_PortsTrain_3 :
    let m := ((training 3 []).setReg (F.LANE_COMMA_POS.addr 1 0) (BitVec.ofNat 64 (2 ^ 64 - 1))).setReg (F.LANE_COMMA_POS.addr 1 1) (BitVec.ofNat 64 (2 ^ 64 - 1))
    m.laneState 1 = 3 ∧ 8 ≤ popCount 32 ((m.modLane 1 (fun l => { l with excluded := l.excluded ||| m.unlocked 1 })).usableLanes 1) := by decide +kernel

theorem witness_PortsTrain_4 :
    let m := training 5 [(F.FAB_CTL_ENABLE, 0, 0, 0)]
    m.quiet = true ∧ m.laneState 1 = 5 ∧ widthOf (popCount 32 (m.usableLanes 1 &&& 0xFF)) = 8 ∧ widthOf (popCount 32 0xFFFF) = 16 ∧
    m.fld F.LANE_STATUS_RETRAINING 1 = 0 ∧ m.fld F.FAB_CTL_ENABLE = 0 ∧
    (training 5 [(F.LANE_STATUS_ATTEMPTS, 2, 1, 0)]).fld F.LANE_STATUS_ATTEMPTS 1 + 1 = 3 := by decide +kernel

theorem witness_PortsRetrainAndFail :
    let m := training 6 [(F.FAB_ROLE_STATE, 1, 0, 0), (F.LANE_RX_MASK_USE, 0xFFFF, 1, 0)]
    m.quiet = true ∧ 1 < m.lanes.length ∧ m.fab.grt = [] ∧ m.laneState 1 = 6 ∧ m.fld F.LANE_STATUS_RX_ASLEEP 1 = 0 ∧
    0xFF &&& m.fld F.LANE_RX_MASK_USE 1 ≠ 0 ∧ 0xFF &&& m.fld F.LANE_RX_MASK_USE 1 ≠ m.fld F.LANE_RX_MASK_USE 1 ∧ m.fld F.FAB_ROLE_STATE ≠ 2 ∧
    m.svcRun = none ∧ (∀ r < 10, r ≠ 1 → m.fld F.FAB_PORT_PEER_VALID 0 r = 0) ∧ m.fld F.FAB_PORT_DRAINED 0 1 = 0 := by decide +kernel

theorem witness_PortsRetrainAndFail_2 :
    let m := training 7 [(F.LANE_CTL_ENABLE, 1, 1, 0)]
    let r := training 2 [(F.FAB_ROLE_STATE, 1, 0, 0), (F.LANE_STATUS_RETRAINING, 1, 1, 0)]
    m.quiet = true ∧ m.laneState 1 = 7 ∧ m.fld F.LANE_CTL_ENABLE 1 = 1 ∧ m.laserOk = true ∧ (training 7 []).fld F.LANE_CTL_ENABLE 1 = 0 ∧ r.quiet = true ∧
    r.fld F.LANE_STATUS_RETRAINING 1 = 1 ∧ r.fld F.FAB_ROLE_STATE ≠ 2 ∧ (training 0 [(F.FAB_ROLE_STATE, 1, 0, 0)]).laneState 1 = 0 ∧
    (training 9 []).laneState 1 = 9 ∧ (training 9 []).quiet = true := by decide +kernel

theorem witness_PortsRetrainAndFail_3 :
    let m := training 6 [(F.FAB_ROLE_STATE, 1, 0, 0), (F.FAB_PORT_PEER_VALID, 1, 0, 1), (F.FAB_PORT_PEER, 7, 0, 1), (F.FAB_PORT_PEER_VALID, 1, 0, 2),
      (F.FAB_PORT_PEER, 7, 0, 2)]
    let z := training 6 [(F.FAB_ROLE_STATE, 1, 0, 0), (F.LANE_STATUS_RX_ASLEEP, 1, 1, 0)]
    m.quiet = true ∧ m.fld F.FAB_PORT_PEER_VALID 0 2 = 1 ∧ m.fld F.FAB_PORT_PEER 0 2 = m.fld F.FAB_PORT_PEER 0 1 ∧ m.laneState 2 = 6 ∧
    m.fld F.LANE_STATUS_RX_ASLEEP 1 = 0 ∧ m.fld F.FAB_ROLE_STATE ≠ 2 ∧ z.quiet = true ∧ z.fld F.LANE_STATUS_RX_ASLEEP 1 = 1 ∧ z.laneState 1 = 6 := by
  decide +kernel

theorem witness_PortsLight :
    let l := [(F.LANE_STATUS_STATE, 0, 1, 0), (F.LANE_STATUS_STATE, 0, 2, 0)]
    let m := training 0 l
    let spare := training 0 ((F.PWR_LASER_SPARE, 1, 0, 15) :: l)
    (∀ p ∈ portsOf 1, m.laneState p ≠ 6) ∧ (∀ p ∈ portsOf 0, m.laneState p ≠ 6) ∧ m.quiet = true ∧ m.fld F.PWR_LASER_SPARE 0 15 = 0 ∧
    m.fld F.PWR_LASER_SPARE_FAILED 0 15 = 0 ∧ m.dark = [] ∧ m.warming = [] ∧ spare.fld F.PWR_LASER_SPARE 0 (8 * 1 + 7) = 1 ∧ spare.quiet = true ∧
    { m with warming := [(15, [0, 0, 8, 0, 0])] }.quiet = true := by decide +kernel

theorem witness_PortsLight_2 : (training 6 [(F.LANE_CTL_PRBS_EN, 1, 1, 0)]).fld F.LANE_CTL_PRBS_EN 1 = 1 ∧ (training 6 []).fld F.LANE_CTL_PRBS_EN 1 = 0 := by
  decide +kernel

theorem witness_PortsLight_3 : let m := { training 0 [] with laserLow := true, laserOk := false }
    m.quiet = true ∧ m.svcRun = none ∧ m.laserLow = true ∧ m.pwrgd = true ∧ m.laserOk = false ∧ m.fld F.PWR_RAIL_FAULT 0 28 = 0 ∧
    m.fld F.PWR_RAIL_FAULT 0 29 = 0 ∧ m.rstN = true ∧ m.bootStopped = false ∧ m.dark = [] ∧ { m with pwrgd := false }.quiet = true := by decide +kernel

/-! ## Die links -/

/-- A frame on a die link. -/
def frame (good : Bool) (bad : List (Fin 8)) (cvc : Fin 8) (k : Fin 4) (ack : Option (BitVec 8)) : Frame :=
  { sync := 0xB8, seq := 255, ack := ack, kind := k, cvc := cvc, total := 9, crcGood := good, badLanes := bad }

/-- A port's link, ACTIVE or in another state, with its bundles trained and one changed. -/
def link (port st : Nat) (l : List (Fld × Nat × Nat × Nat)) (f : Bundle → Bundle) (tr : Option (Nat × Nat)) : Mod :=
  { regs on ([(F.D2D_STATUS_STATE, st, port, 0), (F.D2D_CTL_NAK_LIMIT, 7, port, 0), (F.D2D_CTL_LANE_LIMIT, 16, port, 0), (F.D2D_CTL_ENABLE, 1, port, 0)] ++ l) with
    dports := on.dports.map (fun _ => { bundles := modNth (List.replicate 16 { trained := true, expect := 255 }) 1 f, training := tr }) }

/-- Bundle 1 of the ports of a compute die and of the management die. -/
theorem witness_DieLinksCarryFrames : ∀ port ∈ [3, 16],
    let m := link port 2 [] id none
    m.quiet = true ∧ regAgent (.svc) = true ∧ 1 < bundleCount port ∧ port < m.dports.length ∧ 1 < (m.dportOf port).bundles.length ∧
    m.fld F.D2D_STATUS_STATE port = 2 ∧ m.fld F.D2D_BUNDLE_RETRAINING port 1 = 0 ∧ m.dirWidth port 1 true ≠ 3 ∧
    (frame true [] 6 1 none).seq.toNat = (m.bundleOf port 1).expect ∧ (m.bundleOf port 1).discard = false ∧
    (m.bundleOf port 1).naksSent + 1 < m.fld F.D2D_CTL_NAK_LIMIT port ∧ (m.bundleOf port 1).naksReceived + 1 < m.fld F.D2D_CTL_NAK_LIMIT port ∧
    bits 0 5 1 = m.fld F.D2D_BUNDLE_EXCLUDE port 1 ∧
    (∀ c < bundleCount port, (m.bundleOf port c).window.all (· < m.fld F.D2D_CTL_LANE_LIMIT port) = true) := by decide +kernel

theorem witness_DieLinksCarryFrames_2 : ∀ port ∈ [3, 16],
    let m := link port 2 [] (fun b => { b with naksSent := 6, window := [0, 0, 3, 0, 0, 0, 0, 16] }) none
    m.quiet = true ∧ m.fld F.D2D_CTL_NAK_LIMIT port ≤ (m.bundleOf port 1).naksSent + 1 ∧
    (∀ c < bundleCount port, c ≠ 1 → (m.bundleOf port c).window.all (· < m.fld F.D2D_CTL_LANE_LIMIT port) = true) ∧
    (m.bundleOf port 1).window.any (m.fld F.D2D_CTL_LANE_LIMIT port ≤ ·) = true := by decide +kernel

theorem witness_DieLinksCarryFrames_3 : ∀ port ∈ [3, 16],
    let m := link port 2 [(F.D2D_BUNDLE_RETRAINING, 1, port, 1)] id none
    m.quiet = true ∧ (∀ c < bundleCount port, m.fld F.D2D_BUNDLE_RETRAINING port c = 1 ↔ c = 1) ∧ m.fld F.D2D_BUNDLE_EXCLUDE port 1 = 0 ∧
    m.spareMap port 1 false = [] ∧ m.spareMap port 1 true = [] := by decide +kernel

theorem witness_DieLinksTrain : ∀ port ∈ [3, 16], ∀ st ∈ [0, 2, 3, 4],
    let m := link port st [] id none
    m.quiet = true ∧ port < m.dports.length ∧ 1 < 2 ^ bundleCount port ∧ m.fld F.D2D_STATUS_STATE port = st ∧ m.fld F.D2D_CTL_ENABLE port = 1 ∧
    (m.dportOf port).training = none := by decide +kernel

theorem witness_DieLinksTrain_2 : ∀ port ∈ [3, 16], ∀ op ∈ [1, 5, 7], let m := link port 1 [] id (some (op, 1))
    m.quiet = true ∧ (m.dportOf port).training = some (op, (1 : BitVec 16).toNat) := by decide +kernel

theorem witness_DieLinksTrain_3 : ∀ port ∈ [3, 16],
    let m := link port 2 [] id none
    let live := (List.range (bundleCount port)).filter (fun b => (m.bundleOf port b).trained && m.dirWidth port b true != 3)
    m.quiet = true ∧ m.svcRun = none ∧ live ≠ [] ∧ live.filter (bit 0xFFFF) = live ∧ live.filter (bit 1) = [0] ∧ live ≠ [0] ∧
    m.fld F.D2D_BUNDLE_RETRAINING port 0 = 0 := by decide +kernel

/-! ## Registers, the root of trust, service frames and SMBus -/

/-- An address that names a register of this module. -/
def here (a : Nat) : Word := BitVec.ofNat 64 a

theorem witness_RegistersWritten :
    let locked := regs on [(F.THM_CTL_LOCK, 1, 0, 0)]
    (∀ a ∈ [F.EVQ_CTL_CLASS_MASK.addr 0 0, F.EVQ_CTL_CLASS_MASK.addr 0 3, F.EVQ_CTL_CLASS_MASK.addr 0 3 + 4, F.THM_LIMITS_WARN.addr 0 0],
      on.decodeAddr (here a).toNat = .here a ∧ 0x700000000000 ≤ a ∧ mgdMemory a = false ∧ (blockAt a).isSome = true) ∧ on.quiet = true ∧ locked.quiet = true ∧
    locked.fld F.THM_CTL_LOCK = 1 ∧ (F.THM_LIMITS_WARN.addr 0 0 + 4) % 8 ≠ 0 ∧ on.decodeAddr (here 0x7E0000000000).toNat = .here 0x7E0000000000 ∧
    blockAt 0x7E0000000000 = none ∧ mgdMemory 0x7E0000000000 = false ∧ regAgent (.fabMgmt) = true ∧ isCore (.fabMgmt) = false ∧
    regAgent .fabric = false := by decide +kernel

/-- The premises of a write that a register without orders takes. -/
def takesWrite (m : Mod) (ag : Agent) (a size : Nat) (data : Word) : Bool :=
  match blockAt a with
  | some (b, i, off) => match regAtOff b i (off / 8 * 8) with
    | some (d, k) =>
      let old := m.reg (a / 8 * 8)
      let v := laneData a size data
      !d.name.acts && m.blockGate ag b i off true == .ok &&
      m.regCheck ag d.name i k old (d.asked old v (laneMask a size)) (d.stored (m.locked d.name i k) old v (laneMask a size)) == .ok
    | none => false
  | none => false

/-- Registers that keep any value, one that checks its value, and the upper half of one. -/
theorem witness_RegistersWritten_plain :
    (∀ x ∈ [(F.LANE_TAP_PRE.addr 9 31, 8), (F.EVQ_CTL_CLASS_MASK.addr 0 3 + 4, 4), (F.FAB_ROUTE_VALID.addr 0 16383, 4)],
      takesWrite on .fabMgmt x.1 x.2 0 = true ∧ x.1 % x.2 = 0 ∧ on.decodeAddr (here x.1).toNat = .here x.1) ∧
    takesWrite on .fabMgmt (F.THM_LIMITS_WARN.addr 0 0) 8 (on.reg (F.THM_LIMITS_WARN.addr 0 0)) = true := by decide +kernel

theorem witness_RegistersWritten_2 :
    let busy := ctx (regs on [(F.SQ_CTL_ENABLE, 1, 0, 0)]) 0 { ops := [opWith [] []] }
    on.layoutBusy = false ∧ busy.quiet = true ∧ busy.layoutBusy = true ∧ bits 2 0 2 ≠ 3 ∧
    (∀ d < 16, d ∈ (List.range 16).map (fun p => bits (0xFEDCBA9876543210 : Word).toNat (4 * p) 4)) ∧ on.state ≠ .parked ∧ on.portSlate 3 = false ∧
    (let data := 0x0004400000000000
     bits data 48 4 = 4 ∧ bits data 5 43 * 32 % (32 * 2 ^ 4) = 0 ∧ 0x400000000000 ≤ bits data 5 43 * 32 ∧
     bits data 5 43 * 32 + 32 * 2 ^ 4 ≤ 0x400080000000) ∧ mgmtCore (.rt 0) = true ∧
    (let m := { on with evStage := [(stageOf (.rt 0), (0x0E05, 5, 6))] }
     m.quiet = true ∧ m.evStage.get? (stageOf (.rt 0)) = some (0x0E05, 5, 6)) ∧ eventClassKnown 0x0E05 = true := by decide +kernel

theorem witness_RootOfTrust :
    let m := regs on [(F.MGD_STATUS_PUF_OK, 1, 0, 0)]
    m.quiet = true ∧ mgmtCore (.rt 0) = true ∧ sramAt (bits (0x400000010000 : Word).toNat 6 42 * 64) = some (16, 0x10000) ∧ m.rot = none ∧
    m.fld F.MGD_STATUS_PUF_OK = 1 := by decide +kernel

/-- The first and the last word of the flash, and the first after the boot directory. -/
theorem witness_RootOfTrust_2 :
    let m := regs on [(F.MGD_STATUS_DIR_LOCK, 1, 0, 0)]
    (∀ a ∈ [0x7F0080000000, 0x7F00A0000000 - 8, 0x7F0080040000],
      m.decodeAddr (here a).toNat = .here a ∧ 0x7F0080000000 ≤ a ∧ a + 8 ≤ 0x7F00A0000000 ∧ a % 8 = 0) ∧ m.quiet = true ∧ regAgent (.fabMgmt) = true ∧
    m.portSlate 16 = false ∧ m.fld F.MGD_STATUS_DIR_LOCK = 1 ∧ on.fld F.MGD_STATUS_DIR_LOCK = 0 := by decide +kernel

theorem witness_ExtendSetsMeasurement :
    let m := { on with rot := some (.extend 5 0x400000010000) }
    m.quiet = true ∧ sramAt 0x400000010000 = some (16, 0x10000) ∧ 0x400000010000 % 64 = 0 ∧ m.rot = some (.extend 5 0x400000010000) ∧ m.svcRun = none ∧
    m.svcq = [] ∧ m.dir = [] ∧ m.bankState 16 (bankOf 16 0x10000) = 0 ∧ (m.sramOf 16).ywait = [] ∧
    (∀ j < 64, m.mem.parityBad (0x400000010000 + j) = false) := by decide +kernel

/-- The service key of the tests. -/
def key : List Byte := List.replicate 32 5

/-- A module whose service endpoint answers. -/
def serving (l : List (Fld × Nat × Nat × Nat)) : Mod :=
  { regs on ([(F.MGD_SVC_ENABLE, 1, 0, 0), (F.MGD_STATUS_KEY_SET, 1, 0, 0), (F.MGD_STATUS_PUF_OK, 1, 0, 0)] ++ l) with link := true, serviceKey := some key }

/-- A request with a TAG for an ARG. -/
def signed (op : Nat) (arg tagged : Word) (payload : List Byte) : SvcFrame :=
  { mac := 0x112233445566, auth := true, bootId := 0, seq := 9, arg := arg, payload := payload,
    tag := svcTag key (svcHeader op 0 2 payload.length 0 9 tagged) payload }

theorem refusal_none (m : Mod) (op : Nat) (f : SvcFrame) (ha : f.auth = true) (hk : m.fld F.MGD_STATUS_KEY_SET ≠ 0)
    (ht : f.tag = svcTag (m.serviceKey.getD []) (svcHeader op 0 2 f.payload.length f.bootId f.seq f.arg) f.payload)
    (hb : f.bootId = m.reg (F.MGD_BOOT_ID_ID.addr 0 0)) (hs : m.topSeq ≤ f.seq.toNat) : m.refusal op f = none := by
  rw [Mod.refusal, if_neg (by simp [ha]), if_neg hk, if_neg (by simpa using ht), if_neg (by simpa using hb), if_neg (by omega)]

theorem witness_ServiceAnswers (op : Nat) (arg : Word) (payload : List Byte) : (serving []).refusal op (signed op arg arg payload) = none :=
  refusal_none _ _ _ rfl (by decide) rfl (show (0 : Word) = _ by decide) (Nat.zero_le _)

theorem witness_ServiceAnswers_2 (op lo w v : Nat) (arg : Word) (payload : List Byte) :
    (serving []).refusal op (withArg (signed op arg (BitVec.ofNat 64 (putBits arg.toNat lo w v)) payload) lo w v) = none :=
  refusal_none _ _ _ rfl (by decide) rfl (show (0 : Word) = _ by decide) (Nat.zero_le _)

theorem witness_ServiceAnswers_3 : (serving []).refusal 4 { signed 4 0 0 [] with auth := false } = some 1 := by decide

theorem witness_ServiceAnswers_4 :
    let m := serving [(F.MGD_BULK_ADDR_ADDR, sramBase 1 + 0x10020, 0, 0)]
    m.quiet = true ∧ m.svcRun = none ∧ m.svcq = [] ∧ m.fld F.MGD_SVC_ENABLE = 1 ∧ m.link = true ∧ m.mgdHeld = false ∧
    m.resetStatus 4 (bits (0 : Word).toNat 2 2) = .ok ∧ m.decodeAddr m.bulkAddr = .here (sramBase 1 + 0x10020) ∧ 0x10020 % 64 + 32 ≤ 64 ∧ m.dir = [] ∧
    m.portSlate 1 = false ∧ (m.sramOf 1).ywait = [] ∧ m.bankState 1 (bankOf 1 0x10020) = 0 ∧
    (∀ i < 32, m.mem.parityBad (sramBase 1 + 0x10020 + i) = false) := by decide +kernel

theorem witness_ServiceAnswers_5 :
    let m := { serving [] with active := 0xFFF7, bistPassed := 8 }
    m.quiet = true ∧ bit m.active 3 = false ∧ bit m.bistPassed 3 = true ∧ m.fld F.MGD_STATUS_RECOVERY = 0 ∧ m.fld F.MGD_STATUS_PUF_OK = 1 ∧ m.rot = none ∧
    inHubBuffer 0x400000010000 1 = true ∧ 0x400000010000 % 64 = 0 ∧ (0x400000010000 / 64 * 2 ^ 16) / 2 ^ 16 * 64 = 0x400000000000 + 0x10000 ∧
    (∀ i < 64, m.mem.parityBad (0x400000000000 + 0x10000 + i) = false) ∧ m.bankState 16 (bankOf 16 0x10000) = 0 := by decide +kernel

theorem witness_ManagementDieRestarts :
    let m := { on with rstN := true, svcResets := [⟨2, 0⟩, ⟨0, 1⟩] }
    let held := { on with mgdHeld := true }
    m.quiet = true ∧ m.pwrgd = true ∧ m.mgdHeld = false ∧ m.svcResets = ⟨2, 0⟩ :: [⟨0, 1⟩] ∧ m.fld F.D2D_STATUS_STATE 16 ≠ 3 ∧ held.quiet = true ∧
    held.mgdHeld = true ∧ held.mgdStopped = false := by decide +kernel

theorem witness_SmbusAnswers :
    let m := { on with alertPin := true, coolant := some (5, -7) }
    m.smbusOn = true ∧ m.coolant = some (5, -7) ∧ m.alertPin = true ∧ key.length = 32 ∧ smbusCodes.contains 0x05 = false := by decide +kernel

/-! ## Resets, power and temperature -/

/-- The result of a die in a boot. -/
def dieRun (d : Fin 16) : DieRun := ⟨d, true, [], true, [], true, 0⟩

theorem witness_ModuleResets :
    let m := { on with svcResets := [⟨0, 0⟩, ⟨1, 2⟩] }
    resetAgent (.rt 0) = true ∧ resetAgent .fabMgmt = true ∧ isCore .fabMgmt = false ∧ m.quiet = true ∧ m.svcResets = ⟨0, 0⟩ :: [⟨1, 2⟩] ∧ m.pwrgd = true ∧
    m.powerOnBoot = false ∧ { m with powerOnBoot := true }.powerOnBoot = true := by decide +kernel

theorem witness_ModuleResets_2 :
    let m := { on with state := .boot, rstN := true, powerOnBoot := true }
    m.quiet = true ∧ m.state = .boot ∧ m.bootStopped = false ∧ m.mgdHeld = false ∧ m.rstN = true ∧ m.fld F.MGD_STATUS_RECOVERY = 0 ∧ m.pwrgd = true := by
  decide +kernel

/-- The first and the last core, cluster and partition. -/
theorem witness_UnitResets : on.quiet = true ∧ on.svcRun = none ∧ resetAgent (.rt 0) = true ∧ on.resets = [] ∧ on.state ≠ .parked ∧
    bit { on with active := 0xFFF7 }.active 3 = false ∧ { on with active := 0xFFF7 }.quiet = true ∧ on.partition 0 ≠ [] ∧
    (regs on [(F.HUB_PARTITION_MODE, 2, 0, 0)]).partition 3 ≠ [] ∧ 3 < on.ctxs.length := by decide +kernel

theorem witness_UnitResets_2 : (∀ r ∈ [(⟨1, 70⟩ : ResetRun), ⟨3, 127⟩, ⟨4, 3⟩], { on with resets := [r] }.quiet = true ∧ { on with resets := [r] }.resets = [r]) ∧
    (let m := { on with resets := [⟨3, 15⟩], retry := [(0x1000, .nc { src := .op 3 7 2, ag := .ac 1, op := .read 64, addr := sramBase 15 + 0x1000 })] }
     m.quiet = true ∧ sramAt (sramBase 15 + 0x1000) = some (15, 0x1000) ∧ (m.sramOf 15).ywait = [] ∧ m.reqSrc = []) := by decide +kernel

/-- A module in STANDBY. -/
def standby : Mod := { on with state := .standby, pwrgd := false, active := 0 }

theorem witness_SupplyRuns : standby.quiet = true ∧ standby.svcRun = none ∧ { standby with state := .off }.quiet = true ∧ standby.tripped = false ∧
    standby.islandReady = true ∧ standby.enIgnored = false ∧ standby.pwrEn = true ∧ standby.powered = false ∧
    { standby with pwrEn := false, islandReady := false }.quiet = true ∧ { standby with tripped := true }.quiet = true ∧
    (959 : BitVec 16).toInt < 960 := by decide +kernel

theorem witness_SupplyRuns_2 : ∀ g ∈ [0, 3, 4], let m := { standby with state := .powerUp, railGroup := g, rstN := true }
    m.quiet = true ∧ (∀ r < 30, m.fld F.PWR_RAIL_FAULT 0 r = 0) ∧ m.railGroup = g := by decide +kernel

theorem witness_SupplyRuns_3 : on.quiet = true ∧ on.powered = true ∧ on.state = .active ∧ on.fld F.THM_TEMP_TRIP_DIS 0 19 = 0 := by decide +kernel

theorem witness_PowerStates :
    let parked := fun (n : Nat) => { regs on [(F.PWR_STATE_STATE, n, 0, 0)] with state := .parked }
    let busy := running { opWith [] [] with st := .dispatched }
    on.quiet = true ∧ on.svcRun = none ∧ on.parkBusy = false ∧ busy.m.quiet = true ∧ busy.m.parkBusy = true ∧ busy.m.state = .active ∧
    (∀ n ∈ [2, 3, 4], (parked n).quiet = true ∧ (parked n).fld F.PWR_STATE_STATE = n) ∧
    (let idle := regs on [(F.PWR_IDLE_GATE_US, 5, 0, 0), (F.PWR_IDLE_GATED, 2, 0, 0)]
     idle.quiet = true ∧ idle.fld F.PWR_IDLE_GATE_US ≠ 0 ∧ idle.partition 0 ≠ [] ∧ idle.gated 0 = false ∧ idle.gated 1 = true ∧ (idle.ctx 0).ops = [] ∧
     idle.state = .active ∧ idle.pwrgd = true) := by decide +kernel

theorem witness_TemperaturesFollow : on.pwrgd = true ∧ on.fld F.THM_TEMP_FAILED 0 0 = 0 ∧ on.fld F.THM_TEMP_FAILED 0 19 = 0 ∧
    (List.replicate 19 (⟨0, false⟩ : Sensor)).length = 19 ∧ moduleSensors.contains 3 = false ∧ on.fld F.THM_TEMP_THROTTLE 0 3 = 0 ∧
    (regs on [(F.THM_TEMP_THROTTLE, 1, 0, 3)]).fld F.THM_TEMP_THROTTLE 0 3 = 1 := by decide +kernel

/-! ## Selftest -/

theorem witness_TestsRun :
    let m := { on with active := 0xFFF7 }
    m.quiet = true ∧ m.svcRun = none ∧ regAgent (.fabMgmt) = true ∧ bit m.active 3 = false ∧ bit m.active 15 = true ∧ m.resets = [] ∧ m.tests = [] ∧
    m.state ≠ .parked ∧ (∀ op ∈ [2, 3], { on with tests := [(3, op)] }.quiet = true) := by decide +kernel

theorem witness_TestsRun_2 :
    let m := regs on [(F.MC_CTL_ENABLE, 1, 23, 0)]
    let data := 28415 * 2 ^ 32 + 28415 * 2 ^ 16
    m.quiet = true ∧ bits data 48 2 ≠ 3 ∧ bits data 16 15 ≤ bits data 32 15 ∧ bits data 32 15 < 28416 ∧ 23 ∉ m.ftests ∧ m.fld F.MC_CTL_ENABLE 23 = 1 ∧
    23 ∈ { m with ftests := [23] }.ftests ∧ { m with ftests := [23] }.quiet = true := by decide +kernel

theorem witness_TestsRun_3 : on.pwrgd = true ∧ bit { on with stack := 0x10008 }.stack 3 = true ∧ bit { on with stack := 0x10008 }.stack 16 = true ∧
    bit on.stack 3 = false ∧ { on with rstN := false }.rstN = false := by decide +kernel

/-! ## The manual's worked examples -/

/-- 04, after Table 04.5: E4M3 output under RNE. -/
theorem test_e4m3_overflow : let x := fun (inf : Bool) (n : Int) => (convertElem 0x3 .rne inf (.ofInt n)).1
    x false 460 = 0x7E ∧ x true 460 = 0x7E ∧ x true 464 = 0x7E ∧ x false 470 = 0x7E ∧ x true 470 = 0x7F := by decide +kernel

/-- 04, after R119: an MXFP4 block with amax 13.5: scale 128, and 6.0, 0.5 and −1.5 for 13.5, 0.6 and −2.9. -/
theorem test_mxfp4_block : let r := mxBlock 0x17 [(.rne, .fin false 27 (-1)), (.rne, f32 0x3F19999A), (.rne, f32 0xC039999A)]
    r.1 = 128 ∧ r.2.1 = [0x7, 0x1, 0xB] := by decide +kernel

/-- 04, after R122: the parts of 0x3EAA_AAAB and of 3.0, and their product. -/
theorem test_split32 : (split3 (f32 0x3EAAAAAB)).map bf16.encode = [0x3EAB, 0xBA2B, 0x35AC] ∧ (split3 (f32 0x40400000)).map bf16.encode = [0x4040, 0, 0] ∧
    fp32.encode (tilePartial false (groupsOf true 2 [0] (fun _ => f32 0x3EAAAAAB) (fun _ => f32 0x40400000))).1 = 0x3F800000 := by decide +kernel

/-- 04, after R125: 1.0 at k = 0 and 2⁻²⁵ at k = 1, 32 and 33: one accumulator, and two tiles added by the hub. -/
theorem test_result_variation :
    let a := fun (k : Nat) => if k = 0 then Num.one else if k = 1 ∨ k = 32 ∨ k = 33 then elemValue 0x3 0x01 else .zero
    let b := fun (k : Nat) => if k = 0 then Num.one else elemValue 0x4 0x01
    let tile := fun (ks : List Nat) => tilePartial false (groupsOf false 4 ks a b)
    fp32.encode (tile (List.range 64)).1 = 0x3F800001 ∧
    fp32.encode (hubSum false [tile (List.range 32), tile ((List.range 32).map (· + 32))]).1 = 0x3F800000 := by decide +kernel

/-- 08, after R225: the byte at 0x4002_4123_4567. -/
theorem test_sram_map : sramAt 0x400241234567 = some (5, 0x1234567) ∧ bankOf 5 0x1234567 = 277 ∧ wordOf 5 0x1234567 = 291 ∧
    wordOf 5 0x1234567 % 2 = 1 ∧ 0x1234567 % 64 = 0x27 := by decide

/-- 09, after R251: local address 0x0061_2345_6780. -/
theorem test_lpddr_map : lpddrAt 0x006123456780 = some (6, 0x123456780) ∧ lpMap 0x123456780 = ⟨3, 12, 21304, 10⟩ := by decide +kernel

/-- 18, Table 18.5: the bytes of a record. -/
theorem test_record_bytes :
    let data := d8 0x006123456780 ++ d1 27 ++ d1 12 ++ d4 21304 ++ d1 0
    (EventRec.bytes { code := 0x0501, flags := 0, seq := 0x1A2B, time := 0xD693A47B, node := 0x12, data := data }).map BitVec.toNat =
    [0x01, 0x05, 0x00, 0x00, 0x2B, 0x1A, 0x00, 0x00, 0x7B, 0xA4, 0x93, 0xD6, 0x00, 0x00, 0x12, 0x00, 0x80, 0x67, 0x45, 0x23, 0x61, 0x00, 0x00, 0x00,
      0x1B, 0x0C, 0x38, 0x53, 0x00, 0x00, 0x00, 0x00] := by decide +kernel

/-- 14, Table 14.4 and the lines after it: spares for the failed wires of CP4 B9 RX. -/
theorem test_spare_map : chooseWidth [7, 19, 40] [0, 1, 2, 3] = (0, [(0, 7), (1, 19), (2, 40)]) ∧
    chooseWidth [7, 19, 40, 50] [0, 1, 2, 3] = (0, [(0, 7), (1, 19), (2, 40), (3, 50)]) ∧
    chooseWidth [3, 7, 19, 40, 50] [0, 1, 2, 3] = (2, [(0, 40), (1, 50)]) ∧
    chooseWidth [3, 7, 19, 40, 50, 60] [0, 1, 2, 3] = (1, [(0, 3), (1, 7), (2, 19)]) := by decide

/-- 12, after R313: the node and the local address of a global address. -/
theorem test_global_address : on.decodeAddr 0x4013000002000040 = .remote 0x13 0x2000040 := by decide

/-- 01, after R26: an offset of a span that names no register, and addresses outside every span. -/
theorem test_block_spans : (blockAt 0x700000500000).isSome = true ∧ blockAt 0x700001040000 = none ∧ blockAt 0x70000C000000 = none := by decide +kernel

/-- What a command puts out. -/
def outOf (c : Instr) (m : Mod) : List Out :=
  match exec c (st m) with
  | .next t => t.m.out
  | _ => []

/-- 10, after Table 10.2: REG_RES6 with a sum of 204, and with OCHRE raised to 13. -/
theorem test_reservation : outOf (.reservationWrite (.fabMgmt) 6 0x080C083080) on = [.done .ok []] ∧
    outOf (.reservationWrite (.fabMgmt) 6 0x080D083080) on = [.done .access []] := by decide +kernel

/-- 10, Table 10.3: capacity and scale of LP6 at temperature step 1, and its reservations and FABRIC target at the scales of steps 1 and 2. -/
theorem test_hot_package :
    let m := fun (step eff scale : Nat) =>
      (regs on [(F.MC_CTL_ENABLE, 1, 6, 0), (F.MC_THERM_STEP, step, 6, 0), (F.REG_EFF_EFF, eff, 0, 6), (F.REG_EFF_SCALE, scale, 0, 6),
        (F.REG_STATUS_OVS_MASK, 64, 0, 0), (F.REG_STATUS_OVERSUB, 1, 0, 0)]).setReg (F.REG_RES_STREAM.addr 0 6) 0x080C083080
    (m 1 256 0x10000).capOf 6 = (128, 0x8539, true) ∧ (m 2 128 0x8539).capOf 6 = (64, 0x429C, true) ∧
    (List.range 5).map ((m 1 128 0x8539).effRes 6) = [66, 24, 4, 6, 0] ∧ (List.range 5).map ((m 2 64 0x429C).effRes 6) = [33, 12, 2, 3, 0] ∧
    (m 1 128 0x8539).effTarget 6 1 = 16 ∧ (m 2 64 0x429C).effTarget 6 1 = 31 := by decide +kernel

/-- 17, Table 17.5: the loop's level after 1, 2 and 3 ms, and after 44 to 46 ms. -/
theorem test_cap_loop : capLevel 3280 3000 140 0 = 2 ∧ capLevel 3002 3000 140 2 = 3 ∧ capLevel 2863 3000 140 3 = 3 ∧ capLevel 2450 3000 140 3 = 2 ∧
    capLevel 2450 3000 140 2 = 1 ∧ capLevel 2450 3000 140 1 = 0 := by decide

/-- 15, Table 15.10: CAPABILITY is 0xD0, PMBUS_REVISION 0x33. -/
theorem test_smbus_capability : (outOf .capability on).map (fun o => match o with | .smbus d _ => d.map BitVec.toNat | _ => []) = [[0xD0]] ∧
    (outOf .pmbusRevision on).map (fun o => match o with | .smbus d _ => d.map BitVec.toNat | _ => []) = [[0x33]] := by decide +kernel

/-- 08, the example after R244: a protected range in word 1 of banks 0-63 of ECD3 keeps banks 0-127 from TEST, not bank 64-127; a preserving march
is accepted. -/
theorem test_protected_banks : let m := regs on [(F.PROT_VALID, 1, 3, 0), (F.PROT_START, 1024, 3, 0), (F.PROT_LAST, 1087, 3, 0)]
    outOf (.bankCmdTest (.fabMgmt) 3 0 127) m = [.done .access []] ∧ outOf (.bankCmdTest (.fabMgmt) 3 64 127) m = [.done .ok []] ∧
    outOf (.marchPreserving (.fabMgmt) 3 0 63 []) m = [.done .ok []] := by decide +kernel

/-! ## Commands that are not well formed -/

theorem test_wf_refuses_width : Instr.wf (.registerWrite (.rt 0) 0 3 0) = false ∧ Instr.wf (.aliasWrite (.rt 0) 0 16 0) = false ∧
    Instr.wf (.coreLoad (.ac 0) 0 0) = false ∧ Instr.wf (.coreStore (.ac 0) 0 [1, 2, 3]) = false ∧ Instr.wf (.coreAmo (.ac 0) 0 5 .add 1) = false ∧
    Instr.wf (.coreInstructionFetch (.ac 0) 0 3) = false := by decide

theorem test_wf_refuses_access : Instr.wf (.yPortAccess (.rt 0) 3 0 (.read 0) none) = false ∧
    Instr.wf (.yPortAccess (.rt 0) 3 0 (.write (List.replicate 65 none)) none) = false ∧ Instr.wf (.ncRd (.op 0 0 0) (.rt 0) 0 65) = false ∧
    Instr.wf (.ncWr (.op 0 0 0) (.rt 0) 0 [] none) = false ∧ Instr.wf (.lpddrCommandSlot 0 0 [lpReq 0 (.read 65)] []) = false ∧
    Instr.wf (.ochreRequest (.op 0 0 0) 0 4097) = false ∧ Instr.wf (.flashWrite (.rt 0) 0 [1]) = false := by decide

theorem test_wf_refuses_line : Instr.wf (.data none 0 [1] .e false) = false ∧ Instr.wf (.recallData (.agent 0) 0 [] false) = false ∧
    Instr.wf (.wbData (.agent 0) 0 [1] false) = false := by decide

theorem test_wf_refuses_packet : Instr.wf (.rd64 0 { packet 0 1 [] [] with head := [] }) = false ∧
    Instr.wf (.wr64 0 { packet 0 3 [] b64 with len := 0 }) = false := by decide +kernel

theorem test_wf_refuses_frame : Instr.wf (.bulkSeek { mac := 0, auth := true, bootId := 0, seq := 0, arg := 0, payload := [], tag := [1] }) = false := by decide

theorem test_wf_refuses_lists : Instr.wf (.bootComplete [dieRun 1, dieRun 1]) = false ∧ Instr.wf (.sensorSample [⟨0, false⟩]) = false ∧
    Instr.wf (.lpddrTrainingStepDone 0 0 [1, 2, 3]) = false := by decide

/-- Well-formed commands of these kinds exist. -/
theorem test_wf_accepts : Instr.wf (.registerWrite (.rt 0) 0 8 0) = true ∧ Instr.wf (.coreStore (.ac 0) 0 [1, 2]) = true ∧
    Instr.wf (.yPortAccess (.rt 0) 3 0 (.read 64) none) = true ∧ Instr.wf (.wr64 0 (packet 0 3 [] b64)) = true ∧
    Instr.wf (.bootComplete [dieRun 1, dieRun 2]) = true := by decide +kernel

end Sys2Proof.Tests
end

/-! # Proofs: one step, and the canonical form that it keeps (00 R14; 01 Table 01.6) -/

namespace Sys2Proof.Machine

open Sys2Proof

/-! ## What a step runs -/

theorem step_of_pending_nil {s : State} (h : s.pending = []) : step s = .next s := by
  simp only [step, h]

theorem step_of_pending_cons {s : State} {c : Instr} {rest : List Instr} (h : s.pending = c :: rest) :
    step s = exec c { s with pending := rest } := by
  simp only [step, h]

/-- No command faults or refuses (00 R14). -/
theorem exec_answers_next (c : Instr) (s : State) : ∃ t, exec c s = .next t := by
  obtain ⟨m, hm⟩ := exec_runs c s
  exact ⟨_, hm⟩

theorem step_goes (s : State) : s.Goes := by
  unfold State.Goes
  cases hp : s.pending with
  | nil => exact ⟨s, step_of_pending_nil hp⟩
  | cons c rest =>
    rw [step_of_pending_cons hp]
    exact exec_answers_next c _

/-- Every command ends with settled tables, so the state before need not be in canonical form. -/
theorem exec_safe {c : Instr} {s t : State} (h : exec c s = .next t) : t.Safe := by
  obtain ⟨m, hm⟩ := exec_runs c s
  rw [h, Host.Outcome.next.injEq] at hm
  subst hm
  exact settle_canonical m

/-- Settles O2: a step that idles leaves the state, and one that runs a command leaves settled tables. -/
theorem stepKeepsSafe : Obligations.StepKeepsSafe := by
  unfold Obligations.StepKeepsSafe
  intro s t hs h
  cases hp : s.pending with
  | nil =>
    rw [step_of_pending_nil hp, Host.Outcome.next.injEq] at h
    exact h ▸ hs
  | cons c rest =>
    rw [step_of_pending_cons hp] at h
    exact exec_safe h

/-- Settles O1: the front of the queue runs, every arm of `exec` answers a next state, and an empty queue idles. -/
theorem stepRunsFrontCommand : Obligations.StepRunsFrontCommand := by
  unfold Obligations.StepRunsFrontCommand
  exact ⟨fun _ _ => step_of_pending_cons rfl, ⟨exec_answers_next, step_goes⟩, fun _ => step_of_pending_nil⟩

/-! ## A repair lock releases the fragments held for it (03 R66)

O48 says of a REPAIR_LOCK that only ECD_REPAIR_CTL may change, whatever operations the contexts hold. The counterexample is an operation
that the same row sets going: a FILL of one element, dispatched while its die has no repair mapping. -/

/-- A FILL of one FP32 element of the hub buffer with 0, staged: its header, its tensor's address, and the tensor's descriptor. -/
def oneFill : ROp :=
  { seq := 0, addr := 0x400000000000, ring := true, st := .staged,
    desc := [0x91, 0, 0, 1] ++ toBytes 4 0 ++ toBytes 8 0x400000004000 ++ List.replicate 112 0,
    tensors := [(0, toBytes 8 0x400001000000 ++ toBytes 8 0 ++ toBytes 8 (2 ^ 47) ++ List.replicate 40 0)] }

/-- A module that runs, its registers at their reset values (no die has its repair map locked), the FILL staged in SQ0. -/
def fillStaged : State :=
  ⟨[], { pwrgd := true, state := .active, active := 0xFFFF, ctxs := { ops := [oneFill] } :: List.replicate 3 {} }⟩

/-- The state that the dispatch of the FILL leaves: its fragment is held at ECD0. -/
def fillHeld : State := { fillStaged with m := (fillStaged.m.clearOut.opRow 0 0x91).conclude.settle }

/-- The state that the lock of ECD0 leaves. -/
def fillReleased : State :=
  { fillHeld with m := (fillHeld.m.clearOut.byDie .fabMgmt (F.ECD_REPAIR_CTL_LOCK.addr 0 0) 0 false
      (fun m => (m.repairLock 0, .ok))).conclude.settle }

theorem exec_fill_fillStaged : exec (.fill 0) fillStaged = .next fillHeld := rfl

theorem exec_repairLock_fillHeld : exec (.repairLock .fabMgmt 0) fillHeld = .next fillReleased := rfl

/-- The FILL is one that the sequencer stages and dispatches (05 Tables 05.2, 05.7; 07 Table 07.1). -/
theorem oneFill_legal : headerOk oneFill.desc = true ∧ fillStaged.m.stagingCheck 0 oneFill = .ok ∧
    fillStaged.m.canDispatch 0 oneFill = true := by decide +kernel

/-- The premises that O48 asks of a state before REPAIR_LOCK of ECD0. -/
theorem fillHeld_takes_lock : fillHeld.m.quiet = true ∧ fillHeld.m.state ≠ .parked ∧ fillHeld.m.portSlate 0 = false := by
  decide +kernel

/-- While ECD0 is not locked nothing of the FILL is computed. -/
theorem fillHeld_not_computed : (fillHeld.m.ctx 0).ops.map ROp.computed = [false] := by decide +kernel

/-- Once ECD0 is locked the FILL computes in the same command. -/
theorem fillReleased_computed : (fillReleased.m.ctx 0).ops.map ROp.computed = [true] := by decide +kernel

/-- A frame of registers leaves the contexts as they are. -/
theorem onlyRegs_ctx {as : List Nat} {m n : Mod} (h : OnlyRegs as m n) (q : Nat) : n.ctx q = m.ctx q := by
  obtain ⟨hrest, -, -⟩ := h
  unfold SameRest at hrest
  rw [hrest]
  rfl

/-- Refutes O48: its clause for REPAIR_LOCK lets nothing but ECD_REPAIR_CTL change, but the lock of ECD0 releases the fragment of a
dispatched FILL that was held for it (03 R66), and the operation in SQ0 computes. -/
theorem not_registersWritten : ¬ Obligations.RegistersWritten := by
  unfold Obligations.RegistersWritten
  rintro ⟨-, hub⟩
  obtain ⟨hquiet, hstate, hslate⟩ := fillHeld_takes_lock
  obtain ⟨-, -, -, hlock, -⟩ := hub .fabMgmt 0 0 0 fillHeld hquiet rfl
  obtain ⟨t, ht, -, hframe, -⟩ := hlock hstate hslate
  rw [exec_repairLock_fillHeld, Host.Outcome.next.injEq] at ht
  subst ht
  have hsame : (fillReleased.m.ctx 0).ops.map ROp.computed = (fillHeld.m.ctx 0).ops.map ROp.computed := by
    rw [onlyRegs_ctx hframe]
  rw [fillReleased_computed, fillHeld_not_computed] at hsame
  exact absurd hsame (by decide)

end Sys2Proof.Machine

/-! # Proofs: a context without an active die is disabled (01 R28) -/

namespace Sys2Proof.Machine

open Sys2Proof

/-! ## What R28 disables -/

/-- A partition without an active die has no logical die. -/
theorem logical_eq_nil {m : Mod} {q : Nat} (h : ∀ d ∈ m.partition q, bit m.active d = false) : m.logical q = [] := by
  unfold Mod.logical
  rw [List.filter_eq_nil_iff]
  intro d _ hd
  obtain ⟨hmem, hact⟩ := Bool.and_eq_true_iff.mp hd
  rw [h d (List.contains_iff_mem.mp hmem)] at hact
  exact Bool.false_ne_true hact

theorem ctxDisabled_of_inactive {m : Mod} {q : Nat} (h : ∀ d ∈ m.partition q, bit m.active d = false) : m.ctxDisabled q = true := by
  simp [Mod.ctxDisabled, logical_eq_nil h]

/-- SQ_STATUS.STATE of a disabled context (05 Table 05.15). -/
theorem ctxState_of_disabled {m : Mod} {q : Nat} (h : m.ctxDisabled q = true) (ha : (m.ctx q).aborting = false)
    (ht : (m.ctx q).trapped = false) : m.ctxState q = 0 := by
  simp [Mod.ctxState, h, ha, ht]

theorem ringTail_of_disabled {m : Mod} {q : Nat} (v : Nat) (h : m.ctxDisabled q = true) : m.ringTail q v = (m, .access) := by
  simp [Mod.ringTail, h]

theorem fetchStart_of_disabled {m : Mod} {q : Nat} (h : m.ctxDisabled q = true) : m.fetchStart q = m := by
  simp [Mod.fetchStart, Mod.fetchOk, h]

/-! ## A store completes -/

theorem regsAndEvents_clearOut (as : List Nat) (m : Mod) : RegsAndEvents as m m.clearOut := ⟨rfl, fun _ _ => rfl, fun _ _ => rfl⟩

theorem byAgent_of_regAgent {m : Mod} {ag : Agent} {addr : Nat} {f : Mod → Mod × Status} (h : regAgent ag = true) :
    m.byAgent ag addr f = (f m).1.storeDone ag addr (f m).2 := by
  simp [Mod.byAgent, h]

theorem done_mem_storeDone (m : Mod) (ag : Agent) (addr : Nat) (st : Status) : Out.done st [] ∈ (m.storeDone ag addr st).out := by
  simp [Mod.storeDone, Mod.done, Mod.emit]

/-- The completion of a store changes what a core's event record changes, at most. -/
theorem regsAndEvents_storeDone {as : List Nat} {m n : Mod} (h : RegsAndEvents as m n) (ag : Agent) (addr : Nat) (st : Status) :
    RegsAndEvents as m (n.storeDone ag addr st) := by
  unfold Mod.storeDone
  refine regsAndEvents_emit ?_ _
  split
  · exact regsAndEvents_raise h _ _
  · exact h

/-! ## Registers that event records leave alone -/

theorem reg_regsAndEvents {m n : Mod} (h : RegsAndEvents [] m n) {a : Nat} (ha : a ∉ eventRegs) : n.reg a = m.reg a := by
  obtain ⟨-, -, hregs⟩ := h
  exact hregs a ha

theorem ringTailAddr_not_event (q : Fin 4) : F.SQ_RING_TAIL_TAIL.addr q 0 ∉ eventRegs := by
  revert q
  decide

/-- Settles O6: the partition has no logical die, so the ring pointer's rule and the fetch unit both refuse. -/
theorem disabledContexts : Obligations.DisabledContexts := by
  unfold Obligations.DisabledContexts
  intro ag q data s hag hinactive
  have hdis : s.m.clearOut.ctxDisabled q = true := ctxDisabled_of_inactive hinactive
  refine ⟨ctxState_of_disabled (ctxDisabled_of_inactive hinactive), answers_run (exec_ringTailWrite ag q data s) ?_,
    answers_run (exec_fetchStart q s) ?_⟩
  · rw [byAgent_of_regAgent hag, ringTail_of_disabled _ hdis]
    have hframe : RegsAndEvents [] s.m (s.m.clearOut.storeDone ag (F.SQ_RING_TAIL_TAIL.addr q 0) .access).settle :=
      regsAndEvents_settle (regsAndEvents_storeDone (regsAndEvents_clearOut [] s.m) _ _ _)
    exact ⟨done_mem_storeDone _ _ _ _, reg_regsAndEvents hframe (ringTailAddr_not_event q), hframe⟩
  · rw [fetchStart_of_disabled hdis]
    exact ⟨rfl, onlyRegs_settle rfl rfl (fun _ _ => rfl)⟩

end Sys2Proof.Machine

/-! # Proofs: the Y port of an on-chip array (08 R228-R236, Table 08.3) -/

namespace Sys2Proof.Machine

open Sys2Proof

/-! ## Elements of lists -/

theorem nth_of_forall {α : Type} {P : α → Prop} {l : List α} {d : α} (hl : ∀ x ∈ l, P x) (hd : P d) (i : Nat) : P (nth l i d) := by
  induction l generalizing i with
  | nil => exact hd
  | cons x xs ih =>
    cases i with
    | zero => exact hl x (by simp)
    | succ i => exact ih (fun y hy => hl y (by simp [hy])) i

theorem modNth_congr {α : Type} {l : List α} {i : Nat} {f g : α → α} (d : α) (h : f (nth l i d) = g (nth l i d)) :
    modNth l i f = modNth l i g := by
  induction l generalizing i with
  | nil => rfl
  | cons x xs ih =>
    cases i with
    | zero => exact congrArg (· :: xs) h
    | succ i => exact congrArg (x :: ·) (ih h)

theorem modNth_id {α : Type} (l : List α) (i : Nat) : modNth l i id = l := by
  induction l generalizing i with
  | nil => rfl
  | cons x xs ih =>
    cases i with
    | zero => rfl
    | succ i => exact congrArg (x :: ·) (ih i)

theorem padTo_of_length {n : Nat} {bs : List Byte} (h : bs.length = n) : padTo n bs = bs := by
  simp [padTo, h, List.take_of_length_le (Nat.le_of_eq h)]

/-! ## Bytes written -/

theorem byte_write1_self (x : Mem) (a : Nat) (v : Byte) : (x.write1 a v).byte a = v := by
  show (Sparse.get? (Sparse.set x.cells a v) a).getD _ = v
  rw [get?_set_self, Option.getD_some]

/-- Bytes outside those written keep their values. -/
theorem byte_writeAt_of_outside (x : Mem) (a : Nat) (d : List (Option Byte)) {y : Nat} (h : y < a ∨ a + d.length ≤ y) :
    (x.writeAt a d).byte y = x.byte y := by
  induction d generalizing x a with
  | nil => rfl
  | cons v d ih =>
    rw [List.length_cons] at h
    cases v with
    | none => exact ih x (a + 1) (by omega)
    | some b => exact (ih _ (a + 1) (by omega)).trans (byte_write1_ne x a y b (by omega))

/-- A byte among those written has its new value, or its old one where none is given. -/
theorem byte_writeAt_of_lt (x : Mem) (a : Nat) (d : List (Option Byte)) {i : Nat} (h : i < d.length) :
    (x.writeAt a d).byte (a + i) = (nth d i none).getD (x.byte (a + i)) := by
  induction d generalizing x a i with
  | nil => simp at h
  | cons v d ih =>
    cases i with
    | zero =>
      cases v with
      | none => exact byte_writeAt_of_outside x (a + 1) d (.inl (by omega))
      | some b => exact (byte_writeAt_of_outside _ (a + 1) d (.inl (by omega))).trans (byte_write1_self x a b)
    | succ i =>
      have hi : i < d.length := Nat.lt_of_succ_lt_succ h
      rw [← Nat.succ_add_eq_add_succ a i]
      cases v with
      | none => exact ih x (a + 1) hi
      | some b =>
        refine (ih (x.write1 a b) (a + 1) hi).trans ?_
        rw [byte_write1_ne x a (a.succ + i) b (by omega)]
        rfl

/-! ## One block -/

/-- Bytes within one block are one piece. -/
theorem blocksOf_within {a n : Nat} (hn : 1 ≤ n) (hb : a % 64 + n ≤ 64) : blocksOf a n = [(a, n)] := by
  have hlast : (a + n - 1) / 64 - a / 64 + 1 = 1 := by omega
  have hstart : max a (a / 64 * 64) = a := by omega
  have hlen : min (a + n) ((a / 64 + 1) * 64) - a = n := by omega
  simp [blocksOf, Nat.ne_of_gt hn, hlast, hstart, hlen]

/-- The word that a block is, by its number in its bank, starts at the block (08 R225). -/
theorem wordOff_of_block (arr off : Nat) : wordOff arr (bankOf arr off) (wordOf arr off) = off / 64 * 64 := by
  unfold wordOff bankOf wordOf
  rw [Nat.div_add_mod']

theorem bankOf_blockStart (arr off : Nat) : bankOf arr (off / 64 * 64) = bankOf arr off := by
  unfold bankOf
  rw [Nat.mul_div_cancel _ (by decide)]

/-! ## The state that an access meets (08 Table 08.3) -/

theorem meetBank_of_not_ret {m : Mod} {arr b : Nat} (h : m.bankState arr b ≠ 1) : m.meetBank arr b = (m, m.bankState arr b) := by
  simp [Mod.meetBank, h]

theorem meetBank_of_ret {m : Mod} {arr b : Nat} (h : m.bankState arr b = 1) (hw : (m.sramOf arr).wakes = []) :
    m.meetBank arr b = (m.setBankState arr b 0, 0) := by
  have hw' : (nth m.sram arr {}).wakes = [] := hw
  simp [Mod.meetBank, h, hw']

theorem bankState_setBankState (m : Mod) (arr b v : Nat) : (m.setBankState arr b v).bankState arr b = v % 4 := by
  have hfit : F.BANK_STATE_ST.lo + b % 32 * F.BANK_STATE_ST.bs + F.BANK_STATE_ST.w ≤ 64 := by
    show 0 + b % 32 * 2 + 2 ≤ 64
    omega
  exact fld_setFld_self m F.BANK_STATE_ST v arr (b / 32) (b % 32) hfit

/-! ## An access of one block, by the state it meets (08 R231, R232, R236)

`k` is the module after its bank was met. -/

section
variable {m k : Mod} {y : Option Agent} {arr off n : Nat}

theorem sramAccess_read_of_block (hn : 1 ≤ n) (hb : off % 64 + n ≤ 64) :
    m.sramAccess y arr off (.read n) = m.sramReadPiece y arr off n := by
  simp [Mod.sramAccess, blocksOf_within hn hb, firstBad]

theorem sramAccess_write_of_block {d : List (Option Byte)} (hn : 1 ≤ d.length) (hb : off % 64 + d.length ≤ 64) :
    m.sramAccess y arr off (.write d) = ((m.sramWritePiece arr off d).1, (m.sramWritePiece arr off d).2, []) := by
  simp [Mod.sramAccess, blocksOf_within hn hb, firstBad]

theorem sramReadPiece_of_on (hm : m.meetBank arr (bankOf arr off) = (k, 0))
    (hgood : ∀ i < n, ¬k.mem.parityBad (sramBase arr + off + i) = true) :
    m.sramReadPiece y arr off n = (k, .ok, k.mem.readAt (sramBase arr + off) n) := by
  have hnone : (List.range n).find? (fun i => k.mem.parityBad (sramBase arr + off + i)) = none :=
    List.find?_eq_none.mpr (fun i hi => hgood i (List.mem_range.mp hi))
  simp [Mod.sramReadPiece, hm, hnone]

theorem sramReadPiece_of_bad {i : Nat} (hm : m.meetBank arr (bankOf arr off) = (k, 0)) (hi : i < n)
    (hbad : k.mem.parityBad (sramBase arr + off + i) = true) (hfirst : ∀ j < i, ¬k.mem.parityBad (sramBase arr + off + j) = true) :
    m.sramReadPiece y arr off n = (k.parityError arr (off + i) y, .dataLost, k.mem.readAt (sramBase arr + off) n) := by
  have hsome : (List.range n).find? (fun i => k.mem.parityBad (sramBase arr + off + i)) = some i :=
    List.find?_range_eq_some.mpr ⟨hbad, List.mem_range.mpr hi, fun j hj => by simpa using hfirst j hj⟩
  simp [Mod.sramReadPiece, hm, hsome]

theorem sramReadPiece_of_off (hm : m.meetBank arr (bankOf arr off) = (k, 2)) :
    m.sramReadPiece y arr off n = ((k.drawBytes n).1, .bankOff, (k.drawBytes n).2) := by
  simp [Mod.sramReadPiece, hm]

theorem sramReadPiece_of_test (hm : m.meetBank arr (bankOf arr off) = (k, 3)) :
    m.sramReadPiece y arr off n = ((k.drawBytes n).1, .bankUnderTest, (k.drawBytes n).2) := by
  simp [Mod.sramReadPiece, hm]

theorem sramWritePiece_of_on {d : List (Option Byte)} (hm : m.meetBank arr (bankOf arr off) = (k, 0)) :
    m.sramWritePiece arr off d = ({ k with mem := k.mem.writeAt (sramBase arr + off) d }, .ok) := by
  simp [Mod.sramWritePiece, hm]

theorem sramWritePiece_of_off {d : List (Option Byte)} (hm : m.meetBank arr (bankOf arr off) = (k, 2)) :
    m.sramWritePiece arr off d = (k, .bankOff) := by
  simp [Mod.sramWritePiece, hm]

theorem sramWritePiece_of_test {d : List (Option Byte)} (hm : m.meetBank arr (bankOf arr off) = (k, 3)) :
    m.sramWritePiece arr off d = (k, .bankUnderTest) := by
  simp [Mod.sramWritePiece, hm]

/-- With no Y access waiting, an access of the S port discards none. -/
theorem sAccess_of_none_waiting {op : MemOp} (h : (m.sramOf arr).ywait = []) : m.sAccess arr off op = m.sramAccess none arr off op := by
  simp [Mod.sAccess, h]

end

/-! ## Frames of the on-chip memory -/

/-- `n` differs from `m` at most in what accesses of on-chip memory and their event records change, and a drain of the proxies goes on
as it did. -/
def SramFrame (m n : Mod) : Prop :=
  n = { m with out := n.out, regs := n.regs, mem := n.mem, fresh := n.fresh, evSeq := n.evSeq, alert := n.alert, alertPin := n.alertPin,
               araRead := n.araRead, evStage := n.evStage, sram := n.sram } ∧
  n.fld F.DIR_STATUS_DRAINING = m.fld F.DIR_STATUS_DRAINING

/-- An access of on-chip memory leaves a quiet module quiet. -/
theorem quiet_of_sramFrame {m n : Mod} (h : SramFrame m n) (hq : m.quiet = true) : n.quiet = true := by
  obtain ⟨hn, hd⟩ := h
  rw [← hq]
  refine quiet_congr ?_ ?_ ?_ (memQuiet_congr ?_ ?_ ?_ ?_ ?_ hd) (svcReady_congr ?_ ?_ ?_) <;> rw [hn]

/-- The register block of the hub buffer lies below the directory's, those of the dies' arrays above the hub's (01 Table 01.7). -/
theorem sramBlock_base (arr : Fin 17) : Block.base .sram arr = 0x700002000000 ∨ 0x710000002000 ≤ Block.base .sram arr := by
  show (if arr.val = 16 then _ else _) = _ ∨ _ ≤ (if arr.val = 16 then _ else _)
  split
  · exact .inl rfl
  · exact .inr (Nat.le_add_right _ _)

theorem sramReg_ne_draining (f : Fld) (hb : f.blk = .sram) (arr : Fin 17) (k : Nat) (hf : f.off + k * f.stride < 0x1000) :
    F.DIR_STATUS_DRAINING.addr 0 0 ≠ f.addr arr k := by
  have hbase := sramBlock_base arr
  have hdir : F.DIR_STATUS_DRAINING.addr 0 0 = 0x700009000008 := rfl
  have haddr : f.addr arr k = Block.base .sram arr + f.off + k * f.stride := by rw [Fld.addr, hb]
  omega

theorem draining_setFld_sram (m : Mod) (f : Fld) (v : Nat) (hb : f.blk = .sram) (arr : Fin 17) (k j : Nat) (hf : f.off + k * f.stride < 0x1000) :
    (m.setFld f v arr k j).fld F.DIR_STATUS_DRAINING = m.fld F.DIR_STATUS_DRAINING :=
  fld_setFld_addr m f F.DIR_STATUS_DRAINING v arr k j 0 0 0 (sramReg_ne_draining f hb arr k hf)

theorem bankStateAddr_inBlock (arr : Fin 17) (off : Nat) :
    F.BANK_STATE_ST.off + bankOf arr off / 32 * F.BANK_STATE_ST.stride < 0x1000 := by
  have hlt : bankOf arr off < 1024 := by
    unfold bankOf bankCount
    split <;> omega
  show 0x100 + bankOf arr off / 32 * 8 < 0x1000
  omega

/-! ## Fields of one block -/

/-- Two fields of single registers of one block that share no bit. -/
abbrev Fld.Apart (f g : Fld) : Prop :=
  g.blk = f.blk ∧ f.stride = 0 ∧ g.stride = 0 ∧
  (g.off ≠ f.off ∨ g.off = f.off ∧ (g.lo + g.w ≤ f.lo ∨ f.lo + f.w ≤ g.lo) ∧ g.lo + g.w ≤ 64)

theorem fld_setFld_apart (m : Mod) {f g : Fld} (v i : Nat) (h : f.Apart g) : (m.setFld f v i).fld g i = m.fld g i := by
  obtain ⟨hb, hf, hg, hoff | ⟨hoff, hbits, h64⟩⟩ := h
  · refine fld_setFld_addr m f g v i 0 0 i 0 0 ?_
    simp only [Fld.addr, hb, hf, hg]
    omega
  · refine fld_setFld_bits m f g v i 0 0 i 0 0 ?_ (by simpa using hbits) (by simpa using h64)
    simp only [Fld.addr, hb, hf, hg, hoff]

/-- A saturating counter counts one. -/
theorem fld_satFld_self (m : Mod) (f : Fld) (i : Nat) (h : f.lo + f.w ≤ 64) : (m.satFld f 1 i).fld f i = min (m.fld f i + 1) (2 ^ f.w - 1) := by
  unfold Mod.satFld satAdd
  rw [fld_setFld_self _ _ _ _ _ _ (by simpa using h)]
  exact Nat.mod_eq_of_lt (Nat.lt_of_le_of_lt (Nat.min_le_right _ _) (Nat.sub_lt (Nat.two_pow_pos _) Nat.one_pos))

/-! ## A parity error of a read (08 R232) -/

/-- The registers of an array below its bank states are not those that event records change. -/
theorem sramReg_not_event (f : Fld) (hb : f.blk = .sram) (hs : f.stride = 0) (hf : f.off < 0x100) (arr : Fin 17) : f.addr arr 0 ∉ eventRegs := by
  have hbase := sramBlock_base arr
  have haddr : f.addr arr 0 = Block.base .sram arr + f.off := by rw [Fld.addr, hb, hs]; rfl
  have hhub : ∀ a ∈ eventRegs, a < 0x700001000000 ∨ (0x700002000100 ≤ a ∧ a < 0x700002000200) := by decide
  intro hmem
  have := hhub _ hmem
  omega

theorem fld_regsAndEvents {m n : Mod} (h : RegsAndEvents [] m n) (f : Fld) (i k j : Nat) (hf : f.addr i k ∉ eventRegs) :
    n.fld f i k j = m.fld f i k j := by
  simp only [Mod.fld, reg_regsAndEvents h hf]

/-- The record that is raised comes last. -/
theorem out_raise (m : Mod) (code : Nat) (data : List Byte) : ∃ r, (m.raise code data).out = m.out ++ [.event r] :=
  ⟨_, out_deliver _ _⟩

/-- The array's registers after a parity error was counted and logged, before its record is raised. -/
def parityLogged (m : Mod) (arr off : Nat) : Mod :=
  (((m.satFld F.ERR_COUNT_PARITY 1 arr).setFld F.PARITY_LOG_OFFSET off arr).setFld F.PARITY_LOG_PORT 1 arr).setFld F.PARITY_LOG_VALID 1 arr

theorem parityError_y (m : Mod) (arr off : Nat) (ag : Agent) :
    m.parityError arr off (some ag) = (parityLogged m arr off).raise 0x0401 (d8 (sramBase arr + off) ++ d1 (agentCode ag)) := rfl

/-- What a parity error counts and logs. -/
theorem fld_parityLogged (m : Mod) (arr off : Nat) :
    (parityLogged m arr off).fld F.ERR_COUNT_PARITY arr = min (m.fld F.ERR_COUNT_PARITY arr + 1) 0xFFFFFFFF ∧
    (parityLogged m arr off).fld F.PARITY_LOG_OFFSET arr = off % 2 ^ 31 ∧ (parityLogged m arr off).fld F.PARITY_LOG_PORT arr = 1 ∧
    (parityLogged m arr off).fld F.PARITY_LOG_VALID arr = 1 := by
  refine ⟨?_, ?_, ?_, ?_⟩ <;> unfold parityLogged
  · rw [fld_setFld_apart _ _ _ (by decide), fld_setFld_apart _ _ _ (by decide), fld_setFld_apart _ _ _ (by decide)]
    exact fld_satFld_self m F.ERR_COUNT_PARITY arr (by decide)
  · rw [fld_setFld_apart _ _ _ (by decide), fld_setFld_apart _ _ _ (by decide), fld_setFld_self _ _ _ _ _ _ (by decide)]
    rfl
  · rw [fld_setFld_apart _ _ _ (by decide), fld_setFld_self _ _ _ _ _ _ (by decide)]
    rfl
  · rw [fld_setFld_self _ _ _ _ _ _ (by decide)]
    rfl

/-! ## A Y access that no S access meets -/

/-- An access of `n` bytes within one block of an array, at which none waits, of a module where nothing waits. -/
structure YBlock (m : Mod) (arr : Fin 17) (off n : Nat) : Prop where
  quiet : m.quiet = true
  pos : 1 ≤ n
  block : off % 64 + n ≤ 64
  inside : off + n ≤ sramSize arr
  alone : (m.sramOf arr).ywait = []

theorem YBlock.inRange {m : Mod} {arr : Fin 17} {off n : Nat} (h : YBlock m arr off n) : ¬(sramSize arr < off + n ∨ n = 0) := by
  have := h.pos
  have := h.inside
  omega

theorem YBlock.clearOut {m : Mod} {arr : Fin 17} {off n : Nat} (h : YBlock m arr off n) : YBlock m.clearOut arr off n :=
  ⟨h.quiet, h.pos, h.block, h.inside, h.alone⟩

/-- The agent reaches the array through a die port in Slate (01 R31). -/
abbrev SlateFenced (m : Mod) (ag : Agent) (arr : Fin 17) : Prop := arr.val < 16 ∧ m.portSlate arr = true ∧ ownDie ag arr = false

section
variable {m : Mod} {ag : Agent} {arr : Fin 17} {off n : Nat} {op : MemOp}

theorem yPortAccess_of_fenced {sp : Option SPort} (h : YBlock m arr off n) (hop : opLen op = n) (hf : SlateFenced m ag arr) :
    m.yPortAccess ag arr off op sp = m.done .fenced := by
  obtain ⟨hdie, hslate, hown⟩ := hf
  simp [Mod.yPortAccess, hop, h.inRange, hdie, hslate, hown]

theorem yPortAccess_of_alone (h : YBlock m arr off n) (hop : opLen op = n) (hf : ¬SlateFenced m ag arr) :
    m.yPortAccess ag arr off op none =
      (m.sramAccess (some ag) arr off op).1.done (m.sramAccess (some ag) arr off op).2.1 (m.sramAccess (some ag) arr off op).2.2 := by
  have hport : (decide (arr.val < 16) && m.portSlate arr && !ownDie ag arr) = false := by
    simpa [SlateFenced] using hf
  simp [Mod.yPortAccess, hop, h.inRange, hport, Mod.yBehind, h.alone]

end

/-- A Y access answers its effect, settled, when that effect moves nothing else. -/
theorem answers_yPortAccess {s : State} {ag : Agent} {arr : Fin 17} {off : Nat} {op : MemOp} {sp : Option SPort} {k : Mod} {P : State → Prop}
    (hq : s.m.quiet = true) (hk : s.m.clearOut.yPortAccess ag arr off op sp = k) (hframe : SramFrame s.m k)
    (hout : k.out.all Out.stays = true) (hp : P { s with m := k.settle }) : Answers (.yPortAccess ag arr off op sp) s P := by
  subst hk
  exact answers_runF (exec_yPortAccess ag arr off op sp s) (quiet_of_sramFrame hframe hq) hout hp

section
variable {s : State} {ag : Agent} {arr : Fin 17} {off n : Nat} {d : List (Option Byte)}

theorem answers_yAccess_fenced {op : MemOp} (h : YBlock s.m arr off n) (hop : opLen op = n) (hf : SlateFenced s.m ag arr) :
    Answers (.yPortAccess ag arr off op none) s (fun t => t.m.out = [.done .fenced []] ∧ OnlyRegs [] s.m t.m) :=
  answers_yPortAccess h.quiet (yPortAccess_of_fenced h.clearOut hop hf)
    ⟨rfl, rfl⟩ rfl ⟨rfl, onlyRegs_settle rfl rfl (fun _ _ => rfl)⟩

/-- The access is not fenced: it answers what its block's read or write gives. -/
theorem answers_yAccess {op : MemOp} {k : Mod} {st : Status} {data : List Byte} {P : State → Prop} (h : YBlock s.m arr off n)
    (hop : opLen op = n) (hf : ¬SlateFenced s.m ag arr) (ha : s.m.clearOut.sramAccess (some ag) arr off op = (k, st, data))
    (hframe : SramFrame s.m (k.done st data)) (hout : k.out.all Out.stays = true) (hp : P { s with m := (k.done st data).settle }) :
    Answers (.yPortAccess ag arr off op none) s P := by
  refine answers_yPortAccess h.quiet ?_ hframe ?_ hp
  · rw [yPortAccess_of_alone h.clearOut hop hf, ha]
  · show (k.out ++ [Out.done st data]).all Out.stays = true
    rw [List.all_append, hout]
    rfl

/-- The bank is met in a state of power in which it keeps to it: ON, OFF or TEST. -/
theorem meetBank_clearOut {m : Mod} {arr b st : Nat} (h : m.bankState arr b = st) (hst : st ≠ 1) : m.clearOut.meetBank arr b = (m.clearOut, st) := by
  have h' : m.clearOut.bankState arr b = st := h
  rw [meetBank_of_not_ret (by rwa [h']), h']

theorem answers_yRead_on (h : YBlock s.m arr off n) (hf : ¬SlateFenced s.m ag arr) (hst : s.m.bankState arr (bankOf arr off) = 0)
    (hgood : ∀ i < n, ¬s.m.mem.parityBad (sramBase arr + off + i) = true) :
    Answers (.yPortAccess ag arr off (.read n) none) s (fun t =>
      t.m.out = [.done .ok (s.m.mem.readAt (sramBase arr + off) n)] ∧ OnlyRegs [] s.m t.m) := by
  have hread := (sramAccess_read_of_block h.pos h.block).trans
    (sramReadPiece_of_on (y := some ag) (meetBank_clearOut hst (by decide)) hgood)
  exact answers_yAccess h rfl hf hread ⟨rfl, rfl⟩ rfl ⟨rfl, onlyRegs_settle rfl rfl (fun _ _ => rfl)⟩

theorem answers_yRead_ret (h : YBlock s.m arr off n) (hf : ¬SlateFenced s.m ag arr) (hst : s.m.bankState arr (bankOf arr off) = 1)
    (hw : (s.m.sramOf arr).wakes = []) (hgood : ∀ i < n, ¬s.m.mem.parityBad (sramBase arr + off + i) = true) :
    Answers (.yPortAccess ag arr off (.read n) none) s (fun t =>
      t.m.out = [.done .ok (s.m.mem.readAt (sramBase arr + off) n)] ∧ t.m.bankState arr (bankOf arr off) = 0 ∧
      OnlyRegs [F.BANK_STATE_ST.addr arr (bankOf arr off / 32)] s.m t.m) := by
  have hread := (sramAccess_read_of_block h.pos h.block).trans
    (sramReadPiece_of_on (y := some ag) (meetBank_of_ret (m := s.m.clearOut) hst hw) hgood)
  refine answers_yAccess h rfl hf hread ⟨rfl, ?_⟩ rfl ⟨rfl, ?_, onlyRegs_settle rfl rfl (fun a ha => ?_)⟩
  · exact draining_setFld_sram s.m F.BANK_STATE_ST 0 rfl arr _ _ (bankStateAddr_inBlock arr off)
  · exact (fld_settle _ _ _ _ _).trans (bankState_setBankState s.m arr (bankOf arr off) 0)
  · exact reg_setFld_ne s.m F.BANK_STATE_ST 0 arr _ _ (fun he => ha (List.mem_singleton.mpr he))

/-- The module after a read that its bank's state refuses with `st`: the bytes it returns are free (08 R236). -/
def refusedRead (m : Mod) (n : Nat) (st : Status) : Mod := ((m.clearOut.drawBytes n).1.done st (m.clearOut.drawBytes n).2).settle

theorem refusedRead_frame (m : Mod) (n : Nat) (st : Status) :
    ∃ x, (refusedRead m n st).out = [.done st x] ∧ SameMem m (refusedRead m n st) ∧ SameRegsBut [] m (refusedRead m n st) :=
  ⟨_, rfl, fun a => byte_settle _ a, fun a _ => reg_settle _ a⟩

theorem answers_yRead_off (h : YBlock s.m arr off n) (hf : ¬SlateFenced s.m ag arr) (hst : s.m.bankState arr (bankOf arr off) = 2) :
    Answers (.yPortAccess ag arr off (.read n) none) s (fun t =>
      ∃ x, t.m.out = [.done .bankOff x] ∧ SameMem s.m t.m ∧ SameRegsBut [] s.m t.m) := by
  have hread := (sramAccess_read_of_block h.pos h.block).trans
    (sramReadPiece_of_off (y := some ag) (n := n) (meetBank_clearOut hst (by decide)))
  exact answers_yAccess h rfl hf hread ⟨rfl, rfl⟩ rfl (refusedRead_frame s.m n .bankOff)

theorem answers_yRead_test (h : YBlock s.m arr off n) (hf : ¬SlateFenced s.m ag arr) (hst : s.m.bankState arr (bankOf arr off) = 3) :
    Answers (.yPortAccess ag arr off (.read n) none) s (fun t =>
      ∃ x, t.m.out = [.done .bankUnderTest x] ∧ SameMem s.m t.m ∧ SameRegsBut [] s.m t.m) := by
  have hread := (sramAccess_read_of_block h.pos h.block).trans
    (sramReadPiece_of_test (y := some ag) (n := n) (meetBank_clearOut hst (by decide)))
  exact answers_yAccess h rfl hf hread ⟨rfl, rfl⟩ rfl (refusedRead_frame s.m n .bankUnderTest)

/-- A write of one block answers what its piece gives. -/
theorem sramAccess_write_eq {m k : Mod} {st : Status} (h : YBlock m arr off n) (hd : d.length = n) (hw : m.clearOut.sramWritePiece arr off d = (k, st)) :
    m.clearOut.sramAccess (some ag) arr off (.write d) = (k, st, []) := by
  have hpos := h.pos
  have hblock := h.block
  subst hd
  rw [sramAccess_write_of_block hpos hblock, hw]

theorem answers_yWrite_on (h : YBlock s.m arr off n) (hf : ¬SlateFenced s.m ag arr) (hd : d.length = n)
    (hst : s.m.bankState arr (bankOf arr off) = 0) :
    Answers (.yPortAccess ag arr off (.write d) none) s (fun t => t.m.out = [.done .ok []] ∧ SameRest s.m t.m ∧ SameRegsBut [] s.m t.m ∧
      (∀ i < n, t.m.mem.byte (sramBase arr + off + i) = (nth d i none).getD (s.m.mem.byte (sramBase arr + off + i))) ∧
      ∀ x, x < sramBase arr + off ∨ sramBase arr + off + n ≤ x → t.m.mem.byte x = s.m.mem.byte x) := by
  have hwrite := sramAccess_write_eq (ag := ag) h hd (sramWritePiece_of_on (meetBank_clearOut hst (by decide)))
  refine answers_yAccess h hd hf hwrite ⟨rfl, rfl⟩ rfl ⟨rfl, sameRest_settle rfl, fun a _ => reg_settle _ a, fun i hi => ?_, fun x hx => ?_⟩
  · exact (byte_settle _ _).trans (byte_writeAt_of_lt s.m.mem _ d (hd ▸ hi))
  · exact (byte_settle _ _).trans (byte_writeAt_of_outside s.m.mem _ d (hd ▸ hx))

theorem answers_yWrite_off (h : YBlock s.m arr off n) (hf : ¬SlateFenced s.m ag arr) (hd : d.length = n)
    (hst : s.m.bankState arr (bankOf arr off) = 2) :
    Answers (.yPortAccess ag arr off (.write d) none) s (fun t => t.m.out = [.done .bankOff []] ∧ OnlyRegs [] s.m t.m) := by
  have hwrite := sramAccess_write_eq (ag := ag) h hd (sramWritePiece_of_off (meetBank_clearOut hst (by decide)))
  exact answers_yAccess h hd hf hwrite ⟨rfl, rfl⟩ rfl ⟨rfl, onlyRegs_settle rfl rfl (fun _ _ => rfl)⟩

theorem answers_yWrite_test (h : YBlock s.m arr off n) (hf : ¬SlateFenced s.m ag arr) (hd : d.length = n)
    (hst : s.m.bankState arr (bankOf arr off) = 3) :
    Answers (.yPortAccess ag arr off (.write d) none) s (fun t => t.m.out = [.done .bankUnderTest []] ∧ OnlyRegs [] s.m t.m) := by
  have hwrite := sramAccess_write_eq (ag := ag) h hd (sramWritePiece_of_test (meetBank_clearOut hst (by decide)))
  exact answers_yAccess h hd hf hwrite ⟨rfl, rfl⟩ rfl ⟨rfl, onlyRegs_settle rfl rfl (fun _ _ => rfl)⟩

/-! ### A parity error of its read (08 R232) -/

/-- The registers that a parity error of array `arr` counts and logs in. -/
abbrev parityRegs (arr : Nat) : List Nat := [F.ERR_COUNT_PARITY.addr arr 0, F.PARITY_LOG_VALID.addr arr 0]

theorem regsAndEvents_parityLogged (m : Mod) (arr off : Nat) : RegsAndEvents (parityRegs arr) m (parityLogged m arr off) := by
  have hcount : F.ERR_COUNT_PARITY.addr arr 0 ∈ parityRegs arr ++ eventRegs := List.mem_append_left _ (.head _)
  have hlog : F.PARITY_LOG_VALID.addr arr 0 ∈ parityRegs arr ++ eventRegs := List.mem_append_left _ (.tail _ (.head _))
  have h := regsAndEvents_satFld (regsAndEvents_refl _ m) F.ERR_COUNT_PARITY 1 arr 0 hcount
  exact regsAndEvents_setFld (regsAndEvents_setFld (regsAndEvents_setFld h F.PARITY_LOG_OFFSET off arr 0 0 hlog)
    F.PARITY_LOG_PORT 1 arr 0 0 hlog) F.PARITY_LOG_VALID 1 arr 0 0 hlog

theorem regsAndEvents_parityError (m : Mod) (arr off : Nat) (ag : Agent) :
    RegsAndEvents (parityRegs arr) m (m.parityError arr off (some ag)) := by
  rw [parityError_y]
  exact regsAndEvents_raise (regsAndEvents_parityLogged m arr off) _ _

/-- What a parity error counts and logs, its record does not change. -/
theorem fld_parityError (m : Mod) (arr : Fin 17) (off : Nat) (ag : Agent) :
    (m.parityError arr off (some ag)).fld F.ERR_COUNT_PARITY arr = min (m.fld F.ERR_COUNT_PARITY arr + 1) 0xFFFFFFFF ∧
    (m.parityError arr off (some ag)).fld F.PARITY_LOG_OFFSET arr = off % 2 ^ 31 ∧
    (m.parityError arr off (some ag)).fld F.PARITY_LOG_PORT arr = 1 ∧ (m.parityError arr off (some ag)).fld F.PARITY_LOG_VALID arr = 1 := by
  have hkeeps (f : Fld) (hb : f.blk = .sram) (hs : f.stride = 0) (ho : f.off < 0x100) :
      (m.parityError arr off (some ag)).fld f arr = (parityLogged m arr off).fld f arr := by
    rw [parityError_y]
    exact fld_regsAndEvents (regsAndEvents_raise (regsAndEvents_refl [] _) _ _) f arr 0 0 (sramReg_not_event f hb hs ho arr)
  rw [hkeeps _ rfl rfl (by decide), hkeeps _ rfl rfl (by decide), hkeeps _ rfl rfl (by decide), hkeeps _ rfl rfl (by decide)]
  exact fld_parityLogged m arr off

theorem raised_parityError (m : Mod) (arr off : Nat) (ag : Agent) :
    Raised (m.parityError arr off (some ag)) 0x0401 (d8 (sramBase arr + off) ++ d1 (agentCode ag)) := by
  rw [parityError_y]
  exact raised_raise _ _ _

/-- The record of a parity error leaves the block. -/
theorem stays_parityError (m : Mod) (arr off : Nat) (ag : Agent) (h : m.out.all Out.stays = true) :
    (m.parityError arr off (some ag)).out.all Out.stays = true := by
  rw [parityError_y]
  obtain ⟨r, hr⟩ := out_raise (parityLogged m arr off) 0x0401 (d8 (sramBase arr + off) ++ d1 (agentCode ag))
  rw [hr, List.all_append]
  exact Bool.and_eq_true_iff.mpr ⟨h, rfl⟩

/-- Event records leave a drain of the proxies as it is, and so do an array's registers of errors. -/
theorem draining_not_parity (arr : Fin 17) : F.DIR_STATUS_DRAINING.addr 0 0 ∉ parityRegs arr ++ eventRegs := by
  have hcount := sramReg_ne_draining F.ERR_COUNT_PARITY rfl arr 0 (by decide)
  have hlog := sramReg_ne_draining F.PARITY_LOG_VALID rfl arr 0 (by decide)
  have hevent : F.DIR_STATUS_DRAINING.addr 0 0 ∉ eventRegs := by decide
  simp [hcount, hlog, hevent]

theorem sramFrame_of_regsAndEvents {as : List Nat} {m n : Mod} (h : RegsAndEvents as m n) (hd : F.DIR_STATUS_DRAINING.addr 0 0 ∉ as ++ eventRegs) :
    SramFrame m n := by
  obtain ⟨hn, -, hregs⟩ := h
  refine ⟨?_, ?_⟩
  · rw [hn]
  · simp only [Mod.fld, hregs _ hd]

theorem raised_done {m : Mod} {code : Nat} {data : List Byte} (h : Raised m code data) (st : Status) (x : List Byte) :
    Raised (m.done st x) code data := by
  obtain ⟨r, hcode, hdata, hmem⟩ := h
  exact ⟨r, hcode, hdata, List.mem_append_left _ hmem⟩

theorem answers_yRead_bad {i : Nat} (h : YBlock s.m arr off n) (hf : ¬SlateFenced s.m ag arr) (hst : s.m.bankState arr (bankOf arr off) = 0)
    (hi : i < n) (hbad : s.m.mem.parityBad (sramBase arr + off + i) = true)
    (hfirst : ∀ j < i, ¬s.m.mem.parityBad (sramBase arr + off + j) = true) :
    Answers (.yPortAccess ag arr off (.read n) none) s (fun t =>
      t.m.out.getLast? = some (.done .dataLost (s.m.mem.readAt (sramBase arr + off) n)) ∧
      t.m.fld F.ERR_COUNT_PARITY arr = min (s.m.fld F.ERR_COUNT_PARITY arr + 1) 0xFFFFFFFF ∧
      t.m.fld F.PARITY_LOG_OFFSET arr = (off + i) % 2 ^ 31 ∧ t.m.fld F.PARITY_LOG_PORT arr = 1 ∧ t.m.fld F.PARITY_LOG_VALID arr = 1 ∧
      Raised t.m 0x0401 (d8 (sramBase arr + off + i) ++ d1 (agentCode ag)) ∧ RegsAndEvents (parityRegs arr) s.m t.m) := by
  have hread := (sramAccess_read_of_block h.pos h.block).trans
    (sramReadPiece_of_bad (y := some ag) (meetBank_clearOut hst (by decide)) hi hbad hfirst)
  have hregs : RegsAndEvents (parityRegs arr) s.m (s.m.clearOut.parityError arr (off + i) (some ag)) :=
    regsAndEvents_trans (regsAndEvents_clearOut _ s.m) (regsAndEvents_parityError s.m.clearOut arr (off + i) ag)
  have hdone := regsAndEvents_emit hregs (.done .dataLost (s.m.mem.readAt (sramBase arr + off) n))
  have hraised := raised_parityError s.m.clearOut arr (off + i) ag
  rw [← Nat.add_assoc] at hraised
  obtain ⟨hcount, hoffset, hport, hvalid⟩ := fld_parityError s.m.clearOut arr (off + i) ag
  exact answers_yAccess h rfl hf hread (sramFrame_of_regsAndEvents hdone (draining_not_parity arr)) (stays_parityError _ _ _ _ rfl)
    ⟨List.getLast?_concat, (fld_settle _ _ _ _ _).trans hcount, (fld_settle _ _ _ _ _).trans hoffset, (fld_settle _ _ _ _ _).trans hport,
      (fld_settle _ _ _ _ _).trans hvalid, raised_settle (raised_done hraised _ _), regsAndEvents_settle hdone⟩

end

/-! ## A Y access that an S access meets (08 R228) -/

section
variable {s : State} {m : Mod} {ag : Agent} {arr : Fin 17} {off n : Nat} {bank : Fin 1024} {word : Fin 65536}

/-- The S port's write of the word that a Y write writes discards the Y write, which is counted (08 R228, R230). -/
theorem yPortAccess_of_lost {d : List (Option Byte)} {x : List Byte} (h : YBlock m arr off n) (hd : d.length = n) (hslate : m.portSlate arr = false)
    (hst : m.bankState arr (bankOf arr off) = 0) (hbank : bank.val = bankOf arr off) (hword : word.val = wordOf arr off) (hx : x.length = 64) :
    m.yPortAccess ag arr off (.write d) (some ⟨bank, word, some x⟩) =
      (({ m with mem := m.mem.writeAt (sramBase arr + off / 64 * 64) (x.map some) } : Mod).satFld F.ERR_COUNT_WRITE_LOST 1 arr).done .writeLost := by
  have hlen : opLen (.write d) = n := hd
  have hmet : m.meetBank arr (bankOf arr (off / 64 * 64)) = (m, 0) := by
    rw [bankOf_blockStart, meetBank_of_not_ret (by rw [hst]; decide), hst]
  have hs : m.sAccess arr (off / 64 * 64) (.write (x.map some)) =
      ({ m with mem := m.mem.writeAt (sramBase arr + off / 64 * 64) (x.map some) }, .ok, []) := by
    rw [sAccess_of_none_waiting h.alone, sramAccess_write_of_block (by simp [hx]) (by simp [hx]), sramWritePiece_of_on hmet]
  simp [Mod.yPortAccess, hlen, isWrite, h.inRange, hslate, blocksOf_within h.pos h.block, hbank, hword, hst, wordOff_of_block,
    padTo_of_length hx, hs]

theorem answers_yWrite_lost {d : List (Option Byte)} {x : List Byte} (h : YBlock s.m arr off n) (hd : d.length = n)
    (hslate : s.m.portSlate arr = false) (hst : s.m.bankState arr (bankOf arr off) = 0) (hbank : bank.val = bankOf arr off)
    (hword : word.val = wordOf arr off) (hx : x.length = 64) :
    Answers (.yPortAccess ag arr off (.write d) (some ⟨bank, word, some x⟩)) s (fun t =>
      t.m.out = [.done .writeLost []] ∧ t.m.fld F.ERR_COUNT_WRITE_LOST arr = min (s.m.fld F.ERR_COUNT_WRITE_LOST arr + 1) 0xFFFFFFFF ∧
      SameRest s.m t.m ∧ SameRegsBut [F.ERR_COUNT_WRITE_LOST.addr arr 0] s.m t.m ∧
      (∀ i < 64, t.m.mem.byte (sramBase arr + off / 64 * 64 + i) = nth x i 0) ∧
      ∀ y, y < sramBase arr + off / 64 * 64 ∨ sramBase arr + off / 64 * 64 + 64 ≤ y → t.m.mem.byte y = s.m.mem.byte y) := by
  have hlost := yPortAccess_of_lost (ag := ag) h.clearOut hd hslate hst hbank hword hx
  have hlen : (x.map some).length = 64 := (List.length_map _).trans hx
  refine answers_yPortAccess h.quiet hlost ⟨rfl, ?_⟩ rfl ⟨rfl, ?_, sameRest_settle rfl, fun a ha => ?_, fun i hi => ?_, fun y hy => ?_⟩
  · exact draining_setFld_sram s.m F.ERR_COUNT_WRITE_LOST _ rfl arr 0 0 (by decide)
  · exact (fld_settle _ _ _ _ _).trans (fld_satFld_self s.m F.ERR_COUNT_WRITE_LOST arr (by decide))
  · exact (reg_settle _ a).trans (reg_setFld_ne s.m F.ERR_COUNT_WRITE_LOST _ arr 0 0 (fun he => ha (List.mem_singleton.mpr he)))
  · refine ((byte_settle _ _).trans (byte_writeAt_of_lt s.m.mem _ (x.map some) (hlen ▸ hi))).trans ?_
    simp [nth, hx, hi]
  · exact (byte_settle _ _).trans (byte_writeAt_of_outside s.m.mem _ (x.map some) (hlen ▸ hy))

/-- A read whose sub-bank the S port accesses waits for a free cycle (08 R228, R229). -/
theorem yPortAccess_of_met (h : YBlock m arr off n) (hslate : m.portSlate arr = false) (hst : m.bankState arr (bankOf arr off) = 0)
    (hbank : bank.val = bankOf arr off) (hword : word.val % 2 = wordOf arr off % 2) :
    m.yPortAccess ag arr off (.read n) (some ⟨bank, word, none⟩) =
      m.modSram arr (fun a => { a with ywait := a.ywait ++ [{ src := .agent ag, ag := ag, off := off, op := .read n }] }) := by
  have hlen : opLen (.read n) = n := rfl
  simp [Mod.yPortAccess, hlen, isWrite, h.inRange, hslate, blocksOf_within h.pos h.block, hbank, hst, subOf, hword]

theorem answers_yRead_met (h : YBlock s.m arr off n) (hslate : s.m.portSlate arr = false) (hst : s.m.bankState arr (bankOf arr off) = 0)
    (hbank : bank.val = bankOf arr off) (hword : word.val % 2 = wordOf arr off % 2) :
    Answers (.yPortAccess ag arr off (.read n) (some ⟨bank, word, none⟩)) s (fun t => t.m.out = [] ∧
      OnlyRegs [] { s.m with sram := modNth s.m.sram arr (fun z => { z with ywait := [{ src := .agent ag, ag := ag, off := off, op := .read n }] }) }
        t.m) := by
  have hmet := yPortAccess_of_met (ag := ag) h.clearOut hslate hst hbank hword
  have hfirst : modNth s.m.sram arr (fun z => { z with ywait := z.ywait ++ [{ src := .agent ag, ag := ag, off := off, op := .read n }] }) =
      modNth s.m.sram arr (fun z => { z with ywait := [{ src := .agent ag, ag := ag, off := off, op := .read n }] }) := by
    refine modNth_congr {} ?_
    have halone : (nth s.m.sram arr {}).ywait = [] := h.alone
    simp only [halone, List.nil_append]
  refine answers_yPortAccess h.quiet hmet ⟨rfl, rfl⟩ rfl ⟨rfl, onlyRegs_settle ?_ rfl (fun _ _ => rfl)⟩
  rw [← hfirst]
  rfl

end

/-! ## A waiting Y access is performed (08 R229) -/

/-- Of a module where nothing waits, the end of a command routes the outputs and does nothing else. -/
theorem finish_of_idle {m : Mod} (h : m.idle = true) : m.finish = m.out.foldl (fun m o => m.route1 o) { m with out := [] } := by
  have hidle := h
  simp only [Mod.idle, Bool.and_eq_true, List.all_eq_true, List.isEmpty_iff] at h
  obtain ⟨⟨hfab, hlanes⟩, hcoll⟩ := h
  have hpump : (List.range 10).foldl (fun m p => m.pump p) m = m :=
    foldl_id _ _ _ (fun p _ => pump_quiet m p (nth_of_forall (P := fun l : Lane => l.txq = []) hlanes rfl p))
  simp only [Mod.finish, retryFabric_quiet m hfab, hpump, collLosses_quiet m hcoll]

theorem conclude_of_finish {m n : Mod} (hn : m.finish = n) (hm : m.memQuiet = true) (hi : n.idle = true) (hs : n.svcReady = false) :
    m.conclude = n := by
  unfold Mod.conclude
  rw [memSettle_quiet m hm, coreSettle_quiet m hm, hn, fabLoop_quiet n _ hi]
  exact svcLoop_quiet n _ hs

/-- A completion for an operation is noted for its sequencer (07 R208). -/
theorem conclude_of_opCompl {m : Mod} {q : Fin 4} {seq key : Nat} {st : Status} {d : List Byte} (hq : m.quiet = true)
    (ho : m.out = [.compl (.op q seq key) st d]) : m.conclude = { m with opDone := m.opDone ++ [(q.val, seq, key, st, d)] } := by
  simp only [Mod.quiet, Bool.and_eq_true, Bool.not_eq_true'] at hq
  obtain ⟨⟨hidle, hmem⟩, hsvc⟩ := hq
  refine conclude_of_finish ?_ hmem hidle hsvc
  rw [finish_of_idle hidle, ho]
  show ({ m with out := [.compl (.op q seq key) st d], opDone := m.opDone ++ [(q.val, seq, key, st, d)] } : Mod) = _
  rw [← ho]

theorem modSram_eraseP_of_single {m : Mod} {arr : Nat} {w : YWait} {p : YWait → Bool} (hone : (m.sramOf arr).ywait = [w]) (hw : p w = true) :
    m.modSram arr (fun z => { z with ywait := z.ywait.eraseP p }) = m.modSram arr (fun z => { z with ywait := [] }) := by
  refine congrArg (fun l => ({ m with sram := l } : Mod)) (modNth_congr {} ?_)
  have hone' : (nth m.sram arr {}).ywait = [w] := hone
  simp only [hone', List.eraseP_cons_of_pos hw]

/-- The only Y access that waits at an array is performed, and none waits. -/
theorem yPerformed_of_single {m : Mod} {arr bank sub : Nat} {w : YWait} (hone : (m.sramOf arr).ywait = [w])
    (hw : (blocksOf w.off (opLen w.op)).any (fun p => bankOf arr p.1 == bank && subOf arr p.1 == sub) = true) :
    m.yPerformed arr bank sub = (m.modSram arr (fun z => { z with ywait := [] })).yServe arr w := by
  have hfind : (m.sramOf arr).ywait.find? (fun w => (blocksOf w.off (opLen w.op)).any (fun p => bankOf arr p.1 == bank && subOf arr p.1 == sub)) =
      some w := by
    rw [hone]
    exact List.find?_cons_of_pos hw
  unfold Mod.yPerformed
  simp only [hfind]
  rw [modSram_eraseP_of_single hone hw]

/-- The array `arr` with the one access `w` waiting at it. -/
abbrev Mod.withWait (m : Mod) (arr : Nat) (w : YWait) : Mod := { m with sram := modNth m.sram arr (fun z => { z with ywait := [w] }) }

theorem ywait_withWait {m : Mod} {arr : Nat} (w : YWait) (h : arr < m.sram.length) : ((m.withWait arr w).sramOf arr).ywait = [w] := by
  unfold Mod.withWait Mod.sramOf
  rw [nth_modNth_self _ _ _ _ h]

/-- Once the access is taken from an array at which it waited alone, the array is as before it came. -/
theorem modSram_withWait {m : Mod} {arr : Nat} {w : YWait} (h : (m.sramOf arr).ywait = []) :
    (m.withWait arr w).modSram arr (fun z => { z with ywait := [] }) = m := by
  have hback : modNth (modNth m.sram arr (fun z => { z with ywait := [w] })) arr (fun z => { z with ywait := [] }) = m.sram := by
    rw [modNth_modNth]
    refine (modNth_congr (g := id) {} ?_).trans (modNth_id _ _)
    have halone : (nth m.sram arr {}).ywait = [] := h
    exact congrArg (fun l => { nth m.sram arr ({} : Sram) with ywait := l }) halone.symm
  show ({ m with sram := modNth (modNth m.sram arr _) arr _ } : Mod) = m
  rw [hback]

/-- A read of one block that waited gives its requester the block's bytes (08 R229). -/
theorem yServe_read_on {m : Mod} {arr off n : Nat} {src : Src} {ag : Agent} (hn : 1 ≤ n) (hb : off % 64 + n ≤ 64)
    (hst : m.bankState arr (bankOf arr off) = 0) (hgood : ∀ i < n, ¬m.mem.parityBad (sramBase arr + off + i) = true) :
    m.yServe arr { src := src, ag := ag, off := off, op := .read n } =
      m.emit (.compl src .ok (m.mem.readAt (sramBase arr + off) n)) := by
  have hmet : m.meetBank arr (bankOf arr off) = (m, 0) := by rw [meetBank_of_not_ret (by rw [hst]; decide), hst]
  simp [Mod.yServe, Mod.yPerform, sramAccess_read_of_block hn hb, sramReadPiece_of_on hmet hgood, Mod.hinted]

section
variable {s : State} {ag : Agent} {arr : Fin 17} {off n : Nat} {bank : Fin 1024} {sub : Fin 2} {q : Fin 4} {seq key : Nat}

theorem yPerformed_withWait {m : Mod} (h : YBlock m arr off n) (hst : m.bankState arr (bankOf arr off) = 0)
    (hbank : bank.val = bankOf arr off) (hsub : sub.val = wordOf arr off % 2) (hlen : arr.val < m.sram.length)
    (hgood : ∀ i < n, ¬m.mem.parityBad (sramBase arr + off + i) = true) {src : Src} :
    (m.withWait arr { src := src, ag := ag, off := off, op := .read n }).yPerformed arr bank sub =
      m.emit (.compl src .ok (m.mem.readAt (sramBase arr + off) n)) := by
  have hon : (blocksOf off (opLen (.read n))).any (fun p => bankOf arr p.1 == bank.val && subOf arr p.1 == sub.val) = true := by
    have hop : opLen (.read n) = n := rfl
    simp [hop, blocksOf_within h.pos h.block, subOf, hbank, hsub]
  rw [yPerformed_of_single (ywait_withWait _ hlen) hon, modSram_withWait h.alone, yServe_read_on h.pos h.block hst hgood]

theorem answers_yPerformed (h : YBlock s.m arr off n) (hst : s.m.bankState arr (bankOf arr off) = 0) (hbank : bank.val = bankOf arr off)
    (hsub : sub.val = wordOf arr off % 2) (hlen : arr.val < s.m.sram.length)
    (hgood : ∀ i < n, s.m.mem.parityBad (sramBase arr + off + i) = false) :
    Answers (.yAccessPerformed arr bank sub) { s with m := s.m.withWait arr { src := .op q seq key, ag := ag, off := off, op := .read n } }
      (fun t => t.m.out = [.compl (.op q seq key) .ok (s.m.mem.readAt (sramBase arr + off) n)] ∧ OnlyRegs [] { s.m with
        opDone := s.m.opDone ++ [(q.val, seq, key, .ok, s.m.mem.readAt (sramBase arr + off) n)] } t.m) := by
  have hserved := yPerformed_withWait (ag := ag) (src := .op q seq key) h.clearOut
    hst hbank hsub hlen (fun i hi => by simp [hgood i hi])
  refine ⟨_, (exec_yAccessPerformed arr bank sub _).trans (runF_next _ _), ?_⟩
  have hend := conclude_of_opCompl (m := s.m.clearOut.emit (.compl (.op q seq key) .ok (s.m.mem.readAt (sramBase arr + off) n))) h.quiet rfl
  have heffect : ((s.m.withWait arr { src := .op q seq key, ag := ag, off := off, op := .read n }).clearOut.yPerformed arr bank sub).conclude = _ :=
    (congrArg Mod.conclude hserved).trans hend
  simp only [heffect]
  exact ⟨rfl, onlyRegs_settle rfl rfl (fun _ _ => rfl)⟩

end

/-- Settles O21: a Y access that no S access meets is decided by its die port and by the state that its bank is met in; one that an S access
meets is lost to a write of its word, or waits for its sub-bank. -/
theorem yAccess : Obligations.YAccess := by
  unfold Obligations.YAccess
  refine ⟨?_, ?_⟩
  · intro ag arr off n d s hq hn hb hin halone hd b a st bad fenced read write
    have h : YBlock s.m arr off n := ⟨hq, hn, hb, hin, halone⟩
    refine ⟨?fenced, ?readOn, ?readBad, ?writeOn, ?readRet, ?off, ?test⟩
    case fenced =>
      intro hf op hop
      have hlen : opLen op = n := by
        rcases List.mem_cons.mp hop with rfl | hop
        · rfl
        · exact List.mem_singleton.mp hop ▸ hd
      exact answers_yAccess_fenced h hlen hf
    case readOn => exact fun hst hgood hf => answers_yRead_on h hf hst hgood
    case readBad => exact fun hst i hi hbad hfirst hf => answers_yRead_bad h hf hst hi hbad hfirst
    case writeOn => exact fun hst hf => answers_yWrite_on h hf hd hst
    case readRet => exact fun hst hw hgood hf => answers_yRead_ret h hf hst hw hgood
    case off => exact fun hst => ⟨fun hf => answers_yWrite_off h hf hd hst, fun hf => answers_yRead_off h hf hst⟩
    case test => exact fun hst => ⟨fun hf => answers_yWrite_test h hf hd hst, fun hf => answers_yRead_test h hf hst⟩
  · intro ag arr off n bank word d x s hq hn hb hin hst halone hd hbank hslate
    have h : YBlock s.m arr off n := ⟨hq, hn, hb, hin, halone⟩
    refine ⟨?lost, ?waits, ?performed⟩
    case lost => exact fun hword hx => answers_yWrite_lost h hd hslate hst hbank hword hx
    case waits => exact fun hword => answers_yRead_met h hslate hst hbank hword
    case performed =>
      rintro q seq key sub s0 w hsub hlen hgood rfl
      exact answers_yPerformed h hst hbank hsub hlen hgood

end Sys2Proof.Machine

/-! # Proofs: the alert pin and the SMBus target (02 R39, R40; 15 R414, R415, Table 15.10) -/

namespace Sys2Proof.Machine

open Sys2Proof

/-! ## What the end of a command does to the alert lines (02 R40) -/

/-- MOD_ALERT_N is asserted while an unmasked bit is set, and stays so until the alert response address is read. -/
theorem alertPin_settle (m : Mod) : m.settle.alertPin =
    (m.settle.alert &&& (0xFFFF ^^^ m.settle.alertMask) != 0 || (m.alertPin && !m.araRead)) := rfl

/-- A read of the alert response address counts while the pin is asserted and a bit is left. -/
theorem araRead_settle (m : Mod) : m.settle.araRead =
    (m.araRead && m.alertPin && m.settle.alert &&& (0xFFFF ^^^ m.settle.alertMask) != 0) := rfl

theorem alertPin_of_open {m : Mod} (h : m.settle.alert &&& (0xFFFF ^^^ m.settle.alertMask) ≠ 0) : m.settle.alertPin = true := by
  rw [alertPin_settle, bne_iff_ne.mpr h, Bool.true_or]

/-- A pin that is not asserted, or whose alert response was read, is released once no unmasked bit is left. -/
theorem alertPin_of_closed {m : Mod} (hread : (m.alertPin && !m.araRead) = false)
    (h : m.settle.alert &&& (0xFFFF ^^^ m.settle.alertMask) = 0) : m.settle.alertPin = false := by
  rw [alertPin_settle, hread, h]
  rfl

/-- After the alert response of an asserted pin, the pin is released or its read is remembered. -/
theorem alertRead_settle {m : Mod} (hpin : m.alertPin = true) (hara : m.araRead = true) :
    (m.settle.alertPin && !m.settle.araRead) = false := by
  rw [araRead_settle, alertPin_settle, hpin, hara]
  simp

/-! ## Commands to the target -/

/-- A write with a right PEC is taken. -/
theorem smbusWrite_good {m : Mod} (need : Bool) (f : Mod → Mod) (hon : m.smbusOn = true) : m.smbusWrite .good need f = f m := by
  simp [Mod.smbusWrite, hon]

/-- A write with a wrong PEC is discarded (15 R414). -/
theorem smbusWrite_bad {m : Mod} (need : Bool) (f : Mod → Mod) (hon : m.smbusOn = true) : m.smbusWrite .bad need f = m.cml := by
  simp [Mod.smbusWrite, hon]

/-- A write that needs a PEC is discarded without a right one. -/
theorem smbusWrite_of_not_good {m : Mod} {p : Pec} (f : Mod → Mod) (hon : m.smbusOn = true) (hp : p ≠ .good) :
    m.smbusWrite p true f = m.cml := by
  cases p with
  | good => exact absurd rfl hp
  | bad => exact smbusWrite_bad true f hon
  | absent => simp [Mod.smbusWrite, hon]

theorem smbusInvalid_of_unknown {m : Mod} {code : Nat} (p : Pec) (hon : m.smbusOn = true) (h : smbusCodes.contains code = false) :
    m.smbusInvalid code p = m.cml.emit .nack := by
  simp only [Mod.smbusInvalid, hon, h, Bool.not_true, Bool.not_false, Bool.false_eq_true, if_false, if_true]

/-- The module that asserts MOD_ALERT_N has answered the alert response address, and the answer is noted (02 R40). -/
def Mod.araAnswered (m : Mod) : Mod :=
  ({ m with araRead := true } : Mod).emit (.smbus [BitVec.ofNat 8 (2 * m.smbusAddr)] (crc8 [0x19, BitVec.ofNat 8 (2 * m.smbusAddr)]))

theorem alertResponse_of_asserted {m : Mod} (hon : m.smbusOn = true) (hpin : m.alertPin = true) : m.alertResponse = m.araAnswered := by
  simp [Mod.alertResponse, Mod.araAnswered, hon, hpin]

theorem run_of_effect {s : State} {f : Mod → Mod} {n : Mod} (h : f s.m.clearOut = n) : s.run f = .next { s with m := n.settle } := by
  rw [run_next, h]

/-- The state that the alert response of a module that asserts MOD_ALERT_N leaves. -/
theorem exec_alertResponse_of_asserted {s : State} (hon : s.m.smbusOn = true) (hpin : s.m.alertPin = true) :
    exec .smbusAlertResponse s = .next { s with m := s.m.clearOut.araAnswered.settle } :=
  run_of_effect (alertResponse_of_asserted (m := s.m.clearOut) hon hpin)

/-- The state that a write with a right PEC leaves. -/
theorem exec_of_smbusWrite_good {c : Instr} {s : State} {need : Bool} {f : Mod → Mod} (hon : s.m.smbusOn = true)
    (h : exec c s = s.run (fun m => m.smbusWrite .good need f)) : exec c s = .next { s with m := (f s.m.clearOut).settle } :=
  h.trans (run_of_effect (smbusWrite_good (m := s.m.clearOut) need f hon))

theorem exec_alertStatus_clear {s : State} (v : BitVec 16) (hon : s.m.smbusOn = true) :
    exec (.mfrAlertStatus (some v) .good) s = .next { s with m := (s.m.clearOut.alertClear v.toNat).settle } :=
  exec_of_smbusWrite_good hon (need := false) (f := fun m => m.alertClear v.toNat) rfl

/-- Clearing alert bits touches neither the pin nor the note of its read. -/
theorem alertClear_pin (m : Mod) (w : Nat) : (m.alertClear w).alertPin = m.alertPin ∧ (m.alertClear w).araRead = m.araRead := by
  unfold Mod.alertClear
  split <;> exact ⟨rfl, rfl⟩

/-- Settles O3: the tables settle at the end of every command, and there the pin follows the bits; a read of the alert response address is
remembered until the status is cleared. -/
theorem alertPinFollowsStatus : Obligations.AlertPinFollowsStatus := by
  unfold Obligations.AlertPinFollowsStatus
  refine ⟨fun c s t h hopen => ?follows, fun v s t u hon hpin ht hu hclosed => ?released⟩
  case follows =>
    obtain ⟨m, hm⟩ := exec_runs c s
    rw [h, Host.Outcome.next.injEq] at hm
    subst hm
    exact alertPin_of_open hopen
  case released =>
    rw [exec_alertResponse_of_asserted hon hpin, Host.Outcome.next.injEq] at ht
    subst ht
    have hclear := exec_alertStatus_clear (s := { s with m := s.m.clearOut.araAnswered.settle }) v hon
    rw [hclear, Host.Outcome.next.injEq] at hu
    subst hu
    refine alertPin_of_closed ?_ hclosed
    obtain ⟨hkeepsPin, hkeepsRead⟩ := alertClear_pin s.m.clearOut.araAnswered.settle.clearOut v.toNat
    rw [hkeepsPin, hkeepsRead]
    exact alertRead_settle (m := s.m.clearOut.araAnswered) hpin rfl

/-! ## What the commands to the target answer (15 R414, R415) -/

section
variable {c : Instr} {s : State}

/-- A read answers its data with its PEC and changes nothing. -/
theorem answers_smbusRead {g : Mod → Mod} {code : Nat} {data : List Byte} (hon : s.m.smbusOn = true) (h : exec c s = s.run g)
    (hg : g s.m.clearOut = s.m.clearOut.smbusRead code data) :
    Answers c s (fun t => t.m.out = [.smbus data (crc8 ([BitVec.ofNat 8 (2 * s.m.smbusAddr), BitVec.ofNat 8 code,
      BitVec.ofNat 8 (2 * s.m.smbusAddr + 1)] ++ data))] ∧ OnlyRegs [] s.m t.m) := by
  have hread : s.m.clearOut.smbusRead code data = s.m.clearOut.emit (.smbus data (crc8 ([BitVec.ofNat 8 (2 * s.m.smbusAddr),
      BitVec.ofNat 8 code, BitVec.ofNat 8 (2 * s.m.smbusAddr + 1)] ++ data))) := if_pos hon
  exact ⟨_, h.trans (run_of_effect (hg.trans hread)), rfl, onlyRegs_settle rfl rfl (fun _ _ => rfl)⟩

/-- A command that the target discards latches STATUS_WORD.CML and changes nothing else. -/
theorem answers_cml {g : Mod → Mod} {os : List Out} (h : exec c s = s.run g) (hg : g s.m.clearOut = { s.m.clearOut.cml with out := os }) :
    Answers c s (fun t => t.m.out = os ∧ OnlyRegs [] { s.m with statusLatch := s.m.statusLatch ||| 2 } t.m) :=
  ⟨_, h.trans (run_of_effect hg), rfl, onlyRegs_settle rfl rfl (fun _ _ => rfl)⟩

/-- A write that touches neither registers nor memory: taken with a right PEC, discarded with a wrong one. -/
theorem answers_smbusWrites {w : Pec → Instr} {need : Bool} {n : Mod} (f : Mod → Mod) (hon : s.m.smbusOn = true)
    (h : ∀ p, exec (w p) s = s.run (fun m => m.smbusWrite p need f)) (hf : f s.m.clearOut = { n with out := [] }) :
    Answers (w .good) s (fun t => t.m.out = [] ∧ OnlyRegs [] n t.m) ∧
    Answers (w .bad) s (fun t => t.m.out = [] ∧ OnlyRegs [] { s.m with statusLatch := s.m.statusLatch ||| 2 } t.m) := by
  refine ⟨⟨_, exec_of_smbusWrite_good hon (h .good), ?_⟩, answers_cml (h .bad) (smbusWrite_bad (m := s.m.clearOut) need f hon)⟩
  simp only [hf]
  exact ⟨rfl, onlyRegs_settle rfl rfl (fun _ _ => rfl)⟩

end

/-- READ_IIN and READ_PIN while the conversion stages are off (15 R414). -/
theorem meterWord_eq (m : Mod) (reading : BitVec 16) : m.meterWord reading = d2 (if m.stateCode < 2 then 0x7FFF else reading.toNat) := by
  simp [Mod.meterWord, Mod.unpowered]

/-- READ_TEMPERATURE_2 once the coolant was sampled. -/
theorem outletWord_of_sampled {m : Mod} {a b : Int} (h : m.coolant = some (a, b)) : m.outletWord = (m, d2 (Config.linear11 b).toNat) := by
  simp [Mod.outletWord, h]

/-! ## MFR_ALERT_STATUS: write one to clear (15 R415) -/

/-- Temperatures lie in a block above the hub's. -/
theorem thmReg_ne_fault {f : Fld} (hf : f.blk = .thm) (i : Nat) : f.addr 0 i ≠ F.HUB_FAULT_PENDING.addr 0 0 := by
  have haddr : f.addr 0 i = 0x70000B000000 + f.off + i * f.stride := by rw [Fld.addr, hf]; rfl
  have hfault : F.HUB_FAULT_PENDING.addr 0 0 < 0x70000B000000 := by decide
  omega

/-- HUB_FAULT is none of what keeps alert bits set (17 R449, R452, R455). -/
theorem alertHeld_setFld_fault (m : Mod) (v : Nat) : (m.setFld F.HUB_FAULT_PENDING v).alertHeld = m.alertHeld := by
  have hwarn : ∀ i, (m.setFld F.HUB_FAULT_PENDING v).fld F.THM_TEMP_WARN 0 i = m.fld F.THM_TEMP_WARN 0 i :=
    fun i => fld_setFld_addr _ _ _ _ _ _ _ _ _ _ (thmReg_ne_fault rfl i)
  have hthrottle : ∀ i, (m.setFld F.HUB_FAULT_PENDING v).fld F.THM_TEMP_THROTTLE 0 i = m.fld F.THM_TEMP_THROTTLE 0 i :=
    fun i => fld_setFld_addr _ _ _ _ _ _ _ _ _ _ (thmReg_ne_fault rfl i)
  have hlevel : (m.setFld F.HUB_FAULT_PENDING v).fld F.PWR_STATUS_LEVEL = m.fld F.PWR_STATUS_LEVEL :=
    fld_setFld_addr _ _ _ _ _ _ _ _ _ _ (by decide)
  simp only [Mod.alertHeld, hwarn, hthrottle, hlevel, setFld_coolantBad]

/-- A bit that is cleared leaves no bit above the sixteen of the status. -/
theorem and_ffff_of_mask (a w : Nat) : a &&& (0xFFFF ^^^ (w &&& 0xFF)) &&& 0xFFFF = a &&& (0xFFFF ^^^ (w &&& 0xFF)) := by
  have hlt : 0xFFFF ^^^ (w &&& 0xFF) < 2 ^ 16 :=
    Nat.xor_lt_two_pow (by decide) (Nat.lt_of_le_of_lt Nat.and_le_right (by decide))
  have hmask : (0xFFFF ^^^ (w &&& 0xFF)) &&& 0xFFFF = 0xFFFF ^^^ (w &&& 0xFF) :=
    (Nat.and_two_pow_sub_one_eq_mod _ 16).trans (Nat.mod_eq_of_lt hlt)
  rw [Nat.and_assoc, hmask]

theorem alert_alertClear (m : Mod) (w : Nat) :
    (m.alertClear w).alert = m.alert &&& (0xFFFF ^^^ (w &&& 0xFF)) &&& (if bit w 4 then 0xFFEF else 0xFFFF) := by
  unfold Mod.alertClear
  split
  · exact Nat.and_right_comm _ _ _
  · exact (and_ffff_of_mask _ _).symm

theorem alertHeld_alertClear (m : Mod) (w : Nat) : (m.alertClear w).alertHeld = m.alertHeld := by
  unfold Mod.alertClear
  split
  · exact alertHeld_setFld_fault m 0
  · rfl

theorem pending_alertClear (m : Mod) (w : Nat) :
    (m.alertClear w).fld F.HUB_FAULT_PENDING = if bit w 4 then 0 else m.fld F.HUB_FAULT_PENDING := by
  unfold Mod.alertClear
  split
  · exact fld_setFld_self m F.HUB_FAULT_PENDING 0 0 0 0 (by decide)
  · rfl

theorem alertClear_frame (m : Mod) (w : Nat) : SameRest m (m.alertClear w) ∧ (m.alertClear w).mem = m.mem ∧
    SameRegsBut [F.HUB_FAULT_PENDING.addr 0 0] m (m.alertClear w) ∧ (m.alertClear w).out = m.out := by
  unfold Mod.alertClear
  split
  · exact ⟨rfl, rfl, fun a ha => reg_setFld_ne m _ _ _ _ _ (List.mem_singleton.not.mp ha), rfl⟩
  · exact ⟨rfl, rfl, fun _ _ => rfl, rfl⟩

theorem answers_alertStatus_clear {s : State} (v : BitVec 16) (hon : s.m.smbusOn = true) :
    Answers (.mfrAlertStatus (some v) .good) s (fun t => t.m.out = [] ∧
      t.m.alert = (s.m.alert &&& (0xFFFF ^^^ (v.toNat &&& 0xFF)) &&& (if bit v.toNat 4 then 0xFFEF else 0xFFFF)) ||| s.m.alertHeld ∧
      t.m.fld F.HUB_FAULT_PENDING = (if bit v.toNat 4 then 0 else s.m.fld F.HUB_FAULT_PENDING) ∧ OnlyRegs [F.HUB_FAULT_PENDING.addr 0 0] s.m t.m) := by
  obtain ⟨hrest, hmem, hregs, hout⟩ := alertClear_frame s.m.clearOut v.toNat
  refine ⟨_, exec_alertStatus_clear v hon, hout, ?_, (fld_settle _ _ _ _ _).trans (pending_alertClear _ _), onlyRegs_settle hrest hmem hregs⟩
  show (s.m.clearOut.alertClear v.toNat).alert ||| (s.m.clearOut.alertClear v.toNat).alertHeld = _
  rw [alert_alertClear, alertHeld_alertClear]
  rfl

/-! ## MFR_SERVICE_KEY (15 R411, R414) -/

theorem fld_lt (m : Mod) (f : Fld) (i k j : Nat) : m.fld f i k j < 2 ^ f.w := Nat.mod_lt _ (Nat.two_pow_pos _)

theorem answers_serviceKey {s : State} {key : List Byte} (hon : s.m.smbusOn = true) (hkey : key.length = 32) :
    Answers (.mfrServiceKey (some key) .good) s (fun t => t.m.out = [] ∧
      t.m.fld F.MGD_STATUS_KEY_SET = s.m.fld F.MGD_STATUS_PUF_OK ∧
      OnlyRegs [F.MGD_STATUS_KEY_SET.addr 0 0] { s.m with serviceKey := some key } t.m) := by
  have hset : s.m.clearOut.setServiceKey key =
      ({ s.m.clearOut with serviceKey := some key } : Mod).setFld F.MGD_STATUS_KEY_SET (s.m.fld F.MGD_STATUS_PUF_OK) := by
    simp [Mod.setServiceKey, hkey]
  refine ⟨_, exec_of_smbusWrite_good hon (need := true) (f := fun m => m.setServiceKey key) rfl, ?_⟩
  simp only [hset]
  refine ⟨rfl, ?_, onlyRegs_settle rfl rfl (fun a ha => reg_setFld_ne _ _ _ _ _ _ (List.mem_singleton.not.mp ha))⟩
  rw [fld_settle, fld_setFld_self _ _ _ _ _ _ (by decide)]
  exact Nat.mod_eq_of_lt (fld_lt s.m F.MGD_STATUS_PUF_OK 0 0 0)

theorem answers_alertResponse {s : State} (hon : s.m.smbusOn = true) (hpin : s.m.alertPin = true) :
    Answers .smbusAlertResponse s (fun t =>
      t.m.out = [.smbus [BitVec.ofNat 8 (2 * s.m.smbusAddr)] (crc8 [0x19, BitVec.ofNat 8 (2 * s.m.smbusAddr)])] ∧
      t.m.alertPin = ((s.m.alert ||| s.m.alertHeld) &&& (0xFFFF ^^^ s.m.alertMask) != 0) ∧ OnlyRegs [] s.m t.m) := by
  refine ⟨_, exec_alertResponse_of_asserted hon hpin, rfl, ?_, onlyRegs_settle rfl rfl (fun _ _ => rfl)⟩
  rw [alertPin_settle]
  show (_ || (s.m.alertPin && !true)) = _
  rw [Bool.not_true, Bool.and_false, Bool.or_false]
  rfl

/-- Settles O53: every read is one of `answers_smbusRead`; the writes and the alert response go by the rule of each. -/
theorem smbusAnswers : Obligations.SmbusAnswers := by
  unfold Obligations.SmbusAnswers
  intro reading v byte key s hon addr reads blocks writes
  have read : ∀ {c : Instr} {g : Mod → Mod} {code : Nat} {data : List Byte}, exec c s = s.run g →
      g s.m.clearOut = s.m.clearOut.smbusRead code data → reads c code data := answers_smbusRead hon
  refine ⟨read rfl rfl, read rfl rfl, read rfl rfl, ?current, ?power, read rfl rfl, ?outlet, read rfl rfl, read rfl rfl, read rfl rfl, read rfl rfl,
    read rfl rfl, read rfl rfl, read rfl rfl, read rfl rfl, read rfl rfl, fun p => ⟨read rfl rfl, read rfl rfl, read rfl rfl, read rfl rfl⟩,
    ?faults, ?mask, ?locate, answers_alertStatus_clear v hon, answers_serviceKey hon, ?keyDiscarded, ?unknown, answers_alertResponse hon⟩
  case current => exact read rfl (congrArg (s.m.clearOut.smbusRead _) (meterWord_eq s.m.clearOut reading))
  case power => exact read rfl (congrArg (s.m.clearOut.smbusRead _) (meterWord_eq s.m.clearOut reading))
  case outlet =>
    intro a b hab
    have hword := outletWord_of_sampled (m := s.m.clearOut) hab
    exact read (exec_readTemperature2 s) (congrArg (fun r : Mod × List Byte => r.1.smbusRead 0x8E r.2) hword)
  case faults => exact answers_smbusWrites (fun m => { m with statusLatch := 0 }) hon (fun _ => rfl) rfl
  case mask => exact answers_smbusWrites (fun m => { m with alertMask := v.toNat }) hon (fun _ => rfl) rfl
  case locate => exact answers_smbusWrites (fun m => { m with locate := bit byte.toNat 0 }) hon (fun _ => rfl) rfl
  case keyDiscarded => exact fun p hp => answers_cml (exec_mfrServiceKey (some key) p s) (smbusWrite_of_not_good (m := s.m.clearOut) _ hon hp)
  case unknown => exact fun code p h => answers_cml (exec_smbusInvalidCommand code p s) (smbusInvalid_of_unknown (m := s.m.clearOut) p hon h)

end Sys2Proof.Machine

/-! # Proofs: a correction logged outside MC_LOG (09 R271; 14 R397; 17 R442)

O52 and O56 speak of every state in which nothing waits, and no premise of theirs bounds what `Mc.logOrder` names: the entry of MC_LOG that
the next counted correction takes. No command run from reset makes that an entry beyond the sixteen, but the statements do not ask for a state
that commands made. Where it names an entry whose address is that of D2D_STATUS of a port, the correction writes that register.

The loss of a die can be what makes the correction: a core asks to write a line of LP0, the directory waits for the last sharer's InvAck, the
sharer's die enters Slate, and the transaction ends (11 R315) with a read of the line, in which one symbol is corrected. -/

namespace Sys2Proof.Machine

open Sys2Proof

/-- The MC_LOG index of MC0 whose address is D2D_STATUS of a port. -/
def logIndexOf (port : Nat) : Nat := (F.D2D_STATUS_STATE.addr port 0 - F.MC_LOG_CH.addr 0 0) / 8

/-- A running module with package LP0 enabled and one wrong symbol in its first line; the line's directory entry waits for the InvAck of the
sharer before it grants the line to the asker; the next correction takes the entry of MC_LOG that lies over D2D_STATUS of the port. -/
def strayLog (port : Nat) (asker sharer : Fin 65) : Mod :=
  ({ pwrgd := true, state := .active, active := 0xFFFF, mem := { wrong := [(0, [0])] },
     mc := { logOrder := [logIndexOf port] } :: List.replicate 23 {},
     dir := [{ line := 0, proxy := false, owner := none, agents := [sharer], members := [],
               busy := some { req := .rdX (.agent asker), await := [.agent sharer], data := [], push := none } }] } : Mod).setFld F.MC_CTL_ENABLE 1

theorem logIndexOf_addr : ∀ port ∈ [0, 16], F.MC_LOG_CH.addr 0 (logIndexOf port) = F.D2D_STATUS_STATE.addr port 0 := by decide

/-! ## The loss of compute die 0 (17 R442) -/

/-- An application core waits for tile core 0, which is on die 0. -/
def lineAtDie0 : State := ⟨[], strayLog 0 64 0⟩

/-- The state that the failure of die 0's own rail leaves. -/
def die0Lost : State := { lineAtDie0 with m := (lineAtDie0.m.clearOut.railFault 0 1).conclude.settle }

theorem exec_railFault_lineAtDie0 : exec (.railFault 0 1) lineAtDie0 = .next die0Lost := rfl

/-- The premises that O56 asks of a state before a rail fails. -/
theorem lineAtDie0_premises : lineAtDie0.m.quiet = true ∧ lineAtDie0.m.svcRun = none ∧ lineAtDie0.m.powered = true ∧
    lineAtDie0.m.state = .active := by decide +kernel

/-- The correction's entry has replaced the state Slate of die 0's port. -/
theorem die0Lost_port : die0Lost.m.fld F.D2D_STATUS_STATE 0 = 0 := by decide +kernel

/-- Refutes O56: its clause for the rail of a compute die says that the die's port is in Slate, but in `die0Lost` the correction that the loss
of the die set off was logged over D2D_STATUS of that port. -/
theorem not_supplyRuns : ¬ Obligations.SupplyRuns := by
  unfold Obligations.SupplyRuns
  intro h
  obtain ⟨hquiet, hsvc, hpowered, hactive⟩ := lineAtDie0_premises
  obtain ⟨-, -, -, -, -, hrails, -⟩ := h lineAtDie0 hquiet hsvc
  obtain ⟨-, -, -, -, hfault⟩ := hrails hpowered
  obtain ⟨t, ht, -, -, -, hslate, -⟩ := hfault 0 1 (by decide) hactive (.inl (by decide))
  rw [exec_railFault_lineAtDie0, Host.Outcome.next.injEq] at ht
  subst ht
  exact absurd (die0Lost_port.symm.trans (hslate (by decide))) (by decide)

/-! ## A scheduled reset of the management die (15 R416, Table 15.8) -/

/-- A tile core waits for the application cores, which port MP connects, and a reset of the management die is due. -/
def lineAtMgd : State := ⟨[], { strayLog 16 0 64 with svcResets := [⟨2, 0⟩] }⟩

/-- The state that the reset leaves; its boot inputs play no part. -/
def mgdReset : State := { lineAtMgd with m := (lineAtMgd.m.clearOut.svcReset noBoot).conclude.settle }

theorem exec_serviceResetDelay_lineAtMgd : exec (.serviceResetDelay noBoot) lineAtMgd = .next mgdReset := rfl

/-- The premises that O52 asks of a state before the reset. -/
theorem lineAtMgd_premises : lineAtMgd.m.quiet = true ∧ lineAtMgd.m.fld F.D2D_STATUS_STATE 16 ≠ 3 := by decide +kernel

/-- The correction's entry has replaced the state Slate of port MP. -/
theorem mgdReset_port : mgdReset.m.fld F.D2D_STATUS_STATE 16 = 0 := by decide +kernel

/-- Refutes O52: its clause for the scheduled reset says that port MP is in Slate, but in `mgdReset` the correction that the loss of the
application cores set off was logged over D2D_STATUS of that port. -/
theorem not_managementDieRestarts : ¬ Obligations.ManagementDieRestarts := by
  unfold Obligations.ManagementDieRestarts
  intro h
  obtain ⟨hquiet, hport⟩ := lineAtMgd_premises
  obtain ⟨-, -, hreset, -⟩ := h noBoot lineAtMgd hquiet
  obtain ⟨t, ht, -, -, -, hslate, -⟩ := hreset 0 [] rfl hport
  rw [exec_serviceResetDelay_lineAtMgd, Host.Outcome.next.injEq] at ht
  subst ht
  exact absurd (mgdReset_port.symm.trans hslate) (by decide)

end Sys2Proof.Machine

/-! # Proofs: the reduction engine (03 R66, R86, R87) -/

namespace Sys2Proof.Machine

open Sys2Proof

/-! ## A context with one resident operation -/

/-- The module whose context `q` has `o` as its only resident operation. -/
def Mod.withOp (m : Mod) (q : Nat) (o : ROp) : Mod := m.modCtx q (fun c => { c with ops := [o] })

theorem withOp_clearOut (m : Mod) (q : Nat) (o : ROp) :
    m.clearOut.withOp q o = { m.clearOut with ctxs := modNth m.ctxs q (fun c => { c with ops := [o] }) } := rfl

/-- A context that has operations is one of the module's. -/
theorem lt_length_of_ops {m : Mod} {q : Nat} {op : ROp} (h : (m.ctx q).ops = [op]) : q < m.ctxs.length := by
  by_contra hq
  simp [Mod.ctx, nth, List.getD_eq_getElem?_getD, List.getElem?_eq_none (not_lt.mp hq)] at h

theorem ops_withOp {m : Mod} {q : Nat} {op : ROp} (o : ROp) (h : (m.ctx q).ops = [op]) : ((m.withOp q o).ctx q).ops = [o] := by
  rw [Mod.withOp, ctx_modCtx_self _ _ _ (lt_length_of_ops h)]

@[simp] theorem withOp_withOp (m : Mod) (q : Nat) (o o' : ROp) : (m.withOp q o).withOp q o' = m.withOp q o' :=
  congrArg (fun l => ({ m with ctxs := l } : Mod)) (modNth_modNth _ _ _ _)

theorem op?_sole {m : Mod} {q : Nat} {op : ROp} (h : (m.ctx q).ops = [op]) : m.op? q op.seq = some op := by simp [Mod.op?, h]

/-- A change of the only resident operation. -/
theorem modOp_sole {m : Mod} {q : Nat} {op : ROp} (f : ROp → ROp) (h : (m.ctx q).ops = [op]) : m.modOp q op.seq f = m.withOp q (f op) := by
  refine congrArg (fun l => ({ m with ctxs := l } : Mod)) (modNth_congr {} ?_)
  have hops : (nth m.ctxs q {}).ops = [op] := h
  simp [hops]

/-- Where nothing waits, no resident operation is a collective that runs (12 R341). -/
theorem coll_none_of_quiet {m : Mod} {q : Nat} {op : ROp} (hq : m.quiet = true) (h : (m.ctx q).ops = [op]) : op.coll = none := by
  simp only [Mod.quiet, Mod.idle, Mod.collQuiet, Bool.and_eq_true, List.all_eq_true, Option.isNone_iff_eq_none] at hq
  obtain ⟨⟨⟨-, hc⟩, -⟩, -⟩ := hq
  have hm : m.ctx q ∈ m.ctxs := by
    unfold Mod.ctx nth
    rw [List.getD_eq_getElem _ _ (lt_length_of_ops h)]
    exact List.getElem_mem _
  exact hc _ hm op (by simp [h])

theorem quiet_withOp {m : Mod} {q : Nat} {o : ROp} (hq : m.quiet = true) (ho : o.coll = none) : (m.withOp q o).quiet = true := by
  have hcoll : m.collQuiet = true := by
    simp only [Mod.quiet, Mod.idle, Bool.and_eq_true] at hq
    exact hq.1.1.2
  exact quiet_ctxs hq rfl rfl rfl rfl (collQuiet_modNth _ _ _ hcoll (fun _ _ => by simp [ho]))

/-- An effect on the contexts alone puts nothing out, and settling it changes no register and no byte. -/
theorem onlyRegs_ctxs (m : Mod) (l : List Ctx) :
    ({ m.clearOut with ctxs := l } : Mod).settle.out = [] ∧ OnlyRegs [] { m with ctxs := l } ({ m.clearOut with ctxs := l } : Mod).settle :=
  ⟨rfl, onlyRegs_settle rfl rfl (fun _ _ => rfl)⟩

/-! ## Partial sums arrive (03 R66, R86) -/

/-- The operation after `n` partial sums of a die have reached the staging store. -/
def ROp.partialsIn (op : ROp) (die n : Nat) : ROp :=
  { op with parts := op.parts.map (fun p => if p.1 = die then (p.1, p.2.1, p.2.2.1 - n, p.2.2.2) else p) }

/-- They are taken if the die's repair map is locked and the store then holds no more than it can. -/
theorem partialArrives_sole {m : Mod} {q : Nat} {op : ROp} (die n : Nat) (h : (m.ctx q).ops = [op]) (hst : op.st = .dispatched)
    (hp : op.parts.any (fun p => p.1 == die && p.2.2.1 != 0) = true) :
    m.partialArrives q die n =
      { m with
        ctxs := if m.fld F.ECD_REPAIR_CTL_LOCK die ≠ 0 ∧ (m.withOp q (op.partialsIn die n)).stagedPartials ≤ 0x800000
                then (m.withOp q (op.partialsIn die n)).ctxs else m.ctxs } := by
  have hfind : (m.ctx q).ops.find? (fun o => o.st == .dispatched && o.parts.any (fun p => p.1 == die && p.2.2.1 != 0)) = some op := by
    rw [h, List.find?_cons_of_pos (by rw [hst, hp]; rfl)]
  have htaken := modOp_sole (fun o => o.partialsIn die n) h
  unfold ROp.partialsIn at htaken ⊢
  simp only [Mod.partialArrives, hfind, htaken]
  by_cases hlock : m.fld F.ECD_REPAIR_CTL_LOCK die = 0
  · rw [if_pos hlock, if_neg (fun hc => hc.1 hlock)]
  · rw [if_neg hlock]
    split
    · next hfull => rw [if_neg (fun hc => absurd hc.2 (not_le.mpr hfull))]
    · next hroom => rw [if_pos ⟨hlock, not_lt.mp hroom⟩]; rfl

/-! ## The reduction engine's writes and its report (03 R87; 07 Table 07.1) -/

/-- The only resident operation becomes REPORTED when, with the engine's report taken up, nothing is missing; an EVICT places its banks
besides. -/
theorem checkReported_sole {m : Mod} {q : Nat} {op o : ROp} (h : (m.ctx q).ops = [op]) (hset : op.redSettled = o) (hseq : o.seq = op.seq)
    (hst : o.st = .dispatched) (hok : o.status = .ok) (hcomp : o.computed = true) (htiles : o.tiles = []) (hred : o.redDone = true)
    (hcoll : o.coll = none) (hopen : o.open_ = []) (hev : opcodeOf o.desc ≠ 0x93) :
    m.checkReported q op.seq = m.withOp q { o with st := .reported } := by
  have ho := ops_withOp o h
  have hevict : (opcodeOf o.desc == 0x93) = false := by simpa using hev
  have hall : o.open_.all (fun p => p.key / 8 % 4 == 3) = true := by rw [hopen]; rfl
  have hfind : (m.withOp q o).op? q op.seq = some o := hseq ▸ op?_sole ho
  have hrep : (m.withOp q o).modOp q op.seq (fun o => { o with st := .reported }) = m.withOp q { o with st := .reported } := by
    rw [← hseq, modOp_sole _ ho, withOp_withOp]
  simp only [Mod.checkReported, modOp_sole _ h, hset, hfind, hevict, hrep, Bool.false_eq_true, if_false]
  exact if_pos ⟨hst, hok, hcomp, htiles, hred, by rw [hcoll]; rfl, hall, rfl⟩

section

/-! Every partial sum of the only resident operation is in, and the engine has not issued its writes. -/

variable {m : Mod} {q : Nat} {op : ROp} (h : (m.ctx q).ops = [op]) (hst : op.st = .dispatched) (hcomp : op.computed = true)
  (hred : op.redDone = false) (hwrite : op.redWrite = false) (hin : op.parts.all (fun p => p.2.2.1 == 0) = true)

include h hst hcomp hred hwrite hin

/-- The held writes are issued, and the engine reports if they are performed at once. -/
theorem reductionDone_sole :
    m.reductionDone q = ((m.withOp q { op with held := [], redWrite := true }).issueWrites q op.seq op.held true).checkReported q op.seq := by
  have hfind : (m.ctx q).ops.find? (fun o => o.st == .dispatched && o.computed && !o.redDone && !o.redWrite) = some op := by
    rw [h, List.find?_cons_of_pos (by rw [hst, hcomp, hred, hwrite]; rfl)]
  have hnone : op.parts.any (fun p => p.2.2.1 != 0) = false := by simpa [List.any_eq_false] using hin
  simp only [Mod.reductionDone, hfind, hnone, Bool.false_eq_true, if_false, modOp_sole _ h]

/-- An engine that holds no writes reports at once. -/
theorem reductionDone_of_held_nil (hheld : op.held = []) (hok : op.status = .ok) (htiles : op.tiles = []) (hcoll : op.coll = none)
    (hopen : op.open_ = []) (hev : opcodeOf op.desc ≠ 0x93) :
    m.reductionDone q = m.withOp q { op with redDone := true, st := .reported } := by
  have hissue : ∀ n : Mod, n.issueWrites q op.seq op.held true = n := fun n => by rw [hheld]; rfl
  have hset : ({ op with held := [], redWrite := true } : ROp).redSettled = { op with redDone := true } := by
    simp [ROp.redSettled, hopen, hheld, hwrite]
  have hrep := checkReported_sole (ops_withOp { op with held := [], redWrite := true } h) hset rfl hst hok hcomp htiles rfl hcoll hopen hev
  rw [reductionDone_sole h hst hcomp hred hwrite hin, hissue]
  exact hrep.trans (withOp_withOp _ _ _ _)

end

/-- Settles O15: the staging store takes the partial sums of a locked die while it has room; once all are in, the engine issues the held
writes, and where it holds none the operation is REPORTED. -/
theorem reductionEngine : Obligations.ReductionEngine := by
  unfold Obligations.ReductionEngine
  intro q die n s op hquiet hop hst
  refine ⟨fun hparts => ?arrival, fun hcomp hred hwrite hin => ⟨?writes, fun hheld hok htiles hopen hev => ?report⟩⟩
  case arrival =>
    have heff := partialArrives_sole (m := s.m.clearOut) die.val n hop hst hparts
    refine answers_run (exec_partialSumArrival q die n s) ?_
    rw [heff]
    exact onlyRegs_ctxs s.m _
  case writes =>
    have heff := reductionDone_sole (m := s.m.clearOut) hop hst hcomp hred hwrite hin
    refine answers_run (f := fun m => (m.reductionDone q).conclude) (exec_reductionComplete q s) ?_
    rw [heff, withOp_clearOut]
  case report =>
    have hcoll := coll_none_of_quiet hquiet hop
    have heff := reductionDone_of_held_nil (m := s.m.clearOut) hop hst hcomp hred hwrite hin hheld hok htiles hcoll hopen hev
    refine answers_runF (exec_reductionComplete q s) ?_ ?_ ?_ <;> rw [heff]
    · exact quiet_withOp (m := s.m.clearOut) hquiet hcoll
    · rfl
    · exact onlyRegs_ctxs s.m _

end Sys2Proof.Machine

/-! # Proofs: an operation is dispatched and waits for its inputs (04 R114; 07 R204, Table 07.1) -/

namespace Sys2Proof.Machine

open Sys2Proof

/-! ## The commands that dispatch an operation -/

/-- The context and the opcode of a command that dispatches an array operation, a collective or an ATOMIC. -/
def dispatchRow : Instr → Option (Fin 4 × Nat)
  | .contract q => some (q, 0x10)
  | .contractSparse q => some (q, 0x11)
  | .contractSplit32 q => some (q, 0x12)
  | .contractWindow q => some (q, 0x13)
  | .attend q => some (q, 0x30)
  | .attendPaged q => some (q, 0x31)
  | .scanLinear q => some (q, 0x40)
  | .scanAssoc q => some (q, 0x41)
  | .map q => some (q, 0x50)
  | .map2 q => some (q, 0x51)
  | .norm q => some (q, 0x52)
  | .softmax q => some (q, 0x53)
  | .quantize q => some (q, 0x54)
  | .topk q => some (q, 0x55)
  | .sort q => some (q, 0x56)
  | .reduce q => some (q, 0x70)
  | .gather q => some (q, 0x80)
  | .scatter q => some (q, 0x81)
  | .scatterAdd q => some (q, 0x82)
  | .copy q => some (q, 0x90)
  | .fill q => some (q, 0x91)
  | .prefetch q => some (q, 0x92)
  | .evict q => some (q, 0x93)
  | .allreduce q => some (q, 0xA0)
  | .reduceScatter q => some (q, 0xA1)
  | .allgather q => some (q, 0xA2)
  | .alltoall q => some (q, 0xA3)
  | .broadcast q => some (q, 0xA4)
  | .send q => some (q, 0xA5)
  | .recv q => some (q, 0xA6)
  | .atomic q => some (q, 0xB0)
  | _ => none

theorem exec_of_dispatchRow {c : Instr} {q : Fin 4} {code : Nat} (h : dispatchRow c = some (q, code)) (s : State) :
    exec c s = s.runF (fun m => m.opRow q code) := by
  unfold dispatchRow at h
  split at h
  all_goals cases h
  all_goals rfl

/-! ## The module with the operation dispatched -/

/-- An operation that rounds stochastically and has no count of the context takes one at its dispatch (04 R114). -/
def ROp.takesCount (op : ROp) : Bool := op.srCount.isNone && rndOf op.desc == 2

/-- The context's count after that. -/
def Mod.takeCount (m : Mod) (q : Nat) (op : ROp) : Mod := if op.takesCount then m.addFld F.SQ_SR_COUNT_COUNT 1 q else m

/-- The operation DISPATCHED: its tick is latched, and its count. -/
def Mod.dispatchedOp (m : Mod) (q : Nat) (op : ROp) : ROp :=
  { op with st := .dispatched, dispTick := some m.ticks,
            srCount := if op.takesCount then some (m.fld F.SQ_SR_COUNT_COUNT q) else op.srCount }

/-- The module with its context's only resident operation dispatched. -/
def Mod.dispatch (m : Mod) (q : Nat) (op : ROp) : Mod :=
  { m.takeCount q op with ctxs := modNth m.ctxs q (fun c => { c with ops := [m.dispatchedOp q op] }) }

theorem srCountAddr_apart (q : Fin 4) :
    F.DIR_STATUS_DRAINING.addr 0 0 ≠ F.SQ_SR_COUNT_COUNT.addr q 0 ∧ F.REG_NOW_NOW.addr 0 0 ≠ F.SQ_SR_COUNT_COUNT.addr q 0 ∧
    F.REG_NOW_HIGH.addr 0 0 ≠ F.SQ_SR_COUNT_COUNT.addr q 0 := by
  revert q
  decide

section

variable (m : Mod) (q : Fin 4) (op : ROp)

/-- Taking the count changes the register table alone. -/
theorem takeCount_regs : m.takeCount q op = { m with regs := (m.takeCount q op).regs } := by
  unfold Mod.takeCount
  split <;> rfl

theorem reg_takeCount_ne {a : Nat} (h : a ≠ F.SQ_SR_COUNT_COUNT.addr q 0) : (m.takeCount q op).reg a = m.reg a := by
  unfold Mod.takeCount
  split
  · exact reg_setFld_ne m _ _ _ _ _ h
  · rfl

theorem fld_takeCount_ne {f : Fld} (i : Nat) (h : f.addr i 0 ≠ F.SQ_SR_COUNT_COUNT.addr q 0) :
    (m.takeCount q op).fld f i = m.fld f i := by
  simp only [Mod.fld, reg_takeCount_ne m q op h]

/-- The count is a field of 40 bits that wraps. -/
theorem fld_takeCount_self :
    (m.takeCount q op).fld F.SQ_SR_COUNT_COUNT q = (m.fld F.SQ_SR_COUNT_COUNT q + if op.takesCount then 1 else 0) % 2 ^ 40 := by
  unfold Mod.takeCount
  split
  · exact fld_setFld_self m F.SQ_SR_COUNT_COUNT _ q 0 0 (by decide)
  · exact (Nat.mod_eq_of_lt (fld_lt m F.SQ_SR_COUNT_COUNT q 0 0)).symm

theorem ticks_takeCount : (m.takeCount q op).ticks = m.ticks := by
  obtain ⟨-, hnow, hhigh⟩ := srCountAddr_apart q
  simp only [Mod.ticks, fld_takeCount_ne m q op 0 hnow, fld_takeCount_ne m q op 0 hhigh]

theorem dispatch_eq_withOp : m.dispatch q op = (m.takeCount q op).withOp q (m.dispatchedOp q op) := by
  have hctxs : (m.takeCount q op).ctxs = m.ctxs := by rw [takeCount_regs]
  rw [Mod.withOp, Mod.modCtx, hctxs]
  rfl

/-- A module where nothing waits still has nothing waiting: the count is no register of the directory. -/
theorem quiet_takeCount : (m.takeCount q op).quiet = m.quiet := by
  obtain ⟨hdrain, -, -⟩ := srCountAddr_apart q
  have hd := fld_takeCount_ne m q op 0 hdrain
  refine quiet_congr ?_ ?_ ?_ (memQuiet_congr ?_ ?_ ?_ ?_ ?_ hd) (svcReady_congr ?_ ?_ ?_) <;> rw [takeCount_regs]

variable {m q op}

theorem ops_takeCount (h : (m.ctx q).ops = [op]) : ((m.takeCount q op).ctx q).ops = [op] := by
  rw [takeCount_regs]
  exact h

theorem ops_dispatch (h : (m.ctx q).ops = [op]) : ((m.dispatch q op).ctx q).ops = [m.dispatchedOp q op] := by
  rw [dispatch_eq_withOp]
  exact ops_withOp _ (ops_takeCount h)

theorem quiet_dispatch (hq : m.quiet = true) (h : (m.ctx q).ops = [op]) : (m.dispatch q op).quiet = true := by
  rw [dispatch_eq_withOp]
  exact quiet_withOp ((quiet_takeCount m q op).trans hq) (coll_none_of_quiet (op := op) hq h)

end

/-- Nothing but the registers and the contexts changes. -/
theorem dispatch_regs_ctxs (m : Mod) (q : Fin 4) (op : ROp) :
    m.dispatch q op = { m with regs := (m.takeCount q op).regs, ctxs := (m.dispatch q op).ctxs } := by
  unfold Mod.dispatch
  rw [takeCount_regs]

/-- A dispatch changes the context and the context's count. -/
theorem onlyRegs_dispatch (m : Mod) (q : Fin 4) (op : ROp) :
    OnlyRegs [F.SQ_SR_COUNT_COUNT.addr q 0] { m with ctxs := (m.clearOut.dispatch q op).ctxs } (m.clearOut.dispatch q op).settle := by
  refine onlyRegs_settle ?_ ?_ (fun a ha => reg_takeCount_ne m.clearOut q op (List.ne_of_not_mem_cons ha))
  · unfold SameRest
    rw [dispatch_regs_ctxs]
    rfl
  · rw [dispatch_regs_ctxs]
    rfl

/-! ## What a dispatch runs -/

/-- The bytes of a read are here. -/
def ROp.holds (op : ROp) (p : Piece) : Bool := op.got.any (fun x => x.1.key == p.key)

/-- A read is open, or its bytes are here. -/
def ROp.asked (op : ROp) (p : Piece) : Bool := op.open_.any (fun x => x.key == p.key) || op.holds p

/-- The row of an opcode dispatches the only resident operation, runs it, and issues the head reads of what is staged. -/
theorem opRow_sole {m : Mod} {q : Fin 4} {op : ROp} {code : Nat} (h : (m.ctx q).ops = [op]) (hcode : opcodeOf op.desc = code)
    (hgo : m.canDispatch q op = true) (hbad : op.bad = none) :
    m.opRow q code = (((m.dispatch q op).opRun q op.seq).checkReported q op.seq).issueHeads q := by
  have hst : op.st = .staged := by
    simp only [Mod.canDispatch, Bool.and_eq_true, beq_iff_eq] at hgo
    tauto
  have hfind : (m.ctx q).ops.find? (fun o => o.st == .staged && opcodeOf o.desc == code) = some op := by
    rw [h, List.find?_cons_of_pos (by simp [hst, hcode])]
  have hdisp : (m.takeCount q op).modOp q op.seq (fun o => { o with
      st := .dispatched, dispTick := some (m.takeCount q op).ticks,
      srCount := if op.takesCount then some (m.fld F.SQ_SR_COUNT_COUNT q) else o.srCount }) = m.dispatch q op := by
    rw [modOp_sole _ (ops_takeCount h), ticks_takeCount, dispatch_eq_withOp]
    rfl
  rw [← hdisp]
  simp only [Mod.opRow, hfind, hgo, hbad, Bool.not_true, Bool.false_eq_true, if_false]
  rfl

section

/-! One operation is resident in the context. -/

variable {m : Mod} {q : Nat} {op : ROp} (h : (m.ctx q).ops = [op])

include h

theorem withOp_self : m.withOp q op = m := by
  have hid : modNth m.ctxs q (fun c => { c with ops := [op] }) = modNth m.ctxs q id := modNth_congr {} (h ▸ rfl)
  rw [Mod.withOp, Mod.modCtx, hid, modNth_id]

/-- A PREFETCH that no earlier operation precedes meets none (06 R194). -/
theorem prefetchStarts_sole : m.prefetchStarts q op = m := by
  have hmeets : m.prefetchMeets q op = [] := by
    unfold Mod.prefetchMeets
    split
    · rfl
    · simp [Ctx.before, h]
  simp [Mod.prefetchStarts, hmeets]

/-- A read that is open, or whose bytes are here, is not issued again. -/
theorem issueRead_of_asked {p : Piece} (hp : op.asked p = true) :
    m.issueRead q op.seq p = m := by
  rw [ROp.asked, ROp.holds, Bool.or_eq_true] at hp
  simp only [Mod.issueRead, op?_sole h]
  exact if_pos (by tauto)

theorem readLevel_of_asked {lvl : Nat}
    (hasked : ∀ p ∈ (m.envOf q op).pieces lvl, op.asked p = true) :
    m.readLevel q op.seq lvl = (m, op.status == .ok && op.st != .reload && ((m.envOf q op).pieces lvl).all op.holds) := by
  have hissue : ((m.envOf q op).pieces lvl).foldl (fun m p => m.issueRead q op.seq p) m = m :=
    List.foldlRecOn (motive := fun n => n = m) _ _ rfl (fun n hn p hp => hn ▸ issueRead_of_asked (hn ▸ h) (hasked p hp))
  simp only [Mod.readLevel, op?_sole h, hissue]
  rfl

/-- An operation that waits for bytes of its first level does nothing more. -/
theorem opRun_of_waiting (hatomic : opcodeOf op.desc ≠ 0xB0)
    (hasked : ∀ p ∈ (m.envOf q op).pieces 0, op.asked p = true)
    (hmissing : ∃ p ∈ (m.envOf q op).pieces 0, op.holds p = false) : m.opRun q op.seq = m := by
  have hall : ((m.envOf q op).pieces 0).all op.holds = false :=
    List.all_eq_false.mpr (by simpa using hmissing)
  have hlevel : m.readLevel q op.seq 0 = (m, false) := by rw [readLevel_of_asked h hasked, hall, Bool.and_false]
  simp only [Mod.opRun, op?_sole h, prefetchStarts_sole h, ite_self, hatomic, if_false, hlevel]

/-- An operation that has not computed reports nothing. -/
theorem checkReported_of_not_computed (hcomp : op.computed = false) (hwrite : op.redWrite = false) : m.checkReported q op.seq = m := by
  have hset : op.redSettled = op := by simp [ROp.redSettled, hwrite]
  have hsame : m.modOp q op.seq ROp.redSettled = m := by rw [modOp_sole _ h, hset, withOp_self h]
  simp only [Mod.checkReported, hsame, op?_sole h, hcomp]
  simp

/-- Only what is staged has head reads (07 R203). -/
theorem issueHeads_of_not_staged (hst : op.st ≠ .staged) : m.issueHeads q = m := by
  simp [Mod.issueHeads, h, hst]

end

/-- A dispatch whose reads are open: nothing but the dispatch itself happens. -/
theorem opRow_of_waiting {m : Mod} {q : Fin 4} {op : ROp} {code : Nat} (h : (m.ctx q).ops = [op]) (hcode : opcodeOf op.desc = code)
    (hgo : m.canDispatch q op = true) (hbad : op.bad = none) (hcomp : op.computed = false) (hwrite : op.redWrite = false) (hatomic : code ≠ 0xB0)
    (hasked : ∀ p ∈ ((m.dispatch q op).envOf q (m.dispatchedOp q op)).pieces 0, op.asked p = true)
    (hmissing : ∃ p ∈ ((m.dispatch q op).envOf q (m.dispatchedOp q op)).pieces 0, op.holds p = false) :
    m.opRow q code = m.dispatch q op := by
  have hops := ops_dispatch h
  have hrun : (m.dispatch q op).opRun q op.seq = m.dispatch q op :=
    opRun_of_waiting (op := m.dispatchedOp q op) hops (fun hc => hatomic (hcode.symm.trans hc)) hasked hmissing
  have hreport : (m.dispatch q op).checkReported q op.seq = m.dispatch q op :=
    checkReported_of_not_computed (op := m.dispatchedOp q op) hops hcomp hwrite
  rw [opRow_sole h hcode hgo hbad, hrun, hreport]
  exact issueHeads_of_not_staged hops (fun hst => OpSt.noConfusion hst)

/-- Settles O11: the row dispatches the operation, its run stops at the reads that are open, and the module where nothing waits stays one. -/
theorem operationsDispatch : Obligations.OperationsDispatch := by
  unfold Obligations.OperationsDispatch
  intro r hr q s op hquiet hop hcode hgo hbad hcomp hwrite first count op1 m1 hasked hmissing
  obtain ⟨hatomic, hrow⟩ := (by decide : ∀ x ∈ _, x.2 ≠ 0xB0 ∧ ∀ q, dispatchRow (x.1 q) = some (q, x.2)) r hr
  have heff : s.m.clearOut.opRow q r.2 = s.m.clearOut.dispatch q op :=
    opRow_of_waiting (m := s.m.clearOut) hop hcode hgo hbad hcomp hwrite hatomic hasked hmissing
  have hout : (s.m.clearOut.dispatch q op).out = [] := by
    rw [dispatch_regs_ctxs]
    rfl
  refine answers_runF (exec_of_dispatchRow (hrow q) s) ?_ ?_ ?_ <;> rw [heff]
  · exact quiet_dispatch (m := s.m.clearOut) hquiet hop
  · rw [hout]
    rfl
  · refine ⟨hout, ?_, onlyRegs_dispatch s.m q op⟩
    rw [fld_settle]
    exact fld_takeCount_self s.m.clearOut q op

end Sys2Proof.Machine

/-! # Proofs: control operations (05 R154, Table 05.10) -/

namespace Sys2Proof.Machine

open Sys2Proof

/-- The comparison of a BRANCH_IF: the flag's distance from the reference, by the condition's code (05 R154). -/
def Mod.BranchHolds (m : Mod) (d : Desc) : Prop :=
  let diff := (m.flag (ops d 0x58 2) + 2 ^ 32 - ops d 0x5C 4) % 2 ^ 32
  if ops d 0x5A 1 = 0 then diff < 2 ^ 31 else if ops d 0x5A 1 = 1 then diff = 0 else if ops d 0x5A 1 = 2 then diff ≠ 0 else 2 ^ 31 ≤ diff

/-- The module after a control operation has acted: it is REPORTED, with the address the fetch unit goes on from. -/
def Mod.passed (m : Mod) (q : Nat) (op : ROp) (next : Option Nat) : Mod :=
  m.modOp q op.seq (fun o => { o with st := .reported, computed := true, next := next })

section
variable {m : Mod} {q : Nat} {op : ROp} {rest : List ROp} (hops : (m.ctx q).ops = op :: rest) (hst : op.st = .staged)
  (htr : (m.ctx q).trapped = false) (hab : (m.ctx q).aborting = false)

include hops hst htr hab

theorem controlRow_passes {opcode : Nat} (ho : opcodeOf op.desc = opcode) (hne : opcode ≠ 0x02) :
    m.controlRow q opcode = m.passed q op none := by
  simp [Mod.controlRow, Mod.passed, hops, hst, htr, hab, ho, hne]

/-- A BRANCH_IF goes to its target when its comparison holds, else on to the descriptor after it. -/
theorem controlRow_branchIf (ho : opcodeOf op.desc = 0x02) :
    (m.BranchHolds op.desc → m.controlRow q 0x02 = m.passed q op (some (ops op.desc 0x50 8))) ∧
    (¬m.BranchHolds op.desc → m.controlRow q 0x02 = m.passed q op (some (op.addr + 128))) := by
  unfold Mod.BranchHolds
  rcases hk : ops op.desc 0x5A 1 with _ | _ | _ | k <;>
    constructor <;> intro h <;>
    simp_all [Mod.controlRow, Mod.passed]
  all_goals rw [if_neg (by omega)]

end

/-- Passing a control operation changes its entry of the context and nothing else. -/
theorem onlyRegs_passed (m : Mod) (q : Nat) (op : ROp) (next : Option Nat) :
    OnlyRegs [] { m with ctxs := modNth m.ctxs q (fun c => { c with
      ops := c.ops.map (fun o => if o.seq = op.seq then { o with st := .reported, computed := true, next := next } else o) }) }
      (m.clearOut.passed q op next).settle :=
  onlyRegs_settle rfl rfl (fun _ _ => rfl)

/-- Settles O9: the oldest operation's row rewrites its entry of the context, with the target of its comparison for a BRANCH_IF. -/
theorem controlOperations : Obligations.ControlOperations := by
  unfold Obligations.ControlOperations
  intro q s op rest hops hst htr hab d diff holds passes
  have hpass : ∀ {c : Instr} {opcode : Nat} {next : Option Nat}, exec c s = s.run (fun m => m.controlRow q.val opcode) →
      s.m.clearOut.controlRow q.val opcode = s.m.clearOut.passed q.val op next → Answers c s (passes next) := by
    intro c opcode next hc he
    refine answers_run hc ?_
    rw [he]
    exact ⟨rfl, onlyRegs_passed s.m q.val op next⟩
  have hbranch := controlRow_branchIf (m := s.m.clearOut) hops hst htr hab
  have hplain := @controlRow_passes s.m.clearOut q.val op rest hops hst htr hab
  exact ⟨fun ho h => hpass rfl ((hbranch ho).1 h), fun ho h => hpass rfl ((hbranch ho).2 h),
    fun ho => hpass rfl (hplain ho (by decide)), fun ho => hpass rfl (hplain ho (by decide)),
    fun ho => hpass rfl (hplain ho (by decide)), fun ho => hpass rfl (hplain ho (by decide)),
    fun ho => hpass rfl (hplain ho (by decide))⟩

end Sys2Proof.Machine

/-! # Proofs: flags (05 R142, R156, R157) -/

namespace Sys2Proof.Machine

open Sys2Proof

/-- What passing the waits does to one operation: its wait passes when it holds (05 R157). -/
def Mod.passWait (m : Mod) (o : ROp) : ROp :=
  if o.st = .fetched ∧ waitBefore o.desc = true ∧ m.waitHolds o.desc = true then { o with waitPassed := true } else o

theorem waitHolds_congr {m n : Mod} {d : Desc} (h : n.flag (waitFlagOf d) = m.flag (waitFlagOf d)) : n.waitHolds d = m.waitHolds d := by
  unfold Mod.waitHolds
  rw [h]

@[simp] theorem flag_settle (m : Mod) (i : Nat) : m.settle.flag i = m.flag i := fld_settle m _ _ _ _

@[simp] theorem waitHolds_settle (m : Mod) (d : Desc) : m.settle.waitHolds d = m.waitHolds d :=
  waitHolds_congr (flag_settle m _)

/-- The operation waits on a flag whose wait holds in `m`, and has not passed. -/
theorem waitPassed_passWait (m : Mod) (o : ROp) (hst : (m.passWait o).st = .fetched) (hw : waitBefore (m.passWait o).desc = true)
    (hh : m.waitHolds (m.passWait o).desc = true) : (m.passWait o).waitPassed = true := by
  by_cases h : o.st = .fetched ∧ waitBefore o.desc = true ∧ m.waitHolds o.desc = true
  · rw [Mod.passWait, if_pos h]
  · rw [Mod.passWait, if_neg h] at hst hw hh
    exact absurd ⟨hst, hw, hh⟩ h

/-- Passing a wait changes nothing of the operation but whether its wait has passed. -/
theorem unwaited_passWait (m : Mod) (o : ROp) : { m.passWait o with waitPassed := false } = { o with waitPassed := false } := by
  unfold Mod.passWait
  split <;> rfl

theorem map_unwaited_passWait (m : Mod) (l : List ROp) :
    (l.map m.passWait).map (fun o => { o with waitPassed := false }) = l.map (fun o => { o with waitPassed := false }) := by
  rw [List.map_map]
  exact List.map_congr_left fun o _ => unwaited_passWait m o

theorem ctxs_passWaits (m : Mod) : m.passWaits.ctxs = m.ctxs.map (fun c => { c with ops := c.ops.map m.passWait }) := rfl

/-- Passing the waits leaves every operation whose wait holds with its wait passed. -/
theorem waitPassed_of_mem_passWaits {m : Mod} {c : Ctx} (hc : c ∈ m.passWaits.ctxs) {o : ROp} (ho : o ∈ c.ops) (hst : o.st = .fetched)
    (hw : waitBefore o.desc = true) (hh : m.waitHolds o.desc = true) : o.waitPassed = true := by
  rw [ctxs_passWaits, List.mem_map] at hc
  obtain ⟨c, -, rfl⟩ := hc
  obtain ⟨o, -, rfl⟩ := List.mem_map.mp ho
  exact waitPassed_passWait m o hst hw hh

/-- A flag reads as the value written to it, cut to its 32 bits. -/
theorem flag_setFlag (m : Mod) (i v : Nat) : (m.setFlag i v).flag i = v % 2 ^ 32 :=
  fld_setFld_self m F.HUB_FLAG_VALUE v 0 i 0 (by decide)

/-- A write of a flag changes its register and the waits that pass. -/
theorem onlyRegs_setFlag (m : Mod) (i v : Nat) :
    OnlyRegs [F.HUB_FLAG_VALUE.addr 0 i] { m with ctxs := (m.setFlag i v).ctxs } ((m.clearOut.setFlag i v).emit (.done .ok [])).settle :=
  onlyRegs_settle rfl rfl fun _ ha => reg_setFld_ne m _ v 0 i 0 (by simpa using ha)

/-- What flag `n` written with `v` leaves, by the register's row: the value, the waits passed, nothing else. -/
theorem setFlag_written (m : Mod) (n v : Nat) :
    let t := ((m.clearOut.setFlag n v).emit (.done .ok [])).settle
    let unwaited := fun (c : Ctx) => ({ c with ops := c.ops.map (fun o => { o with waitPassed := false }) } : Ctx)
    t.flag n = v % 2 ^ 32 ∧ t.out = [.done .ok []] ∧ OnlyRegs [F.HUB_FLAG_VALUE.addr 0 n] { m with ctxs := t.ctxs } t ∧
    t.ctxs.map unwaited = m.ctxs.map unwaited ∧
    ∀ c ∈ t.ctxs, ∀ o ∈ c.ops, o.st = .fetched → waitBefore o.desc = true → t.waitHolds o.desc = true → o.waitPassed = true := by
  intro t unwaited
  refine ⟨?_, rfl, onlyRegs_setFlag m n v, ?_, fun c hc o ho hst hw hh => ?_⟩
  · rw [flag_settle]
    exact flag_setFlag m.clearOut n v
  · show (List.map _ m.ctxs).map unwaited = _
    rw [List.map_map]
    refine List.map_congr_left fun c _ => ?_
    exact congrArg (fun l => ({ c with ops := l } : Ctx)) (map_unwaited_passWait _ c.ops)
  · rw [waitHolds_settle] at hh
    exact waitPassed_of_mem_passWaits (m := m.clearOut.setFld F.HUB_FLAG_VALUE v 0 n) hc ho hst hw hh

/-- Settles O4: a write of a flag is its register's field and the waits that then hold. -/
theorem flagWritten : Obligations.FlagWritten := by
  unfold Obligations.FlagWritten
  refine ⟨fun ag n data s hag => ⟨answers_run (exec_flagWrite ag n data s) ?_, answers_run (exec_flagAdd ag n data s) ?_⟩, fun q s hq => ?_⟩
  · have h := setFlag_written s.m n (data.toNat % 2 ^ 32)
    rw [Nat.mod_mod] at h
    rw [byAgent_ok hag rfl]
    exact h
  · have h := setFlag_written s.m n (s.m.flag n + data.toNat % 2 ^ 32)
    rw [Nat.add_mod_mod] at h
    rw [byAgent_ok hag rfl]
    exact h
  · have hops : ((s.m.clearOut.modCtx q (fun c => { c with ops := c.ops.map s.m.passWait })).ctx q).ops = (s.m.ctx q).ops.map s.m.passWait := by
      rw [ctx_modCtx_self (m := s.m.clearOut) _ _ hq, ctx_clearOut]
    refine answers_run (exec_flagWaitPass q s) ⟨fun o ho hst hw hh => ?_, ?_, onlyRegs_settle rfl rfl fun _ _ => rfl⟩
    · rw [waitHolds_settle] at hh
      obtain ⟨o, -, rfl⟩ := List.mem_map.mp (hops ▸ ho)
      exact waitPassed_passWait s.m o hst hw hh
    · exact (congrArg _ hops).trans (map_unwaited_passWait s.m _)

end Sys2Proof.Machine

/-! # Proofs: ring pointers (05 R126, R128, Tables 05.16, 05.18) -/

namespace Sys2Proof.Machine

open Sys2Proof

/-- A write of one field of a sequencer's register, as its row leaves it. -/
theorem onlyRegs_fieldWritten (m : Mod) (f : Fld) (v i : Nat) :
    OnlyRegs [f.addr i 0] m ((m.clearOut.setFld f v i).emit (.done .ok [])).settle :=
  onlyRegs_settle rfl rfl fun _ ha => reg_setFld_ne m f v i 0 0 (by simpa using ha)

/-- A write that its register takes, by what the register's rule answers. -/
theorem byAgent_taken {m n : Mod} {ag : Agent} {addr : Nat} {f : Mod → Mod × Status} (h : regAgent ag = true) (hf : f m = (n, .ok)) :
    m.byAgent ag addr f = n.emit (.done .ok []) := by
  rw [byAgent_ok h (by rw [hf]), hf]

/-- TAIL is taken when the ring then holds no more slots than it has (05 R128). -/
theorem ringTail_of_allowed {m : Mod} {q v : Nat} (hdis : m.ctxDisabled q = false) (hlost : (m.ctx q).dieLost = false)
    (hring : m.fld F.SQ_RING_BASE_LOG2_SLOTS q ≠ 0) (hcpl : m.fld F.SQ_CPL_BASE_LOG2_SLOTS q ≠ 0)
    (hroom : (v % 2 ^ 32 + 2 ^ 32 - m.fld F.SQ_RING_HEAD_HEAD q) % 2 ^ 32 ≤ 2 ^ m.fld F.SQ_RING_BASE_LOG2_SLOTS q) :
    m.ringTail q v = (m.setFld F.SQ_RING_TAIL_TAIL (v % 2 ^ 32) q, .ok) := by
  simp only [Mod.ringTail, hdis, hlost, beq_false_of_ne hring, beq_false_of_ne hcpl, Bool.false_or, decide_eq_true_eq]
  exact if_neg (Nat.not_lt.mpr hroom)

/-- HEAD of the completion ring is taken when the ring then holds no more records than it has slots (05 Table 05.18). -/
theorem cplHead_of_allowed {m : Mod} {q v : Nat}
    (hroom : (m.fld F.SQ_CPL_TAIL_TAIL q + 2 ^ 32 - v % 2 ^ 32) % 2 ^ 32 ≤ 2 ^ m.fld F.SQ_CPL_BASE_LOG2_SLOTS q) :
    m.cplHead q v = (m.setFld F.SQ_CPL_HEAD_HEAD (v % 2 ^ 32) q, .ok) :=
  if_neg (Nat.not_lt.mpr hroom)

/-- An idle context takes a base whose size is 0, or no smaller than the least and of a ring that fits. -/
theorem baseCheck_ok {m : Mod} {q base lg slot lo hi : Nat} (hops : (m.ctx q).ops = [])
    (hempty : m.fld F.SQ_RING_HEAD_HEAD q = m.fld F.SQ_RING_TAIL_TAIL q) (hhi : lg ≤ hi)
    (hlg : lg = 0 ∨ (lo ≤ lg ∧ ringOk base (slot * 2 ^ lg) = true)) : m.baseCheck q base lg slot lo hi = .ok := by
  rcases hlg with h | ⟨hlo, hring⟩
  · simp [Mod.baseCheck, hops, hempty, h]
  · simp [Mod.baseCheck, hops, hempty, hring, Nat.not_lt.mpr hlo, Nat.not_lt.mpr hhi]

/-- A ring's base and size written and its pointers set to 0: the fields of one ring's registers. -/
def Mod.takeRing (m : Mod) (base size fst snd : Fld) (q v lg : Nat) : Mod :=
  (((m.setFld base v q).setFld size lg q).setFld fst 0 q).setFld snd 0 q

theorem ringBase_ok {m : Mod} {q v : Nat} (h : m.baseCheck q (bits v 7 41 * 128) (bits v 48 4) 128 6 16 = .ok) :
    m.ringBase q v = (m.takeRing F.SQ_RING_BASE_ADDR F.SQ_RING_BASE_LOG2_SLOTS F.SQ_RING_HEAD_HEAD F.SQ_RING_TAIL_TAIL q (bits v 7 41)
      (bits v 48 4), .ok) := by
  simp [Mod.ringBase, h, Mod.takeRing]

theorem cplBase_ok {m : Mod} {q v : Nat} (h : m.baseCheck q (bits v 5 43 * 32) (bits v 48 4) 32 4 16 = .ok) :
    m.cplBase q v = (m.takeRing F.SQ_CPL_BASE_ADDR F.SQ_CPL_BASE_LOG2_SLOTS F.SQ_CPL_TAIL_TAIL F.SQ_CPL_HEAD_HEAD q (bits v 5 43)
      (bits v 48 4), .ok) := by
  simp [Mod.cplBase, h, Mod.takeRing]

/-- The four fields of a ring's registers: its base and size in one register, its pointers in their own. -/
abbrev RingFields (base size fst snd : Fld) : Prop :=
  base.lo + base.w ≤ 64 ∧ size.lo + size.w ≤ 64 ∧ fst.lo + fst.w ≤ 64 ∧ snd.lo + snd.w ≤ 64 ∧ size.Apart base ∧ fst.Apart base ∧
  snd.Apart base ∧ fst.Apart size ∧ snd.Apart size ∧ snd.Apart fst ∧ size.off = base.off

theorem ringFields_ring :
    RingFields F.SQ_RING_BASE_ADDR F.SQ_RING_BASE_LOG2_SLOTS F.SQ_RING_HEAD_HEAD F.SQ_RING_TAIL_TAIL := by decide

theorem ringFields_cpl :
    RingFields F.SQ_CPL_BASE_ADDR F.SQ_CPL_BASE_LOG2_SLOTS F.SQ_CPL_TAIL_TAIL F.SQ_CPL_HEAD_HEAD := by decide

section
variable {base size fst snd : Fld} (h : RingFields base size fst snd)
include h

/-- The four fields of a ring taken read as written. -/
theorem fld_takeRing (m : Mod) (q v lg : Nat) :
    (m.takeRing base size fst snd q v lg).fld base q = v % 2 ^ base.w ∧ (m.takeRing base size fst snd q v lg).fld size q = lg % 2 ^ size.w ∧
    (m.takeRing base size fst snd q v lg).fld fst q = 0 ∧ (m.takeRing base size fst snd q v lg).fld snd q = 0 := by
  obtain ⟨hb, hs, hf, hn, hsb, hfb, hnb, hfs, hns, hnf, -⟩ := h
  unfold Mod.takeRing
  refine ⟨?_, ?_, ?_, ?_⟩
  · rw [fld_setFld_apart _ _ _ hnb, fld_setFld_apart _ _ _ hfb, fld_setFld_apart _ _ _ hsb]
    exact fld_setFld_self _ _ _ _ _ _ (by simpa using hb)
  · rw [fld_setFld_apart _ _ _ hns, fld_setFld_apart _ _ _ hfs]
    exact fld_setFld_self _ _ _ _ _ _ (by simpa using hs)
  · rw [fld_setFld_apart _ _ _ hnf, fld_setFld_self _ _ _ _ _ _ (by simpa using hf), Nat.zero_mod]
  · rw [fld_setFld_self _ _ _ _ _ _ (by simpa using hn), Nat.zero_mod]

/-- Taking a ring changes the register of its base and size, and the two pointers'. -/
theorem onlyRegs_takeRing {as : List Nat} (m : Mod) (q v lg : Nat) (hbase : base.addr q 0 ∈ as) (hfst : fst.addr q 0 ∈ as)
    (hsnd : snd.addr q 0 ∈ as) : OnlyRegs as m ((m.clearOut.takeRing base size fst snd q v lg).emit (.done .ok [])).settle := by
  obtain ⟨-, -, -, -, ⟨hblk, hstride, hstride', -⟩, -, -, -, -, -, hoff⟩ := h
  have hsize : base.addr q 0 = size.addr q 0 := by simp [Fld.addr, hblk, hoff]
  have hne : ∀ {a b : Nat}, a ∉ as → b ∈ as → a ≠ b := fun ha hb he => ha (he ▸ hb)
  refine onlyRegs_settle rfl rfl fun a ha => ?_
  rw [reg_emit, Mod.takeRing, reg_setFld_ne _ _ _ _ _ _ (hne ha hsnd), reg_setFld_ne _ _ _ _ _ _ (hne ha hfst),
    reg_setFld_ne _ _ _ _ _ _ (hne ha (hsize ▸ hbase)), reg_setFld_ne _ _ _ _ _ _ (hne ha hbase), reg_clearOut]

end

section
variable {ag : Agent} {q : Fin 4} {data : Word} {s : State} (hag : regAgent ag = true)
include hag

theorem ringTailWrite_taken (h : s.m.clearOut.ringTail q data.toNat = (s.m.clearOut.setFld F.SQ_RING_TAIL_TAIL (data.toNat % 2 ^ 32) q, .ok)) :
    Answers (.ringTailWrite ag q data) s (fun t => t.m.fld F.SQ_RING_TAIL_TAIL q = data.toNat % 2 ^ 32 ∧ t.m.out = [.done .ok []] ∧
      OnlyRegs [F.SQ_RING_TAIL_TAIL.addr q 0] s.m t.m) := by
  refine answers_run (exec_ringTailWrite ag q data s) ?_
  rw [byAgent_taken (f := fun m => m.ringTail q data.toNat) hag h]
  refine ⟨?_, rfl, onlyRegs_fieldWritten s.m _ _ _⟩
  rw [fld_settle, fld_emit, fld_setFld_self _ _ _ _ _ _ (by decide)]
  exact Nat.mod_mod _ _

theorem cplHeadWrite_taken (h : s.m.clearOut.cplHead q data.toNat = (s.m.clearOut.setFld F.SQ_CPL_HEAD_HEAD (data.toNat % 2 ^ 32) q, .ok)) :
    Answers (.cplHeadWrite ag q data) s (fun t => t.m.fld F.SQ_CPL_HEAD_HEAD q = data.toNat % 2 ^ 32 ∧ t.m.out = [.done .ok []] ∧
      OnlyRegs [F.SQ_CPL_HEAD_HEAD.addr q 0] s.m t.m) := by
  refine answers_run (exec_cplHeadWrite ag q data s) ?_
  rw [byAgent_taken (f := fun m => m.cplHead q data.toNat) hag h]
  refine ⟨?_, rfl, onlyRegs_fieldWritten s.m _ _ _⟩
  rw [fld_settle, fld_emit, fld_setFld_self _ _ _ _ _ _ (by decide)]
  exact Nat.mod_mod _ _

theorem ringTailWrite_disabled (hcore : isCore ag = false) (hdis : s.m.ctxDisabled q = true) :
    Answers (.ringTailWrite ag q data) s (fun t => t.m.out = [.done .access []] ∧ OnlyRegs [] s.m t.m) := by
  refine answers_run (exec_ringTailWrite ag q data s) ?_
  rw [byAgent_refused hag hcore, ringTail_of_disabled (m := s.m.clearOut) _ hdis]
  exact ⟨rfl, onlyRegs_settle rfl rfl fun _ _ => rfl⟩

theorem ringBaseWrite_taken (h : s.m.clearOut.baseCheck q (bits data.toNat 7 41 * 128) (bits data.toNat 48 4) 128 6 16 = .ok) :
    Answers (.ringBaseWrite ag q data) s (fun t =>
      t.m.fld F.SQ_RING_BASE_ADDR q = bits data.toNat 7 41 ∧ t.m.fld F.SQ_RING_BASE_LOG2_SLOTS q = bits data.toNat 48 4 ∧
      t.m.fld F.SQ_RING_HEAD_HEAD q = 0 ∧ t.m.fld F.SQ_RING_TAIL_TAIL q = 0 ∧ t.m.out = [.done .ok []] ∧
      OnlyRegs [F.SQ_RING_BASE_ADDR.addr q 0, F.SQ_RING_HEAD_HEAD.addr q 0, F.SQ_RING_TAIL_TAIL.addr q 0] s.m t.m) := by
  have htake := ringBase_ok h
  refine answers_run (exec_ringBaseWrite ag q data s) ?_
  rw [byAgent_taken (f := fun m => m.ringBase q data.toNat) hag htake]
  simp only [fld_settle, fld_emit]
  obtain ⟨hbase, hsize, hhead, htail⟩ := fld_takeRing ringFields_ring s.m.clearOut q (bits data.toNat 7 41) (bits data.toNat 48 4)
  exact ⟨hbase.trans (Nat.mod_eq_of_lt (bits_lt _ _ _)), hsize.trans (Nat.mod_eq_of_lt (bits_lt _ _ _)), hhead, htail, rfl,
    onlyRegs_takeRing ringFields_ring s.m q _ _ (by simp) (by simp) (by simp)⟩

theorem cplBaseWrite_taken (h : s.m.clearOut.baseCheck q (bits data.toNat 5 43 * 32) (bits data.toNat 48 4) 32 4 16 = .ok) :
    Answers (.cplBaseWrite ag q data) s (fun t =>
      t.m.fld F.SQ_CPL_BASE_ADDR q = bits data.toNat 5 43 ∧ t.m.fld F.SQ_CPL_BASE_LOG2_SLOTS q = bits data.toNat 48 4 ∧
      t.m.fld F.SQ_CPL_HEAD_HEAD q = 0 ∧ t.m.fld F.SQ_CPL_TAIL_TAIL q = 0 ∧ t.m.out = [.done .ok []] ∧
      OnlyRegs [F.SQ_CPL_BASE_ADDR.addr q 0, F.SQ_CPL_HEAD_HEAD.addr q 0, F.SQ_CPL_TAIL_TAIL.addr q 0] s.m t.m) := by
  have htake := cplBase_ok h
  refine answers_run (exec_cplBaseWrite ag q data s) ?_
  rw [byAgent_taken (f := fun m => m.cplBase q data.toNat) hag htake]
  simp only [fld_settle, fld_emit]
  obtain ⟨hbase, hsize, htail, hhead⟩ := fld_takeRing ringFields_cpl s.m.clearOut q (bits data.toNat 5 43) (bits data.toNat 48 4)
  exact ⟨hbase.trans (Nat.mod_eq_of_lt (bits_lt _ _ _)), hsize.trans (Nat.mod_eq_of_lt (bits_lt _ _ _)), hhead, htail, rfl,
    onlyRegs_takeRing ringFields_cpl s.m q _ _ (by simp) (by simp) (by simp)⟩

end

/-- Settles O5: each pointer's rule is met by the hypotheses, and a ring taken is its four fields written. -/
theorem ringPointers : Obligations.RingPointers := by
  unfold Obligations.RingPointers
  refine ⟨fun ag q data s hag => ⟨fun hdis hlost hring hcpl hroom => ?_, fun hroom => ?_, ringTailWrite_disabled hag⟩,
    fun ag q data s hag hops hempty => ?_⟩
  · exact ringTailWrite_taken hag (ringTail_of_allowed (m := s.m.clearOut) hdis hlost hring hcpl hroom)
  · exact cplHeadWrite_taken hag (cplHead_of_allowed (m := s.m.clearOut) hroom)
  · intro lg
    have hlg : lg ≤ 16 := Nat.le_of_lt (bits_lt data.toNat 48 4)
    exact ⟨fun h => ringBaseWrite_taken hag (baseCheck_ok (m := s.m.clearOut) hops hempty hlg h),
      fun h => cplBaseWrite_taken hag (baseCheck_ok (m := s.m.clearOut) hops hempty hlg h)⟩

end Sys2Proof.Machine

/-! # Proofs: accesses of the hub buffer that complete at once (08 R229, R236; 11 R300) -/

namespace Sys2Proof.Machine

open Sys2Proof

theorem lpddrAt_of_ge {a : Nat} (h : 0x18000000000 ≤ a) : lpddrAt a = none := by
  have hk : ¬(a / 0x1000000000 < 24 ∧ a % 0x1000000000 < 0xDE0000000) := by omega
  simp [lpddrAt, hk]

/-- Array 16 is the hub buffer's window. -/
theorem range_of_sramAt_hub {a off : Nat} (h : sramAt a = some (16, off)) : 0x400000000000 ≤ a ∧ a < 0x400080000000 := by
  unfold sramAt at h
  split at h
  · assumption
  · split at h
    · simp only [Option.ite_none_right_eq_some, Option.some.injEq, Prod.mk.injEq] at h
      omega
    · simp at h

section
variable {m : Mod} {a n : Nat} (h : m.hubOpen a n) (hn : 1 ≤ n)
include h hn

theorem hubOpen_range : 0x400000000000 ≤ a ∧ a + n ≤ 0x400080000000 := by
  obtain ⟨-, -, -, -, -, hbytes⟩ := h
  have hfirst := range_of_sramAt_hub (hbytes 0 (by omega)).2.1
  have hlast := range_of_sramAt_hub (hbytes (n - 1) (by omega)).2.1
  omega

theorem hubOpen_sramAt : sramAt a = some (16, a - 0x400000000000) := by
  obtain ⟨-, -, -, -, -, hbytes⟩ := h
  exact (hbytes 0 hn).2.1

/-- Every bank of the bytes is met ON, and every byte's parity is right. -/
theorem hubOpen_byte {i : Nat} (hi : i < n) :
    m.meetBank 16 (bankOf 16 (a - 0x400000000000 + i)) = (m, 0) ∧ ¬m.mem.parityBad (sramBase 16 + (a - 0x400000000000) + i) = true := by
  have hrange := hubOpen_range h hn
  obtain ⟨-, -, -, -, -, hbytes⟩ := h
  obtain ⟨hpar, -, hbank⟩ := hbytes i hi
  have hoff : a - 0x400000000000 + i = a + i - 0x400000000000 := by omega
  have haddr : sramBase 16 + (a - 0x400000000000) + i = a + i := by
    show 0x400000000000 + (a - 0x400000000000) + i = a + i
    omega
  rw [hoff, haddr, hpar, meetBank_of_not_ret (by rw [hbank]; decide), hbank]
  exact ⟨rfl, Bool.false_ne_true⟩

/-- A request of the hub buffer's bytes where nothing waits goes to the buffer's Y port at once. -/
theorem ncIssue_of_hubOpen {r : NcReq} (ha : r.addr = a) (hl : opLen r.op = n) : m.ncIssue r = m.sramPerform 16 (a - 0x400000000000) r := by
  have hrange := hubOpen_range h hn
  have hsram := hubOpen_sramAt h hn
  have hlp : lpddrAt a = none := lpddrAt_of_ge (by omega)
  obtain ⟨-, hdir, hretry, hsrc, -, -⟩ := h
  have hprep : m.cohPrepare a n r.writes [] = (m, none) := by simp [Mod.cohPrepare, hdir]
  have hpage : ∀ l, m.pagePresent l = false := fun l => by simp [Mod.pagePresent, hdir]
  have hlook : m.lookups a n = m := by simp [Mod.lookups, hpage]
  simp [Mod.ncIssue, ha, hl, hpage, hlook, Mod.ncTry, hlp, hretry, hsrc, hprep, Mod.memPerform, hsram]

/-- The buffer's Y port serves it: no access waits there. -/
theorem memAccess_of_hubOpen {src : Src} {ag : Agent} {op : MemOp} (hl : opLen op = n) :
    m.memAccess src ag a op = ((m.sramAccess (some ag) 16 (a - 0x400000000000) op).1,
      .done (m.sramAccess (some ag) 16 (a - 0x400000000000) op).2.1 (m.sramAccess (some ag) 16 (a - 0x400000000000) op).2.2) := by
  have hiss := ncIssue_of_hubOpen h hn (r := { src := src, ag := ag, op := op, addr := a }) rfl hl
  obtain ⟨hpop, -, -, -, hwait, -⟩ := h
  have hbehind : m.yBehind 16 (a - 0x400000000000) n = false := by simp [Mod.yBehind, hwait]
  simp [Mod.memAccess, hl, Nat.ne_of_gt hn, hpop, hiss, Mod.sramPerform, hbehind, Mod.yPerform, Mod.hinted]

end

/-! ## A read of two blocks -/

theorem blocksOf_two {a : Nat} (h : a % 64 = 0) : blocksOf a 128 = [(a, 64), (a + 64, 64)] := by
  have hlast : (a + 128 - 1) / 64 - a / 64 + 1 = 2 := by omega
  have hfirst : max a (a / 64 * 64) = a ∧ min (a + 128) ((a / 64 + 1) * 64) - a = 64 := by omega
  have hsecond : max a ((a / 64 + 1) * 64) = a + 64 ∧ min (a + 128) ((a / 64 + 1 + 1) * 64) - (a + 64) = 64 := by omega
  rw [blocksOf, if_neg (by decide), hlast]
  simp [List.range_succ, hfirst, hsecond]

theorem readAt_append (x : Mem) (a n k : Nat) : x.readAt a n ++ x.readAt (a + n) k = x.readAt a (n + k) := by
  simp [Mem.readAt, List.range_add, Nat.add_assoc]

/-- A read of two blocks of an array whose banks are ON and whose bytes have good parity. -/
theorem sramAccess_read_two {m : Mod} {y : Option Agent} {arr off : Nat} (ha : off % 64 = 0)
    (hon : ∀ i < 128, m.meetBank arr (bankOf arr (off + i)) = (m, 0) ∧ ¬m.mem.parityBad (sramBase arr + off + i) = true) :
    m.sramAccess y arr off (.read 128) = (m, .ok, m.mem.readAt (sramBase arr + off) 128) := by
  have hpiece : ∀ k, k + 64 ≤ 128 → m.sramReadPiece y arr (off + k) 64 = (m, .ok, m.mem.readAt (sramBase arr + off + k) 64) := by
    intro k hk
    have hgood : ∀ i < 64, ¬m.mem.parityBad (sramBase arr + (off + k) + i) = true := by
      intro i hi
      rw [← Nat.add_assoc, Nat.add_assoc (sramBase arr + off)]
      exact (hon (k + i) (by omega)).2
    rw [sramReadPiece_of_on (hon k (by omega)).1 hgood, Nat.add_assoc]
  have hfirst := hpiece 0 (by decide)
  rw [Nat.add_zero, Nat.add_zero] at hfirst
  have hdata : m.mem.readAt (sramBase arr + off) 128 = m.mem.readAt (sramBase arr + off) 64 ++ m.mem.readAt (sramBase arr + off + 64) 64 :=
    (readAt_append m.mem (sramBase arr + off) 64 64).symm
  simp [Mod.sramAccess, blocksOf_two ha, hfirst, hpiece 64 (by decide), firstBad, hdata]

theorem hubBase_add {a : Nat} (h : 0x400000000000 ≤ a) : sramBase 16 + (a - 0x400000000000) = a := Nat.add_sub_cancel' h

/-- A read of 128 bytes from a block's start, in the hub buffer, returns them and changes nothing. -/
theorem sramAccess_read_of_hubOpen {m : Mod} {a : Nat} {y : Option Agent} (h : m.hubOpen a 128) (ha : a % 64 = 0) :
    m.sramAccess y 16 (a - 0x400000000000) (.read 128) = (m, .ok, m.mem.readAt a 128) := by
  obtain ⟨hlow, -⟩ := hubOpen_range h (by decide)
  have hread := sramAccess_read_two (y := y) (off := a - 0x400000000000) (by omega) (fun i hi => hubOpen_byte h (by decide) hi)
  rwa [hubBase_add hlow] at hread

end Sys2Proof.Machine

/-! # Proofs: fetch (05 R127-R135, R153, R154; 07 R202) -/

namespace Sys2Proof.Machine

open Sys2Proof

/-! ## Steps of one context -/

/-- `n` differs from `m` in context `q`, changed by `g`, and in the listed registers. -/
def CtxStep (q : Nat) (g : Ctx → Ctx) (as : List Nat) (m n : Mod) : Prop :=
  n = { m with ctxs := modNth m.ctxs q g, regs := n.regs } ∧ SameRegsBut as m n

theorem ctxStep_modCtx {q : Nat} {g : Ctx → Ctx} {as : List Nat} {m n : Mod} (h : CtxStep q g as m n) (f : Ctx → Ctx) :
    CtxStep q (fun c => f (g c)) as m (n.modCtx q f) := by
  obtain ⟨hn, hregs⟩ := h
  refine ⟨?_, hregs⟩
  rw [hn]
  exact congrArg (fun l => ({ m with ctxs := l, regs := n.regs } : Mod)) (modNth_modNth _ _ _ _)

theorem ctxStep_setFld {q : Nat} {g : Ctx → Ctx} {as : List Nat} {m n : Mod} (h : CtxStep q g as m n) (f : Fld) (v i k : Nat)
    (ha : f.addr i k ∈ as) : CtxStep q g as m (n.setFld f v i k) := by
  obtain ⟨hn, hregs⟩ := h
  refine ⟨?_, fun a hna => ?_⟩
  · rw [hn]
    rfl
  · have hne : a ≠ f.addr i k := fun he => hna (he ▸ ha)
    rw [reg_setFld_ne _ _ _ _ _ _ hne, hregs a hna]

theorem ctxStep_of_modCtx (m : Mod) (q : Nat) (f : Ctx → Ctx) (as : List Nat) : CtxStep q f as m (m.modCtx q f) := ⟨rfl, fun _ _ => rfl⟩

theorem onlyRegs_of_ctxStep {q : Nat} {g g' : Ctx → Ctx} {as : List Nat} {m n : Mod} (h : CtxStep q g as m n)
    (hg : g' (m.ctx q) = g (m.ctx q)) : OnlyRegs as { m with ctxs := modNth m.ctxs q g' } n.settle := by
  obtain ⟨hn, hregs⟩ := h
  rw [modNth_congr {} hg]
  refine onlyRegs_settle ?_ ?_ hregs <;> rw [hn]
  rfl

/-- A context changes, no collective starts in it, and its registers are no home's: the module where nothing waits stays one. -/
theorem quiet_of_ctxStep {q : Nat} {g : Ctx → Ctx} {as : List Nat} {m n : Mod} (h : CtxStep q g as m n) (hq : m.quiet = true)
    (hg : ∀ c : Ctx, c.ops.all (fun o => o.coll.isNone) = true → (g c).ops.all (fun o => o.coll.isNone) = true)
    (hd : F.DIR_STATUS_DRAINING.addr 0 0 ∉ as) : n.quiet = true := by
  obtain ⟨hn, hregs⟩ := h
  have hcoll : m.collQuiet = true := by
    simp only [Mod.quiet, Mod.idle, Bool.and_eq_true] at hq
    exact hq.1.1.2
  have hdrain : n.fld F.DIR_STATUS_DRAINING = m.fld F.DIR_STATUS_DRAINING := by simp only [Mod.fld, hregs _ hd]
  refine quiet_ctxs hq (by rw [hn]) (by rw [hn])
    (memQuiet_congr (by rw [hn]) (by rw [hn]) (by rw [hn]) (by rw [hn]) (by rw [hn]) hdrain)
    (svcReady_congr (by rw [hn]) (by rw [hn]) (by rw [hn])) ?_
  rw [hn]
  exact collQuiet_modNth m.ctxs q g hcoll hg

theorem out_of_ctxStep {q : Nat} {g : Ctx → Ctx} {as : List Nat} {m n : Mod} (h : CtxStep q g as m n) : n.out = m.out := by rw [h.1]

/-! ## The descriptor is taken -/

/-- The fetch in flight has ended, and the ring's slot, when the descriptor came from it, is passed (05 R131). -/
def Mod.fetchTaken (m : Mod) (q : Nat) (ring : Bool) : Mod :=
  let n := m.modCtx q (fun c => { c with inFetch := none, fetchWait := false })
  if ring then n.addFld F.SQ_RING_HEAD_HEAD 1 q else n

/-- Registers that taking a descriptor changes. -/
def headRegs (q : Nat) (ring : Bool) : List Nat := if ring then [F.SQ_RING_HEAD_HEAD.addr q 0] else []

theorem ctxStep_fetchTaken (m : Mod) (q : Nat) (ring : Bool) {as : List Nat} (has : ∀ a ∈ headRegs q ring, a ∈ as) :
    CtxStep q (fun c => { c with inFetch := none, fetchWait := false }) as m (m.fetchTaken q ring) := by
  unfold Mod.fetchTaken
  split
  · exact ctxStep_setFld (ctxStep_of_modCtx m q _ as) _ _ _ _ (has _ (by simp_all [headRegs]))
  · exact ctxStep_of_modCtx m q _ as

theorem fld_fetchTaken_head (m : Mod) (q : Nat) (ring : Bool) (h : ring = true) :
    (m.fetchTaken q ring).fld F.SQ_RING_HEAD_HEAD q = (m.fld F.SQ_RING_HEAD_HEAD q + 1) % 2 ^ 32 := by
  subst h
  exact fld_setFld_self _ _ _ _ _ _ (by decide)

theorem reg_fetchTaken (m : Mod) (q : Nat) (ring : Bool) {a : Nat} (h : a ≠ F.SQ_RING_HEAD_HEAD.addr q 0) :
    (m.fetchTaken q ring).reg a = m.reg a := by
  unfold Mod.fetchTaken
  split
  · exact reg_setFld_ne _ _ _ _ _ _ h
  · rfl

theorem fld_fetchTaken (m : Mod) (q : Nat) (ring : Bool) (f : Fld) (i k : Nat) (h : f.addr i k ≠ F.SQ_RING_HEAD_HEAD.addr q 0) :
    (m.fetchTaken q ring).fld f i k = m.fld f i k := by
  simp only [Mod.fld, reg_fetchTaken m q ring h]

theorem stack_modCtx {m : Mod} {q : Nat} {g : Ctx → Ctx} (hg : ∀ c, (g c).stack = c.stack) : ((m.modCtx q g).ctx q).stack = (m.ctx q).stack := by
  rcases lt_or_ge q m.ctxs.length with hlt | hge
  · rw [ctx_modCtx_self _ _ _ hlt, hg]
  · have hout : ∀ l : List Ctx, l.length ≤ q → nth l q {} = {} := fun l hl => by
      rw [nth, List.getD_eq_getElem?_getD, List.getElem?_eq_none hl, Option.getD_none]
    show (nth (modNth m.ctxs q g) q {}).stack = (nth m.ctxs q {}).stack
    rw [hout _ hge, hout _ ((length_modNth _ _ _).trans_le hge)]

theorem stack_fetchTaken (m : Mod) (q : Nat) (ring : Bool) : ((m.fetchTaken q ring).ctx q).stack = (m.ctx q).stack := by
  have h : (m.fetchTaken q ring).ctx q = (m.modCtx q (fun c => { c with inFetch := none, fetchWait := false })).ctx q := by
    unfold Mod.fetchTaken
    split <;> rfl
  rw [h]
  exact stack_modCtx fun _ => rfl

/-- The checks of a control operation read the ring's base, the node and the chain, which taking the descriptor leaves. -/
theorem controlOk_fetchTaken (m : Mod) (q : Fin 4) (d : Desc) (ring r : Bool) :
    (m.fetchTaken q ring).controlOk q d r = m.controlOk q d r := by
  have haddr : F.SQ_RING_BASE_ADDR.addr q 0 ≠ F.SQ_RING_HEAD_HEAD.addr q 0 ∧ F.SQ_RING_BASE_LOG2_SLOTS.addr q 0 ≠ F.SQ_RING_HEAD_HEAD.addr q 0 ∧
      F.FAB_NODE_ID.addr 0 0 ≠ F.SQ_RING_HEAD_HEAD.addr q 0 := by
    revert q
    decide
  obtain ⟨hbase, hlog, hnode⟩ := haddr
  have hring : (m.fetchTaken q ring).inOwnRing q = m.inOwnRing q := by
    funext x
    have hdec : (m.fetchTaken q ring).decodeAddr x = m.decodeAddr x := by
      unfold Mod.decodeAddr Mod.node
      rw [fld_fetchTaken _ _ _ _ _ _ hnode]
    simp only [Mod.inOwnRing, hdec, fld_fetchTaken _ _ _ _ _ _ hbase, fld_fetchTaken _ _ _ _ _ _ hlog]
  simp only [Mod.controlOk, hring, stack_fetchTaken]

section
variable {m : Mod} {q : Fin 4} {a : Nat} {ring : Bool} {d : List Byte} (hfetch : (m.ctx q).inFetch = some (a, ring))
  (hhead : ring = true → m.fld F.SQ_RING_HEAD_HEAD q ≠ m.fld F.SQ_RING_TAIL_TAIL q)
include hfetch hhead

/-- What a descriptor that has arrived does, its place passed: it acts, or becomes resident, or fails its checks. -/
theorem finishFetch_of_head :
    let n := m.fetchTaken q ring
    let ok := opcodes.contains (opcodeOf d) && (!isControl (opcodeOf d) || n.controlOk q d ring)
    m.finishFetch q .ok d =
      if fetchResolved (opcodeOf d) then
        if ok then n.resolve q d a ring
        else n.modCtx q (fun c => { c with trapAt := some (.protocol, opcodeOf d, a, ring), stopped := true })
      else if !ok then
        (n.admitOp q { seq := 0, addr := a, ring := ring, desc := d, st := .failed, status := .protocol, trapAlways := true }).modCtx q
          (fun c => { c with stopped := true })
      else
        let n := n.admitOp q { seq := 0, addr := a, ring := ring, desc := d, waitPassed := waitBefore d && n.waitHolds d }
        let n := if ring then n else n.setPc q (a + 128)
        if opcodeOf d = 0x02 ∨ opcodeOf d = 0x06 ∨ opcodeOf d = 0x0A then n.modCtx q (fun c => { c with paused := true }) else n := by
  have hne : ¬(ring = true ∧ m.fld F.SQ_RING_HEAD_HEAD q = m.fld F.SQ_RING_TAIL_TAIL q) := fun h => hhead h.1 h.2
  unfold Mod.finishFetch
  rw [hfetch]
  exact (if_neg hne).trans (if_neg (fun h => h rfl))

/-- An operation resolved at fetch whose checks pass acts on the module with its descriptor taken. -/
theorem finishFetch_resolved (hres : fetchResolved (opcodeOf d) = true) (hok : m.controlOk q d ring = true) :
    m.finishFetch q .ok d = (m.fetchTaken q ring).resolve q d a ring := by
  have hin : opcodes.contains (opcodeOf d) = true ∧ isControl (opcodeOf d) = true := by
    simp only [fetchResolved, Bool.or_eq_true, beq_iff_eq] at hres
    rcases hres with (((h | h) | h) | h) | h <;> rw [h] <;> decide
  rw [← controlOk_fetchTaken m q d ring ring] at hok
  rw [finishFetch_of_head hfetch hhead]
  dsimp only
  rw [if_pos hres, hin.1, hok, Bool.or_true, Bool.and_true, if_pos rfl]

/-- The resident entry of a descriptor that has arrived (07 R202). -/
def Mod.admitted (m : Mod) (q a : Nat) (ring : Bool) (d : List Byte) : ROp :=
  { seq := m.fld F.SQ_SEQ_NEXT q, addr := a, ring := ring, desc := d, waitPassed := waitBefore d && m.waitHolds d }

/-- Any other operation becomes resident; the place in the chain it came from is passed. -/
theorem finishFetch_admitted (hin : opcodes.contains (opcodeOf d) = true) (hres : fetchResolved (opcodeOf d) = false)
    (h2 : opcodeOf d ≠ 0x02) (h6 : opcodeOf d ≠ 0x06) (hA : opcodeOf d ≠ 0x0A)
    (hok : isControl (opcodeOf d) = true → m.controlOk q d ring = true) :
    let n := (m.fetchTaken q ring).admitOp q ((m.fetchTaken q ring).admitted q a ring d)
    m.finishFetch q .ok d = if ring then n else n.setPc q (a + 128) := by
  have hchk : (!isControl (opcodeOf d) || (m.fetchTaken q ring).controlOk q d ring) = true := by
    rw [controlOk_fetchTaken]
    cases hc : isControl (opcodeOf d)
    · rfl
    · exact hok hc
  have hpause : ¬(opcodeOf d = 0x02 ∨ opcodeOf d = 0x06 ∨ opcodeOf d = 0x0A) := by simp [h2, h6, hA]
  rw [finishFetch_of_head hfetch hhead]
  dsimp only
  rw [hres, hin, hchk]
  exact if_neg hpause

end

/-! ## Admission and the chain -/

theorem ctxStep_setPc {q : Nat} {g : Ctx → Ctx} {as : List Nat} {m n : Mod} (h : CtxStep q g as m n) (pc : Nat)
    (ha : F.SQ_PC_ADDR.addr q 0 ∈ as) : CtxStep q (fun c => { g c with pc := pc }) as m (n.setPc q pc) :=
  ctxStep_setFld (ctxStep_modCtx h _) _ _ _ _ ha

theorem ctxStep_admitOp {q : Nat} {g : Ctx → Ctx} {as : List Nat} {m n : Mod} (h : CtxStep q g as m n) (op : ROp)
    (ha : F.SQ_SEQ_NEXT.addr q 0 ∈ as) :
    CtxStep q (fun c => { g c with ops := (g c).ops ++ [{ op with seq := n.fld F.SQ_SEQ_NEXT q }] }) as m (n.admitOp q op) :=
  ctxStep_setFld (ctxStep_modCtx h _) _ _ _ _ ha

theorem fld_setPc (m : Mod) (q pc : Nat) : (m.setPc q pc).fld F.SQ_PC_ADDR q = pc % 2 ^ 48 := fld_setFld_self _ _ _ _ _ _ (by decide)

theorem fld_setPc_apart (m : Mod) (q pc : Nat) {f : Fld} (h : F.SQ_PC_ADDR.Apart f) : (m.setPc q pc).fld f q = m.fld f q :=
  fld_setFld_apart _ _ _ h

theorem fld_admitOp (m : Mod) (q : Nat) (op : ROp) : (m.admitOp q op).fld F.SQ_SEQ_NEXT q = (m.fld F.SQ_SEQ_NEXT q + 1) % 2 ^ 32 :=
  fld_setFld_self _ _ _ _ _ _ (by decide)

theorem fld_admitOp_apart (m : Mod) (q : Nat) (op : ROp) {f : Fld} (h : F.SQ_SEQ_NEXT.Apart f) : (m.admitOp q op).fld f q = m.fld f q :=
  fld_setFld_apart _ _ _ h

/-- Flags' registers are no sequencer's. -/
theorem flagAddr_ne_head (q : Fin 4) (d : Desc) : F.HUB_FLAG_VALUE.addr 0 (waitFlagOf d) ≠ F.SQ_RING_HEAD_HEAD.addr q 0 := by
  have hi : waitFlagOf d < 2 ^ 10 := bits_lt _ _ _
  have hflag : F.HUB_FLAG_VALUE.addr 0 (waitFlagOf d) = 0x700000008000 + waitFlagOf d * 8 := rfl
  have hhead : F.SQ_RING_HEAD_HEAD.addr q 0 = 0x700001000020 + q * 0x10000 := by revert q; decide
  omega

/-- Taking the descriptor leaves the next sequence number and the flags: the entry is the one the module had for it. -/
theorem admitted_fetchTaken (m : Mod) (q : Fin 4) (r : Bool) (a : Nat) (ring : Bool) (d : List Byte) :
    (m.fetchTaken q r).admitted q a ring d = m.admitted q a ring d := by
  have hseq : F.SQ_SEQ_NEXT.addr q 0 ≠ F.SQ_RING_HEAD_HEAD.addr q 0 := by revert q; decide
  have hwait : (m.fetchTaken q r).waitHolds d = m.waitHolds d :=
    waitHolds_congr (fld_fetchTaken m q r F.HUB_FLAG_VALUE 0 (waitFlagOf d) (flagAddr_ne_head q d))
  simp only [Mod.admitted, fld_fetchTaken _ _ _ _ _ _ hseq, hwait]

/-- Registers that a fetch writes are no home's. -/
theorem draining_not_fetch (q : Fin 4) :
    F.DIR_STATUS_DRAINING.addr 0 0 ≠ F.SQ_SEQ_NEXT.addr q 0 ∧ F.DIR_STATUS_DRAINING.addr 0 0 ≠ F.SQ_RING_HEAD_HEAD.addr q 0 ∧
    F.DIR_STATUS_DRAINING.addr 0 0 ≠ F.SQ_PC_ADDR.addr q 0 := by
  revert q
  decide

/-! ## The rows -/

/-- A fetch whose read is made ends with what its descriptor does. -/
theorem fetchComplete_of_fetched {m : Mod} {q a : Nat} {ring : Bool} {st : Status} {d : List Byte} (h : (m.ctx q).inFetch = some (a, ring))
    (hw : (m.ctx q).fetchWait = false) (hd : (m.fetched q).2 = .done st d) : m.clearOut.fetchComplete q = (m.fetched q).1.finishFetch q st d := by
  have hread : m.clearOut.fetchRead q (m.fld F.SQ_SEQ_NEXT q) (m.ctx q).fetchKey a 128 128 = ((m.fetched q).1, .done st d) := by
    rw [← hd]
    simp [Mod.fetched, h]
  simp [Mod.fetchComplete, h, hw, hread]

theorem fetchOpcode_of_fetched {m : Mod} {q a : Nat} {ring : Bool} {d : List Byte} (h : (m.ctx q).inFetch = some (a, ring))
    (hw : (m.ctx q).fetchWait = false) (hd : (m.fetched q).2 = .done .ok d) :
    m.clearOut.fetchOpcode q (opcodeOf d) = (m.fetched q).1.finishFetch q .ok d := by
  have hread : m.clearOut.fetchRead q (m.fld F.SQ_SEQ_NEXT q) (m.ctx q).fetchKey a 128 128 = ((m.fetched q).1, .done .ok d) := by
    rw [← hd]
    simp [Mod.fetched, h]
  simp [Mod.fetchOpcode, h, hw, hread]

/-- A row whose effect is a step of one context on a module where nothing waits answers that step, settled. -/
theorem answers_ctxStep {c : Instr} {s : State} {f : Mod → Mod} {P : State → Prop} {q : Nat} {g : Ctx → Ctx} {as : List Nat} {m n : Mod}
    (h : exec c s = s.runF f) (he : f s.m.clearOut = n) (hstep : CtxStep q g as m n) (hq : m.quiet = true) (ho : m.out.all Out.stays = true)
    (hg : ∀ c : Ctx, c.ops.all (fun o => o.coll.isNone) = true → (g c).ops.all (fun o => o.coll.isNone) = true)
    (hd : F.DIR_STATUS_DRAINING.addr 0 0 ∉ as) (hp : P { s with m := n.settle }) : Answers c s P := by
  refine answers_runF h ?_ ?_ ?_ <;> rw [he]
  · exact quiet_of_ctxStep hstep hq hg hd
  · rw [out_of_ctxStep hstep]
    exact ho
  · exact hp

/-- The module after an operation is admitted, from the module `m` after its descriptor's read. -/
def Mod.fetchAdmitted (m : Mod) (q a : Nat) (ring : Bool) (d : List Byte) : Mod :=
  let n := (m.fetchTaken q ring).admitOp q (m.admitted q a ring d)
  if ring then n else n.setPc q (a + 128)

/-- Registers that admission changes. -/
def admitRegs (q : Nat) (ring : Bool) : List Nat :=
  [F.SQ_SEQ_NEXT.addr q 0, if ring then F.SQ_RING_HEAD_HEAD.addr q 0 else F.SQ_PC_ADDR.addr q 0]

theorem ctxStep_fetchAdmitted (m : Mod) (q : Fin 4) (a : Nat) (ring : Bool) (d : List Byte) :
    CtxStep q (fun c => { c with
      inFetch := none, fetchWait := false, pc := if ring then c.pc else a + 128, ops := c.ops ++ [m.admitted q a ring d] }) (admitRegs q ring) m (m.fetchAdmitted q a ring d) := by
  have hseq : (m.fetchTaken q ring).fld F.SQ_SEQ_NEXT q = m.fld F.SQ_SEQ_NEXT q := fld_fetchTaken _ _ _ _ _ _ (by revert q; decide)
  have htaken := ctxStep_fetchTaken m q ring (as := admitRegs q ring) (by cases ring <;> simp [headRegs, admitRegs])
  have hadmit := ctxStep_admitOp htaken (m.admitted q a ring d) (by simp [admitRegs])
  rw [hseq] at hadmit
  cases ring
  · exact ctxStep_setPc hadmit (a + 128) (by simp [admitRegs])
  · exact hadmit

theorem fld_fetchAdmitted (m : Mod) (q : Fin 4) (a : Nat) (ring : Bool) (d : List Byte) :
    (m.fetchAdmitted q a ring d).fld F.SQ_SEQ_NEXT q = (m.fld F.SQ_SEQ_NEXT q + 1) % 2 ^ 32 ∧
    (ring = true → (m.fetchAdmitted q a ring d).fld F.SQ_RING_HEAD_HEAD q = (m.fld F.SQ_RING_HEAD_HEAD q + 1) % 2 ^ 32) ∧
    (ring = false → (m.fetchAdmitted q a ring d).fld F.SQ_PC_ADDR q = (a + 128) % 2 ^ 48) := by
  have hseq : (m.fetchTaken q ring).fld F.SQ_SEQ_NEXT q = m.fld F.SQ_SEQ_NEXT q := fld_fetchTaken _ _ _ _ _ _ (by revert q; decide)
  cases ring
  · refine ⟨?_, fun h => Bool.noConfusion h, fun _ => fld_setPc _ q _⟩
    exact (fld_setPc_apart _ q _ (by decide)).trans ((fld_admitOp _ q _).trans (by rw [hseq]))
  · refine ⟨(fld_admitOp _ q _).trans (by rw [hseq]), fun _ => ?_, fun h => Bool.noConfusion h⟩
    exact (fld_admitOp_apart _ q _ (by decide)).trans (fld_fetchTaken_head m q true rfl)

/-- A descriptor that is not resolved at fetch and passes its checks is admitted. -/
theorem fetchComplete_admitted {m : Mod} {q : Fin 4} {a : Nat} {ring : Bool} {d : List Byte} (h : (m.ctx q).inFetch = some (a, ring))
    (hw : (m.ctx q).fetchWait = false) (hd : (m.fetched q).2 = .done .ok d) (hfetch : ((m.fetched q).1.ctx q).inFetch = some (a, ring))
    (hhead : ring = true → (m.fetched q).1.fld F.SQ_RING_HEAD_HEAD q ≠ (m.fetched q).1.fld F.SQ_RING_TAIL_TAIL q)
    (hin : opcodes.contains (opcodeOf d) = true) (hres : fetchResolved (opcodeOf d) = false)
    (h2 : opcodeOf d ≠ 0x02) (h6 : opcodeOf d ≠ 0x06) (hA : opcodeOf d ≠ 0x0A)
    (hok : isControl (opcodeOf d) = true → (m.fetched q).1.controlOk q d ring = true) :
    m.clearOut.fetchComplete q = (m.fetched q).1.fetchAdmitted q a ring d := by
  have hfin := finishFetch_admitted hfetch hhead hin hres h2 h6 hA hok
  rw [admitted_fetchTaken] at hfin
  rw [fetchComplete_of_fetched h hw hd, hfin]
  rfl

theorem fetchComplete_answers (q : Fin 4) (s : State) (a : Nat) (ring : Bool) (d : List Byte)
    (h : (s.m.ctx q).inFetch = some (a, ring)) (hw : (s.m.ctx q).fetchWait = false) (hd : (s.m.fetched q).2 = .done .ok d) :
    let m1 := (s.m.fetched q).1
    m1.quiet = true → m1.out.all Out.stays = true →
    (m1.ctx q).inFetch = some (a, ring) → (ring = true → m1.fld F.SQ_RING_HEAD_HEAD q ≠ m1.fld F.SQ_RING_TAIL_TAIL q) →
    opcodes.contains (opcodeOf d) = true → fetchResolved (opcodeOf d) = false → opcodeOf d ≠ 0x02 → opcodeOf d ≠ 0x06 → opcodeOf d ≠ 0x0A →
    (isControl (opcodeOf d) = true → m1.controlOk q d ring = true) →
    Answers (.fetchComplete q) s (fun t =>
      t.m.fld F.SQ_SEQ_NEXT q = (m1.fld F.SQ_SEQ_NEXT q + 1) % 2 ^ 32 ∧
      (ring = true → t.m.fld F.SQ_RING_HEAD_HEAD q = (m1.fld F.SQ_RING_HEAD_HEAD q + 1) % 2 ^ 32) ∧
      (ring = false → t.m.fld F.SQ_PC_ADDR q = (a + 128) % 2 ^ 48) ∧
      OnlyRegs [F.SQ_SEQ_NEXT.addr q 0, if ring then F.SQ_RING_HEAD_HEAD.addr q 0 else F.SQ_PC_ADDR.addr q 0]
        { m1 with ctxs := modNth m1.ctxs q (fun c => { c with
            inFetch := none, fetchWait := false, pc := if ring then c.pc else a + 128,
            ops := c.ops ++ [{ seq := m1.fld F.SQ_SEQ_NEXT q, addr := a, ring := ring, desc := d,
                               waitPassed := waitBefore d && m1.waitHolds d }] }) } t.m) := by
  intro m1 hquiet hout hfetch hhead hin hres h2 h6 hA hok
  have hstep := ctxStep_fetchAdmitted m1 q a ring d
  obtain ⟨hseqReg, hheadReg, hpcReg⟩ := draining_not_fetch q
  refine answers_ctxStep (exec_fetchComplete q s) (fetchComplete_admitted h hw hd hfetch hhead hin hres h2 h6 hA hok) hstep hquiet hout
    (fun c hc => ?_) ?_ ?_
  · simp only [List.all_append, hc, Bool.true_and]
    rfl
  · cases ring <;> simp [admitRegs, hseqReg, hheadReg, hpcReg]
  · obtain ⟨hseq, hslot, hpc⟩ := fld_fetchAdmitted m1 q a ring d
    simp only [fld_settle]
    exact ⟨hseq, hslot, hpc, onlyRegs_of_ctxStep hstep rfl⟩

theorem fetchStart_answers (q : Fin 4) (s : State) (h : s.m.fetchOk q = true) : Answers (.fetchStart q) s (fun t => t.m.out = [] ∧
    OnlyRegs [] { s.m with ctxs := modNth s.m.ctxs q (fun c => { c with
      inFetch := some (s.m.nextFetch q), fetchWait := false, fetches := c.fetches + 1 }) } t.m) := by
  have heff : s.m.clearOut.fetchStart q = s.m.clearOut.modCtx q (fun c => { c with
      inFetch := some (s.m.nextFetch q), fetchWait := false, fetches := c.fetches + 1 }) := if_pos h
  refine answers_run (exec_fetchStart q s) ?_
  rw [heff]
  exact onlyRegs_ctxs s.m _

/-! ## The read of a descriptor in the hub buffer (05 R129, R132) -/

theorem decodeAddr_of_lt (m : Mod) {a : Nat} (h : a < 2 ^ 48) : m.decodeAddr a = .here a := by
  have hhi : bits a 62 2 = 0 := by
    rw [bits_eq_div, Nat.div_eq_of_lt (by omega)]
    rfl
  have hmid : bits a 48 14 = 0 := by
    rw [bits_eq_div, Nat.div_eq_of_lt h]
    rfl
  have hlow : bits a 0 48 = a := by
    rw [bits_eq_div, Nat.pow_zero, Nat.div_one]
    exact Nat.mod_eq_of_lt h
  unfold Mod.decodeAddr
  rw [hhi, hmid, hlow]
  rfl

theorem regionOf_hub {a : Nat} (hlow : 0x400000000000 ≤ a) (hhigh : a < 0x400080000000) : regionOf (a : Int) = .hub := by
  unfold regionOf
  rw [if_neg (by omega), if_neg (by omega), if_neg (by omega), if_pos (by omega)]

/-- An aligned address of populated memory in the hub buffer is fetched from. The regions and what is populated are abstracted while the
definition's cases reduce: the kernel would else compute with the addresses that bound them. -/
theorem fetchPlace_of_hub {m : Mod} {a n : Nat} (ha : a % n = 0) (hdec : m.decodeAddr a = .here a) (hreg : regionOf (a : Int) = .hub)
    (hpop : memPopulated a n = true) : m.fetchPlace a n = .ok a := by
  rw [Mod.fetchPlace, if_neg (not_not.mpr ha), hdec]
  generalize regionOf = region at hreg ⊢
  generalize memPopulated = populated at hpop ⊢
  as_aux_lemma => simp only [hreg, hpop, if_true]

theorem fetchPlace_of_hubOpen {m : Mod} {a n : Nat} (h : m.hubOpen a n) (hn : 1 ≤ n) (ha : a % n = 0) : m.fetchPlace a n = .ok a := by
  obtain ⟨hlow, hhigh⟩ := hubOpen_range h hn
  obtain ⟨hpop, -⟩ := h
  exact fetchPlace_of_hub ha (decodeAddr_of_lt m (by omega)) (regionOf_hub hlow (by omega)) hpop

/-- A descriptor in the hub buffer is read at once, and its read changes nothing. -/
theorem fetched_of_hubOpen {m : Mod} {q a : Nat} {ring : Bool} (hfetch : (m.ctx q).inFetch = some (a, ring)) (ha : a % 128 = 0)
    (h : m.hubOpen a 128) : m.fetched q = (m.clearOut, .done .ok (m.mem.readAt a 128)) := by
  have hc : m.clearOut.hubOpen a 128 := h
  have hread := sramAccess_read_of_hubOpen (y := some (.sqFetch (Fin.ofNat 4 q))) hc (by omega)
  simp only [Mod.fetched, hfetch, Option.map_some, Option.getD_some, Mod.fetchRead, fetchPlace_of_hubOpen hc (by decide) ha]
  rw [memAccess_of_hubOpen hc (by decide) rfl, hread]
  rfl

/-- Settles O7: a descriptor that has arrived is a step of its context and of the registers that number and place it; the read of one in the
hub buffer is two blocks of its Y port. -/
theorem fetchAdmits : Obligations.FetchAdmits :=
  ⟨⟨fetchComplete_answers, fun _ _ _ _ hfetch ha h => fetched_of_hubOpen hfetch ha h⟩, fetchStart_answers⟩

end Sys2Proof.Machine

/-! # Proofs: operations resolved at fetch (05 R134, R153, R154, Table 05.10) -/

namespace Sys2Proof.Machine

open Sys2Proof

/-! ## What each one does -/

section
variable {m : Mod} {q a : Nat} {ring : Bool} {d : List Byte}

theorem resolve_nop_ring (h : opcodeOf d = 0x00) : m.resolve q d a true = m := by simp [Mod.resolve, h]

theorem resolve_nop_chain (h : opcodeOf d = 0x00) : m.resolve q d a false = m.setPc q (a + 128) := by simp [Mod.resolve, h]

theorem resolve_jump (h : opcodeOf d = 0x01) : m.resolve q d a ring = m.setPc q (ops d 0x50 8) := by simp [Mod.resolve, h]

theorem resolve_call (h : opcodeOf d = 0x04) : m.resolve q d a ring =
    (m.modCtx q (fun c => { c with stack := (if ring then none else some (a + 128)) :: c.stack })).setPc q (ops d 0x50 8) := by
  simp [Mod.resolve, h]

theorem resolve_ret_chain {r : Nat} {rest : List (Option Nat)} (h : opcodeOf d = 0x05) (hs : (m.ctx q).stack = some r :: rest) :
    m.resolve q d a ring = (m.modCtx q (fun c => { c with stack := rest })).setPc q r := by
  simp [Mod.resolve, h, hs]

theorem resolve_ret_ring {rest : List (Option Nat)} (h : opcodeOf d = 0x05) (hs : (m.ctx q).stack = none :: rest) :
    m.resolve q d a ring = m.modCtx q (fun c => { c with stack := [] }) := by
  simp [Mod.resolve, h, hs]

/-- The count a LOOP leaves: one less, from its own count when none is running (05 R154). -/
def Mod.loopLeft (m : Mod) (q : Nat) (d : Desc) : Nat :=
  (if m.fld F.SQ_LOOP_COUNT q (ops d 0x58 1) = 0 then ops d 0x5C 4 else m.fld F.SQ_LOOP_COUNT q (ops d 0x58 1)) - 1

theorem resolve_loop (h : opcodeOf d = 0x03) : m.resolve q d a ring =
    (m.setFld F.SQ_LOOP_COUNT (m.loopLeft q d) q (ops d 0x58 1)).setPc q (if m.loopLeft q d ≠ 0 then ops d 0x50 8 else a + 128) := by
  unfold Mod.resolve
  rw [h]
  rfl

/-- A RETURN or a LOOP stands in a chain, and a LOOP has one of four counters (05 R153, Table 05.6). -/
theorem controlOk_ret (h : opcodeOf d = 0x05) (hok : m.controlOk q d ring = true) : ring = false := by
  simp only [Mod.controlOk, h, Bool.and_eq_true, Bool.not_eq_true'] at hok
  exact hok.2.2

theorem controlOk_loop (h : opcodeOf d = 0x03) (hok : m.controlOk q d ring = true) : ops d 0x58 1 < 4 := by
  simp only [Mod.controlOk, h, Bool.and_eq_true, decide_eq_true_eq] at hok
  exact Nat.lt_succ_of_le hok.2.1.2

end

/-! ## The place fetch goes on from -/

/-- The head of the ring is passed when the descriptor came from there, fetch goes on from `pc`, and besides only the chain and the
registers `more` change. -/
theorem jumps_setPc {m k : Mod} {q : Fin 4} {ring : Bool} {g : Ctx → Ctx} {more : List Nat} {stack : List (Option Nat)} (pc : Nat)
    (hk : CtxStep q g (more ++ headRegs q ring) m k)
    (hhead : ring = true → k.fld F.SQ_RING_HEAD_HEAD q = (m.fld F.SQ_RING_HEAD_HEAD q + 1) % 2 ^ 32)
    (hg : g (m.ctx q) = { m.ctx q with inFetch := none, fetchWait := false, stack := stack }) :
    (ring = true → (k.setPc q pc).settle.fld F.SQ_RING_HEAD_HEAD q = (m.fld F.SQ_RING_HEAD_HEAD q + 1) % 2 ^ 32) ∧
    (k.setPc q pc).settle.fld F.SQ_PC_ADDR q = pc % 2 ^ 48 ∧
    OnlyRegs (F.SQ_PC_ADDR.addr q 0 :: (more ++ headRegs q ring))
      { m with ctxs := modNth m.ctxs q (fun c => { c with inFetch := none, fetchWait := false, stack := stack, pc := pc }) }
      (k.setPc q pc).settle := by
  have hk' : CtxStep q g (F.SQ_PC_ADDR.addr q 0 :: (more ++ headRegs q ring)) m k :=
    ⟨hk.1, fun a ha => hk.2 a fun hin => ha (List.mem_cons_of_mem _ hin)⟩
  refine ⟨fun hr => ?_, ?_, onlyRegs_of_ctxStep (ctxStep_setPc hk' pc List.mem_cons_self) ?_⟩
  · rw [fld_settle, fld_setPc_apart _ _ _ (by decide), hhead hr]
  · rw [fld_settle, fld_setPc]
  · show _ = { g (m.ctx q) with pc := pc }
    rw [hg]

section
variable {c : Instr} {s : State} {q : Fin 4} {a : Nat} {ring : Bool} {d : List Byte}
  (h : (s.m.ctx q).inFetch = some (a, ring)) (hw : (s.m.ctx q).fetchWait = false) (hd : (s.m.fetched q).2 = .done .ok d)
  (hquiet : (s.m.fetched q).1.quiet = true) (hout : (s.m.fetched q).1.out.all Out.stays = true)
  (hfetch : ((s.m.fetched q).1.ctx q).inFetch = some (a, ring))
  (hhead : ring = true → (s.m.fetched q).1.fld F.SQ_RING_HEAD_HEAD q ≠ (s.m.fetched q).1.fld F.SQ_RING_TAIL_TAIL q)
  (hok : (s.m.fetched q).1.controlOk q d ring = true)

include h hw hd hquiet hout hfetch hhead hok

/-- The row of an operation resolved at fetch answers what the operation does, settled. -/
theorem answers_resolved {opcode : Nat} {n : Mod} {g : Ctx → Ctx} {as : List Nat} {P : State → Prop}
    (hexec : exec c s = s.runF (fun m => m.fetchOpcode q opcode)) (ho : opcodeOf d = opcode) (hres : fetchResolved opcode = true)
    (hn : ((s.m.fetched q).1.fetchTaken q ring).resolve q d a ring = n) (hstep : CtxStep q g as (s.m.fetched q).1 n)
    (hg : ∀ c, (g c).ops = c.ops) (hdrain : F.DIR_STATUS_DRAINING.addr 0 0 ∉ as) (hp : P { s with m := n.settle }) : Answers c s P := by
  subst ho
  refine answers_ctxStep hexec ?_ hstep hquiet hout (fun c hc => by rwa [hg]) hdrain hp
  rw [fetchOpcode_of_fetched h hw hd, finishFetch_resolved hfetch hhead hres hok, hn]

/-- One that only sends fetch elsewhere, with `k` the module before the place is written, answers that. -/
theorem answers_jump {opcode : Nat} {k : Mod} {g : Ctx → Ctx} {more : List Nat} {stack : List (Option Nat)} {pc : Nat} {P : State → Prop}
    (hexec : exec c s = s.runF (fun m => m.fetchOpcode q opcode)) (ho : opcodeOf d = opcode) (hres : fetchResolved opcode = true)
    (hk : CtxStep q g (more ++ headRegs q ring) (s.m.fetched q).1 k)
    (hslot : ring = true → k.fld F.SQ_RING_HEAD_HEAD q = ((s.m.fetched q).1.fld F.SQ_RING_HEAD_HEAD q + 1) % 2 ^ 32)
    (hctx : g ((s.m.fetched q).1.ctx q) = { (s.m.fetched q).1.ctx q with inFetch := none, fetchWait := false, stack := stack })
    (hn : ((s.m.fetched q).1.fetchTaken q ring).resolve q d a ring = k.setPc q pc) (hg : ∀ c, (g c).ops = c.ops)
    (hdrain : F.DIR_STATUS_DRAINING.addr 0 0 ∉ more)
    (hp : (ring = true → (k.setPc q pc).settle.fld F.SQ_RING_HEAD_HEAD q = ((s.m.fetched q).1.fld F.SQ_RING_HEAD_HEAD q + 1) % 2 ^ 32) ∧
      (k.setPc q pc).settle.fld F.SQ_PC_ADDR q = pc % 2 ^ 48 ∧
      OnlyRegs (F.SQ_PC_ADDR.addr q 0 :: (more ++ headRegs q ring))
        { (s.m.fetched q).1 with ctxs := modNth (s.m.fetched q).1.ctxs q (fun c => { c with
          inFetch := none, fetchWait := false, stack := stack, pc := pc }) } (k.setPc q pc).settle →
      P { s with m := (k.setPc q pc).settle }) : Answers c s P := by
  have hstep : CtxStep q (fun c => { g c with pc := pc }) (F.SQ_PC_ADDR.addr q 0 :: (more ++ headRegs q ring)) (s.m.fetched q).1 (k.setPc q pc) :=
    ctxStep_setPc ⟨hk.1, fun a ha => hk.2 a fun hin => ha (List.mem_cons_of_mem _ hin)⟩ pc List.mem_cons_self
  obtain ⟨-, hheadReg, hpcReg⟩ := draining_not_fetch q
  refine answers_resolved h hw hd hquiet hout hfetch hhead hok hexec ho hres hn hstep hg ?_ (hp (jumps_setPc pc hk hslot hctx))
  cases ring <;> simp [headRegs, hpcReg, hheadReg, hdrain]

end

theorem fld_setPc_addr (m : Mod) (q pc : Nat) {f : Fld} {i k : Nat} (h : f.addr i k ≠ F.SQ_PC_ADDR.addr q 0) :
    (m.setPc q pc).fld f i k = m.fld f i k :=
  fld_setFld_addr _ _ _ _ _ _ _ _ _ _ h

/-- The counters of LOOPs are no register that a fetch writes besides. -/
theorem loopAddr_ne (q : Fin 4) {k : Nat} (hk : k < 4) :
    F.DIR_STATUS_DRAINING.addr 0 0 ≠ F.SQ_LOOP_COUNT.addr q k ∧ F.SQ_RING_HEAD_HEAD.addr q 0 ≠ F.SQ_LOOP_COUNT.addr q k ∧
    F.SQ_LOOP_COUNT.addr q k ≠ F.SQ_PC_ADDR.addr q 0 := by
  have hall : ∀ (q : Fin 4) (k : Fin 4), F.DIR_STATUS_DRAINING.addr 0 0 ≠ F.SQ_LOOP_COUNT.addr q k ∧
      F.SQ_RING_HEAD_HEAD.addr q 0 ≠ F.SQ_LOOP_COUNT.addr q k ∧ F.SQ_LOOP_COUNT.addr q k ≠ F.SQ_PC_ADDR.addr q 0 := by decide
  exact hall q ⟨k, hk⟩

/-- Settles O8: each operation is a step of its context on the module with its descriptor taken, by the equation of its opcode. -/
theorem fetchResolvedOperations : Obligations.FetchResolvedOperations := by
  unfold Obligations.FetchResolvedOperations
  intro q s a ring d h hw hd m1 hquiet hout hfetch hhead hok target k left regs head jumps
  have hregs := ctxStep_fetchTaken m1 q ring (as := headRegs q ring) (fun _ => id)
  have hslot := fld_fetchTaken_head m1 q ring
  have hstack := stack_fetchTaken m1 q ring
  obtain ⟨-, hheadReg, -⟩ := draining_not_fetch q
  refine ⟨fun ho hr => ?nopRing, fun ho hr => ?nopChain, fun ho => ?jump, fun ho => ?call, fun r rest ho hs => ?retChain,
    fun rest ho hs => ?retRing, fun ho => ?loop⟩
  case nopRing =>
    subst hr
    refine answers_resolved h hw hd hquiet hout hfetch hhead hok (exec_nop q s) ho rfl (resolve_nop_ring ho) hregs (fun _ => rfl) ?_
      ⟨fun hr => (fld_settle _ _ _ _ _).trans (hslot hr), onlyRegs_of_ctxStep hregs rfl⟩
    simp [headRegs, hheadReg]
  case nopChain =>
    subst hr
    exact answers_jump h hw hd hquiet hout hfetch hhead hok (more := []) (exec_nop q s) ho rfl hregs hslot rfl (resolve_nop_chain ho)
      (fun _ => rfl) List.not_mem_nil id
  case jump =>
    exact answers_jump h hw hd hquiet hout hfetch hhead hok (more := []) (exec_jump q s) ho rfl hregs hslot rfl (resolve_jump ho)
      (fun _ => rfl) List.not_mem_nil id
  case call =>
    exact answers_jump h hw hd hquiet hout hfetch hhead hok (more := []) (exec_call q s) ho rfl (ctxStep_modCtx hregs _) hslot rfl
      (resolve_call ho) (fun _ => rfl) List.not_mem_nil id
  case retChain =>
    exact answers_jump h hw hd hquiet hout hfetch hhead hok (more := []) (exec_ret q s) ho rfl (ctxStep_modCtx hregs _) hslot rfl
      (resolve_ret_chain ho (hstack.trans hs)) (fun _ => rfl) List.not_mem_nil id
  case retRing =>
    have hr : ring = false := controlOk_ret ho hok
    subst hr
    have hstep := ctxStep_modCtx hregs (fun c => { c with stack := [] })
    exact answers_resolved h hw hd hquiet hout hfetch hhead hok (exec_ret q s) ho rfl (resolve_ret_ring ho (hstack.trans hs)) hstep
      (fun _ => rfl) List.not_mem_nil (onlyRegs_of_ctxStep hstep rfl)
  case loop =>
    obtain ⟨hdrain, hheadLoop, hpcLoop⟩ := loopAddr_ne q (controlOk_loop ho hok)
    have hleft : (m1.fetchTaken q ring).loopLeft q d = left := by
      unfold Mod.loopLeft
      rw [fld_fetchTaken _ _ _ _ _ _ hheadLoop.symm]
    have hnext := resolve_loop (m := m1.fetchTaken q ring) (q := q) (a := a) (ring := ring) ho
    rw [hleft] at hnext
    have htaken := ctxStep_fetchTaken m1 q ring (as := [F.SQ_LOOP_COUNT.addr q k] ++ headRegs q ring) (fun _ => List.mem_append_right _)
    have hstep := ctxStep_setFld htaken F.SQ_LOOP_COUNT left q k (by simp)
    refine answers_jump h hw hd hquiet hout hfetch hhead hok (more := [F.SQ_LOOP_COUNT.addr q k]) (stack := (m1.ctx q).stack)
      (pc := if left ≠ 0 then target else a + 128) (exec_loop q s) ho rfl hstep ?slot rfl hnext (fun _ => rfl) (by simpa using hdrain) ?goal
    case slot => exact fun hr => (fld_setFld_addr _ _ _ _ _ _ _ _ _ _ hheadLoop).trans (hslot hr)
    case goal =>
      refine fun hjump => ⟨?_, hjump⟩
      rw [fld_settle, fld_setPc_addr _ _ _ hpcLoop]
      exact fld_setFld_self _ F.SQ_LOOP_COUNT _ _ _ _ (by decide)

end Sys2Proof.Machine

/-! # Proofs: a receive buffer kept while a request waits at its source (10 R288; 12 R339)

O37 says of a doorbell that its flits leave the receiver, in every state where nothing waits by `Mod.quiet`. That leaves out the requests that
wait at their sources while the directory's retry queue is full (11 R298), and a packet whose source is one of theirs keeps its buffer. -/

namespace Sys2Proof.Machine

open Sys2Proof

/-- A doorbell from node 7, number 21, that adds 1 to flag 0. -/
def doorbellOne : Packet :=
  mkPacket 0 0x08 0 7 21 0 (List.replicate 0x24 0 ++ [1] ++ List.replicate 27 0) []

/-- A write of node 7, number 21 there, that came through port 1. -/
def writeAtSource : NcReq :=
  { src := .fabric 7 21 1, ag := .fabric, op := .write (List.replicate 64 (some 0)), addr := 0x400000000000 }

/-- A member of the fabric whose port 1 is ACTIVE and reaches node 7, with the write at its source. -/
def keepingMember : State :=
  let quiet : Mod := {
    pwrgd := true, state := .active, ctxs := List.replicate 4 {}, lanes := List.replicate 10 {},
    reqSrc := [(0x400000000000, .nc writeAtSource)] }
  let joined := (quiet.setFld F.FAB_ROLE_STATE 2).setFld F.LANE_STATUS_STATE 6 1
  ⟨[], ((joined.setFld F.FAB_ROUTE_VALID 1 0 7).setFld F.FAB_ROUTE_C0 1 0 7).setFld F.FAB_PORT_ROUTE_EN 1 0 1⟩

/-- The response to the doorbell. -/
def doorbellAnswer : Packet := mkPacket 2 0x40 7 0 21 0 [] []

/-- The state that the doorbell leaves. -/
def keptMember : State :=
  { keepingMember with m := (keepingMember.m.clearOut.arrive 1 doorbellOne (fun m => m.doorbell 1 doorbellOne)).conclude.settle }

theorem exec_dbell_keepingMember : exec (.dbell 1 doorbellOne) keepingMember = .next keptMember := rfl

/-- The premises that O37 asks of a state before a doorbell for flag 0. -/
theorem keepingMember_quiet : keepingMember.m.quiet = true ∧ keepingMember.m.fld F.FAB_ROLE_STATE = 2 ∧
    doorbellOne.dst.val = keepingMember.m.fld F.FAB_NODE_ID ∧ leAt doorbellOne.head 0x20 2 < 1023 ∧ leAt doorbellOne.head 0x24 4 ≠ 0 := by
  decide +kernel

theorem keepingMember_takes : keepingMember.m.takes 1 doorbellOne := by
  unfold Mod.takes
  decide +kernel

theorem keepingMember_leaves : keepingMember.m.leaves none 1 doorbellAnswer := by
  unfold Mod.leaves Mod.hasRoom
  decide +kernel

/-- The doorbell's buffer is kept: the receiver takes its source for that of the write. -/
theorem keptMember_kept : keptMember.m.fab.kept = [(1, doorbellOne)] := by decide +kernel

/-- Refutes O37: its clause for a doorbell asks that no receive buffer is kept, but the doorbell has the node, the number and the port of a
write that waits at its source, so the buffer is kept with the write's (10 R288). -/
theorem not_doorbellsAndCollectives : ¬ Obligations.DoorbellsAndCollectives := by
  unfold Obligations.DoorbellsAndCollectives
  rintro ⟨packets, -⟩
  obtain ⟨hquiet, hstate, hdst, hflag, hadd⟩ := keepingMember_quiet
  obtain ⟨hdbell, -⟩ := packets 1 1 doorbellOne
    { id := 0, rank := 0, groupSize := 0, opcode := 0, redOp := 0, flags := 0, peer := 0, count := 0, format := 0, crc := 0 }
    keepingMember hquiet hstate hdst
  obtain ⟨t, ht, -, ⟨hrest, -, -⟩, -⟩ := hdbell hflag hadd keepingMember_takes keepingMember_leaves
  rw [exec_dbell_keepingMember, Host.Outcome.next.injEq] at ht
  subst ht
  have hkept : keptMember.m.fab.kept = keepingMember.m.fab.kept := congrArg (fun m => m.fab.kept) hrest
  rw [keptMember_kept] at hkept
  exact absurd hkept (List.cons_ne_nil _ _)

end Sys2Proof.Machine

/-! # Proofs: retirement (05 R135, R143, Table 05.10; 07 R201, R206) -/

namespace Sys2Proof.Machine

open Sys2Proof

/-- The frame of a step of one context, of the state whose outputs its row cleared. -/
theorem onlyRegs_of_ctxStep_clearOut {q : Nat} {g g' : Ctx → Ctx} {as : List Nat} {m n : Mod} (h : CtxStep q g as m.clearOut n)
    (hg : g' (m.ctx q) = g (m.ctx q)) : OnlyRegs as { m with ctxs := modNth m.ctxs q g' } n.settle :=
  onlyRegs_of_ctxStep (m := m.clearOut) h hg

/-! ## An operation completes -/

/-- The module whose context `q` holds no operation. -/
def Mod.emptied (m : Mod) (q : Nat) : Mod := m.modCtx q (fun c => { c with ops := [] })

theorem ctx_of_ctxStep {q : Nat} {g : Ctx → Ctx} {as : List Nat} {m n : Mod} (h : CtxStep q g as m n) (hq : q < m.ctxs.length) :
    n.ctx q = g (m.ctx q) := by
  rw [Mod.ctx, h.1]
  exact nth_modNth_self _ _ _ _ hq

theorem issueHeads_of_nil {m : Mod} {q : Nat} (h : (m.ctx q).ops = []) : m.issueHeads q = m := by simp [Mod.issueHeads, h]

section
variable {m : Mod} {q : Nat} {op : ROp} (h : (m.ctx q).ops = [op])
include h

theorem ctx_modCtx_of_ops (g : Ctx → Ctx) : (m.modCtx q g).ctx q = g (m.ctx q) := ctx_modCtx_self _ _ _ (lt_length_of_ops h)

theorem modCtx_filter_sole :
    m.modCtx q (fun c => { c with ops := c.ops.filter (fun x => x.seq != op.seq) }) = m.emptied q := by
  refine congrArg (fun l => ({ m with ctxs := l } : Mod)) (modNth_congr {} ?_)
  have hops : (nth m.ctxs q {}).ops = [op] := h
  simp [hops]

theorem issueHeads_modCtx_of_nil {g : Ctx → Ctx} (hg : (g (m.ctx q)).ops = []) : (m.modCtx q g).issueHeads q = m.modCtx q g :=
  issueHeads_of_nil ((congrArg Ctx.ops (ctx_modCtx_of_ops h g)).trans hg)

theorem issueHeads_emptied : (m.emptied q).issueHeads q = m.emptied q := issueHeads_modCtx_of_nil h rfl

theorem ctx_emptied : (m.emptied q).ctx q = { m.ctx q with ops := [] } := ctx_modCtx_of_ops h _

/-- A HALT halts its context (05 Table 05.10). -/
theorem completeOp_halt (hd : op.desc ≠ []) (h6 : opcodeOf op.desc = 0x06) (hok : op.status = .ok) (htr : (m.ctx q).trapped = false)
    (hab : (m.ctx q).aborting = false) : m.completeOp q op = m.modCtx q (fun c => { c with ops := [], halted := true }) := by
  have hhalt : (m.emptied q).modCtx q (fun c => { c with halted := true }) = m.modCtx q (fun c => { c with ops := [], halted := true }) :=
    congrArg (fun l => ({ m with ctxs := l } : Mod)) (modNth_modNth _ _ _ _)
  have hheads := issueHeads_modCtx_of_nil h (g := fun c => { c with ops := [], halted := true }) rfl
  simp [Mod.completeOp, modCtx_filter_sole h, ctx_emptied h, h6, hd, hok, htr, hab, hhalt, hheads, isCollective]

/-- The fetch unit goes on from the address that a BRANCH_IF chose (05 R135). -/
theorem completeOp_branch (hd : op.desc ≠ []) (h2 : opcodeOf op.desc = 0x02) (htr : (m.ctx q).trapped = false)
    (hab : (m.ctx q).aborting = false) :
    m.completeOp q op = ((m.emptied q).setPc q (op.next.getD (op.addr + 128))).modCtx q (fun c => { c with paused := false }) := by
  have hstep := ctxStep_modCtx (ctxStep_setPc (ctxStep_of_modCtx m q (fun c => { c with ops := [] }) [F.SQ_PC_ADDR.addr q 0])
    (op.next.getD (op.addr + 128)) List.mem_cons_self) (fun c => { c with paused := false })
  have hheads : (((m.emptied q).setPc q (op.next.getD (op.addr + 128))).modCtx q (fun c => { c with paused := false })).issueHeads q =
      ((m.emptied q).setPc q (op.next.getD (op.addr + 128))).modCtx q (fun c => { c with paused := false }) :=
    issueHeads_of_nil (congrArg Ctx.ops (ctx_of_ctxStep hstep (lt_length_of_ops h)))
  simp [Mod.completeOp, modCtx_filter_sole h, ctx_emptied h, h2, hd, htr, hab, hheads, isCollective]

variable (hcoll : isCollective (opcodeOf op.desc) = false)
include hcoll

/-- An operation that the fetch unit does not wait for leaves its slot. -/
theorem completeOp_plain (h2 : opcodeOf op.desc ≠ 0x02) (h6 : opcodeOf op.desc ≠ 0x06) (hA : opcodeOf op.desc ≠ 0x0A) :
    m.completeOp q op = m.emptied q := by
  simp [Mod.completeOp, modCtx_filter_sole h, hcoll, h2, h6, hA, issueHeads_emptied h]

end

/-! ## A local signal (05 R143) -/

theorem ctx_passWaits (m : Mod) (q : Nat) : m.passWaits.ctx q = { m.ctx q with ops := (m.ctx q).ops.map m.passWait } := by
  show nth (m.ctxs.map (fun c => ({ c with ops := c.ops.map m.passWait } : Ctx))) q {} = _
  unfold Mod.ctx nth
  rw [List.getD_eq_getElem?_getD, List.getD_eq_getElem?_getD, List.getElem?_map]
  cases m.ctxs[q]? <;> rfl

/-- The waits of flags are passed by operations that have not started to stage. -/
theorem ops_addFlag {m : Mod} {q : Nat} {op : ROp} (i v : Nat) (h : (m.ctx q).ops = [op]) (hst : op.st ≠ .fetched) :
    ((m.addFlag i v).ctx q).ops = [op] := by
  have hops : ((m.setFld F.HUB_FLAG_VALUE (m.flag i + v) 0 i).ctx q).ops = [op] := h
  simp [Mod.addFlag, Mod.setFlag, ctx_passWaits, hops, Mod.passWait, hst]

/-- Flags lie in the hub's block of registers, below the registers of the supply and of the directory (01 Table 01.7). -/
theorem flagAddr_ne {i : Nat} (hi : i < 1024) :
    F.REG_NOW_NOW.addr 0 0 ≠ F.HUB_FLAG_VALUE.addr 0 i ∧ F.DIR_STATUS_DRAINING.addr 0 0 ≠ F.HUB_FLAG_VALUE.addr 0 i := by
  have hflag : F.HUB_FLAG_VALUE.addr 0 i = 0x700000008000 + i * 8 := rfl
  have hnow : F.REG_NOW_NOW.addr 0 0 = 0x700008000008 := rfl
  have hdir : F.DIR_STATUS_DRAINING.addr 0 0 = 0x700009000008 := rfl
  omega

theorem reg_addFlag (m : Mod) (i v : Nat) {a : Nat} (h : a ≠ F.HUB_FLAG_VALUE.addr 0 i) : (m.addFlag i v).reg a = m.reg a := by
  have hset : (m.addFlag i v).reg a = (m.setFld F.HUB_FLAG_VALUE (m.flag i + v) 0 i).reg a := reg_congr rfl a
  rw [hset, reg_setFld_ne _ _ _ _ _ _ h]

theorem ticks_addFlag (m : Mod) {i : Nat} (v : Nat) (hi : i < 1024) : (m.addFlag i v).ticks = m.ticks := by
  have hreg : (m.addFlag i v).reg (F.REG_NOW_NOW.addr 0 0) = m.reg (F.REG_NOW_NOW.addr 0 0) :=
    reg_addFlag m i v (flagAddr_ne hi).1
  have hhigh : F.REG_NOW_HIGH.addr 0 0 = F.REG_NOW_NOW.addr 0 0 := rfl
  simp only [Mod.ticks, Mod.fld, hhigh, hreg]

theorem quiet_addFlag {m : Mod} {i : Nat} (v : Nat) (hq : m.quiet = true) (hi : i < 1024) : (m.addFlag i v).quiet = true := by
  have hcoll : m.collQuiet = true := by
    simp only [Mod.quiet, Mod.idle, Bool.and_eq_true] at hq
    exact hq.1.1.2
  have hdrain : (m.addFlag i v).fld F.DIR_STATUS_DRAINING = m.fld F.DIR_STATUS_DRAINING := by
    simp only [Mod.fld, reg_addFlag m i v (flagAddr_ne hi).2]
  refine quiet_ctxs hq rfl rfl (memQuiet_congr rfl rfl rfl rfl rfl hdrain) (svcReady_congr rfl rfl rfl) ?_
  have hkeep : ∀ (n : Mod) (o : ROp), (n.passWait o).coll = o.coll := fun n o => by
    unfold Mod.passWait
    split <;> rfl
  simp only [Mod.collQuiet, List.all_eq_true] at hcoll ⊢
  intro c hc o ho
  rw [show (m.addFlag i v).ctxs = _ from ctxs_passWaits _, List.mem_map] at hc
  obtain ⟨c₀, hc₀, rfl⟩ := hc
  obtain ⟨o₀, ho₀, rfl⟩ := List.mem_map.mp ho
  rw [hkeep]
  exact hcoll c₀ hc₀ o₀ ho₀

/-! ## The commit point -/

/-- The operation RETIRED: its tick is latched, and its signal is out. -/
def Mod.retiredOp (m : Mod) (op : ROp) : ROp :=
  { op with st := .retired, retTick := some m.ticks, signalled := op.signalled || signalAfter op.desc }

theorem traps_of_ok {o : ROp} (hok : o.status = .ok) (hd : o.desc ≠ []) : o.traps = (opcodeOf o.desc == 0x0A) := by
  simp [ROp.traps, hok, hd]

/-- An operation with a record to write, or that traps, stays in its slot. -/
theorem retire_stays {m n : Mod} {q : Nat} {op : ROp} (hok : op.status = .ok) (hn : m.commit q = n.withOp q (m.retiredOp op))
    (hnops : (n.ctx q).ops = [op]) (hkeep : op.needsRecord = true ∨ (opcodeOf op.desc = 0x0A ∧ op.desc ≠ [])) :
    m.retire q = n.withOp q (m.retiredOp op) := by
  have hops := ops_withOp (m.retiredOp op) hnops
  have hheads : (n.withOp q (m.retiredOp op)).issueHeads q = n.withOp q (m.retiredOp op) :=
    issueHeads_of_not_staged hops (fun hs => OpSt.noConfusion hs)
  have hno : ¬((m.retiredOp op).st = .retired ∧ (m.retiredOp op).needsRecord = false ∧ (m.retiredOp op).traps = false) := by
    rintro ⟨-, hrec : op.needsRecord = false, htraps : op.traps = false⟩
    rcases hkeep with hk | ⟨hA, hd⟩
    · rw [hk] at hrec
      exact Bool.noConfusion hrec
    · rw [traps_of_ok hok hd, hA] at htraps
      exact Bool.noConfusion htraps
  simp only [Mod.retire, hn, hops]
  rw [if_neg hno, hheads]

section
variable {m : Mod} {q : Nat} {op : ROp} (h : (m.ctx q).ops = [op]) (hst : op.st = .reported) (hok : op.status = .ok) (hopen : op.open_ = [])
  (hreplay : op.replayed = false)
include h hst hok hopen hreplay

theorem commit_unsignalled (hs : signalAfter op.desc = false) : m.commit q = m.withOp q (m.retiredOp op) := by
  have hset := modOp_sole (fun _ => m.retiredOp op) h
  unfold Mod.retiredOp at hset ⊢
  simp_all [Mod.commit]

/-- With a local signal the flag takes its addition first (05 R143). -/
theorem commit_signal (hs : signalAfter op.desc = true) (hunsent : op.signalled = false)
    (hlocal : signalRemote op.desc = false ∨ signalNode op.desc = m.node) :
    m.commit q = (m.addFlag (signalFlagOf op.desc) (signalAdd op.desc)).withOp q (m.retiredOp op) := by
  have hsent : ¬(signalAfter op.desc = true ∧ op.signalled = false ∧ signalRemote op.desc = true ∧ signalNode op.desc ≠ m.node) := by
    rintro ⟨-, -, hremote, hnode⟩
    rcases hlocal with hl | hl
    · rw [hl] at hremote
      exact Bool.noConfusion hremote
    · exact hnode hl
  have hops := ops_addFlag (signalFlagOf op.desc) (signalAdd op.desc) h (fun hf => OpSt.noConfusion (hst.symm.trans hf))
  have hset := modOp_sole (fun _ => m.retiredOp op) hops
  have hticks := ticks_addFlag m (signalAdd op.desc) (i := signalFlagOf op.desc) (bits_lt _ _ _)
  unfold Mod.retiredOp at hset ⊢
  have hgo : ¬(op.st ≠ .reported ∨ op.status ≠ .ok ∨ op.open_ ≠ []) := by simp [hst, hok, hopen]
  have hsend : signalAfter op.desc = true ∧ op.signalled = false := ⟨hs, hunsent⟩
  have hkept : ¬(op.replayed = true) := by simp [hreplay]
  unfold Mod.commit
  rw [h]
  dsimp only
  rw [if_neg hgo, if_neg hsent, if_pos hsend, if_neg hkept, hticks]
  exact hset

/-- Any other leaves it. -/
theorem retire_completes (hs : signalAfter op.desc = false) (hrec : op.needsRecord = false) (hA : opcodeOf op.desc ≠ 0x0A)
    (hd : op.desc ≠ []) : m.retire q = (m.withOp q (m.retiredOp op)).completeOp q (m.retiredOp op) := by
  have hops := ops_withOp (m.retiredOp op) h
  have htraps : op.traps = false := by rw [traps_of_ok hok hd, beq_false_of_ne hA]
  have hyes : (m.retiredOp op).st = .retired ∧ (m.retiredOp op).needsRecord = false ∧ (m.retiredOp op).traps = false :=
    ⟨rfl, hrec, htraps⟩
  simp only [Mod.retire, commit_unsignalled h hst hok hopen hreplay hs, hops]
  rw [if_pos hyes]

end

/-! ## The row -/

/-- A retirement that changes its context alone. -/
theorem retire_answers {s : State} {q : Fin 4} {g g' : Ctx → Ctx} (hquiet : s.m.quiet = true)
    (he : s.m.clearOut.retire q = s.m.clearOut.modCtx q g)
    (hg : ∀ c : Ctx, c.ops.all (fun o => o.coll.isNone) = true → (g c).ops.all (fun o => o.coll.isNone) = true)
    (hctx : g' (s.m.ctx q) = g (s.m.ctx q)) :
    Answers (.retire q) s (fun t => t.m.out = [] ∧ OnlyRegs [] { s.m with ctxs := modNth s.m.ctxs q g' } t.m) :=
  have hstep := ctxStep_of_modCtx s.m.clearOut q g []
  answers_ctxStep (exec_retire q s) he hstep hquiet rfl hg List.not_mem_nil ⟨rfl, onlyRegs_of_ctxStep_clearOut hstep hctx⟩

theorem modCtx_withOp (m : Mod) (q : Nat) (o : ROp) (g : Ctx → Ctx) : (m.withOp q o).modCtx q g = m.modCtx q (fun c => g { c with ops := [o] }) :=
  congrArg (fun l => ({ m with ctxs := l } : Mod)) (modNth_modNth _ _ _ _)

/-- Settles O17: the commit point retires the operation, and one that neither traps nor has a record to write completes. -/
theorem retires : Obligations.Retires := by
  unfold Obligations.Retires
  intro q s op hquiet hop hst hok hopen hreplay hcoll hd retired frame
  have hnone : op.coll = none := coll_none_of_quiet hquiet hop
  have hplain := fun hs => commit_unsignalled (m := s.m.clearOut) hop hst hok hopen hreplay hs
  have hdone := fun hs hrec hA => retire_completes (m := s.m.clearOut) hop hst hok hopen hreplay hs hrec hA hd
  have hret : ((s.m.clearOut.withOp q retired).ctx q) = { s.m.ctx q with ops := [retired] } := ctx_modCtx_of_ops (m := s.m.clearOut) hop _
  have hrops : ((s.m.clearOut.withOp q retired).ctx q).ops = [retired] := congrArg Ctx.ops hret
  have hstays : op.needsRecord = true ∨ (opcodeOf op.desc = 0x0A ∧ op.desc ≠ []) → signalAfter op.desc = false →
      Answers (.retire q) s (frame (fun c => { c with ops := [retired] })) := fun hkeep hs =>
    retire_answers hquiet (g := fun c => { c with ops := [retired] }) (retire_stays (m := s.m.clearOut) hok (hplain hs) hop hkeep)
      (fun _ _ => by simp [retired, hnone]) rfl
  refine ⟨fun hs hrec => hstays (.inl hrec) hs, fun hs hrec h2 h6 hA => ?plain, fun hs hrec h6 htr hab => ?halt,
    fun hs hA => hstays (.inr ⟨hA, hd⟩) hs, fun hs hrec h2 htr hab => ?branch, fun hs hunsent hlocal hrec => ?signal⟩
  case plain =>
    refine retire_answers hquiet (g := fun c => { c with ops := [] }) ((hdone hs hrec hA).trans ?_) (fun _ _ => rfl) rfl
    exact (completeOp_plain hrops hcoll h2 h6 hA).trans (modCtx_withOp _ _ _ _)
  case halt =>
    have hA : opcodeOf op.desc ≠ 0x0A := by rw [h6]; decide
    refine retire_answers hquiet (g := fun c => { c with ops := [], halted := true }) ((hdone hs hrec hA).trans ?_) (fun _ _ => rfl) rfl
    refine (completeOp_halt hrops hd h6 hok ?_ ?_).trans (modCtx_withOp _ _ _ _) <;> rw [hret]
    · exact htr
    · exact hab
  case branch =>
    have hA : opcodeOf op.desc ≠ 0x0A := by rw [h2]; decide
    have hcomplete := completeOp_branch (op := retired) hrops hd h2 (by rw [hret]; exact htr) (by rw [hret]; exact hab)
    have hstep := ctxStep_modCtx (ctxStep_setPc (ctxStep_modCtx (ctxStep_of_modCtx s.m.clearOut q (fun c => { c with ops := [retired] })
      [F.SQ_PC_ADDR.addr q 0]) (fun c => { c with ops := [] })) (op.next.getD (op.addr + 128)) List.mem_cons_self)
      (fun c => { c with paused := false })
    refine answers_ctxStep (exec_retire q s) ((hdone hs hrec hA).trans hcomplete) hstep hquiet rfl (fun _ _ => rfl)
      (by simpa using (draining_not_fetch q).2.2) ⟨?_, rfl, onlyRegs_of_ctxStep_clearOut hstep rfl⟩
    exact (fld_settle _ _ _ _ _).trans (fld_setPc _ q _)
  case signal =>
    have hi : signalFlagOf op.desc < 1024 := bits_lt _ _ _
    have hops := ops_addFlag (m := s.m.clearOut) (signalFlagOf op.desc) (signalAdd op.desc) hop (fun hf => OpSt.noConfusion (hst.symm.trans hf))
    have heff := retire_stays (m := s.m.clearOut) hok (commit_signal (m := s.m.clearOut) hop hst hok hopen hreplay hs hunsent hlocal) hops (.inl hrec)
    refine answers_runF (exec_retire q s) ?_ ?_ ?_ <;> rw [heff]
    · exact quiet_withOp (quiet_addFlag (m := s.m.clearOut) (signalAdd op.desc) hquiet hi) hnone
    · rfl
    · refine ⟨?_, ops_withOp _ hops, rfl, onlyRegs_settle rfl rfl fun a ha => ?_⟩
      · exact (flag_settle _ _).trans (flag_setFlag s.m.clearOut _ _)
      · exact reg_setFld_ne s.m _ _ 0 _ 0 (by simpa using ha)

end Sys2Proof.Machine

/-! # Proofs: the completion record (05 R158; 07 R206, Table 07.2) -/

namespace Sys2Proof.Machine

open Sys2Proof

/-! ## Bytes of numbers (00 R4) -/

@[simp] theorem length_toBytes (n v : Nat) : (toBytes n v).length = n := by
  induction n generalizing v with
  | zero => rfl
  | succ n ih => simp [toBytes, ih]

theorem ofBytes_toBytes (n v : Nat) : ofBytes (toBytes n v) = v % 256 ^ n := by
  induction n generalizing v with
  | zero => simp [toBytes, ofBytes, Nat.mod_one]
  | succ n ih =>
    rw [toBytes, ofBytes, ih, BitVec.toNat_ofNat, Nat.shiftRight_eq_div_pow]
    show v % 256 + 256 * (v / 256 % 256 ^ n) = v % 256 ^ (n + 1)
    rw [pow_succ', Nat.mod_mul]

/-- The number at the front of a byte list. -/
theorem leAt_toBytes_self (n v : Nat) (bs : List Byte) : leAt (toBytes n v ++ bs) 0 n = v % 256 ^ n := by
  rw [leAt, List.drop_zero, List.take_left' (length_toBytes n v), ofBytes_toBytes]

/-- A number further on in a byte list. -/
theorem leAt_toBytes_skip (k v i n : Nat) (bs : List Byte) (h : k ≤ i) : leAt (toBytes k v ++ bs) i n = leAt bs (i - k) n := by
  have hdrop : (toBytes k v).drop i = [] := List.drop_of_length_le ((length_toBytes k v).trans_le h)
  rw [leAt, leAt, List.drop_append, hdrop, List.nil_append, length_toBytes]

/-! ## The record's fields (07 Table 07.2) -/

/-- The flags byte of a record. -/
def recordFlags (nan ovf sat lost replayed trapped signalled detached : Bool) : Nat :=
  b2n nan + 2 * b2n ovf + 4 * b2n sat + 8 * b2n lost + 16 * b2n replayed + 32 * b2n trapped + 64 * b2n signalled + 128 * b2n detached

theorem bit_recordFlags : ∀ a b c d e f g h : Bool, let r := recordFlags a b c d e f g h % 256 ^ 1
    bit r 0 = a ∧ bit r 1 = b ∧ bit r 2 = c ∧ bit r 3 = d ∧ bit r 4 = e ∧ bit r 5 = f ∧ bit r 6 = g ∧ bit r 7 = h := by decide

theorem statusToNat_lt (st : Status) : st.toNat < 256 := by cases st <;> decide

theorem record_length (m : Mod) (o : ROp) (trapped : Bool) : (m.record o trapped).length = 32 := by
  simp [Mod.record, d1, d2, d4, d8]

theorem record_fields (m : Mod) (o : ROp) (trapped : Bool) :
    let r := m.record o trapped
    leAt r 0 4 = o.seq % 2 ^ 32 ∧ leAt r 4 1 = o.status.toNat ∧ leAt r 5 1 = opcodeOf o.desc % 256 ∧ leAt r 6 2 = tagOf o.desc % 2 ^ 16 ∧
    leAt r 8 8 = (o.addr % 2 ^ 48 + b2n o.ring * 2 ^ 63) % 2 ^ 64 ∧
    leAt r 16 1 = recordFlags o.nan o.ovf o.sat o.lost o.replayed trapped o.signalled o.detached % 256 ^ 1 ∧
    (o.status = .ok → leAt r 17 1 = 0) ∧ leAt r 20 4 = m.opTicks o % 2 ^ 32 ∧ leAt r 24 8 = o.faultAddr % 2 ^ 64 := by
  intro r
  have hlast := leAt_toBytes_self 8 o.faultAddr []
  rw [List.append_nil] at hlast
  have hst := Nat.mod_eq_of_lt (statusToNat_lt o.status)
  simp only [r, Mod.record, d1, d2, d4, d8, List.append_assoc]
  refine ⟨?_, ?_, ?_, ?_, ?_, ?_, fun hok => ?_, ?_, ?_⟩
  all_goals simp [leAt_toBytes_skip, leAt_toBytes_self, hlast, hst, recordFlags]
  simp [hok]

/-! ## The write of the record -/

/-- The address of the completion ring's slot at TAIL. -/
def Mod.recordAddr (m : Mod) (q : Nat) : Nat :=
  m.fld F.SQ_CPL_BASE_ADDR q * 32 + 32 * (m.fld F.SQ_CPL_TAIL_TAIL q % 2 ^ m.fld F.SQ_CPL_BASE_LOG2_SLOTS q)

/-- The access that writes an operation's record. -/
def Mod.recordAccess (m : Mod) (q : Fin 4) (op : ROp) (trapped : Bool) : Mod × Reply :=
  m.memAccess (opSrc q op.seq 37) (.sqFetch q) (m.recordAddr q) (.write ((m.record op trapped).map some))

theorem writeRecord_done {m n : Mod} {q : Fin 4} {op : ROp} {trapped : Bool} {st : Status} {x : List Byte} (hrec : op.needsRecord = true)
    (hw : m.recordAccess q op trapped = (n, .done st x)) :
    m.writeRecord q op trapped = (n.addFld F.SQ_CPL_TAIL_TAIL 1 q).completeOp q op := by
  have hq : Fin.ofNat 4 q.val = q := Fin.ext (Nat.mod_eq_of_lt q.isLt)
  unfold Mod.recordAccess Mod.recordAddr at hw
  simp only [Mod.writeRecord, hrec, Bool.not_true, Bool.false_eq_true, if_false, hq, hw]

theorem recordRow_sole {m : Mod} {q : Nat} {op : ROp} (h : (m.ctx q).ops = [op]) (hready : op.ready = true) (hfree : m.cplFree q = true)
    (htraps : op.traps = false) : m.recordRow q = m.writeRecord q op false := by
  simp [Mod.recordRow, h, hready, hfree, htraps]

theorem nth_map_some {l : List Byte} {i : Nat} (h : i < l.length) (b : Byte) : (nth (l.map some) i none).getD b = nth l i 0 := by
  simp [nth, List.getD_eq_getElem?_getD, h]

/-- The module after the record of an operation that nothing of the fetch unit waits for, from the module `m` after its bytes are written. -/
def Mod.recorded (m : Mod) (q : Nat) : Mod := (m.addFld F.SQ_CPL_TAIL_TAIL 1 q).emptied q

theorem ctxStep_recorded (m : Mod) (q : Nat) :
    CtxStep q (fun c => { c with ops := [] }) [F.SQ_CPL_TAIL_TAIL.addr q 0] m (m.recorded q) := by
  have hid : CtxStep q id [F.SQ_CPL_TAIL_TAIL.addr q 0] m m := ⟨by rw [modNth_id], fun _ _ => rfl⟩
  exact ctxStep_modCtx (ctxStep_setFld hid _ _ _ _ List.mem_cons_self) _

theorem fld_recorded (m : Mod) (q : Nat) : (m.recorded q).fld F.SQ_CPL_TAIL_TAIL q = (m.fld F.SQ_CPL_TAIL_TAIL q + 1) % 2 ^ 32 := by
  rw [Mod.recorded, Mod.emptied, fld_modCtx]
  exact fld_setFld_self _ _ _ _ _ _ (by decide)

theorem cplTailAddr_ne (q : Fin 4) : F.DIR_STATUS_DRAINING.addr 0 0 ≠ F.SQ_CPL_TAIL_TAIL.addr q 0 := by
  revert q
  decide

/-- The row of a record that is written at once answers that, settled. -/
theorem answers_recorded {s : State} {q : Fin 4} {op : ROp} {n : Mod} {P : State → Prop} (hop : (s.m.ctx q).ops = [op])
    (hready : op.ready = true) (htraps : op.traps = false) (hA : opcodeOf op.desc ≠ 0x0A) (h2 : opcodeOf op.desc ≠ 0x02)
    (h6 : opcodeOf op.desc ≠ 0x06) (hcoll : isCollective (opcodeOf op.desc) = false) (hrec : op.needsRecord = true)
    (hfree : s.m.cplFree q = true) (hw : s.m.clearOut.recordAccess q op false = (n, .done .ok [])) (hquiet : n.quiet = true)
    (hout : n.out.all Out.stays = true) (hnop : (n.ctx q).ops = [op]) (hp : P { s with m := (n.recorded q).settle }) :
    Answers (.completionRecordWrite q) s P := by
  refine answers_ctxStep (exec_completionRecordWrite q s) ?_ (ctxStep_recorded n q) hquiet hout (fun _ _ => rfl)
    (by simpa using cplTailAddr_ne q) hp
  rw [recordRow_sole (m := s.m.clearOut) hop hready hfree htraps, writeRecord_done hrec hw]
  exact completeOp_plain hnop hcoll h2 h6 hA

/-- A record for a ring in the hub buffer is written at once. -/
theorem recordAccess_of_hubOpen {m : Mod} {q : Fin 4} {op : ROp} {trapped : Bool} (h : m.hubOpen (m.recordAddr q) 32) :
    m.recordAccess q op trapped = ({ m with mem := m.mem.writeAt (m.recordAddr q) ((m.record op trapped).map some) }, .done .ok []) := by
  obtain ⟨hlow, -⟩ := hubOpen_range h (by decide)
  have hlen : ((m.record op trapped).map some).length = 32 := (List.length_map _).trans (record_length m op trapped)
  have hblock : (m.recordAddr q - 0x400000000000) % 64 + 32 ≤ 64 := by
    unfold Mod.recordAddr
    omega
  have hon := (hubOpen_byte h (by decide) (i := 0) (by decide)).1
  rw [Nat.add_zero] at hon
  unfold Mod.recordAccess
  rw [memAccess_of_hubOpen h (by decide) (op := .write ((m.record op trapped).map some)) hlen, sramAccess_write_of_block (by rw [hlen]; decide) (by rwa [hlen]), sramWritePiece_of_on hon,
    hubBase_add hlow]

/-- What a record of bytes `d`, written at once at `a`, leaves. -/
theorem recorded_written (m : Mod) (q a : Nat) (d : List Byte) (hd : d.length = 32) :
    let t := (({ m.clearOut with mem := m.mem.writeAt a (d.map some) } : Mod).recorded q).settle
    t.fld F.SQ_CPL_TAIL_TAIL q = (m.fld F.SQ_CPL_TAIL_TAIL q + 1) % 2 ^ 32 ∧ (∀ i < 32, t.mem.byte (a + i) = nth d i 0) ∧
    (∀ x, x < a ∨ a + 32 ≤ x → t.mem.byte x = m.mem.byte x) ∧ t.out = [] ∧
    SameRest { m with ctxs := modNth m.ctxs q (fun c => { c with ops := [] }) } t ∧ SameRegsBut [F.SQ_CPL_TAIL_TAIL.addr q 0] m t := by
  have hlen : (d.map some).length = 32 := (List.length_map _).trans hd
  refine ⟨?_, fun i hi => ?_, fun x hx => ?_, rfl, sameRest_settle rfl, fun x hx => ?_⟩
  · rw [fld_settle, fld_recorded]
    rfl
  · have hnew := byte_writeAt_of_lt m.mem a (d.map some) (i := i) (by rwa [hlen])
    rw [nth_map_some (by rwa [hd])] at hnew
    exact (byte_settle _ _).trans hnew
  · exact (byte_settle _ _).trans (byte_writeAt_of_outside m.mem a (d.map some) (by rwa [hlen]))
  · rw [reg_settle]
    exact (ctxStep_recorded _ q).2 x hx

/-- Settles O18: the record's fields are numbers at their places, and its write, once done, moves TAIL on and empties the slot. -/
theorem recordWritten : Obligations.RecordWritten := by
  unfold Obligations.RecordWritten
  refine ⟨?record, fun m o trapped => ?fields⟩
  case record =>
    intro q s op hop hready htraps hA h2 h6 hcoll hrec hfree slot record written m1
    refine ⟨fun hw hquiet hout hnop => ?_, fun hquiet hopen => ?_⟩
    · have htail := (fld_settle (m1.recorded q) F.SQ_CPL_TAIL_TAIL q 0 0).trans (fld_recorded m1 q)
      exact answers_recorded hop hready htraps hA h2 h6 hcoll hrec hfree (n := m1) (Prod.ext rfl hw) hquiet hout hnop
        ⟨htail, onlyRegs_of_ctxStep (ctxStep_recorded m1 q) rfl⟩
    · have hw : s.m.clearOut.recordAccess q op false = (_, .done .ok []) := recordAccess_of_hubOpen (m := s.m.clearOut) hopen
      obtain ⟨htail, hnew, hold, hrest⟩ := recorded_written s.m q slot record (record_length s.m op false)
      exact answers_recorded hop hready htraps hA h2 h6 hcoll hrec hfree hw hquiet rfl hop ⟨htail, hnew, hold, hrest⟩
  case fields =>
    obtain ⟨hseq, hst, hcode, htag, haddr, hflags, hdetail, hticks, hfault⟩ := record_fields m o trapped
    obtain ⟨h0, h1, h2, h3, h4, h5, h6, h7⟩ :=
      bit_recordFlags o.nan o.ovf o.sat o.lost o.replayed trapped o.signalled o.detached
    have hring : b2n o.ring * 2 ^ 63 = if o.ring then 2 ^ 63 else 0 := by cases o.ring <;> rfl
    rw [hring] at haddr
    intro r
    rw [hflags]
    exact ⟨record_length m o trapped, hseq, hst, hcode, htag, haddr, h0, h1, h2, h3, h4, h5, h6, h7, hdetail, hticks, hfault⟩

end Sys2Proof.Machine

/-! # Proofs: a request completes (05 R143; 07 R208-R210, R217, Table 07.1) -/

namespace Sys2Proof.Machine

open Sys2Proof

/-! ## The oldest completion for a context -/

section
variable {m : Mod} {q seq key : Nat} {d : List Byte} {rest : List (Nat × Nat × Nat × Status × List Byte)}
  (hdone : m.opDone = (q, seq, key, .ok, d) :: rest)
include hdone

theorem memoryDone_detached (h : (m.ctx q).detached.contains (seq, key) = true) : m.memoryDone q =
    (({ m with opDone := rest } : Mod).modCtx q (fun c => { c with detached := c.detached.erase (seq, key) })).detachedDone q := by
  have hc : (({ m with opDone := rest } : Mod).ctx q).detached.contains (seq, key) = true := h
  simp only [Mod.memoryDone, hdone, List.find?_cons, beq_self_eq_true, List.eraseP_cons, cond_true, hc, if_true]

variable (h : (m.ctx q).detached.contains (seq, key) = false)
include h

/-- The data of a discarded fetch is dropped (07 R208). -/
theorem memoryDone_stale (hkey : key % 8 = 5) (hlow : 64 ≤ key) (hwait : (m.ctx q).fetchWait = false) : m.memoryDone q =
    ({ m with opDone := rest } : Mod).modCtx q (fun c => { c with staleFetches := c.staleFetches.erase (key / 8 - 8) }) := by
  have hc : (({ m with opDone := rest } : Mod).ctx q).detached.contains (seq, key) = false := h
  have hw : (({ m with opDone := rest } : Mod).ctx q).fetchWait = false := hwait
  simp only [Mod.memoryDone, hdone, List.find?_cons, beq_self_eq_true, List.eraseP_cons, cond_true, hc, hkey, hlow, hw, Bool.false_eq_true,
    if_false, and_self, if_true, false_and]

/-- So is what nothing waits for. -/
theorem memoryDone_dropped (hops : (m.ctx q).ops = []) (hkey : key < 64) : m.memoryDone q = { m with opDone := rest } := by
  have hc : (({ m with opDone := rest } : Mod).ctx q).detached.contains (seq, key) = false := h
  have hnone : ({ m with opDone := rest } : Mod).op? q seq = none := by
    have ho : (({ m with opDone := rest } : Mod).ctx q).ops = [] := hops
    rw [Mod.op?, ho, List.find?_nil]
  have hlow : ¬(key % 8 = 5 ∧ 64 ≤ key) := by omega
  simp only [Mod.memoryDone, hdone, List.find?_cons, beq_self_eq_true, List.eraseP_cons, cond_true, hc, hnone, if_neg hlow,
    Bool.false_eq_true, if_false]

/-- The operation that waits for the request goes on with its bytes. -/
theorem memoryDone_request {op : ROp} {p : Piece} (hops : (m.ctx q).ops = [op]) (hseq : op.seq = seq) (hopen : op.open_ = [p])
    (hp : p.key = key) (hkey : key < 64 ∨ key % 8 ≠ 5) (h7 : key ≠ 7) :
    m.memoryDone q = ({ m with opDone := rest } : Mod).requestDone q op p .ok d := by
  have hc : (({ m with opDone := rest } : Mod).ctx q).detached.contains (seq, key) = false := h
  have hsome : ({ m with opDone := rest } : Mod).op? q seq = some op := hseq ▸ op?_sole (m := { m with opDone := rest }) hops
  have hlow : ¬(key % 8 = 5 ∧ 64 ≤ key) := by omega
  have hfind : op.open_.find? (fun x => x.key == key) = some p := by simp [hopen, hp]
  simp only [Mod.memoryDone, hdone, List.find?_cons, beq_self_eq_true, List.eraseP_cons, cond_true, hc, hsome, if_neg hlow, if_neg h7, hfind,
    Bool.false_eq_true, if_false]

end

/-! ## What the completion gives the only resident operation -/

/-- A change of the operation once its request is closed. -/
theorem modOp_modOp_closed {m : Mod} {q : Nat} {op : ROp} (hops : (m.ctx q).ops = [op]) (f : ROp → ROp) :
    (m.withOp q { op with open_ := [] }).modOp q op.seq f = m.withOp q (f { op with open_ := [] }) :=
  (modOp_sole (op := { op with open_ := [] }) f (ops_withOp _ hops)).trans (withOp_withOp _ _ _ _)

section
variable {m : Mod} {q : Nat} {op : ROp} {p : Piece} {d : List Byte} (hops : (m.ctx q).ops = [op]) (hopen : op.open_ = [p])
include hops hopen

/-- Its only open request is closed. -/
theorem modOp_closed : m.modOp q op.seq (fun o => { o with open_ := o.open_.filter (fun x => x.key != p.key) }) =
    m.withOp q { op with open_ := [] } := by
  have hclosed : op.open_.filter (fun x => x.key != p.key) = [] := by simp [hopen]
  rw [modOp_sole _ hops, hclosed]

/-- A tensor descriptor is taken (07 Table 07.1). -/
theorem requestDone_tensor (hkey : p.key % 8 = 5) (hrec : op.recWait = false) (hst : op.st = .staging) :
    m.requestDone q op p .ok d = m.withOp q { op with open_ := [], tensors := op.tensors ++ [(p.key / 8, d)] } := by
  have hwaits : ¬(op.recWait = true) := by simp [hrec]
  unfold Mod.requestDone
  dsimp only
  rw [modOp_closed hops hopen]
  rw [if_pos hkey, if_neg hwaits, if_neg (not_not.mpr hst), if_pos (rfl : Status.ok = .ok)]
  exact modOp_modOp_closed hops (fun o => { o with tensors := o.tensors ++ [(p.key / 8, d)] })

/-- A remote signal is noted (05 R143). -/
theorem requestDone_signal (hkey : p.key = 6) (hok : op.status = .ok) (hst : op.st = .reported) :
    m.requestDone q op p .ok d = m.withOp q { op with open_ := [], signalled := true } := by
  have h5 : ¬(p.key % 8 = 5) := by omega
  have h6 : p.key % 8 = 6 := by omega
  have hgo : ¬(op.st = .reload) := by simp [hst]
  unfold Mod.requestDone
  dsimp only
  rw [modOp_closed hops hopen]
  rw [if_neg h5, if_neg (not_not.mpr hok), if_neg hgo, if_pos h6, if_pos (rfl : Status.ok = .ok)]
  exact modOp_modOp_closed hops (fun o => { o with signalled := true })

/-- An input's bytes go to the operation, which goes on (06 R162). -/
theorem requestDone_input (hkey : p.key % 8 < 5) (hslot : p.key / 8 % 4 ≠ 3) (hok : op.status = .ok) (hst : op.st ≠ .reload) :
    m.requestDone q op p .ok d = (((m.withOp q { op with open_ := [], got := op.got ++ [(p, pieceData op.desc p d)] }).opRun q op.seq).checkReported
      q op.seq).issueHeads q := by
  have h5 : ¬(p.key % 8 = 5) := by omega
  have h6 : ¬(p.key % 8 = 6) := by omega
  have hset := modOp_modOp_closed hops (fun o => { o with got := o.got ++ [(p, pieceData op.desc p d)] })
  unfold Mod.requestDone
  dsimp only
  rw [modOp_closed hops hopen]
  rw [if_neg h5, if_neg (not_not.mpr hok), if_neg hst, if_neg h6, if_neg hslot, if_pos (rfl : Status.ok = .ok)]
  exact congrArg (fun n => ((Mod.opRun n q op.seq).checkReported q op.seq).issueHeads q) hset

end

/-! ## The last detached request (07 R210) -/

/-- The record raised leaves the block. -/
theorem stays_raise {m : Mod} (code : Nat) (data : List Byte) (h : m.out.all Out.stays = true) :
    (m.raise code data).out.all Out.stays = true := by
  obtain ⟨r, hr⟩ := out_raise m code data
  simp [hr, h, Out.stays]

/-- A field whose register event records leave alone. -/
theorem fld_raise (m : Mod) (code : Nat) (data : List Byte) (f : Fld) (i k j : Nat) (h : f.addr i k ∉ eventRegs) :
    (m.raise code data).fld f i k j = m.fld f i k j := by
  simp only [Mod.fld, reg_regsAndEvents (regsAndEvents_raise (regsAndEvents_refl [] m) code data) h]

theorem detachedDone_more {m : Mod} {q : Nat} (h : 2 ≤ m.fld F.SQ_DETACHED_COUNT q) :
    m.detachedDone q = m.setFld F.SQ_DETACHED_COUNT (m.fld F.SQ_DETACHED_COUNT q - 1) q := by
  have h0 : m.fld F.SQ_DETACHED_COUNT q ≠ 0 := by omega
  have h1 : m.fld F.SQ_DETACHED_COUNT q ≠ 1 := by omega
  simp [Mod.detachedDone, h0, h1]

theorem detachedDone_last {m : Mod} {q : Nat} (h : m.fld F.SQ_DETACHED_COUNT q = 1) :
    m.detachedDone q = (m.setFld F.SQ_DETACHED_COUNT 0 q).raise 0x0304 (d1 q) := by
  simp [Mod.detachedDone, h]

theorem detachedCountAddr (q : Fin 4) :
    F.SQ_DETACHED_COUNT.addr q 0 ∉ eventRegs ∧ F.DIR_STATUS_DRAINING.addr 0 0 ∉ [F.SQ_DETACHED_COUNT.addr q 0] ++ eventRegs := by
  revert q
  decide

/-! ## The end of a reload (07 R217) -/

/-- An operation that reads through no class of the memory has no head reads (07 R203). -/
theorem issueHeads_of_headless {m : Mod} {q : Nat} {o : ROp} (h : (m.ctx q).ops = [o]) (hd : deadlineClass o.desc = 2) : m.issueHeads q = m := by
  have hpieces : m.headPieces q o = [] := by simp [Mod.headPieces, hd]
  unfold Mod.issueHeads
  rw [h, List.filter_cons]
  split
  · simp [hpieces]
  · rfl

/-- The operation back in STAGED, marked replayed, with nothing computed. -/
def ROp.reloaded (op : ROp) : ROp :=
  { op with st := .staged, reloading := false, replayed := true, computed := false, redDone := true, redWrite := false, got := [],
            nan := false, ovf := false, sat := false, lost := false }

/-- A reload with no block left to read ends. -/
theorem reloadGo_sole {m : Mod} {q : Nat} {op : ROp} (h : (m.ctx q).ops = [op]) (hst : op.st = .reload) (hopen : op.open_ = [])
    (hrel : op.reloads = []) (hd : deadlineClass op.desc = 2) : m.reloadGo q op.seq = m.withOp q op.reloaded := by
  have hsame : { op with reloads := [] } = op := by rw [← hrel]
  have hread : m.modOp q op.seq (fun o => { o with reloads := [] }) = m.withOp q op := by rw [modOp_sole _ h, hsame]
  have hops := ops_withOp op h
  have hgo : ¬(op.st ≠ .reload ∨ op.open_ ≠ []) := by simp [hst, hopen]
  have hend := (modOp_sole (fun o => { o.reloaded with reloads := [] }) hops).trans (withOp_withOp m q op _)
  have hdone : { op.reloaded with reloads := [] } = op.reloaded := by
    unfold ROp.reloaded
    rw [← hrel]
  rw [hdone] at hend
  unfold ROp.reloaded at hend
  simp only [Mod.reloadGo, op?_sole h, Option.map_some, Option.getD_some, hrel, List.foldl_nil, hread, op?_sole hops]
  rw [if_neg hgo, hend]
  exact issueHeads_of_headless (ops_withOp _ h) hd

theorem reloadDone_sole {m : Mod} {q : Nat} {op : ROp} (h : (m.ctx q).ops = [op]) (hst : op.st = .reload) (hopen : op.open_ = [])
    (hrel : op.reloads = []) (hd : deadlineClass op.desc = 2) : m.reloadDone q = m.withOp q op.reloaded := by
  have hfind : (m.ctx q).ops.find? (fun o => o.st == .reload) = some op := by rw [h, List.find?_cons_of_pos (by rw [hst]; rfl)]
  have hgo := reloadGo_sole (op := { op with reloading := true }) (ops_withOp _ h) hst hopen hrel hd
  simp only [Mod.reloadDone, hfind]
  rw [if_neg (not_not.mpr hopen), modOp_sole _ h, hgo, withOp_withOp]
  rfl

/-! ## The rows -/

section
variable {s : State} {q : Fin 4} {rest : List (Nat × Nat × Nat × Status × List Byte)}

/-- The module whose oldest completion was taken. -/
def Mod.taken (m : Mod) (rest : List (Nat × Nat × Nat × Status × List Byte)) : Mod := { m with opDone := rest }

/-- A completion that changes its context alone. -/
theorem completes_answers {g g' : Ctx → Ctx} (hquiet : s.m.quiet = true)
    (he : s.m.clearOut.memoryDone q = (s.m.taken rest).clearOut.modCtx q g)
    (hg : ∀ c : Ctx, c.ops.all (fun o => o.coll.isNone) = true → (g c).ops.all (fun o => o.coll.isNone) = true)
    (hctx : g' (s.m.ctx q) = g (s.m.ctx q)) :
    Answers (.memoryRequestComplete q) s (fun t => t.m.out = [] ∧
      OnlyRegs [] { s.m with opDone := rest, ctxs := modNth s.m.ctxs q g' } t.m) :=
  have hstep := ctxStep_of_modCtx (s.m.taken rest).clearOut q g []
  answers_ctxStep (exec_memoryRequestComplete q s) he hstep hquiet rfl hg List.not_mem_nil
    ⟨rfl, onlyRegs_of_ctxStep_clearOut (m := s.m.taken rest) hstep hctx⟩

end

/-- Settles O16: one equation of `memoryDone` per kind of request; each but an input's changes its context, at most SQ_DETACHED, and the
last detached request raises event 0x0304. -/
theorem requestCompletes : Obligations.RequestCompletes := by
  refine ⟨?_, fun q s op hquiet hop hst hopen hrel hd => ?reload⟩
  intro q s seq key d rest hquiet hdone taken becomes
  let forget := fun c : Ctx => { c with detached := c.detached.erase (seq, key) }
  refine ⟨fun hc => ⟨?operation, ?stale, ?dropped⟩, fun hc => ⟨?more, ?last⟩⟩
  case operation =>
    intro op p hop hseq hopen hp hok
    subst hseq
    subst hp
    have hnone : op.coll = none := coll_none_of_quiet hquiet hop
    have hrequest := memoryDone_request (m := s.m.clearOut) hdone hc hop rfl hopen rfl
    have hwith : ∀ o : ROp, o.coll = none → s.m.clearOut.memoryDone q = (s.m.taken rest).clearOut.withOp q o →
        becomes (fun c => { c with ops := [o] }) := fun o ho he =>
      completes_answers hquiet he (fun _ _ => by simp [ho]) rfl
    refine ⟨fun hkey hslot hst => ?_, fun x hx hkey hrec hst => ?_, fun hkey hst => ?_⟩
    · have he := (hrequest (.inr (by omega)) (by omega)).trans
        (requestDone_input (m := (s.m.taken rest).clearOut) (d := d) hop hopen hkey hslot hok hst)
      exact ⟨_, (exec_memoryRequestComplete q s).trans (runF_next s _), congrArg (fun n : Mod => n.conclude.settle) he⟩
    · have hx8 : p.key / 8 = x := by omega
      have he := (hrequest (.inl (by omega)) (by omega)).trans
        (requestDone_tensor (m := (s.m.taken rest).clearOut) (d := d) hop hopen (by omega) hrec hst)
      rw [hx8] at he
      exact hwith _ hnone he
    · exact hwith _ hnone ((hrequest (.inl (by omega)) (by omega)).trans
        (requestDone_signal (m := (s.m.taken rest).clearOut) (d := d) hop hopen hkey hok hst))
  case stale =>
    exact fun hkey hlow hwait => completes_answers hquiet (memoryDone_stale (m := s.m.clearOut) hdone hc hkey hlow hwait) (fun _ h => h) rfl
  case dropped =>
    intro hops hkey
    refine completes_answers (g := id) hquiet ?_ (fun _ h => h) rfl
    rw [memoryDone_dropped (m := s.m.clearOut) hdone hc hops hkey, Mod.modCtx, modNth_id]
    rfl
  case more =>
    intro hcount
    have he := (memoryDone_detached (m := s.m.clearOut) hdone hc).trans (detachedDone_more (m := (s.m.taken rest).clearOut.modCtx q forget) hcount)
    have hstep := ctxStep_setFld (ctxStep_of_modCtx (s.m.taken rest).clearOut q forget [F.SQ_DETACHED_COUNT.addr q 0]) F.SQ_DETACHED_COUNT
      (s.m.fld F.SQ_DETACHED_COUNT q - 1) q 0 List.mem_cons_self
    have hlt := fld_lt s.m F.SQ_DETACHED_COUNT q 0 0
    refine answers_ctxStep (exec_memoryRequestComplete q s) he hstep hquiet rfl (fun _ h => h)
      (fun hm => (detachedCountAddr q).2 (List.mem_append_left _ hm)) ⟨?_, rfl, onlyRegs_of_ctxStep_clearOut (m := s.m.taken rest) hstep rfl⟩
    exact (fld_settle _ _ _ _ _).trans ((fld_setFld_self _ _ _ _ _ _ (by decide)).trans (Nat.mod_eq_of_lt (lt_of_le_of_lt (Nat.sub_le _ _) hlt)))
  case last =>
    intro hcount
    have he := (memoryDone_detached (m := s.m.clearOut) hdone hc).trans (detachedDone_last (m := (s.m.taken rest).clearOut.modCtx q forget) hcount)
    have hframe := regsAndEvents_raise (regsAndEvents_setFld (regsAndEvents_clearOut [F.SQ_DETACHED_COUNT.addr q 0]
      ((s.m.taken rest).modCtx q forget)) F.SQ_DETACHED_COUNT 0 q 0 0 (List.mem_append_left _ List.mem_cons_self)) 0x0304 (d1 q)
    have hq : ((s.m.taken rest).modCtx q forget).quiet = true :=
      quiet_of_ctxStep (m := s.m.taken rest) (ctxStep_of_modCtx _ _ _ []) hquiet (fun _ h => h) List.not_mem_nil
    refine answers_runF (exec_memoryRequestComplete q s) ?_ ?_ ?_ <;> rw [he]
    · exact quiet_of_sramFrame (sramFrame_of_regsAndEvents hframe (detachedCountAddr q).2) hq
    · exact stays_raise _ _ rfl
    · refine ⟨?_, raised_settle (raised_raise _ _ _), regsAndEvents_settle hframe⟩
      exact (fld_settle _ _ _ _ _).trans ((fld_raise _ _ _ _ _ _ _ (detachedCountAddr q).1).trans (fld_setFld_self _ _ _ _ _ _ (by decide)))
  case reload =>
    have hnone : op.coll = none := coll_none_of_quiet hquiet hop
    have he := reloadDone_sole (m := s.m.clearOut) hop hst hopen hrel hd
    have hstep := ctxStep_of_modCtx s.m.clearOut q (fun c => { c with ops := [op.reloaded] }) []
    exact answers_ctxStep (exec_reloadComplete q s) he hstep hquiet rfl (fun _ _ => by simp [ROp.reloaded, hnone]) List.not_mem_nil
      ⟨rfl, onlyRegs_of_ctxStep_clearOut hstep rfl⟩

end Sys2Proof.Machine

/-! # Proofs: traps, detached requests and lost dies (05 R130; 07 R206, R209, R210, R212, R219, R220) -/

namespace Sys2Proof.Machine

open Sys2Proof

/-! ## The loop counters and the trap registers -/

theorem loopAddr_inj {q k j : Nat} (h : k ≠ j) : F.SQ_LOOP_COUNT.addr q k ≠ F.SQ_LOOP_COUNT.addr q j := by
  have hstride : F.SQ_LOOP_COUNT.stride = 8 := rfl
  rw [Fld.addr, Fld.addr, hstride]
  omega

/-- A counter is 0 after some of the context's counters are set to 0, when it was 0 or is one of them. -/
theorem fld_zeroLoops {q k : Nat} (ks : List Nat) {m : Mod} (h : k ∈ ks ∨ m.fld F.SQ_LOOP_COUNT q k = 0) :
    (ks.foldl (fun m j => m.setFld F.SQ_LOOP_COUNT 0 q j) m).fld F.SQ_LOOP_COUNT q k = 0 := by
  induction ks generalizing m with
  | nil => exact h.resolve_left List.not_mem_nil
  | cons j js ih =>
    refine ih ?_
    by_cases hk : k = j
    · subst hk
      exact .inr (fld_setFld_self _ _ _ _ _ _ (by decide))
    · have hsame := fld_setFld_addr m F.SQ_LOOP_COUNT F.SQ_LOOP_COUNT 0 q j 0 q k 0 (loopAddr_inj hk)
      exact h.imp (List.mem_of_ne_of_mem hk) hsame.trans

/-- The counters' registers. -/
def loopRegs (q : Nat) : List Nat := (List.range 4).map (F.SQ_LOOP_COUNT.addr q)

theorem regsAndEvents_clearLoops {as : List Nat} {m n : Mod} {q : Nat} (h : RegsAndEvents as m n) (has : ∀ a ∈ loopRegs q, a ∈ as) :
    RegsAndEvents as m (n.clearLoops q) :=
  foldl_keeps_mem (RegsAndEvents as m) _ _ (fun _ _ hk hx => regsAndEvents_setFld hx _ _ _ _ _
    (List.mem_append_left _ (has _ (List.mem_map_of_mem hk)))) n h

theorem fld_clearLoops (m : Mod) (q : Nat) {k : Nat} (hk : k < 4) : (m.clearLoops q).fld F.SQ_LOOP_COUNT q k = 0 :=
  fld_zeroLoops _ (.inl (List.mem_range.mpr hk))

/-- The registers of a trap, set. -/
def Mod.trapRegs (m : Mod) (q st opcode code a : Nat) (ring : Bool) : Mod :=
  (((((m.clearLoops q).setFld F.SQ_TRAP_STATUS st q).setFld F.SQ_TRAP_OPCODE opcode q).setFld F.SQ_TRAP_CODE code q).setFld
    F.SQ_TRAP_ADDR_ADDR a q).setFld F.SQ_TRAP_ADDR_RING (b2n ring) q

/-- The registers of a trap. -/
def trapRegList (q : Nat) (more : List Nat) : List Nat :=
  F.SQ_TRAP_STATUS.addr q 0 :: F.SQ_TRAP_ADDR_ADDR.addr q 0 :: more ++ loopRegs q

theorem regsAndEvents_trapRegs {more : List Nat} {m n : Mod} {q : Nat} (st opcode code a : Nat) (ring : Bool)
    (h : RegsAndEvents (trapRegList q more) m n) : RegsAndEvents (trapRegList q more) m (n.trapRegs q st opcode code a ring) := by
  have hloops := regsAndEvents_clearLoops h (fun a ha => List.mem_append_right _ ha)
  have htrap : F.SQ_TRAP_STATUS.addr q 0 ∈ trapRegList q more ++ eventRegs := .head _
  have haddr : F.SQ_TRAP_ADDR_ADDR.addr q 0 ∈ trapRegList q more ++ eventRegs := .tail _ (.head _)
  have hstatus := regsAndEvents_setFld hloops F.SQ_TRAP_STATUS st q 0 0 htrap
  have hcode := regsAndEvents_setFld (regsAndEvents_setFld hstatus F.SQ_TRAP_OPCODE opcode q 0 0 htrap) F.SQ_TRAP_CODE code q 0 0 htrap
  exact regsAndEvents_setFld (regsAndEvents_setFld hcode F.SQ_TRAP_ADDR_ADDR a q 0 0 haddr) F.SQ_TRAP_ADDR_RING (b2n ring) q 0 0 haddr

/-- The registers of a trap are no event registers, no home's, nor one another. -/
theorem trapAddr_ne (q : Fin 4) : (∀ k < 4, F.SQ_LOOP_COUNT.addr q k ≠ F.SQ_TRAP_STATUS.addr q 0 ∧
    F.SQ_LOOP_COUNT.addr q k ≠ F.SQ_TRAP_ADDR_ADDR.addr q 0 ∧ F.SQ_LOOP_COUNT.addr q k ∉ eventRegs) ∧
    F.SQ_TRAP_STATUS.addr q 0 ∉ eventRegs ∧ F.SQ_TRAP_ADDR_ADDR.addr q 0 ∉ eventRegs ∧ F.SQ_CPL_TAIL_TAIL.addr q 0 ∉ eventRegs ∧
    F.SQ_CPL_TAIL_TAIL.addr q 0 ∉ trapRegList q [] ++ eventRegs ∧
    F.DIR_STATUS_DRAINING.addr 0 0 ∉ trapRegList q [F.SQ_CPL_TAIL_TAIL.addr q 0] ++ eventRegs := by
  revert q
  decide

/-- What the registers of a trap hold. -/
theorem fld_trapRegs (m : Mod) (q : Fin 4) (st opcode code a : Nat) (ring : Bool) :
    let n := m.trapRegs q st opcode code a ring
    n.fld F.SQ_TRAP_STATUS q = st % 256 ∧ n.fld F.SQ_TRAP_OPCODE q = opcode % 256 ∧ n.fld F.SQ_TRAP_CODE q = code % 2 ^ 16 ∧
    n.fld F.SQ_TRAP_ADDR_ADDR q = a % 2 ^ 48 ∧ n.fld F.SQ_TRAP_ADDR_RING q = b2n ring ∧ (∀ k < 4, n.fld F.SQ_LOOP_COUNT q k = 0) ∧
    n.fld F.SQ_CPL_TAIL_TAIL q = m.fld F.SQ_CPL_TAIL_TAIL q := by
  obtain ⟨hloop, -, -, -, htail, -⟩ := trapAddr_ne q
  refine ⟨?_, ?_, ?_, ?_, ?_, fun k hk => ?_, ?_⟩
  iterate 4
    · simp (disch := decide) only [Mod.trapRegs, fld_setFld_apart, fld_setFld_self]
      rfl
  · have hbit : b2n ring % 2 ^ 1 = b2n ring := by cases ring <;> rfl
    exact (fld_setFld_self _ _ _ _ _ _ (by decide)).trans hbit
  · obtain ⟨htrap, haddr, -⟩ := hloop k hk
    rw [Mod.trapRegs, fld_setFld_addr (f := F.SQ_TRAP_ADDR_RING) (h := haddr), fld_setFld_addr (f := F.SQ_TRAP_ADDR_ADDR) (h := haddr),
      fld_setFld_addr (f := F.SQ_TRAP_CODE) (h := htrap), fld_setFld_addr (f := F.SQ_TRAP_OPCODE) (h := htrap), fld_setFld_addr (h := htrap)]
    exact fld_clearLoops m q hk
  · have hregs := (regsAndEvents_trapRegs st opcode code a ring (regsAndEvents_refl (trapRegList q []) m)).2.2 _ htail
    simp only [Mod.fld, hregs]

/-! ## A trap of a context with no operation left (07 R212) -/

/-- The context TRAPPED. -/
def Ctx.trap (c : Ctx) (lost : Bool) : Ctx :=
  { c.dropFetch with ops := [], stack := [], paused := false, stopped := false, trapAt := none, trapped := true, dieLost := c.dieLost || lost }

/-- The registers of a trap, and its event. -/
def Mod.trapTaken (m : Mod) (q st opcode code a : Nat) (ring : Bool) : Mod :=
  (m.trapRegs q st opcode code a ring).raise 0x0301
    (d1 q ++ d1 st ++ d1 opcode ++ d8 ((m.trapRegs q st opcode code a ring).reg (F.SQ_TRAP_ADDR_ADDR.addr q 0)).toNat)

/-- The trap's event is all that comes out. -/
theorem out_trapTaken {m : Mod} (q st opcode code a : Nat) (ring : Bool) (h : m.out = []) :
    ∃ e, e.code = 0x0301 ∧ (m.trapTaken q st opcode code a ring).out = [.event e] := by
  have hregs : (m.trapRegs q st opcode code a ring).out = [] := h
  obtain ⟨r, hr⟩ := out_raise (m.trapRegs q st opcode code a ring) 0x0301
    (d1 q ++ d1 st ++ d1 opcode ++ d8 ((m.trapRegs q st opcode code a ring).reg (F.SQ_TRAP_ADDR_ADDR.addr q 0)).toNat)
  rw [hregs, List.nil_append] at hr
  obtain ⟨e, hcode, -, hmem⟩ := raised_raise (m.trapRegs q st opcode code a ring) 0x0301
    (d1 q ++ d1 st ++ d1 opcode ++ d8 ((m.trapRegs q st opcode code a ring).reg (F.SQ_TRAP_ADDR_ADDR.addr q 0)).toNat)
  rw [hr, List.mem_singleton] at hmem
  exact ⟨e, hcode, hr.trans (by rw [hmem])⟩

theorem enterTrap_of_nil {m : Mod} {q : Nat} (h : (m.ctx q).ops = []) (st opcode code a : Nat) (ring : Bool) :
    m.enterTrap q st opcode code a ring =
      (m.modCtx q (fun c => c.trap (st == Status.dieLost.toNat))).trapTaken q st opcode code a ring := by
  unfold Mod.enterTrap
  dsimp only
  rw [h, List.filter_nil, List.foldl_nil]
  refine congrArg (fun l : List Ctx => Mod.trapTaken { m with ctxs := l } q st opcode code a ring) (modNth_congr {} ?_)
  have hops : (nth m.ctxs q {}).ops = [] := h
  rw [hops]
  rfl

/-- A status is ST_DIE_LOST when its code is. -/
theorem dieLost_toNat (st : Status) : (st.toNat == Status.dieLost.toNat) = (st == .dieLost) := by cases st <;> rfl

/-- What a trap leaves, from the module `m` in which the context is TRAPPED: the registers of the trap, the event and, when the record is
written first, the completion ring's TAIL. -/
def TrapLeft (q : Fin 4) (st : Status) (opcode code a : Nat) (ring : Bool) (more : List Nat) (m t : Mod) : Prop :=
  t.fld F.SQ_TRAP_STATUS q = st.toNat ∧ t.fld F.SQ_TRAP_OPCODE q = opcode % 256 ∧ t.fld F.SQ_TRAP_CODE q = code % 2 ^ 16 ∧
  t.fld F.SQ_TRAP_ADDR_ADDR q = a % 2 ^ 48 ∧ t.fld F.SQ_TRAP_ADDR_RING q = b2n ring ∧ (∀ k < 4, t.fld F.SQ_LOOP_COUNT q k = 0) ∧
  (more ≠ [] → t.fld F.SQ_CPL_TAIL_TAIL q = (m.fld F.SQ_CPL_TAIL_TAIL q + 1) % 2 ^ 32) ∧
  Raised t 0x0301 (d1 q ++ d1 st.toNat ++ d1 opcode ++ d8 (t.reg (F.SQ_TRAP_ADDR_ADDR.addr q 0)).toNat) ∧
  RegsAndEvents (trapRegList q more) m t

theorem trapLeft_trapTaken {more : List Nat} {m n : Mod} {q : Fin 4} (st : Status) (opcode code a : Nat) (ring : Bool)
    (h : RegsAndEvents (trapRegList q more) m n)
    (hmore : more ≠ [] → n.fld F.SQ_CPL_TAIL_TAIL q = (m.fld F.SQ_CPL_TAIL_TAIL q + 1) % 2 ^ 32) :
    TrapLeft q st opcode code a ring more m (n.trapTaken q st.toNat opcode code a ring).settle := by
  obtain ⟨hloop, hstatus, haddr, htail, -, -⟩ := trapAddr_ne q
  obtain ⟨hst, hop, hcode, ha, hring, hloops, hcpl⟩ := fld_trapRegs n q st.toNat opcode code a ring
  have hreg : ∀ b ∉ eventRegs, (n.trapTaken q st.toNat opcode code a ring).settle.reg b =
      (n.trapRegs q st.toNat opcode code a ring).reg b := fun b hb =>
    (reg_settle _ _).trans (reg_regsAndEvents (regsAndEvents_raise (regsAndEvents_refl [] _) _ _) hb)
  have hfld : ∀ {f : Fld} {k v : Nat}, (n.trapRegs q st.toNat opcode code a ring).fld f q k = v → f.addr q k ∉ eventRegs →
      (n.trapTaken q st.toNat opcode code a ring).settle.fld f q k = v := fun hv hf => by
    rw [← hv]
    simp only [Mod.fld, hreg _ hf]
  refine ⟨hfld (hst.trans (Nat.mod_eq_of_lt (statusToNat_lt st))) hstatus, hfld hop hstatus, hfld hcode hstatus, hfld ha haddr,
    hfld hring haddr, fun k hk => hfld (hloops k hk) (hloop k hk).2.2, fun hm => hfld (hcpl.trans (hmore hm)) htail, ?_,
    regsAndEvents_settle (regsAndEvents_raise (regsAndEvents_trapRegs _ _ _ _ _ h) _ _)⟩
  rw [hreg _ haddr]
  exact raised_settle (raised_raise _ _ _)

/-! ## The operation that traps -/

section
variable {m : Mod} {q : Nat} {op : ROp} (h : (m.ctx q).ops = [op])
include h

/-- An operation that is neither a BRANCH_IF nor a HALT that halts leaves its slot; the fetch unit may go on. -/
theorem completeOp_emptied (hcoll : isCollective (opcodeOf op.desc) = false) (h2 : opcodeOf op.desc ≠ 0x02)
    (h6 : opcodeOf op.desc = 0x06 → op.status ≠ .ok) : ∃ p, m.completeOp q op = m.modCtx q (fun c => { c with ops := [], paused := p }) := by
  have hkept : m.emptied q = m.modCtx q (fun c => { c with ops := [], paused := (m.ctx q).paused }) :=
    congrArg (fun l => ({ m with ctxs := l } : Mod)) (modNth_congr {} rfl)
  have hpassed : (m.emptied q).modCtx q (fun c => { c with paused := false }) = m.modCtx q (fun c => { c with ops := [], paused := false }) :=
    congrArg (fun l => ({ m with ctxs := l } : Mod)) (modNth_modNth _ _ _ _)
  have hhalts : ¬(opcodeOf op.desc = 0x06 ∧ op.status = .ok) := fun hh => h6 hh.1 hh.2
  unfold Mod.completeOp
  dsimp only
  rw [modCtx_filter_sole h, hcoll, if_neg Bool.false_ne_true, if_neg hhalts, if_neg h2]
  by_cases hstop : (op.desc.isEmpty || !(!((m.emptied q).ctx q).trapped && !((m.emptied q).ctx q).aborting)) = true
  · rw [if_pos hstop, hkept]
    exact ⟨_, issueHeads_modCtx_of_nil h rfl⟩
  · rw [if_neg hstop]
    by_cases hwaited : opcodeOf op.desc = 0x06 ∨ opcodeOf op.desc = 0x0A
    · rw [if_pos hwaited, hpassed]
      exact ⟨_, issueHeads_modCtx_of_nil h rfl⟩
    · rw [if_neg hwaited, hkept]
      exact ⟨_, issueHeads_modCtx_of_nil h rfl⟩

/-- Its record written, or none to write, the operation that traps leaves its slot and its context is TRAPPED. -/
theorem contextTrap_sole {n : Mod} {p : Bool} (hready : op.ready = true) (htraps : op.traps = true)
    (hfree : op.needsRecord = true → m.cplFree q = true) (hab : (m.ctx q).aborting = false) (htr : (m.ctx q).trapped = false)
    (hn : q < n.ctxs.length) (hw : m.writeRecord q op true = n.modCtx q (fun c => { c with ops := [], paused := p })) :
    m.contextTrap q = (n.modCtx q (fun c => c.trap (op.status == .dieLost))).trapTaken q op.status.toNat (opcodeOf op.desc)
      (if op.status = .ok then ops op.desc 0x58 2 else 0) op.addr op.ring := by
  have hgo : (op.ready && op.traps && (!op.needsRecord || m.cplFree q) && !(m.ctx q).aborting && !(m.ctx q).trapped) = true := by
    cases hrec : op.needsRecord
    · simp [hready, htraps, hab, htr]
    · simp [hready, htraps, hab, htr, hfree hrec]
  have hops : ((n.modCtx q (fun c => { c with ops := [], paused := p })).ctx q).ops = [] := by rw [ctx_modCtx_self _ _ _ hn]
  have hleft : (n.modCtx q (fun c => { c with ops := [], paused := p })).modCtx q
      (fun c => { c with ops := c.ops.filter (fun o => o.seq != op.seq) }) = n.modCtx q (fun c => { c with ops := [], paused := p }) :=
    congrArg (fun l => ({ n with ctxs := l } : Mod)) (modNth_modNth _ _ _ _)
  have htrap : (n.modCtx q (fun c => { c with ops := [], paused := p })).modCtx q (fun c => c.trap (op.status == .dieLost)) =
      n.modCtx q (fun c => c.trap (op.status == .dieLost)) := congrArg (fun l => ({ n with ctxs := l } : Mod)) (modNth_modNth _ _ _ _)
  have hsame : ∀ x : Mod, x.modCtx q (fun c => { c with ops := [] ++ c.ops }) = x := fun x =>
    congrArg (fun l => ({ x with ctxs := l } : Mod)) (modNth_id _ _)
  unfold Mod.contextTrap
  dsimp only
  rw [h]
  dsimp only
  rw [if_pos hgo, hw, hops, List.filter_nil, hsame, hleft, enterTrap_of_nil hops, dieLost_toNat, htrap]

end

/-- A trap whose only other effect is that of the record's write answers, settled. -/
theorem answers_trap {s : State} {q : Fin 4} {n : Mod} {st : Status} {opcode code a : Nat} {ring : Bool} {more : List Nat}
    (hquiet : s.m.quiet = true) (he : s.m.clearOut.contextTrap q = n.trapTaken q st.toNat opcode code a ring)
    (hn : RegsAndEvents (trapRegList q more) (s.m.modCtx q (fun c => c.trap (st == .dieLost))) n) (hout : n.out = [])
    (hmore : ∀ b ∈ more, b = F.SQ_CPL_TAIL_TAIL.addr q 0)
    (htail : more ≠ [] → n.fld F.SQ_CPL_TAIL_TAIL q = (s.m.fld F.SQ_CPL_TAIL_TAIL q + 1) % 2 ^ 32) :
    Answers (.contextTrap q) s
      (fun t => TrapLeft q st opcode code a ring more (s.m.modCtx q (fun c => c.trap (st == .dieLost))) t.m) := by
  have htrapped : (s.m.modCtx q (fun c => c.trap (st == .dieLost))).quiet = true :=
    quiet_of_ctxStep (ctxStep_of_modCtx s.m q _ []) hquiet (fun _ _ => rfl) List.not_mem_nil
  have hframe := regsAndEvents_raise (regsAndEvents_trapRegs st.toNat opcode code a ring hn) 0x0301
    (d1 q ++ d1 st.toNat ++ d1 opcode ++ d8 ((n.trapRegs q st.toNat opcode code a ring).reg (F.SQ_TRAP_ADDR_ADDR.addr q 0)).toNat)
  have hlist : ∀ b ∈ trapRegList q more, b ∈ trapRegList q [F.SQ_CPL_TAIL_TAIL.addr q 0] := by
    intro b hb
    simp only [trapRegList, List.cons_append, List.mem_cons, List.mem_append, List.nil_append] at hb ⊢
    rcases hb with hb | hb | hb | hb
    · exact .inl hb
    · exact .inr (.inl hb)
    · exact .inr (.inr (.inl (hmore b hb)))
    · exact .inr (.inr (.inr hb))
  refine answers_runF (exec_contextTrap q s) ?_ ?_ ?_ <;> rw [he]
  · exact quiet_of_sramFrame (sramFrame_of_regsAndEvents (regsAndEvents_mono hframe hlist) (trapAddr_ne q).2.2.2.2.2) htrapped
  · exact stays_raise _ _ (by rw [show (n.trapRegs q st.toNat opcode code a ring).out = [] from hout]; rfl)
  · exact trapLeft_trapTaken st opcode code a ring hn htail

/-- A trap of an operation that has no record to write, or whose record is written at once. -/
theorem contextTrap_emptied {m n : Mod} {q : Nat} {op : ROp} (h : (m.ctx q).ops = [op]) (hready : op.ready = true) (htraps : op.traps = true)
    (hfree : op.needsRecord = true → m.cplFree q = true) (hab : (m.ctx q).aborting = false) (htr : (m.ctx q).trapped = false)
    (hcoll : isCollective (opcodeOf op.desc) = false) (h2 : opcodeOf op.desc ≠ 0x02) (hn : (n.ctx q).ops = [op])
    (hw : m.writeRecord q op true = n.completeOp q op) :
    m.contextTrap q = (n.modCtx q (fun c => c.trap (op.status == .dieLost))).trapTaken q op.status.toNat (opcodeOf op.desc)
      (if op.status = .ok then ops op.desc 0x58 2 else 0) op.addr op.ring := by
  have h6 : opcodeOf op.desc = 0x06 → op.status ≠ .ok := fun h6 hok => by simp [ROp.traps, hok, h6] at htraps
  obtain ⟨p, hp⟩ := completeOp_emptied hn hcoll h2 h6
  exact contextTrap_sole h hready htraps hfree hab htr (lt_length_of_ops hn) (hw.trans hp)

/-- A trap of the operation that the fetch unit resolved (05 R130). -/
theorem contextTrap_fetched {m : Mod} {q : Nat} {st : Status} {opcode a : Nat} {ring : Bool} (h : (m.ctx q).ops = [])
    (hat : (m.ctx q).trapAt = some (st, opcode, a, ring)) (hab : (m.ctx q).aborting = false) (htr : (m.ctx q).trapped = false) :
    m.contextTrap q = (m.modCtx q (fun c => c.trap (st == .dieLost))).trapTaken q st.toNat opcode 0 a ring := by
  have he := enterTrap_of_nil h st.toNat opcode 0 a ring
  rw [dieLost_toNat] at he
  rw [← he]
  simp [Mod.contextTrap, h, hat, hab, htr]

/-- The module after a record's bytes are written at `a` and TAIL is advanced. -/
def Mod.recordStored (m : Mod) (q a : Nat) (d : List (Option Byte)) : Mod :=
  ({ m with mem := m.mem.writeAt a d } : Mod).addFld F.SQ_CPL_TAIL_TAIL 1 q

theorem writeRecord_of_hubOpen {m : Mod} {q : Fin 4} {op : ROp} {trapped : Bool} (hrec : op.needsRecord = true)
    (h : m.hubOpen (m.recordAddr q) 32) :
    m.writeRecord q op trapped = (m.recordStored q (m.recordAddr q) ((m.record op trapped).map some)).completeOp q op :=
  writeRecord_done hrec (recordAccess_of_hubOpen h)

theorem recordStored_modCtx (m : Mod) (q a : Nat) (d : List (Option Byte)) (g : Ctx → Ctx) :
    (m.recordStored q a d).modCtx q g = (m.modCtx q g).recordStored q a d := rfl

theorem fld_recordStored (m : Mod) (q a : Nat) (d : List (Option Byte)) :
    (m.recordStored q a d).fld F.SQ_CPL_TAIL_TAIL q = (m.fld F.SQ_CPL_TAIL_TAIL q + 1) % 2 ^ 32 :=
  fld_setFld_self { m with mem := m.mem.writeAt a d } F.SQ_CPL_TAIL_TAIL (m.fld F.SQ_CPL_TAIL_TAIL q + 1) q 0 0 (by decide)

/-- A record written into the hub buffer changes no byte outside of it. -/
theorem regsAndEvents_recordStored {m : Mod} {q : Fin 4} {a : Nat} {d : List (Option Byte)} (hd : d.length = 32)
    (hsram : ∀ i < 32, sramAt (a + i) = some (16, a + i - 0x400000000000)) :
    RegsAndEvents (trapRegList q [F.SQ_CPL_TAIL_TAIL.addr q 0]) m (m.clearOut.recordStored q a d) := by
  have hmem : RegsAndEvents (trapRegList q [F.SQ_CPL_TAIL_TAIL.addr q 0]) m { m.clearOut with mem := m.mem.writeAt a d } := by
    refine ⟨rfl, fun y hy => byte_writeAt_of_outside m.mem a d ?_, fun _ _ => rfl⟩
    by_contra hin
    have hi := hsram (y - a) (by omega)
    rw [Nat.add_sub_cancel' (by omega)] at hi
    exact hy _ hi
  exact regsAndEvents_setFld hmem _ _ _ _ _ (List.mem_append_left _ (by simp [trapRegList]))

theorem contextTrap_answers (q : Fin 4) (s : State) (hquiet : s.m.quiet = true) (hab : (s.m.ctx q).aborting = false)
    (htr : (s.m.ctx q).trapped = false) :
    (∀ (st : Status) (opcode a : Nat) (ring : Bool), (s.m.ctx q).ops = [] → (s.m.ctx q).trapAt = some (st, opcode, a, ring) →
      Answers (.contextTrap q) s (fun t => TrapLeft q st opcode 0 a ring [] (s.m.modCtx q (fun c => c.trap (st == .dieLost))) t.m)) ∧
    (∀ op, (s.m.ctx q).ops = [op] → op.st = .retired → op.recWait = false → op.needsRecord = false → opcodeOf op.desc = 0x0A →
      Answers (.contextTrap q) s (fun t => TrapLeft q .ok 0x0A (ops op.desc 0x58 2) op.addr op.ring []
        (s.m.modCtx q (fun c => c.trap (Status.ok == .dieLost))) t.m)) ∧
    (∀ op, (s.m.ctx q).ops = [op] → op.ready = true → op.traps = true → op.needsRecord = true → s.m.cplFree q = true →
      opcodeOf op.desc ≠ 0x02 → isCollective (opcodeOf op.desc) = false → s.m.hubOpen (s.m.recordAddr q) 32 →
      Answers (.contextTrap q) s (fun t => TrapLeft q op.status (opcodeOf op.desc) (if op.status = .ok then ops op.desc 0x58 2 else 0) op.addr
        op.ring [F.SQ_CPL_TAIL_TAIL.addr q 0] (s.m.modCtx q (fun c => c.trap (op.status == .dieLost))) t.m)) := by
  have hframe := fun st : Status => regsAndEvents_clearOut (trapRegList q []) (s.m.modCtx q (fun c => c.trap (st == .dieLost)))
  refine ⟨fun st opcode a ring hops hat => ?fetched, fun op hop hst hwait hrec hA => ?unrecorded,
    fun op hop hready htraps hrec hfree h2 hcoll hopen => ?recorded⟩
  case fetched =>
    exact answers_trap hquiet (contextTrap_fetched (m := s.m.clearOut) hops hat hab htr) (hframe st) rfl
      (fun _ hb => absurd hb List.not_mem_nil) (fun hm => absurd rfl hm)
  case unrecorded =>
    have hok : op.status = .ok := by
      simp [ROp.needsRecord] at hrec
      exact hrec.1
    have hd : op.desc ≠ [] := fun hd => by
      rw [hd] at hA
      exact absurd hA (by decide)
    have hready : op.ready = true := by simp [ROp.ready, hst, hwait]
    have he := contextTrap_emptied (m := s.m.clearOut) (n := s.m.clearOut) hop hready (by rw [traps_of_ok hok hd, hA]; rfl)
      (fun hr => Bool.noConfusion (hr.symm.trans hrec)) hab htr (by rw [hA]; decide) (by rw [hA]; decide) hop (by simp [Mod.writeRecord, hrec])
    rw [hok, if_pos rfl, hA] at he
    exact answers_trap hquiet he (hframe .ok) rfl (fun _ hb => absurd hb List.not_mem_nil) (fun hm => absurd rfl hm)
  case recorded =>
    have hlen : ((s.m.record op true).map some).length = 32 := (List.length_map _).trans (record_length s.m op true)
    obtain ⟨-, -, -, -, -, hbytes⟩ := id hopen
    have he := contextTrap_emptied (m := s.m.clearOut)
      (n := s.m.clearOut.recordStored q (s.m.recordAddr q) ((s.m.record op true).map some)) hop hready htraps (fun _ => hfree) hab htr hcoll h2
      hop (writeRecord_of_hubOpen (m := s.m.clearOut) hrec hopen)
    rw [recordStored_modCtx] at he
    refine answers_trap hquiet he (regsAndEvents_recordStored (m := s.m.modCtx q (fun c => c.trap (op.status == .dieLost))) hlen
      (fun i hi => (hbytes i hi).2.1)) rfl
      (fun _ hb => List.mem_singleton.mp hb) (fun _ => ?_)
    exact fld_recordStored _ _ _ _

/-! ## Requests of an ended operation (07 R209, R210) -/

/-- The requests of the only operation, which has ended, and the reads of discarded fetches. -/
def Mod.goneOf (m : Mod) (q : Nat) (op : ROp) : List (Nat × Nat) :=
  op.open_.map (fun p => (op.seq, p.key)) ++ (m.ctx q).staleFetches.map (fun k => (m.fld F.SQ_SEQ_NEXT q, 5 + 8 * (8 + k)))

/-- The context whose only operation, which has ended, is rid of its requests. -/
def Ctx.detaching (c : Ctx) (op : ROp) (gone : List (Nat × Nat)) : Ctx :=
  { c with
    detachedNow := c.detachedNow + gone.length, detached := c.detached ++ gone, staleFetches := [],
    ops := [{ op with open_ := [], detached := true }] }

theorem detach_sole {m : Mod} {q : Nat} {op : ROp} (h : (m.ctx q).ops = [op]) (hd : (m.ctx q).drains op = true) :
    m.detach q = (m.modCtx q (fun c => c.detaching op (m.goneOf q op))).setFld F.SQ_DETACHED_COUNT
      (m.fld F.SQ_DETACHED_COUNT q + (m.goneOf q op).length) q := by
  have hgone : ((m.ctx q).ops.filter (m.ctx q).drains).flatMap (fun o => o.open_.map (fun p => (o.seq, p.key))) =
      op.open_.map (fun p => (op.seq, p.key)) := by simp [h, hd]
  unfold Mod.detach
  dsimp only
  rw [hgone]
  refine congrArg (fun l : List Ctx => ({ m with ctxs := l } : Mod).setFld F.SQ_DETACHED_COUNT (m.fld F.SQ_DETACHED_COUNT q +
    (m.goneOf q op).length) q) (modNth_congr {} ?_)
  have hops : (nth m.ctxs q {}).ops = [op] := h
  have hdrains : (nth m.ctxs q {}).drains op = true := hd
  simp [hops, hdrains, Ctx.detaching, Mod.goneOf]

theorem detach_answers {q : Fin 4} {s : State} {op : ROp} (hop : (s.m.ctx q).ops = [op]) (hst : op.st = .failed) (hwait : op.recWait = false)
    (hopen : op.open_ ≠ [])
    (hended : (s.m.ctx q).aborting = true ∨ (s.m.ctx q).trapped = true ∨ op.status = .aborted ∨ op.status = .dieLost) :
    Answers (.detachTimeout q) s (fun t =>
      t.m.fld F.SQ_DETACHED_COUNT q = (s.m.fld F.SQ_DETACHED_COUNT q + (s.m.goneOf q op).length) % 2 ^ 17 ∧ t.m.out = [] ∧
      OnlyRegs [F.SQ_DETACHED_COUNT.addr q 0] { s.m with ctxs := modNth s.m.ctxs q (fun c => c.detaching op (s.m.goneOf q op)) } t.m) := by
  have hd : (s.m.ctx q).drains op = true := by simpa [Ctx.drains, hst, hwait, hopen, or_assoc] using hended
  have he := detach_sole (m := s.m.clearOut) hop hd
  refine answers_run (exec_detachTimeout q s) ?_
  rw [he]
  have hstep := ctxStep_setFld (ctxStep_of_modCtx s.m.clearOut q (fun c => c.detaching op (s.m.goneOf q op))
    [F.SQ_DETACHED_COUNT.addr q 0]) F.SQ_DETACHED_COUNT
    (s.m.fld F.SQ_DETACHED_COUNT q + (s.m.goneOf q op).length) q 0 List.mem_cons_self
  exact ⟨(fld_settle _ _ _ _ _).trans (fld_setFld_self _ _ _ _ _ _ (by decide)), rfl, onlyRegs_of_ctxStep_clearOut hstep rfl⟩

/-! ## The end of an abort (07 R209) -/

theorem drainRecords_of_nil {m : Mod} {q : Nat} (h : (m.ctx q).ops = []) (n : Nat) : m.drainRecords q n = m := by
  have hrow : m.recordRow q = m := by simp [Mod.recordRow, h]
  induction n with
  | zero => rfl
  | succ n ih => rw [Mod.drainRecords, hrow, ih]

/-- The module whose abort has ended, before its event is raised. -/
def Mod.abortEnded (m : Mod) (q : Nat) : Mod := (m.modCtx q (fun c => { c with aborting := false })).clearLoops q

theorem abortComplete_of_nil {m : Mod} {q : Nat} (hab : (m.ctx q).aborting = true) (h : (m.ctx q).ops = [])
    (hstale : (m.ctx q).staleFetches = []) : m.abortComplete q =
      (m.abortEnded q).raise 0x0302 (d1 q ++ dCount (m.ctx q).aborted ++ dCount (m.ctx q).detachedNow) := by
  simp [Mod.abortComplete, hab, h, hstale, drainRecords_of_nil h, Mod.abortEnded]

theorem abortComplete_answers {q : Fin 4} {s : State} (hab : (s.m.ctx q).aborting = true) (hops : (s.m.ctx q).ops = [])
    (hstale : (s.m.ctx q).staleFetches = []) (hquiet : s.m.quiet = true) :
    Answers (.abortComplete q) s (fun t => (∀ k < 4, t.m.fld F.SQ_LOOP_COUNT q k = 0) ∧
      Raised t.m 0x0302 (d1 q ++ dCount (s.m.ctx q).aborted ++ dCount (s.m.ctx q).detachedNow) ∧
      RegsAndEvents (loopRegs q) { s.m with ctxs := modNth s.m.ctxs q (fun c => { c with aborting := false }) } t.m) := by
  obtain ⟨hloop, -, -, -, -, hdrain⟩ := trapAddr_ne q
  have he : s.m.clearOut.abortComplete q = (s.m.clearOut.abortEnded q).raise 0x0302 _ :=
    abortComplete_of_nil (m := s.m.clearOut) hab hops hstale
  have hended : (s.m.modCtx q (fun c => { c with aborting := false })).quiet = true :=
    quiet_of_ctxStep (ctxStep_of_modCtx s.m q _ []) hquiet (fun _ h => h) List.not_mem_nil
  have hframe := regsAndEvents_raise (regsAndEvents_clearLoops (regsAndEvents_clearOut (loopRegs q)
    (s.m.modCtx q (fun c => { c with aborting := false }))) (fun _ => id)) 0x0302
      (d1 q ++ dCount (s.m.ctx q).aborted ++ dCount (s.m.ctx q).detachedNow)
  have hlist : ∀ b ∈ loopRegs q, b ∈ trapRegList q [F.SQ_CPL_TAIL_TAIL.addr q 0] := fun _ hb => List.mem_append_right _ hb
  refine answers_runF (exec_abortComplete q s) ?_ ?_ ?_ <;> rw [he]
  · exact quiet_of_sramFrame (sramFrame_of_regsAndEvents (regsAndEvents_mono hframe hlist) hdrain) hended
  · exact stays_raise _ _ rfl
  · refine ⟨fun k hk => ?_, raised_settle (raised_raise _ _ _), regsAndEvents_settle hframe⟩
    exact (fld_settle _ _ _ _ _).trans ((fld_raise _ _ _ _ _ _ _ (hloop k hk).2.2).trans (fld_clearLoops _ _ hk))

/-! ## A die lost (07 R219, R220) -/

theorem scramble_keeps (m : Mod) (q : Nat) (op : ROp) :
    (m.scramble q op).ctxs = m.ctxs ∧ (m.scramble q op).regs = m.regs ∧ (m.scramble q op).out = m.out := by
  unfold Mod.scramble
  split
  · exact ⟨rfl, rfl, rfl⟩
  · refine foldl_keeps (fun n : Mod => n.ctxs = m.ctxs ∧ n.regs = m.regs ∧ n.out = m.out) _ (fun n r hn => ?_) _ m ⟨rfl, rfl, rfl⟩
    split <;> exact hn

/-- The operation that the loss of its die ends. -/
def ROp.dieLost (op : ROp) (die : Nat) : ROp :=
  { op with st := .failed, status := .dieLost, detail := die, faultAddr := 0, trapAlways := true, tiles := [], parts := [], held := [],
            coll := none, redDone := true }

/-- The loss of a die is no longer due. -/
def Mod.lossTaken (m : Mod) (q die : Nat) : Mod := m.modCtx q (fun c => { c with lossDue := c.lossDue.filter (· ≠ die) })

theorem lt_length_of_lossDue {m : Mod} {q die : Nat} (h : (m.ctx q).lossDue.contains die = true) : q < m.ctxs.length := by
  by_contra hq
  simp [Mod.ctx, nth, List.getD_eq_getElem?_getD, List.getElem?_eq_none (not_lt.mp hq)] at h

section
variable {m : Mod} {q die : Nat} (hdue : (m.ctx q).lossDue.contains die = true)
include hdue

theorem ctx_lossTaken : (m.lossTaken q die).ctx q = { m.ctx q with lossDue := (m.ctx q).lossDue.filter (· ≠ die) } :=
  ctx_modCtx_self m q _ (lt_length_of_lossDue hdue)

variable (htr : (m.ctx q).trapped = false)
include htr

/-- The loss of the die of the only operation, dispatched: what it wrote is undefined, and it fails. -/
theorem sqDieLost_dispatched {op : ROp} (h : (m.ctx q).ops = [op]) (hst : op.st = .dispatched) :
    m.sqDieLost q die = ((m.lossTaken q die).scramble q op).withOp q (op.dieLost die) := by
  have hhit : (op.st == .dispatched || op.st == .reported || op.st == .reload) = true := by rw [hst]; rfl
  obtain ⟨hctxs, -, -⟩ := scramble_keeps (m.lossTaken q die) q op
  have hops : (nth ((m.lossTaken q die).scramble q op).ctxs q {}).ops = [op] := by
    rw [hctxs]
    exact (congrArg Ctx.ops (ctx_lossTaken hdue)).trans h
  unfold Mod.sqDieLost
  dsimp only
  rw [hdue, htr, h]
  simp only [Bool.not_true, Bool.false_eq_true, if_false, List.any_cons, hhit, Bool.true_or, if_true, List.filter_cons, List.filter_nil,
    List.foldl_cons, List.foldl_nil]
  refine congrArg (fun l : List Ctx => ({ (m.lossTaken q die).scramble q op with ctxs := l } : Mod)) (modNth_congr {} ?_)
  unfold Mod.lossTaken at hops
  rw [hops, List.map_cons, List.map_nil, if_pos hhit]
  rfl

/-- With none dispatched the context traps; the address is no operation's. -/
theorem sqDieLost_idle (h : (m.ctx q).ops = []) : ∃ a ring, m.sqDieLost q die =
    ((m.lossTaken q die).draw.1.modCtx q (fun c => c.trap true)).trapTaken q Status.dieLost.toNat 0 0 a ring := by
  have hops : ((m.lossTaken q die).draw.1.ctx q).ops = [] := (congrArg Ctx.ops (ctx_lossTaken hdue)).trans h
  unfold Mod.sqDieLost
  dsimp only
  rw [hdue, htr, h]
  simp only [Bool.not_true, Bool.false_eq_true, if_false, List.any_nil]
  exact ⟨_, _, enterTrap_of_nil hops _ _ _ _ _⟩

end

theorem ctx_settle (m : Mod) (q : Nat) : m.settle.ctx q = m.ctx q := rfl

theorem sequencerDieLost_answers {q : Fin 4} {die : Fin 16} {s : State} (hdue : (s.m.ctx q).lossDue.contains die.val = true)
    (htr : (s.m.ctx q).trapped = false) :
    (∀ op, (s.m.ctx q).ops = [op] → op.st = .dispatched → Answers (.sequencerDieLost q die) s (fun t =>
      (t.m.ctx q).lossDue = (s.m.ctx q).lossDue.filter (· ≠ die.val) ∧ t.m.out = [] ∧ SameRegsBut [] s.m t.m ∧
      (t.m.ctx q).ops = [op.dieLost die])) ∧
    ((s.m.ctx q).ops = [] → Answers (.sequencerDieLost q die) s (fun t => (t.m.ctx q).trapped = true ∧ (t.m.ctx q).dieLost = true ∧
      t.m.fld F.SQ_TRAP_STATUS q = Status.dieLost.toNat ∧ t.m.fld F.SQ_TRAP_OPCODE q = 0 ∧ t.m.fld F.SQ_TRAP_CODE q = 0 ∧
      (∃ e, e.code = 0x0301 ∧ t.m.out = [.event e]))) := by
  have htaken := ctx_lossTaken (m := s.m.clearOut) hdue
  have hlen : q.val < (s.m.clearOut.lossTaken q die).ctxs.length := by
    rw [Mod.lossTaken, show ∀ f, (s.m.clearOut.modCtx q f).ctxs.length = _ from fun f => length_modNth _ _ f]
    exact lt_length_of_lossDue hdue
  refine ⟨fun op hop hst => ?dispatched, fun hops => ?idle⟩
  case dispatched =>
    obtain ⟨hctxs, hregs, hout⟩ := scramble_keeps (s.m.clearOut.lossTaken q die) q op
    have hctx : (((s.m.clearOut.lossTaken q die).scramble q op).withOp q (op.dieLost die)).ctx q =
        { (s.m.clearOut.lossTaken q die).ctx q with ops := [op.dieLost die] } := by
      rw [Mod.withOp, ctx_modCtx_self _ _ _ (by rwa [hctxs]), Mod.ctx, hctxs, ← Mod.ctx]
    rw [htaken] at hctx
    refine answers_run (exec_sequencerDieLost q die s) ?_
    rw [sqDieLost_dispatched (m := s.m.clearOut) hdue htr hop hst]
    have hleft := (ctx_settle _ _).trans hctx
    exact ⟨congrArg Ctx.lossDue hleft, (settle_out _).trans hout, fun a _ => (reg_settle _ _).trans (reg_congr hregs a), congrArg Ctx.ops hleft⟩
  case idle =>
    obtain ⟨a, ring, he⟩ := sqDieLost_idle (m := s.m.clearOut) hdue htr hops
    have hctx := ctx_modCtx_self (s.m.clearOut.lossTaken q die).draw.1 q (fun c => c.trap true) hlen
    obtain ⟨hst, hop, hcode, -, -, -, -, -, hframe, -⟩ := trapLeft_trapTaken (q := q) .dieLost 0 0 a ring
      (regsAndEvents_refl (trapRegList q []) ((s.m.clearOut.lossTaken q die).draw.1.modCtx q (fun c => c.trap true))) (fun hm => absurd rfl hm)
    have hleft := (congrArg (fun t : Mod => t.ctx q) hframe).trans hctx
    have hevent := out_trapTaken (m := (s.m.clearOut.lossTaken q die).draw.1.modCtx q (fun c => c.trap true)) q Status.dieLost.toNat 0 0 a ring rfl
    refine answers_run (exec_sequencerDieLost q die s) ?_
    rw [he]
    refine ⟨congrArg Ctx.trapped hleft, (congrArg Ctx.dieLost hleft).trans (Bool.or_true _), ?_, ?_, ?_, ?_⟩
    · exact hst
    · exact hop
    · exact hcode
    · exact hevent

/-- Settles O20: the four rows, each by what its function makes of a context with at most one operation. -/
theorem contextTraps : Obligations.ContextTraps :=
  ⟨fun q s hquiet hab htr => contextTrap_answers q s hquiet hab htr,
    fun _ _ => ⟨fun _ hop hst hwait hopen hended => detach_answers hop hst hwait hopen hended,
      fun hab hops hstale hquiet => abortComplete_answers hab hops hstale hquiet⟩,
    fun _ _ _ hdue htr => sequencerDieLost_answers hdue htr⟩

end Sys2Proof.Machine

/-! # Proofs: staging (05 Table 05.6; 07 R200, Table 07.1) -/

namespace Sys2Proof.Machine

open Sys2Proof

/-- The only resident operation is the first of its kind. -/
theorem find?_sole {m : Mod} {q : Nat} {op : ROp} (h : (m.ctx q).ops = [op]) {p : ROp → Bool} (hp : p op = true) :
    (m.ctx q).ops.find? p = some op := by
  rw [h, List.find?_cons_of_pos hp]

/-! ## An operation fails -/

/-- The operation FAILED with its first status; what it would still have done is dropped (06 R162). -/
def ROp.failedWith (op : ROp) (st : Status) (detail faultAddr : Nat) (always : Bool) : ROp :=
  { op with status := st, detail := detail, faultAddr := faultAddr, trapAlways := always, st := .failed, tiles := [], parts := [], held := [],
            redDone := true, reloads := [] }

/-- A failure that is not held until dispatch fails the only resident operation. It leaves the outputs undefined, unless a check or a
descriptor's read refused the operation (07 R202). -/
theorem opFail_sole {m : Mod} {q : Nat} {op : ROp} (h : (m.ctx q).ops = [op]) (hok : op.status = .ok) (hret : op.st ≠ .retired)
    (hst : op.st ≠ .staged) (st : Status) (detail faultAddr : Nat) (always : Bool) :
    m.opFail q op.seq st detail faultAddr always =
      if op.st = .fetched ∨ op.st = .staging ∨ (st = .protocol ∧ op.coll.isNone = true)
      then m.withOp q (op.failedWith st detail faultAddr always)
      else (m.withOp q (op.failedWith st detail faultAddr always)).scramble q op := by
  have hgo : ¬(op.status ≠ .ok ∨ op.st = .retired) := by simp [hok, hret]
  simp only [Mod.opFail, op?_sole h, if_neg hgo, if_neg hst, modOp_sole _ h]
  rfl

/-! ## Staging completes -/

/-- Tensor descriptors that have been read are not read again. -/
theorem readTensors_of_read {m : Mod} {q seq : Nat} {op : ROp} (hop : m.op? q seq = some op) {l : List Nat}
    (hl : ∀ x ∈ l, (op.tensors.get? x).isSome = true) : m.readTensors q seq l = m := by
  induction l with
  | nil => rfl
  | cons x xs ih =>
    obtain ⟨hx, hxs⟩ := List.forall_mem_cons.mp hl
    simp only [Mod.readTensors, hop, if_pos hx]
    exact ih hxs

section
variable {m : Mod} {q : Nat} {op : ROp} (h : (m.ctx q).ops = [op])
include h

/-- A STAGED operation that reads nothing ahead of its dispatch runs nothing. -/
theorem opRun_of_staged (hst : op.st = .staged) (hd : deadlineClass op.desc = 2) : m.opRun q op.seq = m := by
  have hidle : op.st ≠ .dispatched := by simp [hst]
  simp [Mod.opRun, op?_sole h, prefetchStarts_sole h, hidle, hd]

theorem stagingComplete_staged (hst : op.st = .staging) (hhead : headerOk op.desc = true) (hopen : op.open_ = []) (hbad : op.bad = none)
    (hread : ∀ x < 4, bit (tvalid op.desc) x = true → (op.tensors.get? x).isSome = true) (hcheck : m.stagingCheck q op = .ok)
    (hd : deadlineClass op.desc = 2) : m.stagingComplete q = m.withOp q { op with st := .staged } := by
  have hfind := find?_sole h (p := fun o => o.st == .staging) (by rw [hst]; rfl)
  have htensors : m.readTensors q op.seq ((List.range 4).filter (fun s => bit (tvalid op.desc) s)) = m := by
    refine readTensors_of_read (op?_sole h) fun x hx => ?_
    obtain ⟨hlt, hvalid⟩ := List.mem_filter.mp hx
    exact hread x (List.mem_range.mp hlt) hvalid
  have hops : ((m.withOp q { op with st := .staged }).ctx q).ops = [{ op with st := .staged }] := ops_withOp _ h
  have hrun : (m.withOp q { op with st := .staged }).opRun q op.seq = m.withOp q { op with st := .staged } :=
    opRun_of_staged (op := { op with st := .staged }) hops rfl hd
  have hdone : ((m.modOp q op.seq (fun o => { o with st := .staged })).opRun q op.seq).issueHeads q = m.withOp q { op with st := .staged } := by
    rw [modOp_sole _ h, hrun, issueHeads_of_headless hops hd]
  simp only [Mod.stagingComplete, hfind, hhead, htensors, op?_sole h, hbad, hopen, hcheck, hdone, Bool.not_true, Bool.false_eq_true, if_false,
    ne_eq, not_true_eq_false]

/-- A malformed header refuses the operation before its tensor descriptors are read (05 Table 05.6). -/
theorem stagingComplete_malformed (hst : op.st = .staging) (hok : op.status = .ok) (hhead : headerOk op.desc = false) :
    m.stagingComplete q = m.withOp q (op.failedWith .protocol 0 0 false) := by
  have hfind := find?_sole h (p := fun o => o.st == .staging) (by rw [hst]; rfl)
  have hfail := opFail_sole h hok (by simp [hst]) (by simp [hst]) .protocol 0 0 false
  rw [if_pos (.inr (.inl hst))] at hfail
  simp only [Mod.stagingComplete, hfind, hhead, Bool.not_false, if_true, hfail]

end

/-! ## Staging starts -/

/-- Two changes in turn of the operations of one number, the first of which keeps the number. -/
theorem modOp_modOp (m : Mod) (q seq : Nat) {f : ROp → ROp} (hf : ∀ o, (f o).seq = o.seq) (g : ROp → ROp) :
    (m.modOp q seq f).modOp q seq g = m.modOp q seq (fun o => g (f o)) := by
  have hmap : ∀ o : ROp, (if (if o.seq = seq then f o else o).seq = seq then g (if o.seq = seq then f o else o)
      else if o.seq = seq then f o else o) = if o.seq = seq then g (f o) else o := by
    intro o
    by_cases ho : o.seq = seq
    · simp only [ho, if_true, hf]
    · simp only [ho, if_false]
  refine congrArg (fun l => ({ m with ctxs := l } : Mod)) ((modNth_modNth _ _ _ _).trans ?_)
  simp only [List.map_map, Function.comp_def, hmap]

/-- The operation's staging state and its staging tick are set. -/
def Mod.stagedAs (m : Mod) (q : Nat) (op : ROp) (st : OpSt) : Mod :=
  m.modOp q op.seq (fun o => { o with st := st, stageTick := m.ticks })

section
variable {m : Mod} {q : Nat} {op : ROp} (htr : (m.ctx q).trapped = false) (hab : (m.ctx q).aborting = false)
  (hnext : m.stageNext q = some op)
include htr hab hnext

theorem stagingStart_array (hc : isControl (opcodeOf op.desc) = false) : m.stagingStart q = m.stagedAs q op .staging := by
  simp [Mod.stagingStart, htr, hab, hnext, hc, Mod.stagedAs]

/-- A control operation passes through STAGING at once (07 R200). -/
theorem stagingStart_control (hc : isControl (opcodeOf op.desc) = true) (hhead : headerOk op.desc = true) :
    m.stagingStart q = m.stagedAs q op .staged := by
  have hboth := modOp_modOp m q op.seq (f := fun o => { o with st := .staging, stageTick := m.ticks }) (fun _ => rfl)
    (fun o => { o with st := .staged })
  simp [Mod.stagingStart, htr, hab, hnext, hc, hhead, hboth, Mod.stagedAs]

end

/-- Settles O10: a sole operation whose checks pass is STAGED and has nothing to run, one with a malformed header fails, and the operation
that stages next takes its state and its tick. -/
theorem stagingCompletes : Obligations.StagingCompletes := by
  unfold Obligations.StagingCompletes
  refine ⟨fun q s op hquiet hop hst hok => ?complete, fun q s op htr hab hnext => ?start⟩
  case complete =>
    have hcoll := coll_none_of_quiet hquiet hop
    refine ⟨fun hhead hopen hbad hread hcheck hd => ?staged, fun hhead => ?malformed⟩
    case staged =>
      have he := stagingComplete_staged (m := s.m.clearOut) hop hst hhead hopen hbad hread hcheck hd
      refine answers_runF (exec_stagingComplete q s) ?_ ?_ ?_ <;> rw [he]
      · exact quiet_withOp (m := s.m.clearOut) hquiet hcoll
      · rfl
      · exact onlyRegs_ctxs s.m _
    case malformed =>
      have he := stagingComplete_malformed (m := s.m.clearOut) hop hst hok hhead
      refine answers_runF (exec_stagingComplete q s) ?_ ?_ ?_ <;> rw [he]
      · exact quiet_withOp (m := s.m.clearOut) hquiet hcoll
      · rfl
      · exact ⟨_, ops_withOp (m := s.m.clearOut) _ hop, rfl, rfl⟩
  case start =>
    intro becomes
    have hbecomes : ∀ st, s.m.clearOut.stagingStart q = s.m.clearOut.stagedAs q op st → Answers (.stagingStart q) s (becomes st) := by
      intro st he
      refine answers_run (exec_stagingStart q s) ?_
      rw [he]
      exact onlyRegs_ctxs s.m _
    exact ⟨fun hc => hbecomes _ (stagingStart_array (m := s.m.clearOut) htr hab hnext hc),
      fun hc hhead => hbecomes _ (stagingStart_control (m := s.m.clearOut) htr hab hnext hc hhead)⟩

end Sys2Proof.Machine

/-! # Proofs: parity errors of an operation, and the dies' reports (01 R19; 03 R66; 07 R216-R218, Tables 07.1, 07.6; 08 R232) -/

namespace Sys2Proof.Machine

open Sys2Proof

/-! ## An error in an array's own bytes (08 R232) -/

theorem sramAt_lt {a arr off : Nat} (h : sramAt a = some (arr, off)) : arr < 17 := by
  unfold sramAt at h
  dsimp only at h
  split at h
  · simp only [Option.some.injEq, Prod.mk.injEq] at h
    omega
  · split at h
    · simp only [Option.ite_none_right_eq_some, Option.some.injEq, Prod.mk.injEq] at h
      omega
    · simp at h

theorem ctxStep_refl (q : Nat) (as : List Nat) (m : Mod) : CtxStep q id as m m := ⟨by rw [modNth_id], fun _ _ => rfl⟩

/-- Where a report finds an error in an array's own bytes, it is counted and logged there, with port S. -/
def Mod.ownParity (m : Mod) (r : ParityReport) : Mod :=
  match r.own, sramAt (m.firstBadByte r) with
  | true, some (arr, off) => m.parityError arr off none
  | _, _ => m

/-- The registers that it is counted and logged in. -/
def Mod.ownParityRegs (m : Mod) (r : ParityReport) : List Nat :=
  match r.own, sramAt (m.firstBadByte r) with
  | true, some (arr, _) => [F.ERR_COUNT_PARITY.addr arr 0, F.PARITY_LOG_OFFSET.addr arr 0]
  | _, _ => []

/-- What they then hold. -/
def Mod.OwnParityLogged (m : Mod) (r : ParityReport) (t : Mod) : Prop :=
  ∀ arr off, r.own = true → sramAt (m.firstBadByte r) = some (arr, off) →
    t.fld F.ERR_COUNT_PARITY arr = satAdd F.ERR_COUNT_PARITY.w (m.fld F.ERR_COUNT_PARITY arr) 1 ∧
    t.fld F.PARITY_LOG_OFFSET arr = off % 2 ^ F.PARITY_LOG_OFFSET.w ∧ t.fld F.PARITY_LOG_PORT arr = 0 ∧ t.fld F.PARITY_LOG_VALID arr = 1

theorem ctxStep_parityError_s (m : Mod) (q arr off : Nat) :
    CtxStep q id [F.ERR_COUNT_PARITY.addr arr 0, F.PARITY_LOG_OFFSET.addr arr 0] m (m.parityError arr off none) := by
  have hlog : F.PARITY_LOG_OFFSET.addr arr 0 ∈ [F.ERR_COUNT_PARITY.addr arr 0, F.PARITY_LOG_OFFSET.addr arr 0] := .tail _ (.head _)
  exact ctxStep_setFld (ctxStep_setFld (ctxStep_setFld (ctxStep_setFld (ctxStep_refl q _ m) F.ERR_COUNT_PARITY _ arr 0 (.head _))
    F.PARITY_LOG_OFFSET off arr 0 hlog) F.PARITY_LOG_PORT 0 arr 0 hlog) F.PARITY_LOG_VALID 1 arr 0 hlog

theorem fld_parityError_s (m : Mod) (arr off : Nat) :
    (m.parityError arr off none).fld F.ERR_COUNT_PARITY arr = satAdd F.ERR_COUNT_PARITY.w (m.fld F.ERR_COUNT_PARITY arr) 1 ∧
    (m.parityError arr off none).fld F.PARITY_LOG_OFFSET arr = off % 2 ^ F.PARITY_LOG_OFFSET.w ∧
    (m.parityError arr off none).fld F.PARITY_LOG_PORT arr = 0 ∧ (m.parityError arr off none).fld F.PARITY_LOG_VALID arr = 1 := by
  refine ⟨?_, ?_, ?_, ?_⟩ <;> unfold Mod.parityError
  · simp (disch := decide) only [fld_setFld_apart]
    exact fld_satFld_self m F.ERR_COUNT_PARITY arr (by decide)
  all_goals
    simp (disch := decide) only [fld_setFld_apart, fld_setFld_self] <;> rfl

section
variable (m : Mod) (r : ParityReport)

theorem ctxStep_ownParity (q : Nat) : CtxStep q id (m.ownParityRegs r) m (m.ownParity r) := by
  unfold Mod.ownParity Mod.ownParityRegs
  cases hown : r.own with
  | false => exact ctxStep_refl q _ m
  | true =>
    cases hat : sramAt (m.firstBadByte r) with
    | none => exact ctxStep_refl q _ m
    | some x => exact ctxStep_parityError_s m q x.1 x.2

theorem ownParityLogged_ownParity : m.OwnParityLogged r (m.ownParity r) := by
  intro arr off hown hat
  simp only [Mod.ownParity, hown, hat]
  exact fld_parityError_s m arr off

variable {m r}

/-- The arrays' registers lie in their own blocks (01 Table 01.7). -/
theorem range_of_mem_ownParityRegs {a : Nat} (h : a ∈ m.ownParityRegs r) :
    (0x700002000000 ≤ a ∧ a < 0x700003000000) ∨ 0x710000002000 ≤ a := by
  unfold Mod.ownParityRegs at h
  split at h
  · next arr off hown hat =>
    have hbase := sramBlock_base ⟨arr, sramAt_lt hat⟩
    have hcount : F.ERR_COUNT_PARITY.addr arr 0 = Block.base .sram arr + 0x40 := rfl
    have hlog : F.PARITY_LOG_OFFSET.addr arr 0 = Block.base .sram arr + 0x38 := rfl
    simp only [List.mem_cons, List.not_mem_nil, or_false] at h
    dsimp only at hbase
    omega
  · exact absurd h List.not_mem_nil

end

/-! ## What an operation computes in -/

/-- The registers that the environment of an operation is read from. -/
def envRegs (q : Nat) : List Nat :=
  [F.HUB_TILE_MAP_DIE.addr 0 0, F.HUB_PARTITION_MODE.addr 0 0, F.FAB_NODE_ID.addr 0 0, F.SQ_SR_SEED_SEED.addr q 0]

theorem envOf_congr {m n : Mod} {q : Nat} (op : ROp) (hregs : ∀ a ∈ envRegs q, n.reg a = m.reg a) (hactive : n.active = m.active)
    (hfresh : n.fresh = m.fresh) : n.envOf q op = m.envOf q op := by
  simp only [envRegs, List.forall_mem_cons] at hregs
  obtain ⟨hmap, hmode, hnode, hseed, -⟩ := hregs
  have hlogical : n.logical q = m.logical q := by simp only [Mod.logical, Mod.partition, Mod.fld, hmap, hmode, hactive]
  have hdec : n.decodeAddr = m.decodeAddr := by
    funext x
    unfold Mod.decodeAddr Mod.node Mod.fld
    rw [hnode]
  have htensor : n.tensor = m.tensor := by
    funext slot b
    simp only [Mod.tensor, hdec]
  simp only [Mod.envOf, hlogical, htensor, hfresh, Mod.fld, hseed]

theorem firstBadByte_congr {m n : Mod} (h : n.mem = m.mem) (r : ParityReport) : n.firstBadByte r = m.firstBadByte r := by
  simp only [Mod.firstBadByte, Mod.faultByte, h]

section
variable (m : Mod) (q : Fin 4) (r : ParityReport)

theorem envOf_ownParity (op : ROp) : (m.ownParity r).envOf q op = m.envOf q op := by
  have hapart : ∀ a ∈ envRegs q, a < 0x700002000000 ∨ 0x700003000000 ≤ a ∧ a < 0x710000002000 := by
    revert q
    decide
  obtain ⟨hn, hregs⟩ := ctxStep_ownParity m r q
  refine envOf_congr op (fun a ha => hregs a fun hm => ?_) (by rw [hn]) (by rw [hn])
  have hhere := hapart a ha
  have hthere := range_of_mem_ownParityRegs hm
  omega

theorem firstBadByte_ownParity : (m.ownParity r).firstBadByte r = m.firstBadByte r :=
  firstBadByte_congr (by rw [(ctxStep_ownParity m r 0).1]) r

theorem ops_ownParity {op : ROp} (h : (m.ctx q).ops = [op]) : ((m.ownParity r).ctx q).ops = [op] := by
  rw [ctx_of_ctxStep (ctxStep_ownParity m r q) (lt_length_of_ops h)]
  exact h

end

/-! ## The report reaches the sequencer (07 R216-R218, Table 07.6) -/

/-- The operation stopped in RELOAD, with more blocks to reload. -/
def ROp.toReload (op : ROp) (bad : Nat) (more : List (Nat × Nat × Nat)) : ROp :=
  { op with st := .reload, badByte := if op.badByte = 0 then bad else op.badByte, redWrite := false,
            reloads := op.reloads ++ more.filter (fun x => !(op.reloads.any (fun y => y.1 == x.1))), tiles := [], parts := [], held := [] }

/-- The operation may be replayed, and has not been. -/
def Mod.MayReplay (m : Mod) (q : Nat) (op : ROp) : Prop :=
  op.replayed = false ∧ idempotent op.desc = true ∧ replayClass (opcodeOf op.desc) = true ∧ (m.envOf q op).inPlace = false

section
variable {m : Mod} {q : Nat} {op : ROp} (h : (m.ctx q).ops = [op]) (hst : op.st = .dispatched) (r : ParityReport)
include h

theorem streamParity_sole (hst : op.st = .dispatched) : m.streamParity q r = (m.ownParity r).parityReport q op.seq r := by
  have hfind := find?_sole h (p := fun o => o.st == .dispatched || o.st == .reload) (by rw [hst]; rfl)
  simp only [Mod.streamParity, hfind]
  rfl

include hst

theorem parityReport_replayed (hrep : op.replayed = true) : m.parityReport q op.seq r = m.opLost q op.seq 1 (m.firstBadByte r) := by
  simp [Mod.parityReport, op?_sole h, hst, hrep]

theorem parityReport_unreplayable (hrep : op.replayed = false)
    (hno : idempotent op.desc = false ∨ replayClass (opcodeOf op.desc) = false ∨ (m.envOf q op).inPlace = true) :
    m.parityReport q op.seq r = m.opLost q op.seq 3 (m.firstBadByte r) := by
  rcases hno with hno | hno | hno <;> simp [Mod.parityReport, op?_sole h, hst, hrep, hno]

variable (hmay : m.MayReplay q op)
include hmay

theorem parityReport_other (hown : r.own = false) : m.parityReport q op.seq r = m.withOp q (op.toReload (m.firstBadByte r) []) := by
  obtain ⟨hrep, hidem, hclass, hplace⟩ := hmay
  simp [Mod.parityReport, op?_sole h, hst, hrep, hidem, hclass, hplace, hown, modOp_sole _ h, ROp.toReload]

variable (hown : r.own = true)
include hown

theorem parityReport_aux (haux : r.aux = true) : m.parityReport q op.seq r = m.opLost q op.seq 5 (m.firstBadByte r) := by
  obtain ⟨hrep, hidem, hclass, hplace⟩ := hmay
  simp [Mod.parityReport, op?_sole h, hst, hrep, hidem, hclass, hplace, hown, haux]

variable (haux : r.aux = false) {x : Tensor} (hx : (m.envOf q op).t r.slot = some x)
include haux hx

theorem parityReport_unbacked (hno : backedInput op.desc = false ∨ x.backing = none) :
    m.parityReport q op.seq r = m.opLost q op.seq 2 (m.firstBadByte r) := by
  obtain ⟨hrep, hidem, hclass, hplace⟩ := hmay
  simp [Mod.parityReport, op?_sole h, hst, hrep, hidem, hclass, hplace, hown, haux, hx, hno]

theorem parityReport_backed {b : Nat} (hin : backedInput op.desc = true) (hb : x.backing = some b) :
    m.parityReport q op.seq r = m.withOp q (op.toReload (m.firstBadByte r)
      ((linesOf r.addr r.len).map (fun l => (l, ((m.envOf q op).backingAddr x l).getD 0, m.firstBadByte r)))) := by
  obtain ⟨hrep, hidem, hclass, hplace⟩ := hmay
  simp [Mod.parityReport, op?_sole h, hst, hrep, hidem, hclass, hplace, hown, haux, hx, hin, hb, modOp_sole _ h, ROp.toReload]

end

/-! ## The operation ends with ST_DATA_LOST (07 R218) -/

/-- Bytes made undefined change the memory, and draw free values. -/
theorem sramFrame_scramble (m : Mod) (q : Nat) (op : ROp) : SramFrame m (m.scramble q op) := by
  refine ⟨?_, fld_congr (scramble_keeps m q op).2.1 _ _ _ _⟩
  unfold Mod.scramble
  split
  · rfl
  · refine foldl_keeps (fun n : Mod => n = { m with
      out := n.out, regs := n.regs, mem := n.mem, fresh := n.fresh, evSeq := n.evSeq, alert := n.alert, alertPin := n.alertPin,
      araRead := n.araRead, evStage := n.evStage, sram := n.sram }) _ (fun n x hn => ?_) _ m rfl
    split
    · rw [hn]
      rfl
    · exact hn

/-- The loss counted, and the only operation failed. -/
def Mod.countLoss (m : Mod) (q : Nat) (op : ROp) (detail a : Nat) : Mod :=
  (m.satFld F.SQ_REPLAY_LOST 1 q).withOp q (op.failedWith .dataLost detail a true)

theorem opLost_sole {m : Mod} {q : Nat} {op : ROp} (h : (m.ctx q).ops = [op]) (hst : op.st = .dispatched) (hok : op.status = .ok)
    (detail a : Nat) : m.opLost q op.seq detail a = (m.countLoss q op detail a).scramble q op := by
  have hrefused : ¬(op.st = .fetched ∨ op.st = .staging ∨ (Status.dataLost = .protocol ∧ op.coll.isNone = true)) := by simp [hst]
  have hfail := opFail_sole (m := m.satFld F.SQ_REPLAY_LOST 1 q) h hok (by simp [hst]) (by simp [hst]) .dataLost detail a true
  rwa [if_neg hrefused] at hfail

theorem ctxStep_mono {q : Nat} {g : Ctx → Ctx} {as bs : List Nat} {m n : Mod} (h : CtxStep q g as m n) (hs : ∀ a ∈ as, a ∈ bs) :
    CtxStep q g bs m n :=
  ⟨h.1, fun a ha => h.2 a fun hm => ha (hs a hm)⟩

/-- The context's registers of replay lie in its own block (01 Table 01.7). -/
theorem replayLostAddr (q : Fin 4) : 0x700001000000 ≤ F.SQ_REPLAY_LOST.addr q 0 ∧ F.SQ_REPLAY_LOST.addr q 0 < 0x700002000000 := by
  revert q
  decide

theorem draining_not_ownParity (m : Mod) (r : ParityReport) : F.DIR_STATUS_DRAINING.addr 0 0 ∉ m.ownParityRegs r := by
  intro hm
  have hrange := range_of_mem_ownParityRegs hm
  have hdir : F.DIR_STATUS_DRAINING.addr 0 0 = 0x700009000008 := rfl
  omega

/-- The error and the loss counted, and the only operation failed. -/
def Mod.parityLost (m : Mod) (q : Nat) (op : ROp) (r : ParityReport) (detail : Nat) : Mod :=
  (m.ownParity r).countLoss q op detail (m.firstBadByte r)

section
variable (m : Mod) (q : Fin 4) (op : ROp) (r : ParityReport) (detail : Nat)

theorem ctxStep_parityLost : CtxStep q (fun c => { c with ops := [op.failedWith .dataLost detail (m.firstBadByte r) true] })
    (F.SQ_REPLAY_LOST.addr q 0 :: m.ownParityRegs r) m (m.parityLost q op r detail) :=
  have hown := ctxStep_mono (ctxStep_ownParity m r q) (bs := F.SQ_REPLAY_LOST.addr q 0 :: _) (fun _ => List.mem_cons_of_mem _)
  ctxStep_modCtx (ctxStep_setFld hown F.SQ_REPLAY_LOST _ q 0 (.head _)) _

theorem fld_parityLost : (m.parityLost q op r detail).fld F.SQ_REPLAY_LOST q = min (m.fld F.SQ_REPLAY_LOST q + 1) 0xFFFFFFFF := by
  obtain ⟨hlow, hhigh⟩ := replayLostAddr q
  have hsame : (m.ownParity r).fld F.SQ_REPLAY_LOST q = m.fld F.SQ_REPLAY_LOST q := by
    refine congrArg (fun w : Word => bits w.toNat _ _) ((ctxStep_ownParity m r q).2 _ fun hm => ?_)
    have hrange := range_of_mem_ownParityRegs hm
    omega
  rw [← hsame]
  exact fld_satFld_self (m.ownParity r) F.SQ_REPLAY_LOST q (by decide)

/-- The loss is counted in a register of the context, which leaves the array's registers as they are. -/
theorem ownParityLogged_parityLost : m.OwnParityLogged r (m.parityLost q op r detail) := by
  intro arr off hown hat
  obtain ⟨hlow, hhigh⟩ := replayLostAddr q
  have hbase := sramBlock_base ⟨arr, sramAt_lt hat⟩
  dsimp only at hbase
  have hkeeps : ∀ f : Fld, f.blk = .sram → (m.parityLost q op r detail).fld f arr = (m.ownParity r).fld f arr := by
    intro f hf
    refine fld_setFld_addr (m.ownParity r) F.SQ_REPLAY_LOST f _ q 0 0 arr 0 0 ?_
    rw [Fld.addr, hf]
    omega
  rw [hkeeps _ rfl, hkeeps _ rfl, hkeeps _ rfl, hkeeps _ rfl]
  exact ownParityLogged_ownParity m r arr off hown hat

end

/-! ## The row of a report -/

theorem ownParityLogged_of_regs {m n k : Mod} {r : ParityReport} (h : m.OwnParityLogged r n) (hregs : ∀ a, k.reg a = n.reg a) :
    m.OwnParityLogged r k := by
  intro arr off hown hat
  simp only [Mod.fld, hregs]
  exact h arr off hown hat

section
variable {s : State} {q : Fin 4} {op : ROp} (hquiet : s.m.quiet = true) (hop : (s.m.ctx q).ops = [op]) (hst : op.st = .dispatched)
  (r : ParityReport)
include hquiet hop hst

theorem streamParity_stops {more : List (Nat × Nat × Nat)}
    (he : (s.m.clearOut.ownParity r).parityReport q op.seq r = (s.m.clearOut.ownParity r).withOp q (op.toReload (s.m.firstBadByte r) more)) :
    Answers (.streamParityError q r) s (fun t => t.m.out = [] ∧ s.m.OwnParityLogged r t.m ∧ OnlyRegs (s.m.ownParityRegs r)
      { s.m with ctxs := modNth s.m.ctxs q (fun c => { c with ops := [op.toReload (s.m.firstBadByte r) more] }) } t.m) := by
  have hnone : op.coll = none := coll_none_of_quiet hquiet hop
  have hstep := ctxStep_modCtx (ctxStep_ownParity s.m.clearOut r q) (fun c => { c with ops := [op.toReload (s.m.firstBadByte r) more] })
  exact answers_ctxStep (exec_streamParityError q r s) ((streamParity_sole (m := s.m.clearOut) hop r hst).trans he) hstep hquiet rfl
    (fun _ _ => by simp [ROp.toReload, hnone]) (draining_not_ownParity _ r)
    ⟨(settle_out _).trans (out_of_ctxStep hstep), ownParityLogged_of_regs (ownParityLogged_ownParity s.m.clearOut r) (reg_settle _),
      onlyRegs_of_ctxStep_clearOut hstep rfl⟩

theorem streamParity_loses {detail : Nat} (hok : op.status = .ok)
    (he : (s.m.clearOut.ownParity r).parityReport q op.seq r =
      (s.m.clearOut.ownParity r).opLost q op.seq detail (s.m.firstBadByte r)) :
    Answers (.streamParityError q r) s (fun t => t.m.out = [] ∧ s.m.OwnParityLogged r t.m ∧
      t.m.fld F.SQ_REPLAY_LOST q = min (s.m.fld F.SQ_REPLAY_LOST q + 1) 0xFFFFFFFF ∧
      SameRegsBut (F.SQ_REPLAY_LOST.addr q 0 :: s.m.ownParityRegs r) s.m t.m ∧
      ∃ o, (t.m.ctx q).ops = [o] ∧ o.st = .failed ∧ o.status = .dataLost ∧ o.detail = detail ∧ o.faultAddr = s.m.firstBadByte r ∧
        o.trapAlways = true) := by
  have hnone : op.coll = none := coll_none_of_quiet hquiet hop
  have hrow : s.m.clearOut.streamParity q r = (s.m.clearOut.parityLost q op r detail).scramble q op :=
    (streamParity_sole (m := s.m.clearOut) hop r hst).trans (he.trans (opLost_sole (ops_ownParity s.m.clearOut q r hop) hst hok _ _))
  have hstep := ctxStep_parityLost s.m.clearOut q op r detail
  obtain ⟨hctxs, hregs, hout⟩ := scramble_keeps (s.m.clearOut.parityLost q op r detail) q op
  have hreg : ∀ a, ((s.m.clearOut.parityLost q op r detail).scramble q op).settle.reg a = (s.m.clearOut.parityLost q op r detail).reg a :=
    fun a => (reg_settle _ a).trans (reg_congr hregs a)
  refine answers_runF (exec_streamParityError q r s) ?_ ?_ ?_ <;> rw [hrow]
  · refine quiet_of_sramFrame (sramFrame_scramble _ _ _) (quiet_of_ctxStep hstep hquiet (fun _ _ => by simp [ROp.failedWith, hnone]) ?_)
    obtain ⟨-, hhigh⟩ := replayLostAddr q
    have hdir : F.DIR_STATUS_DRAINING.addr 0 0 = 0x700009000008 := rfl
    rw [List.mem_cons, not_or]
    exact ⟨by omega, draining_not_ownParity _ r⟩
  · rw [hout, out_of_ctxStep hstep]
    rfl
  · refine ⟨(settle_out _).trans (hout.trans (out_of_ctxStep hstep)), ownParityLogged_of_regs (ownParityLogged_parityLost s.m.clearOut q op r detail) hreg, ?_,
      fun a ha => (hreg a).trans (hstep.2 a ha), op.failedWith .dataLost detail (s.m.firstBadByte r) true, ?_, rfl, rfl, rfl, rfl, rfl⟩
    · exact (fld_settle _ _ _ _ _).trans ((fld_congr hregs _ _ _ _).trans (fld_parityLost s.m.clearOut q op r detail))
    · have hleft := ctx_of_ctxStep hstep (lt_length_of_ops hop)
      rw [Mod.ctx, ← hctxs] at hleft
      exact congrArg Ctx.ops hleft

end

/-! ## A die reports (01 R19; 03 R66; 07 Table 07.1) -/

/-- The report of a die that the only operation waits for is taken once its partial sums are in and its repair map is locked. -/
theorem tileReport_sole {m : Mod} {q die : Nat} {op : ROp} (h : (m.ctx q).ops = [op]) (hst : op.st = .dispatched)
    (hcomp : op.computed = true) (hdie : op.tiles.contains die = true) :
    m.tileReport q die =
      if op.parts.any (fun p => p.1 == die && p.2.2.1 != 0) = true ∨ m.fld F.ECD_REPAIR_CTL_LOCK die = 0 then m
      else (m.withOp q { op with tiles := op.tiles.filter (· ≠ die) }).checkReported q op.seq := by
  have hfind := find?_sole h (p := fun o => o.st == .dispatched && o.computed && o.tiles.contains die) (by rw [hst, hcomp, hdie]; rfl)
  simp only [Mod.tileReport, hfind, modOp_sole _ h, Bool.or_eq_true, beq_iff_eq]

/-- An operation with dies that have not reported stays DISPATCHED. -/
theorem checkReported_of_tiles {m : Mod} {q : Nat} {op : ROp} (h : (m.ctx q).ops = [op]) (hwrite : op.redWrite = false)
    (htiles : op.tiles ≠ []) : m.checkReported q op.seq = m := by
  have hset : op.redSettled = op := by simp [ROp.redSettled, hwrite]
  have hsame : m.modOp q op.seq ROp.redSettled = m := by rw [modOp_sole _ h, hset, withOp_self h]
  simp only [Mod.checkReported, hsame, op?_sole h]
  exact if_neg fun ⟨_, _, _, hnone, _⟩ => htiles hnone

/-- A report that changes its operation alone. -/
theorem tileReport_answers {q : Fin 4} {die : Fin 16} {s : State} {o : ROp} (hquiet : s.m.quiet = true) (hnone : o.coll = none)
    (he : s.m.clearOut.tileReport q die = s.m.clearOut.withOp q o) : Answers (.tileReport q die) s (fun t => t.m.out = [] ∧
      OnlyRegs [] { s.m with ctxs := modNth s.m.ctxs q (fun c => { c with ops := [o] }) } t.m) := by
  refine answers_runF (exec_tileReport q die s) ?_ ?_ ?_ <;> rw [he]
  · exact quiet_withOp (m := s.m.clearOut) hquiet hnone
  · rfl
  · exact onlyRegs_ctxs s.m _

/-- Settles O14: a report's error is logged first, and leaves what the sequencer then reads as it was; a die's report takes it off the
operation's list, and the last one makes the operation REPORTED. -/
theorem parityErrorReports : Obligations.ParityErrorReports := by
  unfold Obligations.ParityErrorReports
  refine ⟨fun q r s op hquiet hop hst hok => ?parity, fun q die s op hquiet hop hst hcomp hwrite hdie hok => ?report⟩
  case parity =>
    intro e mayReplay logs logged stops loses
    have hops := ops_ownParity s.m.clearOut q r hop
    have henv : (s.m.clearOut.ownParity r).envOf q op = e := envOf_ownParity s.m.clearOut q r op
    have hbyte : (s.m.clearOut.ownParity r).firstBadByte r = s.m.firstBadByte r := firstBadByte_ownParity s.m.clearOut r
    have hmay : mayReplay → (s.m.clearOut.ownParity r).MayReplay q op := by
      unfold Mod.MayReplay
      rw [henv]
      exact id
    have hloses : ∀ {detail : Nat}, (s.m.clearOut.ownParity r).parityReport q op.seq r =
        (s.m.clearOut.ownParity r).opLost q op.seq detail ((s.m.clearOut.ownParity r).firstBadByte r) → loses detail := fun he =>
      streamParity_loses hquiet hop hst r hok (hbyte ▸ he)
    have hstops : ∀ {more : List (Nat × Nat × Nat)}, (s.m.clearOut.ownParity r).parityReport q op.seq r =
        (s.m.clearOut.ownParity r).withOp q (op.toReload ((s.m.clearOut.ownParity r).firstBadByte r) more) → stops more := fun he =>
      streamParity_stops hquiet hop hst r (hbyte ▸ he)
    refine ⟨fun hrep => hloses (parityReport_replayed hops hst r hrep),
      fun hrep hno => hloses (parityReport_unreplayable hops hst r hrep (henv.symm ▸ hno)),
      fun h hown => hstops (parityReport_other hops hst r (hmay h) hown),
      fun h hown haux => hloses (parityReport_aux hops hst r (hmay h) hown haux),
      fun x h hown haux hx hno => hloses (parityReport_unbacked hops hst r (hmay h) hown haux (henv.symm ▸ hx) hno),
      fun x b h hown haux hx hin hb => ?_⟩
    have hrel := parityReport_backed hops hst r (hmay h) hown haux (henv.symm ▸ hx) hin hb
    rw [henv] at hrel
    have hgoal := hstops hrel
    rwa [hbyte] at hgoal
  case report =>
    intro rest becomes pending mayGo
    have hnone : op.coll = none := coll_none_of_quiet hquiet hop
    have hrow := tileReport_sole (m := s.m.clearOut) hop hst hcomp hdie
    have htaken : mayGo → s.m.clearOut.tileReport q die = (s.m.clearOut.withOp q { op with tiles := rest }).checkReported q op.seq :=
      fun ⟨hin, hlock⟩ => hrow.trans (if_neg (not_or.mpr ⟨ne_true_of_eq_false hin, hlock⟩))
    have hops := ops_withOp (m := s.m.clearOut) { op with tiles := rest } hop
    refine ⟨fun hgo hrest => ?more, fun hgo hrest hred hopen hev => ?last, fun hwait => ?waits⟩
    case more => exact tileReport_answers hquiet hnone ((htaken hgo).trans (checkReported_of_tiles (op := { op with tiles := rest }) hops hwrite hrest))
    case last =>
      have hset : ({ op with tiles := rest } : ROp).redSettled = { op with tiles := rest } := by simp [ROp.redSettled, hwrite]
      have hreported := checkReported_sole hops hset rfl hst hok hcomp hrest hred hnone hopen hev
      refine tileReport_answers hquiet hnone ((htaken hgo).trans (hreported.trans ?_))
      rw [hrest, withOp_withOp]
    case waits =>
      exact tileReport_answers hquiet hnone ((hrow.trans (if_pos hwait)).trans (withOp_self (m := s.m.clearOut) hop).symm)

end Sys2Proof.Machine

/-! # Proofs: aborts and RESUME (05 Table 05.14; 07 R207, R208, Table 07.4) -/

namespace Sys2Proof.Machine

open Sys2Proof

/-! ## The ring is discarded (07 R208) -/

/-- The context without its fetch, its chain and what fetch waits for. -/
def Ctx.discard (c : Ctx) : Ctx :=
  { c.dropFetch with stack := [], trapAt := none, paused := false, stopped := false, halted := false }

/-- The context whose request for an abort is taken. -/
def Ctx.abortDone (c : Ctx) : Ctx := { c with abortReq := false }

theorem ctxStep_discardRing {q : Nat} {g : Ctx → Ctx} {as : List Nat} {m n : Mod} (h : CtxStep q g as m n)
    (ha : F.SQ_RING_HEAD_HEAD.addr q 0 ∈ as) : CtxStep q (fun c => (g c).discard) as m (n.discardRing q) :=
  ctxStep_setFld (ctxStep_modCtx h Ctx.discard) F.SQ_RING_HEAD_HEAD _ q 0 ha

theorem fld_discardRing (m : Mod) (q : Nat) : (m.discardRing q).fld F.SQ_RING_HEAD_HEAD q = m.fld F.SQ_RING_TAIL_TAIL q :=
  (fld_setFld_self _ _ _ _ _ _ (by decide)).trans (Nat.mod_eq_of_lt (fld_lt m F.SQ_RING_TAIL_TAIL q 0 0))

theorem ctxStep_clearLoops {q : Nat} {g : Ctx → Ctx} {as : List Nat} {m n : Mod} (h : CtxStep q g as m n) (ha : ∀ a ∈ loopRegs q, a ∈ as) :
    CtxStep q g as m (n.clearLoops q) :=
  foldl_keeps_mem (CtxStep q g as m) _ _ (fun _ _ hk hx => ctxStep_setFld hx _ _ _ _ (ha _ (List.mem_map_of_mem hk))) n h

theorem ringHeadAddr_ne (q : Fin 4) : F.SQ_RING_HEAD_HEAD.addr q 0 ∉ loopRegs q ∧
    F.DIR_STATUS_DRAINING.addr 0 0 ∉ F.SQ_RING_HEAD_HEAD.addr q 0 :: loopRegs q := by
  revert q
  decide

/-- The module whose context's abort is taken, its ring empty and its loops ended. -/
def Mod.ringEmptied (m : Mod) (q : Nat) : Mod := ((m.modCtx q Ctx.abortDone).discardRing q).clearLoops q

theorem ctxStep_ringEmptied (m : Mod) (q : Nat) :
    CtxStep q (fun c => c.abortDone.discard) (F.SQ_RING_HEAD_HEAD.addr q 0 :: loopRegs q) m (m.ringEmptied q) :=
  ctxStep_clearLoops (ctxStep_discardRing (ctxStep_of_modCtx m q Ctx.abortDone _) (.head _)) (fun _ => List.mem_cons_of_mem _)

theorem fld_ringEmptied (m : Mod) (q : Fin 4) : (m.ringEmptied q).fld F.SQ_RING_HEAD_HEAD q = m.fld F.SQ_RING_TAIL_TAIL q ∧
    ∀ k < 4, (m.ringEmptied q).fld F.SQ_LOOP_COUNT q k = 0 := by
  have hloops := ctxStep_clearLoops (ctxStep_refl q (loopRegs q) ((m.modCtx q Ctx.abortDone).discardRing q)) (fun _ => id)
  have hhead := congrArg (fun w : Word => bits w.toNat F.SQ_RING_HEAD_HEAD.lo F.SQ_RING_HEAD_HEAD.w) (hloops.2 _ (ringHeadAddr_ne q).1)
  exact ⟨hhead.trans (fld_discardRing (m.modCtx q Ctx.abortDone) q), fun k hk => fld_clearLoops _ _ hk⟩

/-! ## The resident operations are aborted (07 R207) -/

/-- An operation at an abort: one that is COMPLETE is already done. -/
def ROp.aborted (o : ROp) : ROp :=
  if o.st = .retired then { o with status := .alreadyDone } else { o with
    st := .failed, status := .aborted, detail := 0, faultAddr := 0, signalled := false, tiles := [], parts := [], held := [], coll := none }

/-- The operations that an abort ends. -/
def Ctx.lostOps (c : Ctx) : List ROp := c.ops.filter (fun o => o.st != .retired)

/-- The context in which an abort runs. -/
def Ctx.abort (c : Ctx) : Ctx :=
  { c with aborting := true, aborted := c.lostOps.length, detachedNow := 0, ops := c.ops.map ROp.aborted }

theorem coll_aborted {o : ROp} (h : o.coll.isNone = true) : o.aborted.coll.isNone = true := by
  unfold ROp.aborted
  split
  · exact h
  · rfl

/-- The outputs of operations are undefined (07 Table 07.6). -/
def Mod.scrambleAll (m : Mod) (q : Nat) (l : List ROp) : Mod := l.foldl (fun m o => m.scramble q o) m

theorem sramFrame_trans {l m n : Mod} (h : SramFrame l m) (g : SramFrame m n) : SramFrame l n := by
  obtain ⟨hm, hmd⟩ := h
  obtain ⟨hn, hnd⟩ := g
  refine ⟨?_, hnd.trans hmd⟩
  rw [hn, hm]

theorem scrambleAll_keeps (m : Mod) (q : Nat) (l : List ROp) : SramFrame m (m.scrambleAll q l) ∧
    (m.scrambleAll q l).ctxs = m.ctxs ∧ (m.scrambleAll q l).regs = m.regs ∧ (m.scrambleAll q l).out = m.out := by
  refine foldl_keeps (fun n : Mod => SramFrame m n ∧ n.ctxs = m.ctxs ∧ n.regs = m.regs ∧ n.out = m.out) _ (fun n o hn => ?_) l m
    ⟨⟨rfl, rfl⟩, rfl, rfl, rfl⟩
  obtain ⟨hframe, hctxs, hregs, hout⟩ := hn
  obtain ⟨hctxs', hregs', hout'⟩ := scramble_keeps n q o
  exact ⟨sramFrame_trans hframe (sramFrame_scramble n q o), hctxs'.trans hctxs, hregs'.trans hregs, hout'.trans hout⟩

theorem abortOps_eq (m : Mod) (q : Nat) : m.abortOps q = (m.scrambleAll q (m.ctx q).lostOps).modCtx q Ctx.abort := by
  obtain ⟨-, hctxs, -, -⟩ := scrambleAll_keeps m q (m.ctx q).lostOps
  have hctx : nth (m.scrambleAll q (m.ctx q).lostOps).ctxs q {} = m.ctx q := congrArg (fun l => nth l q {}) hctxs
  have habort : ∀ c : Ctx, c = m.ctx q →
      { c with aborting := true, aborted := (m.ctx q).lostOps.length, detachedNow := 0, ops := c.ops.map ROp.aborted } = c.abort := by
    rintro _ rfl
    rfl
  exact congrArg (fun l => ({ m.scrambleAll q (m.ctx q).lostOps with ctxs := l } : Mod)) (modNth_congr {} (habort _ hctx))

/-! ## The abort is taken (07 Table 07.4) -/

theorem commit_of_not_reported {m : Mod} {q : Nat} (h : ∀ o ∈ (m.ctx q).ops, o.st ≠ .reported) : m.commit q = m := by
  unfold Mod.commit
  split
  · rfl
  · next op rest hops => exact if_pos (.inl (h op (by simp [hops])))

section
variable {m : Mod} {q : Nat} (hreq : (m.ctx q).abortReq = true)
include hreq

theorem abortTaken_idle (hst : m.ctxState q = 1 ∨ m.ctxState q = 4) : m.abortTaken q = m.ringEmptied q := by
  unfold Mod.ringEmptied Ctx.abortDone
  rcases hst with hst | hst <;> simp [Mod.abortTaken, hreq, hst]

theorem abortTaken_trapped (hst : m.ctxState q = 5) :
    m.abortTaken q = (m.ringEmptied q).modCtx q (fun c => { c with trapped := c.dieLost }) := by
  unfold Mod.ringEmptied Ctx.abortDone
  simp [Mod.abortTaken, hreq, hst]

/-- A running context with no operation to retire aborts its operations at once. -/
theorem abortTaken_running (hq : q < m.ctxs.length) (hst : m.ctxState q = 2 ∨ m.ctxState q = 3) (hrep : ∀ o ∈ (m.ctx q).ops, o.st ≠ .reported) :
    m.abortTaken q = ((m.modCtx q Ctx.abortDone).abortOps q).discardRing q := by
  have hctx := ctx_modCtx_self m q Ctx.abortDone hq
  have hcommit : (m.modCtx q Ctx.abortDone).commit q = m.modCtx q Ctx.abortDone := commit_of_not_reported (by rw [hctx]; exact hrep)
  unfold Ctx.abortDone at hcommit ⊢
  rcases hst with hst | hst <;> simp [Mod.abortTaken, hreq, hst, hcommit]

end

/-- What an abort makes of the context. -/
def Ctx.abortTaken (c : Ctx) : Ctx := c.abortDone.abort.discard

/-- The module in which the outputs of the operations that an abort of the context ends are undefined. -/
def Mod.abortLost (m : Mod) (q : Nat) : Mod := (m.modCtx q Ctx.abortDone).scrambleAll q ((m.modCtx q Ctx.abortDone).ctx q).lostOps

theorem quiet_abortLost {m : Mod} (q : Nat) (hquiet : m.quiet = true) : (m.abortLost q).quiet = true :=
  quiet_of_sramFrame (scrambleAll_keeps _ _ _).1 (quiet_of_ctxStep (ctxStep_of_modCtx m q Ctx.abortDone []) hquiet (fun _ h => h) List.not_mem_nil)

theorem ctxStep_abortDiscard (m : Mod) (q : Nat) :
    CtxStep q (fun c => c.abort.discard) [F.SQ_RING_HEAD_HEAD.addr q 0] m ((m.modCtx q Ctx.abort).discardRing q) :=
  ctxStep_discardRing (ctxStep_of_modCtx m q Ctx.abort _) (.head _)

theorem coll_abort {c : Ctx} (h : c.ops.all (fun o => o.coll.isNone) = true) : c.abort.discard.ops.all (fun o => o.coll.isNone) = true := by
  simp only [List.all_eq_true] at h ⊢
  intro o ho
  obtain ⟨x, hx, rfl⟩ := List.mem_map.mp (show o ∈ c.ops.map ROp.aborted from ho)
  exact coll_aborted (h x hx)

theorem abortTaken_runs {q : Fin 4} {s : State} (hq : q.val < s.m.ctxs.length) (hreq : (s.m.ctx q).abortReq = true) (hquiet : s.m.quiet = true)
    (hst : s.m.ctxState q = 2 ∨ s.m.ctxState q = 3) (hrep : ∀ o ∈ (s.m.ctx q).ops, o.st ≠ .reported) :
    Answers (.abortTaken q) s (fun t => t.m.fld F.SQ_RING_HEAD_HEAD q = s.m.fld F.SQ_RING_TAIL_TAIL q ∧ t.m.out = [] ∧
      SameRegsBut [F.SQ_RING_HEAD_HEAD.addr q 0] s.m t.m ∧ t.m.ctx q = (s.m.ctx q).abortTaken) := by
  obtain ⟨-, hctxs, hregs, hout⟩ := scrambleAll_keeps (s.m.clearOut.modCtx q Ctx.abortDone) q
    ((s.m.clearOut.modCtx q Ctx.abortDone).ctx q).lostOps
  have he : s.m.clearOut.abortTaken q = ((s.m.clearOut.abortLost q).modCtx q Ctx.abort).discardRing q :=
    (abortTaken_running (m := s.m.clearOut) hreq hq hst hrep).trans (congrArg (fun n => Mod.discardRing n q) (abortOps_eq _ q))
  have hstep := ctxStep_abortDiscard (s.m.clearOut.abortLost q) q
  have hlost : (s.m.clearOut.abortLost q).out = [] := hout
  have hdrain : F.DIR_STATUS_DRAINING.addr 0 0 ∉ [F.SQ_RING_HEAD_HEAD.addr q 0] := fun hm =>
    (ringHeadAddr_ne q).2 (List.mem_cons.mpr (.inl (List.mem_singleton.mp hm)))
  refine answers_ctxStep (exec_abortTaken q s) he hstep (quiet_abortLost q hquiet) (by rw [hlost]; rfl) (fun _ => coll_abort) hdrain
    ⟨?_, (settle_out _).trans ((out_of_ctxStep hstep).trans hlost), fun a ha => ?_, ?_⟩
  · exact (fld_settle _ _ _ _ _).trans ((fld_discardRing _ _).trans (fld_congr hregs _ _ _ _))
  · exact (reg_settle _ _).trans ((hstep.2 a ha).trans (reg_congr hregs a))
  · have hlen : q.val < (s.m.clearOut.abortLost q).ctxs.length := (congrArg List.length hctxs).trans (length_modNth _ _ _) ▸ hq
    have hctx : (s.m.clearOut.abortLost q).ctx q = (s.m.ctx q).abortDone :=
      (congrArg (fun l => nth l q.val ({} : Ctx)) hctxs).trans (ctx_modCtx_self s.m q Ctx.abortDone hq)
    refine (ctx_settle _ _).trans ((ctx_of_ctxStep hstep hlen).trans ?_)
    rw [hctx]
    rfl

/-! ## The rows -/

theorem abortRequest_answers {ag : Agent} (q : Fin 4) (s : State) (hag : regAgent ag = true) :
    Answers (.abortRequest ag q) s (fun t => t.m.out = [.done .ok []] ∧
      OnlyRegs [] { s.m with ctxs := modNth s.m.ctxs q (fun c => { c with abortReq := true }) } t.m) := by
  refine answers_run (exec_abortRequest ag q s) ?_
  rw [byAgent_taken (n := s.m.clearOut.modCtx q (fun c => { c with abortReq := true })) hag rfl]
  exact ⟨rfl, onlyRegs_settle rfl rfl fun _ _ => rfl⟩

theorem resume_answers {ag : Agent} (q : Fin 4) (s : State) (hag : regAgent ag = true) :
    Answers (.resume ag q) s (fun t => t.m.out = [.done .ok []] ∧
      OnlyRegs [] { s.m with ctxs := if s.m.ctxState q = 4 then modNth s.m.ctxs q (fun c => { c with halted := false, paused := false })
                                     else s.m.ctxs } t.m) := by
  refine answers_run (exec_resume ag q s) ?_
  rw [byAgent_taken (n := s.m.clearOut.resume q) hag rfl]
  have hstate : s.m.clearOut.ctxState q = s.m.ctxState q := rfl
  unfold Mod.resume
  rw [hstate]
  by_cases hhalted : s.m.ctxState q = 4
  · rw [if_pos hhalted, if_pos hhalted]
    exact ⟨rfl, onlyRegs_settle rfl rfl fun _ _ => rfl⟩
  · rw [if_neg hhalted, if_neg hhalted]
    exact ⟨rfl, onlyRegs_settle rfl rfl fun _ _ => rfl⟩

/-- The abort of a context that does not run empties its ring. -/
theorem abortTaken_empties {q : Fin 4} {s : State} {g g' : Ctx → Ctx} {n : Mod} (hquiet : s.m.quiet = true)
    (he : s.m.clearOut.abortTaken q = n) (hregs : n.regs = (s.m.clearOut.ringEmptied q).regs)
    (hstep : CtxStep q g (F.SQ_RING_HEAD_HEAD.addr q 0 :: loopRegs q) s.m.clearOut n) (hops : ∀ c, (g c).ops = c.ops)
    (hg : g' (s.m.ctx q) = g (s.m.ctx q)) :
    Answers (.abortTaken q) s (fun t => (t.m.fld F.SQ_RING_HEAD_HEAD q = s.m.fld F.SQ_RING_TAIL_TAIL q ∧
      (∀ k < 4, t.m.fld F.SQ_LOOP_COUNT q k = 0) ∧ t.m.out = []) ∧
      OnlyRegs (F.SQ_RING_HEAD_HEAD.addr q 0 :: loopRegs q) { s.m with ctxs := modNth s.m.ctxs q g' } t.m) := by
  obtain ⟨hhead, hloops⟩ := fld_ringEmptied s.m.clearOut q
  have hfld : ∀ f k, n.settle.fld f q k = (s.m.clearOut.ringEmptied q).fld f q k := fun f k =>
    (fld_settle _ _ _ _ _).trans (fld_congr hregs _ _ _ _)
  exact answers_ctxStep (exec_abortTaken q s) he hstep hquiet rfl (fun c hc => by rwa [hops]) (ringHeadAddr_ne q).2
    ⟨⟨(hfld _ _).trans hhead, fun k hk => (hfld _ k).trans (hloops k hk), (settle_out _).trans (out_of_ctxStep hstep)⟩, onlyRegs_of_ctxStep_clearOut hstep hg⟩

/-- Settles O19: by the context's state, an abort empties the ring, leaves the trap besides, or ends every operation that is not COMPLETE;
RESUME is a change of a halted context. -/
theorem aborts : Obligations.Aborts := by
  unfold Obligations.Aborts
  refine ⟨fun ag q s hag hq => ⟨abortRequest_answers q s hag, fun hreq hquiet => ?taken⟩, fun ag q s hag => resume_answers q s hag⟩
  intro discarded loops empties
  have hstep := ctxStep_ringEmptied s.m.clearOut q
  refine ⟨fun hst => ?idle, fun hst => ?trapped, fun hst hrep => ?running⟩
  case idle => exact abortTaken_empties hquiet (abortTaken_idle (m := s.m.clearOut) hreq hst) rfl hstep (fun _ => rfl) rfl
  case trapped =>
    exact abortTaken_empties hquiet (abortTaken_trapped (m := s.m.clearOut) hreq hst) (modCtx_regs _ _ _)
      (ctxStep_modCtx hstep (fun c => { c with trapped := c.dieLost })) (fun _ => rfl) rfl
  case running =>
    obtain ⟨t, ht, hhead, hout, hregs, hctx⟩ := abortTaken_runs hq hreq hquiet hst hrep
    refine ⟨t, ht, hhead, hout, hregs, ?_⟩
    rw [hctx]
    exact ⟨rfl, rfl, rfl, rfl, rfl, rfl, rfl⟩

end Sys2Proof.Machine

/-! # Proofs: bit-set and bit-clear writes of on-chip memory (08 R233, R234) -/

namespace Sys2Proof.Machine

open Sys2Proof

/-! ## Addresses of an array's window (01 Table 01.6) -/

/-- A byte of an array's window lies in that array. -/
theorem sramAt_window {arr : Fin 17} {o : Nat} (h : o < sramSize arr) : sramAt (sramBase arr + o) = some (arr.val, o) := by
  by_cases hub : arr.val = 16
  · have hsize : o < 0x80000000 := by simpa [sramSize, hub] using h
    have hin : 0x400000000000 ≤ 0x400000000000 + o ∧ 0x400000000000 + o < 0x400080000000 := by omega
    simp [sramAt, sramBase, hub, hin]
  · have hsize : o < 0x38000000 := by simpa [sramSize, hub] using h
    have hlt := arr.isLt
    have hlow : ¬(0x400000000000 ≤ 0x400100000000 + arr.val * 0x40000000 + o ∧
        0x400100000000 + arr.val * 0x40000000 + o < 0x400080000000) := by omega
    have hin : 0x400100000000 ≤ 0x400100000000 + arr.val * 0x40000000 + o ∧
        0x400100000000 + arr.val * 0x40000000 + o < 0x400500000000 := by omega
    have hdie : (0x400100000000 + arr.val * 0x40000000 + o - 0x400100000000) / 0x40000000 = arr.val := by omega
    have hoff : (0x400100000000 + arr.val * 0x40000000 + o - 0x400100000000) % 0x40000000 = o := by omega
    simp only [sramAt, sramBase, hub, if_false, if_neg hlow, if_pos hin, hdie, hoff, if_pos hsize]

theorem sramBase_ge (arr : Nat) : 0x400000000000 ≤ sramBase arr := by
  unfold sramBase
  split <;> omega

theorem lpddrAt_window (arr o : Nat) : lpddrAt (sramBase arr + o) = none := by
  have := sramBase_ge arr
  exact lpddrAt_of_ge (by omega)

theorem memPopulated_window {arr : Fin 17} {o n : Nat} (hn : 1 ≤ n) (h : o + n ≤ sramSize arr) :
    memPopulated (sramBase arr + o) n = true := by
  have hlast : sramBase arr + o + n - 1 = sramBase arr + (o + (n - 1)) := by omega
  simp [memPopulated, hlast, lpddrAt_window, sramAt_window (arr := arr) (o := o) (by omega),
    sramAt_window (arr := arr) (o := o + (n - 1)) (by omega)]

/-! ## Numbers and their bytes -/

theorem ofBytes_lt (bs : List Byte) : ofBytes bs < 256 ^ bs.length := by
  induction bs with
  | nil => exact Nat.one_pos
  | cons b bs ih =>
    have hb : b.toNat < 256 := b.isLt
    rw [ofBytes, List.length_cons, pow_succ']
    omega

@[simp] theorem length_readAt (x : Mem) (a n : Nat) : (x.readAt a n).length = n := by simp [Mem.readAt]

@[simp] theorem readAt_settle (m : Mod) (a n : Nat) : m.settle.mem.readAt a n = m.mem.readAt a n := by simp [Mem.readAt]

/-- Bytes just written read back. -/
theorem readAt_writeAt_self (x : Mem) (a : Nat) (d : List Byte) : (x.writeAt a (d.map some)).readAt a d.length = d := by
  refine List.ext_getElem (length_readAt _ _ _) fun i hi hd => ?_
  have hnew := byte_writeAt_of_lt x a (d.map some) (i := i) (by simpa using hd)
  rw [nth_map_some hd] at hnew
  simpa [Mem.readAt, nth, List.getD_eq_getElem?_getD, hd] using hnew

/-- Setting or clearing bits of an 8-byte quantity gives 8 bytes. -/
theorem atomResult_alias_lt {set : Bool} {old : Nat} (data : Word) (h : old < 2 ^ 64) :
    atomResult { fn := if set then .set else .clear, operand := data, compare := 0 } old < 2 ^ 64 := by
  cases set with
  | true => exact Nat.or_lt_two_pow h data.isLt
  | false => exact Nat.lt_of_le_of_lt Nat.and_le_left h

/-! ## An update in place on the Y port (08 R234) -/

/-- An aligned quantity that the Y port reaches at once: its bank is ON, its parity is right, its die is not in Slate, and neither the
array nor the directory has anything that waits. -/
structure YQuantity (m : Mod) (arr : Fin 17) (off : Nat) : Prop where
  aligned : off % 8 = 0
  inside : off + 8 ≤ sramSize arr
  dir : m.dir = []
  retry : m.retry = []
  reqSrc : m.reqSrc = []
  slate : m.portSlate arr = false
  on : m.bankState arr (bankOf arr off) = 0
  alone : (m.sramOf arr).ywait = []
  good : ∀ i < 8, m.mem.parityBad (sramBase arr + off + i) = false

/-- The value of the quantity. -/
def Mod.quantity (m : Mod) (arr off : Nat) : Nat := ofBytes (m.mem.readAt (sramBase arr + off) 8)

/-- The module with the quantity replaced. -/
def Mod.withQuantity (m : Mod) (arr off v : Nat) : Mod :=
  { m with mem := m.mem.writeAt (sramBase arr + off) ((toBytes 8 v).map some) }

theorem quantity_lt (m : Mod) (arr off : Nat) : m.quantity arr off < 2 ^ 64 := by
  have h := ofBytes_lt (m.mem.readAt (sramBase arr + off) 8)
  rwa [length_readAt] at h

theorem quantity_withQuantity {m : Mod} {arr off v : Nat} (h : v < 2 ^ 64) : (m.withQuantity arr off v).quantity arr off = v := by
  have hread := readAt_writeAt_self m.mem (sramBase arr + off) (toBytes 8 v)
  rw [length_toBytes] at hread
  unfold Mod.quantity Mod.withQuantity
  rw [hread, ofBytes_toBytes]
  exact Nat.mod_eq_of_lt h

section
variable {m : Mod} {ag : Agent} {arr : Fin 17} {off : Nat}

/-- An update in place reads the quantity and writes its result. -/
theorem yPerform_atom (h : YQuantity m arr off) (x : AtomOp) :
    m.yPerform ag arr off (.read 8) (some x) =
      (m.withQuantity arr off (atomResult x (m.quantity arr off)), .ok, m.mem.readAt (sramBase arr + off) 8) := by
  have hblock : off % 64 + 8 ≤ 64 := by have := h.aligned; omega
  have hmet : m.meetBank arr (bankOf arr off) = (m, 0) := by rw [meetBank_of_not_ret (by rw [h.on]; decide), h.on]
  have hread : m.sramAccess (some ag) arr off (.read 8) = (m, .ok, m.mem.readAt (sramBase arr + off) 8) := by
    rw [sramAccess_read_of_block (by decide) hblock, sramReadPiece_of_on hmet fun i hi => by simp [h.good i hi]]
  have hlen (v : Nat) : ((toBytes 8 v).map some).length = 8 := by simp
  have hwrite (v : Nat) : m.sramAccess (some ag) arr off (.write ((toBytes 8 v).map some)) = (m.withQuantity arr off v, .ok, []) := by
    rw [sramAccess_write_of_block (by rw [hlen]; decide) (by rwa [hlen]), sramWritePiece_of_on hmet]
    rfl
  simp only [Mod.yPerform, hread, hwrite]
  rfl

/-- A request of an array's bytes, with no line in the directory and no request waiting there, goes to the array at once (11 R300). -/
theorem ncIssue_of_quantity {r : NcReq} (h : YQuantity m arr off) (ha : r.addr = sramBase arr + off) : m.ncIssue r = m.sramPerform arr off r := by
  have hin : off < sramSize arr := by have := h.inside; omega
  have hpage : ∀ l, m.pagePresent l = false := fun l => by simp [Mod.pagePresent, h.dir]
  have hlook : m.lookups r.addr (opLen r.op) = m := by simp [Mod.lookups, hpage]
  have hprep : m.cohPrepare r.addr (opLen r.op) r.writes [] = (m, none) := by simp [Mod.cohPrepare, h.dir]
  rw [ha] at hlook hprep
  simp [Mod.ncIssue, ha, hpage, hlook, Mod.ncTry, lpddrAt_window, h.retry, h.reqSrc, hprep, Mod.memPerform, sramAt_window hin]

/-- An update that returns no data (08 R235). -/
theorem memAtom_quiet (h : YQuantity m arr off) (src : Src) (x : AtomOp) :
    m.memAtom src ag (sramBase arr + off) x true = (m.withQuantity arr off (atomResult x (m.quantity arr off)), .done .ok []) := by
  have halign : (sramBase arr + off) % 8 = 0 := by
    have hbase : sramBase arr % 8 = 0 := by
      unfold sramBase
      split <;> omega
    have := h.aligned
    omega
  have hiss := ncIssue_of_quantity (r := { src := src, ag := ag, op := .read 8, addr := sramBase arr + off, atom := some x, quiet := true }) h rfl
  have hbehind : m.yBehind arr off (opLen (.read 8)) = false := by simp [Mod.yBehind, h.alone]
  simp [Mod.memAtom, halign, memPopulated_window (by decide) h.inside, hiss, Mod.sramPerform, h.slate, hbehind, yPerform_atom h, Mod.hinted]

/-- A write of one of the two aliases of an array's quantity sets or clears the bits of its data (08 R233). -/
theorem aliasWrite_of_quantity (h : YQuantity m arr off) {src : Src} {a data : Nat} {set : Bool}
    (ha : aliasOf a = some (set, sramBase arr + off)) (halign : a % 8 = 0) :
    m.aliasWrite src ag a 8 data = (m.withQuantity arr off
      (atomResult { fn := if set then .set else .clear, operand := BitVec.ofNat 64 data, compare := 0 } (m.quantity arr off)), .done .ok []) := by
  have hpop : memPopulated (sramBase arr + off) 1 = true := memPopulated_window (by decide) (by have := h.inside; omega)
  simp [Mod.aliasWrite, ha, hpop, halign, memAtom_quiet h]

end

/-- Settles O22: the write is an update in place of the aliased quantity, which the Y port performs at once. -/
theorem aliasWrites : Obligations.AliasWrites := by
  unfold Obligations.AliasWrites
  intro ag addr data a set arr off s hdec halias halign hoff hin hdir hretry hsrc hslate hon halone hgood old
  have h : YQuantity s.m.clearOut arr off := ⟨hoff, hin, hdir, hretry, hsrc, hslate, hon, halone, hgood⟩
  have hdec' : s.m.clearOut.decodeAddr addr.toNat = .here a := hdec
  have hwrite := aliasWrite_of_quantity (ag := ag) (src := .agent ag) (data := data.toNat) h halias halign
  rw [BitVec.ofNat_toNat, BitVec.setWidth_eq] at hwrite
  refine answers_run (exec_aliasWrite ag addr 8 data s) ?_
  simp only [hdec', hwrite, storeDone_ok]
  refine ⟨rfl, sameRest_settle rfl, fun x _ => reg_settle _ x, ?value, fun x hx => ?_⟩
  case value =>
    rw [readAt_settle]
    refine (quantity_withQuantity (atomResult_alias_lt data (quantity_lt _ _ _))).trans ?_
    cases set <;> rfl
  · exact (byte_settle _ _).trans (byte_writeAt_of_outside s.m.mem _ _ (by simpa using hx))

end Sys2Proof.Machine

/-! # Proofs: bank commands and the ends of their wakes (08 R237-R239, Table 08.4) -/

namespace Sys2Proof.Machine

open Sys2Proof

/-! ## Steps of one array -/

/-- `n` is `m` with the array `arr` changed by `g`; besides, free values are drawn, and memory and the listed registers may have changed. -/
def ArrayStep (arr : Nat) (g : Sram → Sram) (as : List Nat) (m n : Mod) : Prop :=
  n = { m with regs := n.regs, mem := n.mem, fresh := n.fresh, sram := modNth m.sram arr g } ∧ SameRegsBut as m n

theorem arrayStep_refl (arr : Nat) (as : List Nat) (m : Mod) : ArrayStep arr id as m m := ⟨by rw [modNth_id], fun _ _ => rfl⟩

/-- Contents change, and free values are drawn. -/
theorem arrayStep_contents (arr : Nat) (as : List Nat) (m : Mod) (x : Mem) (k : Nat) : ArrayStep arr id as m { m with mem := x, fresh := k } :=
  ⟨by rw [modNth_id], fun _ _ => rfl⟩

section
variable {arr : Nat} {g : Sram → Sram} {as : List Nat} {l m n : Mod}

theorem arrayStep_trans {g' : Sram → Sram} (h : ArrayStep arr g as l m) (h' : ArrayStep arr g' as m n) :
    ArrayStep arr (fun z => g' (g z)) as l n := by
  obtain ⟨hm, hreg⟩ := h
  obtain ⟨hn, hreg'⟩ := h'
  refine ⟨?_, fun a ha => (hreg' a ha).trans (hreg a ha)⟩
  rw [hn, hm, modNth_modNth]

theorem arrayStep_setFld (h : ArrayStep arr g as m n) (f : Fld) (v k j : Nat) (hf : f.addr arr k ∈ as) :
    ArrayStep arr g as m (n.setFld f v arr k j) := by
  obtain ⟨hn, hreg⟩ := h
  refine ⟨?_, fun a ha => (reg_setFld_ne n f v arr k j (ne_of_mem_of_not_mem hf ha).symm).trans (hreg a ha)⟩
  rw [hn]
  rfl

theorem arrayStep_modSram (h : ArrayStep arr g as m n) (g' : Sram → Sram) : ArrayStep arr (fun z => g' (g z)) as m (n.modSram arr g') :=
  arrayStep_trans h ⟨rfl, fun _ _ => rfl⟩

theorem arrayStep_mono {bs : List Nat} (h : ArrayStep arr g as m n) (hs : ∀ a ∈ as, a ∈ bs) : ArrayStep arr g bs m n :=
  ⟨h.1, fun a ha => h.2 a fun hm => ha (hs a hm)⟩

theorem out_of_arrayStep (h : ArrayStep arr g as m n) : n.out = m.out := by
  rw [h.1]

theorem sram_of_arrayStep (h : ArrayStep arr g as m n) : n.sram = modNth m.sram arr g := by
  rw [h.1]

theorem sramOf_of_arrayStep (h : ArrayStep arr g as m n) (hlen : arr < m.sram.length) : n.sramOf arr = g (m.sramOf arr) := by
  unfold Mod.sramOf
  rw [sram_of_arrayStep h, nth_modNth_self _ _ _ _ hlen]

theorem sramFrame_of_arrayStep (h : ArrayStep arr g as m n) (hd : F.DIR_STATUS_DRAINING.addr 0 0 ∉ as) : SramFrame m n := by
  refine ⟨?_, by simp only [Mod.fld, h.2 _ hd]⟩
  rw [h.1]

/-- A step that leaves memory and draws no free value changes the array and its registers only, whatever it puts out. -/
theorem onlyRegs_of_arrayStep {g' : Sram → Sram} (h : ArrayStep arr g as m.clearOut n) (hmem : n.mem = m.mem) (hfresh : n.fresh = m.fresh)
    (hg : g (m.sramOf arr) = g' (m.sramOf arr)) (os : List Out) :
    OnlyRegs as { m with sram := modNth m.sram arr g' } ({ n with out := os } : Mod).settle := by
  have hsram : modNth m.sram arr g' = modNth m.sram arr g := modNth_congr {} hg.symm
  refine onlyRegs_settle ?_ hmem h.2
  rw [hsram, h.1, hfresh]
  rfl

end

/-- A command of an array's registers that its rule takes answers the step it makes, and completes with ST_OK. -/
theorem answers_byDie {c : Instr} {s : State} {ag : Agent} {addr : Nat} {arr : Fin 17} {bank : Bool} {f : Mod → Mod × Status} {n : Mod}
    {g : Sram → Sram} {as : List Nat} {P : State → Prop} (hc : exec c s = s.runF (fun m => m.byDie ag addr arr bank f))
    (hag : regAgent ag = true) (hgate : s.m.blockGate ag .sram arr (if bank then 0 else 0x10) true = .ok)
    (hf : f s.m.clearOut = (n, .ok)) (hstep : ArrayStep arr g as s.m.clearOut n) (hq : s.m.quiet = true)
    (hd : F.DIR_STATUS_DRAINING.addr 0 0 ∉ as) (hp : P { s with m := (n.emit (.done .ok [])).settle }) : Answers c s P := by
  have htaken : s.m.clearOut.byDie ag addr arr bank f = n.emit (.done .ok []) := by
    have hgate' : s.m.clearOut.blockGate ag .sram arr (if bank then 0 else 0x10) true = .ok := hgate
    exact byAgent_taken hag (by simp only [hgate', hf])
  refine answers_runF hc ?_ ?_ ?_ <;> rw [htaken]
  · exact (quiet_of_sramFrame (sramFrame_of_arrayStep hstep hd) hq : n.quiet = true)
  · rw [emit_out, out_of_arrayStep hstep]
    rfl
  · exact hp

/-! ## Contents of a bank are lost (08 R238) -/

/-- A filter by key keeps or drops all that a table says of a key. -/
theorem get?_filter_key {α : Type} (t : Sparse α) (p : Nat → Bool) (k : Nat) :
    Sparse.get? (t.filter (fun e => p e.1)) k = if p k then Sparse.get? t k else none := by
  induction t with
  | nil => simp [Sparse.get?]
  | cons e t ih =>
    obtain ⟨a, v⟩ := e
    by_cases ha : a = k
    · subst ha
      by_cases hp : p a <;> simp_all [Sparse.get?]
    · by_cases hp : p a <;> simp [Sparse.get?, hp, ha, ih]

theorem bankCount_le (arr : Nat) : bankCount arr ≤ 1024 := by
  unfold bankCount
  split <;> decide

theorem bankOf_lt (arr off : Nat) : bankOf arr off < 1024 := by
  have hpos : 0 < bankCount arr := by
    unfold bankCount
    split <;> decide
  exact (Nat.mod_lt _ hpos).trans_le (bankCount_le arr)

/-- The units of the banks, of the image areas and of the flash do not overlap. -/
theorem unitOf_eq_bank {x b : Nat} {arr : Fin 17} (hx : x < 0x7F00A0000000) (hb : b < 1024)
    (h : unitOf x = arr * 1024 + b ∨ unitOf x = arr * 1024 + b + 40000) : ∃ o, sramAt x = some (arr.val, o) ∧ bankOf arr o = b := by
  have harr := arr.isLt
  unfold unitOf at h
  split at h
  · next arr' o hat =>
    have harr' := sramAt_lt hat
    have hbank := bankOf_lt arr' o
    have hsame : arr' = arr.val ∧ bankOf arr' o = b := by
      split at h <;> omega
    obtain ⟨rfl, hbo⟩ := hsame
    exact ⟨o, hat, hbo⟩
  · exfalso
    split at h
    · omega
    · split at h
      · omega
      · split at h <;> omega

theorem unitOf_lt {x : Nat} (hx : x < 0x7F00A0000000) : unitOf x < 1000000 := by
  unfold unitOf
  split
  · next arr o hat =>
    have harr := sramAt_lt hat
    have hbank := bankOf_lt arr o
    split <;> omega
  · split
    · next k o hat =>
      have hko : k < 24 ∧ o < 0xDE0000000 := by
        simp only [lpddrAt, Option.ite_none_right_eq_some, Option.some.injEq, Prod.mk.injEq] at hat
        omega
      omega
    · split
      · omega
      · split <;> omega

/-- The number of a larger unit is none of a bank or an image area. -/
theorem unitParent_bounds {u p : Nat} (hu : u < 1000000) (h : unitParent u = some p) : 20000 ≤ p ∧ p < 30000 := by
  unfold unitParent at h
  split at h
  · simp only [Option.some.injEq] at h
    omega
  · split at h
    · simp only [Option.some.injEq] at h
      omega
    · split at h
      · simp only [Option.some.injEq] at h
        omega
      · simp at h

theorem get?_fills_refill (m : Mem) {u k : Nat} (f : Fill) (h : k ≠ u) (h' : k ≠ u + 40000) :
    Sparse.get? (m.refill u f).fills k = Sparse.get? m.fills k := by
  unfold Mem.refill
  dsimp only
  split
  · rw [get?_set_ne _ _ h', get?_set_ne _ _ h]
  · rw [get?_set_ne _ _ h]

/-- The bytes that a refilled unit keeps listed. -/
theorem get?_cells_refill (m : Mem) (u : Nat) (f : Fill) (x : Nat) :
    Sparse.get? (m.refill u f).cells x =
      if unitOf x = u ∨ u < 16384 ∧ unitOf x = u + 40000 then none else Sparse.get? m.cells x := by
  have hkey := get?_filter_key m.cells (fun a => unitOf a != u && !(decide (u < 16384) && unitOf a == u + 40000)) x
  refine hkey.trans ?_
  by_cases h : unitOf x = u ∨ u < 16384 ∧ unitOf x = u + 40000
  · rw [if_pos h, if_neg (by simp; omega)]
  · rw [if_neg h, if_pos (by simp; omega)]

/-- A bank refilled leaves the bytes of every other bank, and of the memories besides. -/
theorem byte_refill_of_other (m : Mem) {x b : Nat} {arr : Fin 17} (f : Fill) (hx : x < 0x7F00A0000000) (hb : b < 1024)
    (h : ∀ o, sramAt x = some (arr.val, o) → bankOf arr o ≠ b) : (m.refill (arr * 1024 + b) f).byte x = m.byte x := by
  have harr := arr.isLt
  have hne : ¬(unitOf x = arr * 1024 + b ∨ unitOf x = arr * 1024 + b + 40000) := by
    intro hunit
    obtain ⟨o, hat, hbo⟩ := unitOf_eq_bank hx hb hunit
    exact h o hat hbo
  have hcells : Sparse.get? (m.refill (arr * 1024 + b) f).cells x = Sparse.get? m.cells x := by
    rw [get?_cells_refill, if_neg (by omega)]
  have hown := get?_fills_refill m f (u := arr * 1024 + b) (k := unitOf x) (by omega) (by omega)
  have hparent : (unitParent (unitOf x)).bind (fun p => Sparse.get? (m.refill (arr * 1024 + b) f).fills p) =
      (unitParent (unitOf x)).bind (fun p => Sparse.get? m.fills p) := by
    cases hp : unitParent (unitOf x) with
    | none => rfl
    | some p =>
      have hbounds := unitParent_bounds (unitOf_lt hx) hp
      exact get?_fills_refill m f (by omega) (by omega)
  have hfill : (m.refill (arr * 1024 + b) f).fill (unitOf x) = m.fill (unitOf x) := by
    unfold Mem.fill
    rw [hown, hparent]
    rfl
  unfold Mem.byte Mem.unlisted
  rw [hcells, hfill]

/-! ## One bank is commanded (08 R237, Table 08.4) -/

theorem bankState_setBankState_ne (m : Mod) (arr v : Nat) {b b' : Nat} (h : b' ≠ b) :
    (m.setBankState arr b v).bankState arr b' = m.bankState arr b' := by
  unfold Mod.setBankState Mod.bankState
  by_cases hreg : b' / 32 = b / 32
  · refine fld_setFld_bits m _ _ v arr _ _ arr _ _ (by rw [hreg]) ?_ ?_
    · show 0 + b' % 32 * 2 + 2 ≤ 0 + b % 32 * 2 ∨ 0 + b % 32 * 2 + 2 ≤ 0 + b' % 32 * 2
      omega
    · show 0 + b' % 32 * 2 + 2 ≤ 64
      omega
  · refine fld_setFld_addr m _ _ v arr _ _ arr _ _ ?_
    show Block.base .sram arr + 0x100 + b' / 32 * 8 ≠ Block.base .sram arr + 0x100 + b / 32 * 8
    omega

/-- The registers of the banks' states. -/
def bankRegs (arr : Nat) : List Nat := (List.range 32).map (F.BANK_STATE_ST.addr arr)

theorem bankReg_mem (arr : Nat) {b : Nat} (hb : b < 1024) : F.BANK_STATE_ST.addr arr (b / 32) ∈ bankRegs arr :=
  List.mem_map_of_mem (List.mem_range.mpr (by omega))

/-- A command to `target` wakes the bank. -/
abbrev Mod.BankWakes (m : Mod) (arr target b : Nat) : Prop :=
  (target = 0 ∨ target = 3) ∧ (m.bankState arr b = 1 ∨ m.bankState arr b = 2)

/-- The state in which a command to `target` leaves a bank. -/
def Mod.bankAfter (m : Mod) (arr target b : Nat) : Nat :=
  if ¬m.BankWakes arr target b ∧ ¬(target = 1 ∧ m.bankState arr b = 2) then target else m.bankState arr b

/-- The wakes that a command to `target` opens. -/
def Mod.wakesOpened (m : Mod) (arr target : Nat) (l : List Nat) : List (Nat × Nat) :=
  (l.filter (fun b => decide (m.BankWakes arr target b))).map (fun b => (b, target))

/-- The array with more wakes open. -/
def Sram.openWakes (z : Sram) (ws : List (Nat × Nat)) : Sram := { z with wakes := z.wakes ++ ws }

theorem openWakes_nil : (fun z : Sram => z.openWakes []) = id := by
  funext z
  simp [Sram.openWakes]

theorem openWakes_openWakes (z : Sram) (ws vs : List (Nat × Nat)) : (z.openWakes ws).openWakes vs = z.openWakes (ws ++ vs) := by
  simp [Sram.openWakes]

/-- `n` is `m` after the banks `l` of the array were commanded to `target`. -/
structure Commanded (arr : Fin 17) (target : Nat) (m : Mod) (l : List Nat) (n : Mod) : Prop where
  step : ArrayStep arr (fun z => z.openWakes (m.wakesOpened arr target l)) (bankRegs arr) m n
  states : ∀ b, n.bankState arr b = if b ∈ l then m.bankAfter arr target b else m.bankState arr b
  bytes : ∀ x < 0x7F00A0000000, (target = 2 → ∀ o, sramAt x = some (arr.val, o) → bankOf arr o ∉ l) → n.mem.byte x = m.mem.byte x

section
variable {m n : Mod} {arr : Fin 17} {target b : Nat}

theorem commandBank_of_wakes (h : m.BankWakes arr target b) :
    m.commandBank arr b target = m.modSram arr (fun z => { z with wakes := z.wakes ++ [(b, target)] }) := by
  obtain ⟨htarget, hst⟩ := h
  unfold Mod.commandBank
  dsimp only
  rw [if_neg (by omega), if_neg (by omega), if_pos (by omega)]

/-- A bank stays as it is in its own state, and in OFF when it is sent to RET. -/
theorem commandBank_of_stays (h : m.bankState arr b = target ∨ m.bankState arr b = 2 ∧ target = 1) : m.commandBank arr b target = m :=
  if_pos h

theorem commandBank_of_sets (hw : ¬m.BankWakes arr target b) (hs : ¬(m.bankState arr b = target ∨ m.bankState arr b = 2 ∧ target = 1))
    (ht : target < 4) : m.commandBank arr b target =
      if target = 2 then (m.setBankState arr b 2).lose (arr * 1024 + b) else m.setBankState arr b target := by
  unfold Mod.commandBank
  dsimp only
  rw [if_neg hs]
  split
  · rfl
  · rw [if_neg (by omega)]

theorem wakesOpened_single_of_wakes (h : m.BankWakes arr target b) : m.wakesOpened arr target [b] = [(b, target)] := by
  simp only [Mod.wakesOpened, List.filter_cons_of_pos (p := fun b => decide (m.BankWakes arr target b)) (decide_eq_true h)]
  rfl

theorem wakesOpened_single_of_not (h : ¬m.BankWakes arr target b) : m.wakesOpened arr target [b] = [] := by
  simp only [Mod.wakesOpened, List.filter_cons_of_neg (p := fun b => decide (m.BankWakes arr target b)) (by simpa using h)]
  rfl

theorem bankAfter_of_kept (h : m.BankWakes arr target b ∨ m.bankState arr b = target ∨ m.bankState arr b = 2 ∧ target = 1) :
    m.bankAfter arr target b = m.bankState arr b := by
  unfold Mod.bankAfter
  split <;> omega

theorem bankAfter_of_set (hw : ¬m.BankWakes arr target b) (hs : ¬(m.bankState arr b = target ∨ m.bankState arr b = 2 ∧ target = 1)) :
    m.bankAfter arr target b = target := if_pos ⟨hw, by omega⟩

/-- A bank whose state becomes `target`. -/
theorem states_setBankState (ht : target < 4) (b' : Nat) :
    (m.setBankState arr b target).bankState arr b' = if b' ∈ [b] then target else m.bankState arr b' := by
  by_cases hb : b' = b
  · rw [hb, bankState_setBankState, if_pos (by simp)]
    exact Nat.mod_eq_of_lt ht
  · rw [bankState_setBankState_ne m arr target hb, if_neg (by simpa using hb)]

theorem commanded_one (ht : target < 4) (hb : b < 1024) : Commanded arr target m [b] (m.commandBank arr b target) := by
  have hkept (hk : m.BankWakes arr target b ∨ m.bankState arr b = target ∨ m.bankState arr b = 2 ∧ target = 1) (b' : Nat) :
      m.bankState arr b' = if b' ∈ [b] then m.bankAfter arr target b' else m.bankState arr b' := by
    by_cases hb' : b' = b
    · rw [hb', bankAfter_of_kept hk, ite_self]
    · rw [if_neg (by simpa using hb')]
  by_cases hw : m.BankWakes arr target b
  · rw [commandBank_of_wakes hw]
    refine ⟨?_, hkept (.inl hw), fun _ _ _ => rfl⟩
    rw [wakesOpened_single_of_wakes hw]
    exact arrayStep_modSram (arrayStep_refl arr _ m) _
  · by_cases hs : m.bankState arr b = target ∨ m.bankState arr b = 2 ∧ target = 1
    · rw [commandBank_of_stays hs]
      refine ⟨?_, hkept (.inr hs), fun _ _ _ => rfl⟩
      rw [wakesOpened_single_of_not hw, openWakes_nil]
      exact arrayStep_refl arr _ m
    · rw [commandBank_of_sets hw hs ht]
      have hset : ArrayStep arr id (bankRegs arr) m (m.setBankState arr b target) :=
        arrayStep_setFld (arrayStep_refl arr _ m) _ _ _ _ (bankReg_mem arr hb)
      have hstates (b' : Nat) : (m.setBankState arr b target).bankState arr b' =
          if b' ∈ [b] then m.bankAfter arr target b' else m.bankState arr b' := by
        rw [states_setBankState ht]
        refine ite_congr rfl (fun hmem => ?_) fun _ => rfl
        rw [List.mem_singleton.mp hmem, bankAfter_of_set hw hs]
      split
      · next htwo =>
        subst htwo
        refine ⟨?_, hstates, fun x hx hout => byte_refill_of_other m.mem _ hx hb fun o hat => ?_⟩
        · rw [wakesOpened_single_of_not hw, openWakes_nil]
          exact arrayStep_trans hset (arrayStep_contents arr _ _ _ _)
        · simpa using hout rfl o hat
      · refine ⟨?_, hstates, fun _ _ _ => rfl⟩
        rw [wakesOpened_single_of_not hw, openWakes_nil]
        exact hset

/-! ## A range of banks is commanded (08 R239) -/

theorem commanded_nil : Commanded arr target m [] m := by
  refine ⟨?_, fun _ => rfl, fun _ _ _ => rfl⟩
  have hnone : m.wakesOpened arr target [] = [] := rfl
  rw [hnone, openWakes_nil]
  exact arrayStep_refl arr _ m

/-- What a command does to a bank does not depend on the other banks. -/
theorem bankState_of_commanded {l : List Nat} (h : Commanded arr target m l n) {b' : Nat} (hb' : b' ∉ l) :
    n.bankState arr b' = m.bankState arr b' := by
  rw [h.states, if_neg hb']

theorem commanded_append {k : Mod} {l l' : List Nat} (h : Commanded arr target m l n) (h' : Commanded arr target n l' k)
    (hd : ∀ b ∈ l', b ∉ l) : Commanded arr target m (l ++ l') k := by
  have hopened : n.wakesOpened arr target l' = m.wakesOpened arr target l' := by
    unfold Mod.wakesOpened
    refine congrArg _ (List.filter_congr fun b hb => ?_)
    simp only [Mod.BankWakes, bankState_of_commanded h (hd b hb)]
  refine ⟨?step, fun b => ?states, fun x hx hout => ?bytes⟩
  case step =>
    have hall : m.wakesOpened arr target (l ++ l') = m.wakesOpened arr target l ++ m.wakesOpened arr target l' := by
      simp [Mod.wakesOpened]
    have hstep := arrayStep_trans h.step h'.step
    simp only [openWakes_openWakes, hopened] at hstep
    rwa [hall]
  case states =>
    rw [h'.states b]
    by_cases hb : b ∈ l'
    · have hsame := bankState_of_commanded h (hd b hb)
      rw [if_pos hb, if_pos (List.mem_append_right l hb)]
      simp only [Mod.bankAfter, Mod.BankWakes, hsame]
    · rw [if_neg hb, h.states b]
      exact if_congr (by simp [hb]) rfl rfl
  case bytes =>
    refine (h'.bytes x hx fun htwo o hat hmem => ?_).trans (h.bytes x hx fun htwo o hat hmem => ?_)
    · exact hout htwo o hat (List.mem_append_right l hmem)
    · exact hout htwo o hat (List.mem_append_left l' hmem)

theorem commanded_foldl {l : List Nat} (ht : target < 4) (hlt : ∀ b ∈ l, b < 1024) (hnodup : l.Nodup) :
    Commanded arr target m l (l.foldl (fun m b => m.commandBank arr b target) m) := by
  induction l generalizing m with
  | nil => exact commanded_nil
  | cons b l ih =>
    obtain ⟨hb, hl⟩ := List.nodup_cons.mp hnodup
    have hone := commanded_one (m := m) (arr := arr) ht (hlt b (by simp))
    exact commanded_append hone (ih (fun b' hb' => hlt b' (by simp [hb'])) hl) fun b' hb' => by
      rintro hmem
      exact hb (List.mem_singleton.mp hmem ▸ hb')

end

theorem mem_bankRange {first last b : Nat} : b ∈ bankRange first last ↔ first ≤ b ∧ b ≤ last := by
  simp only [bankRange, List.mem_map, List.mem_range]
  constructor
  · rintro ⟨i, hi, rfl⟩
    omega
  · rintro ⟨hfirst, hlast⟩
    exact ⟨b - first, by omega, by omega⟩

theorem nodup_bankRange (first last : Nat) : (bankRange first last).Nodup :=
  List.nodup_range.map fun _ _ h => Nat.add_right_cancel h

/-! ## BANK_CMD (08 R239) -/

section
variable {m : Mod} {arr : Fin 17} {first last target : Nat}

theorem bankCmdStatus_of_free (hrange : first ≤ last) (hlast : last < bankCount arr) (hwakes : (m.sramOf arr).wakes = [])
    (hmarch : (m.sramOf arr).march = none) (hpark : arr.val < 16 → m.state ≠ .parked)
    (hprot : ∀ b, first ≤ b → b ≤ last → m.bankProtected arr b = false) : m.bankCmdStatus arr first last target = .ok := by
  have hon (b : Nat) : m.marchOn arr b = false := by simp [Mod.marchOn, hmarch]
  have hparked : (decide (arr.val < 16) && m.state == .parked) = false := by simpa using hpark
  have hfree : (bankRange first last).any (m.bankProtected arr) = false :=
    List.any_eq_false.mpr fun b hb => by
      obtain ⟨hf, hl⟩ := mem_bankRange.mp hb
      simp [hprot b hf hl]
  have hbusy : (bankRange first last).any (m.marchOn arr) = false := List.any_eq_false.mpr fun b _ => by simp [hon b]
  unfold Mod.bankCmdStatus
  rw [if_neg (by omega), hwakes, hbusy, hparked, hfree, Bool.and_false]
  rfl

/-- The module after a command of banks, of an array at which no Y access waits, is taken. -/
def Mod.banksCommanded (m : Mod) (arr first last target : Nat) : Mod :=
  ((bankRange first last).foldl (fun m b => m.commandBank arr b target) (m.setFld F.BANK_STATUS_RESULT 0 arr)).setBankBusy arr

theorem bankCmd_of_ok (hst : m.bankCmdStatus arr first last target = .ok) (halone : (m.sramOf arr).ywait = []) :
    m.bankCmd arr first last target = (m.banksCommanded arr first last target, .ok) := by
  have hdrain : (m.setFld F.BANK_STATUS_RESULT 0 arr).drainY arr = m.setFld F.BANK_STATUS_RESULT 0 arr := by
    have halone' : ((m.setFld F.BANK_STATUS_RESULT 0 arr).sramOf arr).ywait = [] := halone
    unfold Mod.drainY
    rw [halone']
    rfl
  unfold Mod.bankCmd
  simp only [hst, if_true]
  show (((bankRange first last).foldl _ ((m.setFld F.BANK_STATUS_RESULT 0 arr).drainY arr)).setBankBusy arr, Status.ok) = _
  rw [hdrain]
  rfl

/-- A single register of an array is not one of its banks' states. -/
theorem bankRegs_apart {f : Fld} (hb : f.blk = .sram) (hs : f.stride = 0) (hf : f.off < 0x100) (arr : Nat) : f.addr arr 0 ∉ bankRegs arr := by
  intro hmem
  obtain ⟨k, -, hk⟩ := List.mem_map.mp hmem
  have haddr : f.addr arr 0 = Block.base .sram arr + f.off := by rw [Fld.addr, hb, hs]; rfl
  have hbank : F.BANK_STATE_ST.addr arr k = Block.base .sram arr + 0x100 + k * 8 := rfl
  omega

/-- Such a register's write leaves the banks' states. -/
theorem bankState_setFld_single (m : Mod) {f : Fld} (hb : f.blk = .sram) (hs : f.stride = 0) (hf : f.off < 0x100) (v : Nat) (b : Nat) :
    (m.setFld f v arr).bankState arr b = m.bankState arr b := by
  refine fld_setFld_addr m f F.BANK_STATE_ST v arr 0 0 arr (b / 32) (b % 32) ?_
  have haddr : f.addr arr 0 = Block.base .sram arr + f.off := by rw [Fld.addr, hb, hs]; rfl
  have hbank : F.BANK_STATE_ST.addr arr (b / 32) = Block.base .sram arr + 0x100 + b / 32 * 8 := rfl
  omega

/-- The registers that a command of banks changes. -/
def bankCmdRegs (arr : Nat) : List Nat := F.BANK_STATUS_BUSY.addr arr 0 :: bankRegs arr

theorem draining_not_bankCmdRegs (arr : Fin 17) : F.DIR_STATUS_DRAINING.addr 0 0 ∉ bankCmdRegs arr := by
  intro hmem
  rcases List.mem_cons.mp hmem with he | hmem
  · exact sramReg_ne_draining F.BANK_STATUS_BUSY rfl arr 0 (by decide) he
  · obtain ⟨k, hk, he⟩ := List.mem_map.mp hmem
    have hlt := List.mem_range.mp hk
    refine sramReg_ne_draining F.BANK_STATE_ST rfl arr k ?_ he.symm
    show 0x100 + k * 8 < 0x1000
    omega

/-- What a command of banks that is taken leaves. -/
structure BanksCommanded (arr : Fin 17) (target : Nat) (l : List Nat) (m n : Mod) : Prop where
  step : ArrayStep arr (fun z => z.openWakes (m.wakesOpened arr target l)) (bankCmdRegs arr) m n
  states : ∀ b, n.bankState arr b = if b ∈ l then m.bankAfter arr target b else m.bankState arr b
  result : n.fld F.BANK_STATUS_RESULT arr = 0
  busy : n.fld F.BANK_STATUS_BUSY arr = b2n (!(n.sramOf arr).wakes.isEmpty)
  bytes : ∀ x < 0x7F00A0000000, (target = 2 → ∀ o, sramAt x = some (arr.val, o) → bankOf arr o ∉ l) → n.mem.byte x = m.mem.byte x

theorem fld_setBankBusy (m : Mod) (arr : Nat) : (m.setBankBusy arr).fld F.BANK_STATUS_BUSY arr = b2n (!(m.sramOf arr).wakes.isEmpty) := by
  refine (fld_setFld_self _ _ _ _ _ _ (by decide)).trans ?_
  cases (m.sramOf arr).wakes.isEmpty <;> rfl

theorem banksCommanded_leaves (ht : target < 4) (hlast : last < bankCount arr) :
    BanksCommanded arr target (bankRange first last) m (m.banksCommanded arr first last target) := by
  have hstate : ∀ b, (m.setFld F.BANK_STATUS_RESULT 0 arr).bankState arr b = m.bankState arr b :=
    bankState_setFld_single m rfl rfl (by decide) 0
  have hlt : ∀ b ∈ bankRange first last, b < 1024 := fun b hb => by
    have := (mem_bankRange.mp hb).2
    have := bankCount_le arr
    omega
  obtain ⟨hstep, hstates, hbytes⟩ :=
    commanded_foldl (m := m.setFld F.BANK_STATUS_RESULT 0 arr) (arr := arr) ht hlt (nodup_bankRange first last)
  have hbusyReg : F.BANK_STATUS_BUSY.addr arr 0 ∈ bankCmdRegs arr := .head _
  have hopened : (m.setFld F.BANK_STATUS_RESULT 0 arr).wakesOpened arr target (bankRange first last) =
      m.wakesOpened arr target (bankRange first last) := by
    simp only [Mod.wakesOpened, Mod.BankWakes, hstate]
  rw [hopened] at hstep
  refine ⟨?step, fun b => ?states, ?result, fld_setBankBusy _ _, hbytes⟩
  case step =>
    have hresult := arrayStep_setFld (arrayStep_refl arr (bankCmdRegs arr) m) F.BANK_STATUS_RESULT 0 0 0 hbusyReg
    exact arrayStep_setFld (arrayStep_trans hresult (arrayStep_mono hstep fun a ha => .tail _ ha)) F.BANK_STATUS_BUSY _ 0 0 hbusyReg
  case states =>
    refine (bankState_setFld_single _ rfl rfl (by decide) _ b).trans ((hstates b).trans ?_)
    simp only [Mod.bankAfter, Mod.BankWakes, hstate]
  case result =>
    refine (fld_setFld_apart _ _ _ (by decide)).trans ?_
    have hkept := hstep.2 (F.BANK_STATUS_RESULT.addr arr 0) (bankRegs_apart rfl rfl (by decide) arr)
    have hself := fld_setFld_self m F.BANK_STATUS_RESULT 0 arr 0 0 (by decide)
    unfold Mod.fld at hself ⊢
    rw [hkept, hself]
    rfl

end

/-- The four commands of banks are BANK_CMD with their states (08 Table 08.8). -/
theorem exec_bankCmd {r : (Agent → Fin 17 → Fin 1024 → Fin 1024 → Instr) × Nat}
    (hr : r ∈ ([(.bankCmdOn, 0), (.bankCmdRet, 1), (.bankCmdOff, 2), (.bankCmdTest, 3)] : List _)) (ag : Agent) (arr : Fin 17)
    (first last : Fin 1024) (s : State) :
    r.2 < 4 ∧ exec (r.1 ag arr first last) s =
      s.runF (fun m => m.byDie ag (F.BANK_CMD_FIRST.addr arr 0) arr true (fun m => m.bankCmd arr first last r.2)) := by
  simp only [List.mem_cons, List.not_mem_nil, or_false] at hr
  rcases hr with rfl | rfl | rfl | rfl <;> exact ⟨by decide, rfl⟩

/-! ## A wake ends (08 R237) -/

/-- An array with more than its reset contents is one of the module's. -/
theorem arr_lt_of_sramOf_ne {m : Mod} {arr : Nat} (h : m.sramOf arr ≠ {}) : arr < m.sram.length := by
  by_contra hlen
  exact h (by simp [Mod.sramOf, nth, List.getD_eq_getElem?_getD, List.getElem?_eq_none (Nat.le_of_not_lt hlen)])

/-- The array without the wakes of a bank. -/
def Sram.endWakes (z : Sram) (b : Nat) : Sram := { z with wakes := z.wakes.filter (fun w => w.1 != b) }

theorem endWakes_of_single {z : Sram} {b t : Nat} (h : z.wakes = [(b, t)]) : z.endWakes b = { z with wakes := [] } := by
  simp [Sram.endWakes, h]

/-- The module after the wake of a bank to the state `t` has ended, but for BUSY. -/
def Mod.woken (m : Mod) (arr b t : Nat) : Mod := (m.modSram arr (fun z => z.endWakes b)).setBankState arr b t

theorem bankWake_of_single {m : Mod} {arr b t : Nat} (h : (m.sramOf arr).wakes = [(b, t)]) :
    m.bankWake arr b = (m.woken arr b t).setBankBusy arr := by
  have hfind : (m.sramOf arr).wakes.find? (fun w => w.1 == b) = some (b, t) := by
    rw [h]
    exact List.find?_cons_of_pos (beq_self_eq_true b)
  unfold Mod.bankWake
  rw [hfind]
  rfl

theorem bankWake_answers {s : State} {arr : Fin 17} {bank : Fin 1024} {target : Nat} (hone : (s.m.sramOf arr).wakes = [(bank.val, target)])
    (ht : target < 4) :
    Answers (.bankWakeComplete arr bank) s (fun t => t.m.bankState arr bank = target ∧ t.m.fld F.BANK_STATUS_BUSY arr = 0 ∧ t.m.out = [] ∧
      OnlyRegs [F.BANK_STATUS_BUSY.addr arr 0, F.BANK_STATE_ST.addr arr (bank / 32)]
        { s.m with sram := modNth s.m.sram arr (fun z => { z with wakes := [] }) } t.m) := by
  have hlen : arr.val < s.m.sram.length := arr_lt_of_sramOf_ne fun he => by simp [he] at hone
  have hended := endWakes_of_single hone
  have hset : ArrayStep arr (fun z => z.endWakes bank) [F.BANK_STATUS_BUSY.addr arr 0, F.BANK_STATE_ST.addr arr (bank / 32)] s.m.clearOut
      (s.m.clearOut.woken arr bank target) :=
    arrayStep_setFld (arrayStep_modSram (arrayStep_refl arr _ _) _) _ _ _ _ (by simp)
  have hwakes := sramOf_of_arrayStep hset hlen
  have hstep := arrayStep_setFld hset F.BANK_STATUS_BUSY (b2n (!((s.m.clearOut.woken arr bank target).sramOf arr).wakes.isEmpty)) 0 0 (by simp)
  refine answers_run (exec_bankWakeComplete arr bank s) ?_
  rw [bankWake_of_single (m := s.m.clearOut) hone]
  refine ⟨?state, ?busy, ?out, onlyRegs_of_arrayStep hstep rfl rfl hended _⟩
  case state =>
    refine (fld_settle _ _ _ _ _).trans ((bankState_setFld_single _ rfl rfl (by decide) _ _).trans ?_)
    exact (bankState_setBankState _ _ _ _).trans (Nat.mod_eq_of_lt ht)
  case busy =>
    refine (fld_settle _ _ _ _ _).trans ((fld_setBankBusy _ _).trans ?_)
    rw [hwakes]
    show b2n (!((s.m.sramOf arr).endWakes bank).wakes.isEmpty) = 0
    rw [hended]
    rfl
  case out => exact out_of_arrayStep hstep

/-- Settles O23: a command folds the rule of one bank over its range; a wake that ends is a step of its array. -/
theorem bankCommands : Obligations.BankCommands := by
  unfold Obligations.BankCommands
  refine ⟨?command, fun arr bank target s hone ht => bankWake_answers hone ht⟩
  intro r hr ag arr first last s hq hag hgate hrange hlast hpark hwakes hmarch halone hlen hprot wakes new opened
  obtain ⟨ht, hexec⟩ := exec_bankCmd hr ag arr first last s
  have hok : s.m.clearOut.bankCmdStatus arr first last r.2 = .ok := bankCmdStatus_of_free hrange hlast hwakes hmarch hpark hprot
  obtain ⟨hstep, hstates, hresult, hbusy, hbytes⟩ := banksCommanded_leaves (m := s.m.clearOut) (first := first.val) ht hlast
  have hopened : ((s.m.clearOut.banksCommanded arr first last r.2).sramOf arr).wakes = opened := by
    rw [sramOf_of_arrayStep hstep hlen]
    show (s.m.sramOf arr).wakes ++ opened = opened
    rw [hwakes, List.nil_append]
  refine answers_byDie hexec hag hgate (bankCmd_of_ok hok halone) hstep hq (draining_not_bankCmdRegs arr) ?_
  refine ⟨?out, fun b hb => ?states, (fld_settle _ _ _ _ _).trans hresult, ?busy, hopened, fun a ha => ?regs, fun x hx hout => ?bytes⟩
  case out =>
    rw [settle_out, emit_out, out_of_arrayStep hstep]
    rfl
  case states =>
    refine (fld_settle _ _ _ _ _).trans ((hstates b).trans ?_)
    show (if b ∈ bankRange first last then (if _ then r.2 else s.m.bankState arr b) else s.m.bankState arr b) = new b
    by_cases hb : first.val ≤ b ∧ b ≤ last.val
    · rw [if_pos (mem_bankRange.mpr hb)]
      exact if_congr ⟨fun h => ⟨hb.1, hb.2, h⟩, fun ⟨_, _, h⟩ => h⟩ rfl rfl
    · rw [if_neg (mt mem_bankRange.mp hb)]
      exact (if_neg fun ⟨hf, hl, _⟩ => hb ⟨hf, hl⟩).symm
  case busy =>
    refine (fld_settle _ _ _ _ _).trans (hbusy.trans ?_)
    rw [hopened]
    cases opened <;> rfl
  case regs => exact (reg_settle _ a).trans (hstep.2 a ha)
  case bytes =>
    refine (byte_settle _ x).trans (hbytes x hx fun htwo o hat hmem => hout htwo o hat ?_)
    exact mem_bankRange.mp hmem

end Sys2Proof.Machine

/-! # Proofs: March tests and spare words (08 R241-R247) -/

namespace Sys2Proof.Machine

open Sys2Proof

/-! ## A test starts (08 R241, R242) -/

/-- The module after the test `t` has started and has met no failure. -/
def Mod.marchBegun (m : Mod) (arr : Nat) (t : March) : Mod :=
  (((((m.setFld F.MARCH_STATUS_RESULT 0 arr).setFld F.MARCH_STATUS_BUSY 1 arr).setFld F.MARCH_STATUS_CANCELLED 0 arr).setFld
    F.MARCH_STATUS_FAIL_COUNT 0 arr).setFld F.MARCH_FAIL_VALID 0 arr).modSram arr (fun z => { z with march := some t })

section
variable {m : Mod} {arr : Fin 17} {first last : Nat}

theorem parityFails_of_good (h : m.mem.badPar = []) : m.parityFails arr first last = [] := by
  unfold Mod.parityFails
  rw [h]
  rfl

/-- A start of a test that meets no failure, on banks of which none is in RET. -/
theorem marchStart_of_ok {preserving repair : Bool} (hst : m.marchStatus arr first last preserving = .ok)
    (hret : ∀ b ∈ bankRange first last, m.bankState arr b ≠ 1) (hgood : preserving = true → m.mem.badPar = []) :
    m.marchStart arr first last preserving repair [] = (m.marchBegun arr ⟨first, last, preserving, repair && !preserving, false⟩, .ok) := by
  have hwake : (bankRange first last).foldl (fun k b => if k.bankState arr b = 1 then k.setBankState arr b 0 else k)
      (m.setFld F.MARCH_STATUS_RESULT Status.ok.toNat arr) = m.setFld F.MARCH_STATUS_RESULT Status.ok.toNat arr :=
    foldl_id _ _ _ fun b hb => if_neg (by
      rw [bankState_setFld_single m rfl rfl (by decide)]
      exact hret b hb)
  unfold Mod.marchStart
  dsimp only
  rw [hst, if_pos rfl, hwake]
  cases preserving with
  | false => rfl
  | true =>
    let n := m.marchBegun arr ⟨first, last, true, repair && !true, false⟩
    have hnone : n.parityFails arr first last = [] := parityFails_of_good (hgood rfl)
    exact congrArg (fun l => (l.foldl (fun k f => k.firstReadFail arr f) n, Status.ok)) hnone

theorem marchStatus_of_free {preserving : Bool} (hrange : first ≤ last) (hlast : last < bankCount arr) (hmarch : (m.sramOf arr).march = none)
    (hwakes : (m.sramOf arr).wakes = []) (hbanks : ∀ b, first ≤ b → b ≤ last → m.bankState arr b = if preserving then 0 else 3) :
    m.marchStatus arr first last preserving = .ok := by
  have hstate : ∀ b ∈ bankRange first last, m.bankState arr b = if preserving then 0 else 3 := fun b hb => by
    obtain ⟨hf, hl⟩ := mem_bankRange.mp hb
    exact hbanks b hf hl
  unfold Mod.marchStatus
  rw [if_neg (by omega), hmarch, hwakes]
  cases preserving with
  | false => exact if_pos (List.all_eq_true.mpr fun b hb => by simp [hstate b hb])
  | true => exact if_pos (List.all_eq_true.mpr fun b hb => by simp [hstate b hb])

/-- The registers that a start of a test changes. -/
abbrev marchRegs (arr : Nat) : List Nat := [F.MARCH_STATUS_BUSY.addr arr 0, F.MARCH_FAIL_VALID.addr arr 0]

theorem arrayStep_marchBegun (m : Mod) (arr : Fin 17) (t : March) :
    ArrayStep arr (fun z => { z with march := some t }) (marchRegs arr) m (m.marchBegun arr t) := by
  have hstatus : F.MARCH_STATUS_BUSY.addr arr 0 ∈ marchRegs arr := .head _
  have hfail : F.MARCH_FAIL_VALID.addr arr 0 ∈ marchRegs arr := .tail _ (.head _)
  have h := arrayStep_setFld (arrayStep_refl arr _ m) F.MARCH_STATUS_RESULT 0 0 0 hstatus
  exact arrayStep_modSram (arrayStep_setFld (arrayStep_setFld (arrayStep_setFld (arrayStep_setFld h F.MARCH_STATUS_BUSY 1 0 0 hstatus)
    F.MARCH_STATUS_CANCELLED 0 0 0 hstatus) F.MARCH_STATUS_FAIL_COUNT 0 0 0 hstatus) F.MARCH_FAIL_VALID 0 0 0 hfail) _

theorem fld_marchBegun (m : Mod) (arr : Fin 17) (t : March) :
    (m.marchBegun arr t).fld F.MARCH_STATUS_RESULT arr = 0 ∧ (m.marchBegun arr t).fld F.MARCH_STATUS_BUSY arr = 1 ∧
    (m.marchBegun arr t).fld F.MARCH_STATUS_CANCELLED arr = 0 ∧ (m.marchBegun arr t).fld F.MARCH_STATUS_FAIL_COUNT arr = 0 ∧
    (m.marchBegun arr t).fld F.MARCH_FAIL_VALID arr = 0 := by
  refine ⟨?_, ?_, ?_, ?_, ?_⟩ <;> unfold Mod.marchBegun <;> rw [fld_modSram]
  · rw [fld_setFld_apart _ _ _ (by decide), fld_setFld_apart _ _ _ (by decide), fld_setFld_apart _ _ _ (by decide),
      fld_setFld_apart _ _ _ (by decide)]
    exact fld_setFld_self _ _ _ _ _ _ (by decide)
  · rw [fld_setFld_apart _ _ _ (by decide), fld_setFld_apart _ _ _ (by decide), fld_setFld_apart _ _ _ (by decide)]
    exact fld_setFld_self _ _ _ _ _ _ (by decide)
  · rw [fld_setFld_apart _ _ _ (by decide), fld_setFld_apart _ _ _ (by decide)]
    exact fld_setFld_self _ _ _ _ _ _ (by decide)
  · rw [fld_setFld_apart _ _ _ (by decide)]
    exact fld_setFld_self _ _ _ _ _ _ (by decide)
  · exact fld_setFld_self _ _ _ _ _ _ (by decide)

theorem draining_not_marchRegs (arr : Fin 17) : F.DIR_STATUS_DRAINING.addr 0 0 ∉ marchRegs arr := by
  simp [sramReg_ne_draining F.MARCH_STATUS_BUSY rfl arr 0 (by decide), sramReg_ne_draining F.MARCH_FAIL_VALID rfl arr 0 (by decide)]

end

/-- What the state after the start of the test `t` is, from the module `m`. -/
def MarchStarted (arr : Fin 17) (t : March) (m n : Mod) : Prop :=
  n.out = [.done .ok []] ∧ (n.sramOf arr).march = some t ∧ n.fld F.MARCH_STATUS_RESULT arr = 0 ∧
  n.fld F.MARCH_STATUS_BUSY arr = 1 ∧ n.fld F.MARCH_STATUS_CANCELLED arr = 0 ∧ n.fld F.MARCH_STATUS_FAIL_COUNT arr = 0 ∧
  n.fld F.MARCH_FAIL_VALID arr = 0 ∧
  OnlyRegs (marchRegs arr) { m with sram := modNth m.sram arr (fun z => { z with march := some t }) } n

/-- A command that starts the test `t`, meeting no failure, answers its start. -/
theorem answers_marchStart {c : Instr} {s : State} {ag : Agent} {addr : Nat} {arr : Fin 17} {f : Mod → Mod × Status} {t : March}
    (hc : exec c s = s.runF (fun m => m.byDie ag addr arr false f)) (hag : regAgent ag = true)
    (hgate : s.m.blockGate ag .sram arr 0x10 true = .ok) (hf : f s.m.clearOut = (s.m.clearOut.marchBegun arr t, .ok)) (hq : s.m.quiet = true)
    (hlen : arr.val < s.m.sram.length) : Answers c s (fun u => MarchStarted arr t s.m u.m) := by
  have hstep := arrayStep_marchBegun s.m.clearOut arr t
  obtain ⟨hresult, hbusy, hcancelled, hcount, hvalid⟩ := fld_marchBegun s.m.clearOut arr t
  have hmarch := congrArg Sram.march (sramOf_of_arrayStep hstep hlen)
  exact answers_byDie hc hag hgate hf hstep hq (draining_not_marchRegs arr) ⟨rfl, hmarch, (fld_settle _ _ _ _ _).trans hresult,
    (fld_settle _ _ _ _ _).trans hbusy, (fld_settle _ _ _ _ _).trans hcancelled, (fld_settle _ _ _ _ _).trans hcount,
    (fld_settle _ _ _ _ _).trans hvalid, onlyRegs_of_arrayStep hstep rfl rfl rfl _⟩

/-! ## A test is cancelled (08 R246) -/

theorem marchCancel_answers {s : State} {ag : Agent} {arr : Fin 17} (hag : regAgent ag = true)
    (hgate : s.m.blockGate ag .sram arr 0x10 true = .ok) (hq : s.m.quiet = true) :
    Answers (.marchCancel ag arr) s (fun t => t.m.out = [.done .ok []] ∧ t.m.fld F.MARCH_STATUS_RESULT arr = 0 ∧
      OnlyRegs [F.MARCH_STATUS_RESULT.addr arr 0] { s.m with sram := modNth s.m.sram arr (fun z =>
        { z with march := z.march.map (fun x => { x with cancelled := true }) }) } t.m) := by
  have hstep := arrayStep_modSram (arrayStep_setFld (arrayStep_refl arr [F.MARCH_STATUS_RESULT.addr arr 0] s.m.clearOut)
    F.MARCH_STATUS_RESULT 0 0 0 (.head _)) (fun z => { z with march := z.march.map (fun x => { x with cancelled := true }) })
  have hd := sramReg_ne_draining F.MARCH_STATUS_RESULT rfl arr 0 (by decide)
  refine answers_byDie (exec_marchCancel ag arr s) hag hgate rfl hstep hq (by simpa using hd) ⟨rfl, ?_, onlyRegs_of_arrayStep hstep rfl rfl rfl _⟩
  exact (fld_settle _ _ _ _ _).trans (fld_setFld_self s.m F.MARCH_STATUS_RESULT 0 arr 0 0 (by decide))

/-! ## A test ends (08 R241, R245, R246) -/

/-- Byte `x` is not listed, and its unit reads as 0. -/
def Mem.Zeroed (m : Mem) (x : Nat) : Prop := Sparse.get? m.cells x = none ∧ Sparse.get? m.fills (unitOf x) = some .zero

theorem byte_of_zeroed {m : Mem} {x : Nat} (h : m.Zeroed x) : m.byte x = 0 := by
  obtain ⟨hcell, hfill⟩ := h
  simp [Mem.byte, hcell, Mem.unlisted, Mem.fill, hfill]

/-- A refill with 0 gives its unit's bytes the value 0. -/
theorem zeroed_refill_self (m : Mem) {x u : Nat} (h : unitOf x = u ∨ u < 16384 ∧ unitOf x = u + 40000) : (m.refill u .zero).Zeroed x := by
  refine ⟨by rw [get?_cells_refill, if_pos h], ?_⟩
  unfold Mem.refill
  dsimp only
  rcases h with h | ⟨hbank, h⟩
  · rw [h]
    split
    · rw [get?_set_ne _ _ (by omega), get?_set_self]
    · rw [get?_set_self]
  · rw [h, if_pos (by simpa using hbank), get?_set_self]

/-- A refill with 0 keeps bytes that are 0. -/
theorem zeroed_refill_keeps {m : Mem} {x : Nat} (h : m.Zeroed x) (u : Nat) : (m.refill u .zero).Zeroed x := by
  by_cases hmine : unitOf x = u ∨ u < 16384 ∧ unitOf x = u + 40000
  · exact zeroed_refill_self m hmine
  · obtain ⟨hcell, hfill⟩ := h
    refine ⟨by rw [get?_cells_refill, if_neg hmine, hcell], ?_⟩
    by_cases himage : unitOf x = u + 40000
    · have hbank : ¬decide (u < 16384) = true := by simp; omega
      unfold Mem.refill
      dsimp only
      rw [if_neg hbank, get?_set_ne _ _ (by omega), hfill]
    · rw [get?_fills_refill m .zero (by omega) himage, hfill]

/-- What each step keeps, and one step of the list brings about, holds after all of them. -/
theorem foldl_reaches {α β : Type} (P : α → Prop) (f : α → β → α) (hf : ∀ x y, P x → P (f x y)) {l : List β} {y : β} (hy : y ∈ l)
    (hr : ∀ x, P (f x y)) (x : α) : P (l.foldl f x) := by
  induction l generalizing x with
  | nil => exact absurd hy List.not_mem_nil
  | cons z l ih =>
    rcases List.mem_cons.mp hy with rfl | hy
    · exact foldl_keeps P f hf l _ (hr x)
    · exact ih hy _

/-- A byte of a compute die's array belongs to its bank, or to the bank's words in the image area. -/
theorem unitOf_window {arr : Fin 17} {o : Nat} (h : o < sramSize arr) :
    unitOf (sramBase arr + o) = arr * 1024 + bankOf arr o ∨ unitOf (sramBase arr + o) = arr * 1024 + bankOf arr o + 40000 := by
  unfold unitOf
  rw [sramAt_window h]
  dsimp only
  split <;> omega

/-- What the end of the test `t` does to a bank that it tested destructively: its words are 0, or undefined when it was cancelled. -/
def Mod.marchBank (m : Mod) (arr : Nat) (t : March) (b : Nat) : Mod :=
  if t.cancelled then m.lose (arr * 1024 + b) else { m with mem := m.mem.refill (arr * 1024 + b) .zero }

/-- What it does to all its banks. -/
def Mod.marchBanks (m : Mod) (arr : Nat) (t : March) : Mod :=
  if t.preserving then m else (bankRange t.first t.last).foldl (fun m b => m.marchBank arr t b) m

/-- The module after the test `t` has ended, before its record is raised. -/
def Mod.marchClosed (m : Mod) (arr : Nat) (t : March) : Mod :=
  ((((m.modSram arr (fun z => { z with march := none })).marchBanks arr t).setFld F.MARCH_STATUS_BUSY 0 arr).setFld
    F.MARCH_STATUS_DONE 1 arr).setFld F.MARCH_STATUS_CANCELLED (b2n t.cancelled) arr

theorem marchEnd_of_running {m : Mod} {arr : Nat} {t : March} (h : (m.sramOf arr).march = some t) :
    m.marchEnd arr [] = (m.marchClosed arr t).raise 0x0402 (d1 arr ++ d1 (b2n t.preserving) ++
      dCount ((m.marchClosed arr t).fld F.MARCH_STATUS_FAIL_COUNT arr) ++ d1 (b2n t.cancelled)) := by
  unfold Mod.marchEnd
  rw [h]
  rfl

theorem arrayStep_marchBanks (m : Mod) (arr : Nat) (t : March) : ArrayStep arr id [] m (m.marchBanks arr t) := by
  have hbank (n : Mod) (b : Nat) (h : ArrayStep arr id [] m n) : ArrayStep arr id [] m (n.marchBank arr t b) := by
    refine arrayStep_trans h ?_
    unfold Mod.marchBank
    split <;> exact arrayStep_contents arr _ n _ _
  unfold Mod.marchBanks
  split
  · exact arrayStep_refl arr [] m
  · exact foldl_keeps (ArrayStep arr id [] m) _ (fun n b h => hbank n b h) _ m (arrayStep_refl arr [] m)

theorem arrayStep_marchClosed (m : Mod) (arr : Nat) (t : March) :
    ArrayStep arr (fun z => { z with march := none }) [F.MARCH_STATUS_BUSY.addr arr 0] m (m.marchClosed arr t) := by
  have hended := arrayStep_modSram (arrayStep_refl arr [F.MARCH_STATUS_BUSY.addr arr 0] m) (fun z => { z with march := none })
  have hbanks := arrayStep_mono (arrayStep_marchBanks (m.modSram arr (fun z => { z with march := none })) arr t)
    (bs := [F.MARCH_STATUS_BUSY.addr arr 0]) fun _ ha => absurd ha List.not_mem_nil
  exact arrayStep_setFld (arrayStep_setFld (arrayStep_setFld (arrayStep_trans hended hbanks) F.MARCH_STATUS_BUSY 0 0 0 (.head _))
    F.MARCH_STATUS_DONE 1 0 0 (.head _)) F.MARCH_STATUS_CANCELLED _ 0 0 (.head _)

/-- A destructive test that was not cancelled leaves every word of its banks 0 (08 R241). -/
theorem zeroed_marchBanks (m : Mod) {arr : Fin 17} {t : March} (hmode : t.preserving = false) (hcancel : t.cancelled = false)
    (hdie : arr.val < 16) {o : Nat} (ho : o < sramSize arr) (hfirst : t.first ≤ bankOf arr o) (hlast : bankOf arr o ≤ t.last) :
    (m.marchBanks arr t).mem.Zeroed (sramBase arr + o) := by
  have hbank := bankOf_lt arr o
  have hunit := unitOf_window ho
  have hmine : unitOf (sramBase arr + o) = arr * 1024 + bankOf arr o ∨
      arr * 1024 + bankOf arr o < 16384 ∧ unitOf (sramBase arr + o) = arr * 1024 + bankOf arr o + 40000 := by omega
  have hstep (n : Mod) (b : Nat) : n.marchBank arr t b = { n with mem := n.mem.refill (arr * 1024 + b) .zero } := by
    unfold Mod.marchBank
    rw [hcancel]
    rfl
  unfold Mod.marchBanks
  rw [hmode]
  refine foldl_reaches (fun n : Mod => n.mem.Zeroed (sramBase arr + o)) _ (fun n b h => ?_) (mem_bankRange.mpr ⟨hfirst, hlast⟩) (fun n => ?_) _
  · rw [hstep]
    exact zeroed_refill_keeps h _
  · rw [hstep]
    exact zeroed_refill_self _ hmine

theorem fld_marchClosed (m : Mod) (arr : Nat) (t : March) :
    (m.marchClosed arr t).fld F.MARCH_STATUS_BUSY arr = 0 ∧ (m.marchClosed arr t).fld F.MARCH_STATUS_DONE arr = 1 ∧
    (m.marchClosed arr t).fld F.MARCH_STATUS_CANCELLED arr = b2n t.cancelled ∧
    (m.marchClosed arr t).fld F.MARCH_STATUS_FAIL_COUNT arr = m.fld F.MARCH_STATUS_FAIL_COUNT arr := by
  refine ⟨?_, ?_, ?_, ?_⟩ <;> unfold Mod.marchClosed
  · rw [fld_setFld_apart _ _ _ (by decide), fld_setFld_apart _ _ _ (by decide)]
    exact fld_setFld_self _ _ _ _ _ _ (by decide)
  · rw [fld_setFld_apart _ _ _ (by decide)]
    exact fld_setFld_self _ _ _ _ _ _ (by decide)
  · rw [fld_setFld_self _ _ _ _ _ _ (by decide)]
    cases t.cancelled <;> rfl
  · rw [fld_setFld_apart _ _ _ (by decide), fld_setFld_apart _ _ _ (by decide), fld_setFld_apart _ _ _ (by decide)]
    have hkept := (arrayStep_marchBanks (m.modSram arr (fun z => { z with march := none })) arr t).2 (F.MARCH_STATUS_FAIL_COUNT.addr arr 0)
      List.not_mem_nil
    unfold Mod.fld
    rw [hkept]
    rfl

theorem sram_raise (m : Mod) (code : Nat) (data : List Byte) : (m.raise code data).sram = m.sram := by
  obtain ⟨h, -, -⟩ := regsAndEvents_raise (regsAndEvents_refl [] m) code data
  rw [h]

/-- What the end of the test `t` leaves. -/
theorem marchEnd_answers {s : State} {arr : Fin 17} {t : March} (hlen : arr.val < s.m.sram.length)
    (hrun : (s.m.sramOf arr).march = some t) : Answers (.marchEnd arr []) s (fun u =>
      (u.m.sramOf arr).march = none ∧ u.m.fld F.MARCH_STATUS_BUSY arr = 0 ∧ u.m.fld F.MARCH_STATUS_DONE arr = 1 ∧
      u.m.fld F.MARCH_STATUS_CANCELLED arr = b2n t.cancelled ∧
      Raised u.m 0x0402 (d1 arr ++ d1 (b2n t.preserving) ++ dCount (s.m.fld F.MARCH_STATUS_FAIL_COUNT arr) ++ d1 (b2n t.cancelled)) ∧
      (t.preserving = false → t.cancelled = false → arr.val < 16 → ∀ o, o < sramSize arr → t.first ≤ bankOf arr o →
        bankOf arr o ≤ t.last → u.m.mem.byte (sramBase arr + o) = 0)) := by
  obtain ⟨hbusy, hdone, hcancelled, hcount⟩ := fld_marchClosed s.m.clearOut arr t
  have hstatus (n : Mod) (data : List Byte) {f : Fld} (hb : f.blk = .sram) (hs : f.stride = 0) (hf : f.off < 0x100) :
      (n.raise 0x0402 data).settle.fld f arr = n.fld f arr :=
    (fld_settle _ _ _ _ _).trans (fld_raise _ _ _ _ _ _ _ (sramReg_not_event f hb hs hf arr))
  refine answers_run (exec_marchEnd arr [] s) ?_
  rw [marchEnd_of_running (m := s.m.clearOut) hrun, hcount]
  refine ⟨?march, (hstatus _ _ rfl rfl (by decide)).trans hbusy, (hstatus _ _ rfl rfl (by decide)).trans hdone,
    (hstatus _ _ rfl rfl (by decide)).trans hcancelled, raised_settle (raised_raise _ _ _), ?zero⟩
  case march =>
    have hclosed := sramOf_of_arrayStep (arrayStep_marchClosed s.m.clearOut arr t) hlen
    show (nth ((s.m.clearOut.marchClosed arr t).raise 0x0402 _).sram arr {}).march = none
    rw [sram_raise]
    exact congrArg Sram.march hclosed
  case zero =>
    intro hmode hcancel hdie o ho hfirst hlast
    obtain ⟨-, hkept, -⟩ := regsAndEvents_raise (regsAndEvents_refl [] (s.m.clearOut.marchClosed arr t)) 0x0402
      (d1 arr ++ d1 (b2n t.preserving) ++ dCount (s.m.fld F.MARCH_STATUS_FAIL_COUNT arr) ++ d1 (b2n t.cancelled))
    have hnothub : ∀ off, sramAt (sramBase arr + o) ≠ some (16, off) := by
      intro off hat
      rw [sramAt_window ho] at hat
      simp only [Option.some.injEq, Prod.mk.injEq] at hat
      omega
    exact (byte_settle _ _).trans ((hkept _ hnothub).trans (byte_of_zeroed (zeroed_marchBanks _ hmode hcancel hdie ho hfirst hlast)))

/-! ## A spare word is added (08 R247) -/

/-- Only the bytes that become undefined change. -/
theorem byte_looseAt_of_outside (m : Mem) (a e : Nat) (d : List Byte) {x : Nat} (h : x < a ∨ a + d.length ≤ x) :
    (m.looseAt a e d).byte x = m.byte x := by
  refine foldl_keeps_mem (fun y : Mem => y.byte x = m.byte x) _ _ (fun y i hi hy => ?_) m rfl
  have hlt := List.mem_range.mp hi
  exact (byte_write1_ne y (a + i) x (nth d i 0) (by omega)).trans hy

/-- The array with a word mapped to a spare. -/
def Sram.addSpare (z : Sram) (bank word : Nat) : Sram := { z with spares := z.spares ++ [(bank, word)] }

/-- The module after a word was mapped to a spare. -/
def Mod.spared (m : Mod) (arr bank word : Nat) : Mod :=
  ((m.setFld F.MARCH_STATUS_SPARE_RESULT 0 arr).modSram arr (fun z => z.addSpare bank word)).looseWord arr bank word

section
variable {m : Mod} {arr bank word : Nat}

theorem spareAdd_of_free (hbank : bank < bankCount arr) (hword : word < wordCount arr bank) (hmarch : (m.sramOf arr).march = none)
    (hused : m.sparesUsed arr bank word < 8) : m.spareAdd arr bank word = (m.spared arr bank word, .ok) := by
  have hused' : ¬8 ≤ (m.setFld F.MARCH_STATUS_SPARE_RESULT 0 arr).sparesUsed arr bank word := Nat.not_le.mpr hused
  have hadd : (m.setFld F.MARCH_STATUS_SPARE_RESULT 0 arr).addSpare arr bank word = (m.spared arr bank word, true) := if_neg hused'
  have hst : (if bankCount arr ≤ bank ∨ wordCount arr bank ≤ word then Status.range else if (m.sramOf arr).march.isSome then .busy
      else if 8 ≤ m.sparesUsed arr bank word then .access else .ok) = .ok := by
    rw [if_neg (by omega), hmarch, if_neg (by decide), if_neg (by omega)]
  unfold Mod.spareAdd
  dsimp only
  rw [hst, if_pos rfl]
  exact congrArg (fun p : Mod × Bool => (p.1, Status.ok)) hadd

theorem arrayStep_spared (m : Mod) (arr bank word : Nat) :
    ArrayStep arr (fun z => z.addSpare bank word) [F.MARCH_STATUS_SPARE_RESULT.addr arr 0] m (m.spared arr bank word) := by
  have h := arrayStep_modSram (arrayStep_setFld (arrayStep_refl arr [F.MARCH_STATUS_SPARE_RESULT.addr arr 0] m)
    F.MARCH_STATUS_SPARE_RESULT 0 0 0 (.head _)) (fun z => z.addSpare bank word)
  exact arrayStep_trans h (arrayStep_contents arr _ _ _ _)

end

theorem spareAdd_answers {s : State} {ag : Agent} {arr : Fin 17} {bank : Fin 1024} {word : Fin 65536} (hq : s.m.quiet = true)
    (hag : regAgent ag = true) (hgate : s.m.blockGate ag .sram arr 0x10 true = .ok) (hbank : bank.val < bankCount arr)
    (hword : word.val < wordCount arr bank) (hmarch : (s.m.sramOf arr).march = none) (hused : s.m.sparesUsed arr bank word < 8) :
    Answers (.spareAdd ag arr bank word) s (fun t => t.m.out = [.done .ok []] ∧ t.m.fld F.MARCH_STATUS_SPARE_RESULT arr = 0 ∧
      t.m.sram = modNth s.m.sram arr (fun z => z.addSpare bank word) ∧ SameRegsBut [F.MARCH_STATUS_SPARE_RESULT.addr arr 0] s.m t.m ∧
      ∀ x, x < sramBase arr + wordOff arr bank word ∨ sramBase arr + wordOff arr bank word + 64 ≤ x → t.m.mem.byte x = s.m.mem.byte x) := by
  have hstep := arrayStep_spared s.m.clearOut arr bank word
  have hd := sramReg_ne_draining F.MARCH_STATUS_SPARE_RESULT rfl arr 0 (by decide)
  have hsram := sram_of_arrayStep hstep
  refine answers_byDie (exec_spareAdd ag arr bank word s) hag hgate (spareAdd_of_free (m := s.m.clearOut) hbank hword hmarch hused) hstep hq
    (by simpa using hd) ⟨rfl, ?_, hsram, fun a ha => ?_, fun x hx => ?_⟩
  · exact (fld_settle _ _ _ _ _).trans (fld_setFld_self s.m F.MARCH_STATUS_SPARE_RESULT 0 arr 0 0 (by decide))
  · exact (reg_settle _ a).trans (hstep.2 a ha)
  · exact (byte_settle _ x).trans (byte_looseAt_of_outside _ _ _ _ (by simpa using hx))

/-- Settles O24: a start, a cancel and a spare are steps of their array; the end of a destructive test refills its banks with 0. -/
theorem marchTests : Obligations.MarchTests := by
  unfold Obligations.MarchTests
  refine ⟨?tests, fun ag arr bank word s hq hag hgate hbank hword hmarch hused => spareAdd_answers hq hag hgate hbank hword hmarch hused⟩
  intro ag arr first last repair s hq hag hgate hrange hlast hlen starts banks
  have hbankRange {st : Nat} (h : banks st) (hst : st ≠ 1) : ∀ b ∈ bankRange first last, s.m.clearOut.bankState arr b ≠ 1 := fun b hb => by
    obtain ⟨hf, hl⟩ := mem_bankRange.mp hb
    exact fun he => hst ((h b hf hl).symm.trans he)
  refine ⟨fun hmarch hwakes hbanks => ?destructive, fun hmarch hwakes hbanks hgood => ?preserving, marchCancel_answers hag hgate hq,
    fun mode rep cancelled hrun => marchEnd_answers hlen hrun⟩
  case destructive =>
    have hst : s.m.clearOut.marchStatus arr first last false = .ok := marchStatus_of_free hrange hlast hmarch hwakes hbanks
    have hstart := marchStart_of_ok (repair := repair) hst (hbankRange hbanks (by decide)) nofun
    rw [Bool.not_false, Bool.and_true] at hstart
    exact answers_marchStart (exec_marchDestructive ag arr first last repair [] s) hag hgate hstart hq hlen
  case preserving =>
    have hst : s.m.clearOut.marchStatus arr first last true = .ok := marchStatus_of_free hrange hlast hmarch hwakes hbanks
    have hstart := marchStart_of_ok (repair := false) hst (hbankRange hbanks (by decide)) fun _ => hgood
    exact answers_marchStart (exec_marchPreserving ag arr first last [] s) hag hgate hstart hq hlen

end Sys2Proof.Machine

/-! # Proofs: steps of one LPDDR controller (09 Table 09.9) -/

namespace Sys2Proof.Machine

open Sys2Proof

/-! ## Registers of a controller (01 Table 01.7) -/

theorem mcReg_addr {f : Fld} (hb : f.blk = .mc) (k j : Nat) : f.addr k j = 0x700003000000 + k * 0x10000 + f.off + j * f.stride := by
  rw [Fld.addr, hb]
  rfl

theorem mcReg_range {f : Fld} (hb : f.blk = .mc) (k : Fin 24) {j : Nat} (hf : f.off + j * f.stride < 0x10000) :
    0x700003000000 ≤ f.addr k j ∧ f.addr k j < 0x700003180000 := by
  have haddr := mcReg_addr hb k j
  omega

/-- Event records change registers of the hub and bank states of the hub buffer. -/
theorem eventReg_range : ∀ a ∈ eventRegs, a < 0x700001000000 ∨ (0x700002000100 ≤ a ∧ a < 0x700002000200) := by decide

theorem mcReg_not_event {f : Fld} (hb : f.blk = .mc) (k : Fin 24) {j : Nat} (hf : f.off + j * f.stride < 0x10000) :
    f.addr k j ∉ eventRegs := by
  intro hmem
  have hrange := mcReg_range hb k hf
  have := eventReg_range _ hmem
  omega

theorem mcReg_ne_draining {f : Fld} (hb : f.blk = .mc) (k : Fin 24) {j : Nat} (hf : f.off + j * f.stride < 0x10000) :
    F.DIR_STATUS_DRAINING.addr 0 0 ≠ f.addr k j := by
  have hrange := mcReg_range hb k hf
  have hdir : F.DIR_STATUS_DRAINING.addr 0 0 = 0x700009000008 := rfl
  omega

/-! ## A controller changes -/

theorem nth_modNth_keeps {α β : Type} {p : α → β} {f : α → α} (hp : ∀ x, p (f x) = p x) (l : List α) (i : Nat) (d : α) :
    p (nth (modNth l i f) i d) = p (nth l i d) := by
  induction l generalizing i with
  | nil => rfl
  | cons x xs ih =>
    cases i with
    | zero => exact hp x
    | succ i => exact ih i

/-- `n` differs from `m` in controller `k`, changed by `g`, in the listed registers, and in what was put out. -/
def McStep (k : Nat) (g : Mc → Mc) (as : List Nat) (m n : Mod) : Prop :=
  n = { m with out := n.out, regs := n.regs, mc := modNth m.mc k g } ∧ SameRegsBut as m n

theorem mcStep_refl (k : Nat) (as : List Nat) (m : Mod) : McStep k id as m m := ⟨by rw [modNth_id], fun _ _ => rfl⟩

theorem mcStep_clearOut (k : Nat) (as : List Nat) (m : Mod) : McStep k id as m m.clearOut := ⟨by rw [modNth_id]; rfl, fun _ _ => rfl⟩

section
variable {k : Nat} {g : Mc → Mc} {as : List Nat} {m n : Mod}

theorem mcStep_setFld (h : McStep k g as m n) (f : Fld) (v i j x : Nat) (hf : f.addr i j ∈ as) : McStep k g as m (n.setFld f v i j x) := by
  obtain ⟨hn, hreg⟩ := h
  refine ⟨?_, fun a ha => (reg_setFld_ne n f v i j x (ne_of_mem_of_not_mem hf ha).symm).trans (hreg a ha)⟩
  rw [hn]
  rfl

theorem mcStep_modMc (h : McStep k g as m n) (g' : Mc → Mc) : McStep k (fun c => g' (g c)) as m (n.modMc k g') := by
  obtain ⟨hn, hreg⟩ := h
  refine ⟨?_, hreg⟩
  rw [hn]
  exact congrArg (fun l => ({ m with out := n.out, regs := n.regs, mc := l } : Mod)) (modNth_modNth _ _ _ _)

theorem mcStep_emit (h : McStep k g as m n) (o : Out) : McStep k g as m (n.emit o) := by
  obtain ⟨hn, hreg⟩ := h
  refine ⟨?_, hreg⟩
  exact congrArg (fun x : Mod => ({ x with out := n.out ++ [o] } : Mod)) hn

theorem mcOf_modMc_self (h : k < m.mc.length) : (m.modMc k g).mcOf k = g (m.mcOf k) := nth_modNth_self _ _ _ _ h

/-- What a change keeps of any controller, it keeps of the one it reaches. -/
theorem mcOf_modMc_keeps {β : Type} {p : Mc → β} (hp : ∀ c, p (g c) = p c) (m : Mod) (k : Nat) : p ((m.modMc k g).mcOf k) = p (m.mcOf k) :=
  nth_modNth_keeps hp m.mc k {}

/-- A controller in another state than its reset state is one of the module's. -/
theorem lt_length_of_mcOf_ne (h : m.mcOf k ≠ {}) : k < m.mc.length := by
  by_contra hlen
  exact h (List.getD_eq_default _ _ (Nat.le_of_not_lt hlen))

/-- A step changes the controller and its registers only. -/
theorem onlyRegs_of_mcStep {g' : Mc → Mc} (h : McStep k g as m n) (hg : g (m.mcOf k) = g' (m.mcOf k)) :
    OnlyRegs as { m with mc := modNth m.mc k g' } n.settle := by
  obtain ⟨hn, hreg⟩ := h
  rw [← modNth_congr {} hg]
  refine onlyRegs_settle ?_ ?_ hreg
  · rw [hn]
    rfl
  · rw [hn]

end

/-! ## What keeps a module quiet -/

/-- Nothing waits at a controller for what the end of a command can give it (09 R264, 10 R287, R288). -/
def Mc.calm (c : Mc) : Bool := c.backlog.isEmpty && c.hold.isEmpty && c.homeData.isEmpty

theorem all_modNth {α : Type} {p : α → Bool} {l : List α} {f : α → α} (h : l.all p = true) (hf : ∀ x, p x = true → p (f x) = true) (i : Nat) :
    (modNth l i f).all p = true := by
  induction l generalizing i with
  | nil => rfl
  | cons x xs ih =>
    simp only [List.all_cons, Bool.and_eq_true] at h
    cases i with
    | zero => simpa [modNth] using ⟨hf x h.1, by simpa using h.2⟩
    | succ i => simpa [modNth, h.1] using ih h.2 i

theorem calm_modMc {m : Mod} {g : Mc → Mc} (h : m.mc.all Mc.calm = true) (k : Nat) (hg : ∀ c, (g c).calm = c.calm := by exact fun _ => rfl) :
    (m.modMc k g).mc.all Mc.calm = true :=
  all_modNth h (fun c hc => (hg c).trans hc) k

theorem memQuiet_eq (m : Mod) : m.memQuiet = (m.mc.all Mc.calm && m.dir.all (fun e => !e.waitsHome && e.held.isNone) && m.ochSrc.isEmpty &&
    m.pushDue.isEmpty && m.coreq.isEmpty && m.fld F.DIR_STATUS_DRAINING == 0) := rfl

theorem calm_of_quiet {m : Mod} (h : m.quiet = true) : m.mc.all Mc.calm = true := by
  simp only [Mod.quiet, memQuiet_eq, Bool.and_eq_true] at h
  obtain ⟨⟨-, ⟨⟨⟨⟨⟨hmc, -⟩, -⟩, -⟩, -⟩, -⟩⟩, -⟩ := h
  exact hmc

theorem mcOf_calm {m : Mod} (h : m.mc.all Mc.calm = true) (k : Nat) :
    (m.mcOf k).backlog = [] ∧ (m.mcOf k).hold = [] ∧ (m.mcOf k).homeData = [] := by
  have hcalm : (m.mcOf k).calm = true := nth_of_forall (P := fun c : Mc => c.calm = true) (List.all_eq_true.mp h) rfl k
  simpa [Mc.calm, and_assoc] using hcalm

/-- `n` differs from `m` at most in what the controllers, Ochre and the regulator change with their event records, and a drain of the
proxies goes on as it did. -/
def LpFrame (m n : Mod) : Prop :=
  n = { m with out := n.out, regs := n.regs, mem := n.mem, fresh := n.fresh, evSeq := n.evSeq, alert := n.alert, alertPin := n.alertPin,
               araRead := n.araRead, evStage := n.evStage, mc := n.mc, lpNext := n.lpNext, och := n.och, regul := n.regul } ∧
  n.fld F.DIR_STATUS_DRAINING = m.fld F.DIR_STATUS_DRAINING

theorem lpFrame_trans {l m n : Mod} (h : LpFrame l m) (g : LpFrame m n) : LpFrame l n := by
  obtain ⟨hm, hdm⟩ := h
  obtain ⟨hn, hdn⟩ := g
  refine ⟨?_, hdn.trans hdm⟩
  rw [hn, hm]

theorem lpFrame_of_mcStep {k : Nat} {g : Mc → Mc} {as : List Nat} {m n : Mod} (h : McStep k g as m n)
    (hd : F.DIR_STATUS_DRAINING.addr 0 0 ∉ as) : LpFrame m n := by
  obtain ⟨hn, hreg⟩ := h
  refine ⟨?_, by simp only [Mod.fld, hreg _ hd]⟩
  rw [hn]

theorem lpFrame_of_regsAndEvents {as : List Nat} {m n : Mod} (h : RegsAndEvents as m n) (hd : F.DIR_STATUS_DRAINING.addr 0 0 ∉ as) :
    LpFrame m n := by
  obtain ⟨hn, -, hreg⟩ := h
  have hne : F.DIR_STATUS_DRAINING.addr 0 0 ∉ eventRegs := by decide
  refine ⟨?_, by simp only [Mod.fld, hreg _ (List.mem_append.not.mpr (not_or.mpr ⟨hd, hne⟩))]⟩
  rw [hn]

/-- A module where nothing waits stays one while nothing comes to wait at a controller. -/
theorem quiet_of_lpFrame {m n : Mod} (h : LpFrame m n) (hq : m.quiet = true) (hc : n.mc.all Mc.calm = true) : n.quiet = true := by
  obtain ⟨hn, hd⟩ := h
  have hmem : n.memQuiet = m.memQuiet := by
    simp only [memQuiet_eq, hc, calm_of_quiet hq, hd]
    rw [hn]
  rw [← hq]
  refine quiet_congr ?_ ?_ ?_ hmem (svcReady_congr ?_ ?_ ?_) <;> rw [hn]

/-- A command that may complete requests answers what its end leaves, settled. -/
theorem answers_concluded {c : Instr} {s : State} {f : Mod → Mod} {n : Mod} {P : State → Prop} (h : exec c s = s.runF f)
    (hend : (f s.m.clearOut).conclude = n) (hp : P { s with m := n.settle }) : Answers c s P :=
  ⟨_, h.trans (by rw [runF_next, hend]), hp⟩

end Sys2Proof.Machine

/-! # Proofs: LPDDR training (09 R266-R269, Tables 09.5, 09.9, 09.10) -/

namespace Sys2Proof.Machine

open Sys2Proof

/-! ## A training command (09 Table 09.10) -/

/-- The module with a training step started on the channels of `mask`. -/
def Mod.trainStarted (m : Mod) (k op mask : Nat) : Mod :=
  ((m.setFld F.MC_TRAIN_STATUS_RESULT 0 k).setFld F.MC_TRAIN_STATUS_BUSY 1 k).modMc k (fun c => { c with training := some (op, mask) })

theorem mcTrain_of_free {m : Mod} {k op mask : Nat} (hop : op ≠ 0) (hen : m.fld F.MC_CTL_ENABLE k = 0)
    (hbusy : m.fld F.MC_TRAIN_STATUS_BUSY k = 0) : m.mcTrain k op mask = (m.trainStarted k op mask, .ok) := by
  simp [Mod.mcTrain, Mod.trainStarted, hop, hen, hbusy, Status.toNat]

theorem mcTrain_of_enabled {m : Mod} {k op : Nat} (mask : Nat) (hop : op ≠ 0) (hen : m.fld F.MC_CTL_ENABLE k = 1) :
    m.mcTrain k op mask = (m.setFld F.MC_TRAIN_STATUS_RESULT 0x11 k, .busy) := by
  simp [Mod.mcTrain, hop, hen, Status.toNat]

theorem mcStep_trainStarted (m : Mod) (k op mask : Nat) :
    McStep k (fun c => { c with training := some (op, mask) }) [F.MC_TRAIN_STATUS_BUSY.addr k 0] m (m.clearOut.trainStarted k op mask) :=
  mcStep_modMc (mcStep_setFld (mcStep_setFld (mcStep_clearOut k _ m) F.MC_TRAIN_STATUS_RESULT 0 k 0 0 (.head _)) F.MC_TRAIN_STATUS_BUSY 1 k 0 0 (.head _)) _

theorem fld_trainStarted (m : Mod) (k op mask : Nat) :
    (m.trainStarted k op mask).fld F.MC_TRAIN_STATUS_RESULT k = 0 ∧ (m.trainStarted k op mask).fld F.MC_TRAIN_STATUS_BUSY k = 1 := by
  unfold Mod.trainStarted
  rw [fld_modMc, fld_modMc, fld_setFld_apart _ _ _ (by decide)]
  exact ⟨fld_setFld_self _ _ _ _ _ _ (by decide), fld_setFld_self _ _ _ _ _ _ (by decide)⟩

/-! ## A training step ends (09 R266-R269) -/

/-- The module with the results of a step reported: its channels' PASS and FAIL, no step running. -/
def Mod.trainReported (m : Mod) (k pass mask : Nat) : Mod :=
  (((m.modMc k (fun c => { c with training := none })).setFld F.MC_TRAIN_STATUS_BUSY 0 k).setFld F.MC_TRAIN_STATUS_PASS (pass &&& mask) k).setFld
    F.MC_TRAIN_STATUS_FAIL (mask - (pass &&& mask)) k

/-- What the rest of a step's end leaves of the report: the status register, the outputs and the controller's training. -/
def KeepsReport (k : Nat) (m n : Mod) : Prop :=
  n.reg (F.MC_TRAIN_STATUS_BUSY.addr k 0) = m.reg (F.MC_TRAIN_STATUS_BUSY.addr k 0) ∧ n.out = m.out ∧
  (n.mcOf k).training = (m.mcOf k).training

theorem keepsReport_refl (k : Nat) (m : Mod) : KeepsReport k m m := ⟨rfl, rfl, rfl⟩

theorem keepsReport_setFld {k : Nat} {m n : Mod} (h : KeepsReport k m n) {f : Fld} (hb : f.blk = .mc) (hoff : 0x68 < f.off) (v j x : Nat) :
    KeepsReport k m (n.setFld f v k j x) := by
  obtain ⟨hreg, hout, htrain⟩ := h
  refine ⟨(reg_setFld_ne _ _ _ _ _ _ ?_).trans hreg, hout, htrain⟩
  have hstatus : F.MC_TRAIN_STATUS_BUSY.addr k 0 = Block.base .mc k + 0x68 := rfl
  have haddr : f.addr k j = Block.base .mc k + f.off + j * f.stride := by rw [Fld.addr, hb]
  omega

theorem keepsReport_losePackage {k : Nat} {m n : Mod} (h : KeepsReport k m n) :
    KeepsReport k m ((n.losePackage k).modMc k (fun c => { c with freeZero := true })) := by
  obtain ⟨hreg, hout, htrain⟩ := h
  refine ⟨hreg, hout, ?_⟩
  exact (mcOf_modMc_keeps (p := Mc.training) (g := fun c => { c with freeZero := true }) (fun _ => rfl) (n.losePackage k) k).trans htrain

/-- The failing pins of a DQ step (09 Table 09.9). -/
def Mod.pinsReported (m : Mod) (k op mask : Nat) (pins : List Nat) : Mod :=
  if op = 4 ∨ op = 5 then (bitsOf 4 mask).foldl (fun m c => m.setFld F.MC_TRAIN_DQFAIL_PINS (nth pins c 0) k 0 c) m else m

/-- One new result word of a trained channel (09 R267). -/
def Mod.paramTrained (m : Mod) (k c j : Nat) : Mod :=
  m.draw.1.setFld F.MC_TRAIN_PARAM_VALUE (Config.freeNat m.draw.2) k (64 * c + j)

theorem keepsReport_paramTrained {k : Nat} {m n : Mod} (h : KeepsReport k m n) (c j : Nat) : KeepsReport k m (n.paramTrained k c j) :=
  keepsReport_setFld (n := n.draw.1) h rfl (by decide) _ _ _

/-- New result words of the trained channels. -/
def Mod.paramsTrained (m : Mod) (k op mask : Nat) : Mod :=
  if 1 ≤ op ∧ op ≤ 5 then (bitsOf 4 mask).foldl (fun m c => (List.range 64).foldl (fun m j => m.paramTrained k c j) m) m else m

theorem trainDone_of_training {m : Mod} {k op mask : Nat} (pass : Nat) (pins : List Nat) (h : (m.mcOf k).training = some (op, mask)) :
    m.trainDone k pass pins =
      let n := ((m.trainReported k pass mask).pinsReported k op mask pins).paramsTrained k op mask
      if op = 7 then n else (n.losePackage k).modMc k (fun c => { c with freeZero := true }) := by
  unfold Mod.trainDone
  rw [h]
  rfl

/-- The step that applies parameters trains nothing: it is over with its report (09 Table 09.5). -/
theorem trainDone_apply {m : Mod} {k mask : Nat} (pass : Nat) (pins : List Nat) (h : (m.mcOf k).training = some (7, mask)) :
    m.trainDone k pass pins = m.trainReported k pass mask :=
  trainDone_of_training pass pins h

section
variable {k : Nat} {m n : Mod} (h : KeepsReport k m n)
include h

theorem keepsReport_pinsReported (op mask : Nat) (pins : List Nat) : KeepsReport k m (n.pinsReported k op mask pins) := by
  unfold Mod.pinsReported
  split
  · exact foldl_keeps (KeepsReport k m) _ (fun x c hx => keepsReport_setFld (f := F.MC_TRAIN_DQFAIL_PINS) hx rfl (by decide) _ _ _) _ n h
  · exact h

theorem keepsReport_paramsTrained (op mask : Nat) : KeepsReport k m (n.paramsTrained k op mask) := by
  have hchannel (x : Mod) (c : Nat) (hx : KeepsReport k m x) : KeepsReport k m ((List.range 64).foldl (fun m j => m.paramTrained k c j) x) :=
    foldl_keeps (KeepsReport k m) _ (fun y j hy => keepsReport_paramTrained hy c j) _ x hx
  unfold Mod.paramsTrained
  split
  · exact foldl_keeps (KeepsReport k m) _ hchannel _ n h
  · exact h

end

/-- The report stays as it was made. -/
theorem keepsReport_trainDone {m : Mod} {k op mask : Nat} (pass : Nat) (pins : List Nat) (h : (m.mcOf k).training = some (op, mask)) :
    KeepsReport k (m.trainReported k pass mask) (m.trainDone k pass pins) := by
  have hparams := keepsReport_paramsTrained (keepsReport_pinsReported (keepsReport_refl k (m.trainReported k pass mask)) op mask pins) op mask
  rw [trainDone_of_training pass pins h]
  dsimp only
  split
  · exact hparams
  · exact keepsReport_losePackage hparams

theorem fld_trainReported (m : Mod) (k : Nat) (pass mask : Fin 16) :
    (m.trainReported k pass mask).fld F.MC_TRAIN_STATUS_BUSY k = 0 ∧
    (m.trainReported k pass mask).fld F.MC_TRAIN_STATUS_PASS k = pass.val &&& mask.val ∧
    (m.trainReported k pass mask).fld F.MC_TRAIN_STATUS_FAIL k = mask.val - (pass.val &&& mask.val) := by
  have hmask := mask.isLt
  have hpass : pass.val &&& mask.val < 16 := Nat.lt_of_le_of_lt Nat.and_le_right hmask
  refine ⟨?_, ?_, ?_⟩ <;> unfold Mod.trainReported
  · rw [fld_setFld_apart _ _ _ (by decide), fld_setFld_apart _ _ _ (by decide)]
    exact fld_setFld_self _ _ _ _ _ _ (by decide)
  · rw [fld_setFld_apart _ _ _ (by decide), fld_setFld_self _ _ _ _ _ _ (by decide)]
    exact Nat.mod_eq_of_lt hpass
  · rw [fld_setFld_self _ _ _ _ _ _ (by decide)]
    exact Nat.mod_eq_of_lt (by show _ < 16; omega)

theorem mcStep_trainReported (m : Mod) (k pass mask : Nat) :
    McStep k (fun c => { c with training := none }) [F.MC_TRAIN_STATUS_BUSY.addr k 0] m (m.clearOut.trainReported k pass mask) :=
  mcStep_setFld (mcStep_setFld (mcStep_setFld (mcStep_modMc (mcStep_clearOut k _ m) _) F.MC_TRAIN_STATUS_BUSY 0 k 0 0 (.head _))
    F.MC_TRAIN_STATUS_PASS _ k 0 0 (.head _)) F.MC_TRAIN_STATUS_FAIL _ k 0 0 (.head _)

theorem training_trainReported {m : Mod} {k : Nat} (pass mask : Nat) (h : (m.mcOf k).training ≠ none) :
    ((m.trainReported k pass mask).mcOf k).training = none :=
  congrArg Mc.training (mcOf_modMc_self (lt_length_of_mcOf_ne fun he => h (congrArg Mc.training he)))

/-! ## The commands -/

/-- The seven training commands are MC_TRAIN_CMD with their operations (09 Table 09.10). -/
theorem exec_training {r : (Agent → Fin 24 → Fin 16 → Instr) × Nat}
    (hr : r ∈ ([(.zqCalibration, 1), (.commandAddressTraining, 2), (.writeLeveling, 3), (.readDqTraining, 4), (.writeDqTraining, 5),
      (.patternCheck, 6), (.applyTrainingParam, 7)] : List _)) (ag : Agent) (k : Fin 24) (mask : Fin 16) (s : State) :
    r.2 ≠ 0 ∧ exec (r.1 ag k mask) s =
      s.run (fun m => m.byAgent ag (F.MC_TRAIN_CMD_OP.addr k 0) (fun m => m.mcTrain k r.2 mask)) := by
  simp only [List.mem_cons, List.not_mem_nil, or_false] at hr
  rcases hr with rfl | rfl | rfl | rfl | rfl | rfl | rfl <;> exact ⟨by decide, rfl⟩

/-- Settles O29: a command starts its step or is refused, and what follows the report of a step's end keeps it. -/
theorem lpddrTraining : Obligations.LpddrTraining := by
  unfold Obligations.LpddrTraining
  intro r hr ag k mask pass pins s hag
  obtain ⟨hop, hexec⟩ := exec_training hr ag k mask s
  refine ⟨fun hen hbusy => ?starts, fun hen hcore => ?refused, fun htrain => ?ends⟩
  case starts =>
    have htaken := byAgent_taken (addr := F.MC_TRAIN_CMD_OP.addr k 0) (f := fun m => m.mcTrain k r.2 mask) hag
      (mcTrain_of_free (m := s.m.clearOut) hop hen hbusy)
    obtain ⟨hresult, hrun⟩ := fld_trainStarted s.m.clearOut k r.2 mask
    refine answers_run hexec ?_
    rw [htaken]
    exact ⟨rfl, (fld_settle _ _ _ _ _).trans hresult, (fld_settle _ _ _ _ _).trans hrun,
      onlyRegs_of_mcStep (mcStep_emit (mcStep_trainStarted s.m k r.2 mask) _) rfl⟩
  case refused =>
    have hrefused := mcTrain_of_enabled (m := s.m.clearOut) mask hop hen
    refine answers_run hexec ?_
    rw [byAgent_refused hag hcore, hrefused]
    exact ⟨rfl, (fld_settle _ _ _ _ _).trans (fld_setFld_self _ _ _ _ _ _ (by decide)),
      onlyRegs_settle rfl rfl fun _ ha => reg_setFld_ne s.m F.MC_TRAIN_STATUS_RESULT _ k 0 0 fun he => ha (List.mem_singleton.mpr he)⟩
  case ends =>
    obtain ⟨hreg, hout, hnone⟩ := keepsReport_trainDone (m := s.m.clearOut) pass (pins.map BitVec.toNat) htrain
    obtain ⟨hbusy, hpass, hfail⟩ := fld_trainReported s.m.clearOut k pass mask
    have hfld (f : Fld) (hf : f.addr k 0 = F.MC_TRAIN_STATUS_BUSY.addr k 0) :
        (s.m.clearOut.trainDone k pass (pins.map BitVec.toNat)).settle.fld f k = (s.m.clearOut.trainReported k pass mask).fld f k :=
      (fld_settle _ _ _ _ _).trans (by simp only [Mod.fld, hf, hreg])
    refine answers_run (exec_lpddrTrainingStepDone k pass pins s) ⟨hout, ?_, (hfld F.MC_TRAIN_STATUS_BUSY rfl).trans hbusy,
      (hfld F.MC_TRAIN_STATUS_PASS rfl).trans hpass, (hfld F.MC_TRAIN_STATUS_FAIL rfl).trans hfail, fun h7 => ?_⟩
    · exact hnone.trans (training_trainReported _ _ (ne_of_eq_of_ne htrain (Option.some_ne_none _)))
    · have happly := trainDone_apply (m := s.m.clearOut) pass (pins.map BitVec.toNat) (h7 ▸ htrain)
      rw [happly]
      exact onlyRegs_of_mcStep (mcStep_trainReported s.m k pass mask) rfl

end Sys2Proof.Machine

/-! # Proofs: temperature, HOLD, refresh and self-refresh of LPDDR packages (09 R261-R265, Table 09.4) -/

namespace Sys2Proof.Machine

open Sys2Proof

/-! ## What a thermal step may change -/

theorem mc_raise (m : Mod) (code : Nat) (data : List Byte) : (m.raise code data).mc = m.mc := by
  obtain ⟨h, -, -⟩ := regsAndEvents_raise (regsAndEvents_refl [] m) code data
  rw [h]

theorem regul_raise (m : Mod) (code : Nat) (data : List Byte) : (m.raise code data).regul = m.regul := by
  obtain ⟨h, -, -⟩ := regsAndEvents_raise (regsAndEvents_refl [] m) code data
  rw [h]

/-- Besides what event records change, only the controllers, the regulator and the listed registers may have changed. -/
def ThermFrame (as : List Nat) (m n : Mod) : Prop := RegsAndEvents as { m with mc := n.mc, regul := n.regul } n

theorem thermFrame_clearOut (as : List Nat) (m : Mod) : ThermFrame as m m.clearOut := regsAndEvents_clearOut as m

section
variable {as : List Nat} {m n : Mod} (h : ThermFrame as m n)
include h

theorem thermFrame_setFld (f : Fld) (v i j x : Nat) (hf : f.addr i j ∈ as) : ThermFrame as m (n.setFld f v i j x) :=
  regsAndEvents_setFld h f v i j x (List.mem_append_left _ hf)

theorem thermFrame_modMc (k : Nat) (g : Mc → Mc) : ThermFrame as m (n.modMc k g) := by
  obtain ⟨hn, hmem, hreg⟩ := h
  exact ⟨congrArg (fun x : Mod => ({ x with mc := modNth n.mc k g } : Mod)) hn, hmem, hreg⟩

theorem thermFrame_raise (code : Nat) (data : List Byte) : ThermFrame as m (n.raise code data) := by
  unfold ThermFrame
  rw [mc_raise, regul_raise]
  exact regsAndEvents_raise h code data

theorem thermFrame_capChange (k cause : Nat) : ThermFrame as m (n.capChange k cause) := by
  obtain ⟨hn, hmem, hreg⟩ := h
  exact ⟨congrArg (fun x : Mod => ({ x with regul := (n.capChange k cause).regul } : Mod)) hn, hmem, hreg⟩

theorem lpFrame_of_thermFrame (hd : F.DIR_STATUS_DRAINING.addr 0 0 ∉ as) : LpFrame m n := by
  have hmid : LpFrame m { m with mc := n.mc, regul := n.regul } := ⟨rfl, rfl⟩
  exact lpFrame_trans hmid (lpFrame_of_regsAndEvents h hd)

end

/-! ## A package moves a thermal step (09 R262, R263, Table 09.4) -/

/-- The package at its new step; HOLD puts it into self-refresh (09 R264). -/
def Mod.stepTaken (m : Mod) (k new : Nat) : Mod :=
  let n := (m.setFld F.MC_THERM_STEP new k).modMc k (fun c => { c with lowReports := 0 })
  if new = 3 then n.modMc k (fun c => { c with selfRefresh := true, holdExpired := false }) else n

/-- The data of event 0x0505 (18 Table 18.4). -/
def stepRecord (k old new : Nat) (temp : Int) : List Byte := d1 k ++ d1 old ++ d1 new ++ d2 (unsigned 16 (temp * 16))

/-- Outside a domain a record goes to no manager (09 R263). -/
theorem raiseToManager_of_alone {m : Mod} (code : Nat) (data : List Byte) (h : m.fld F.FAB_ROLE_STATE ≠ 2) :
    m.raiseToManager code data = m.raise code data := by
  have hrole : (m.raise code data).fld F.FAB_ROLE_STATE ≠ 2 := by rwa [fld_raise _ _ _ _ _ _ _ (by decide)]
  simp [Mod.raiseToManager, hrole]

theorem setStep_of_not_hold {m : Mod} {k : Nat} (new : Nat) (temp : Int) (hrole : (m.stepTaken k new).fld F.FAB_ROLE_STATE ≠ 2)
    (hold : m.fld F.MC_THERM_STEP k ≠ 3) :
    m.setStep k new temp = ((m.stepTaken k new).raise 0x0505 (stepRecord k (m.fld F.MC_THERM_STEP k) new temp)).capChange k 0 := by
  rw [← raiseToManager_of_alone _ _ hrole]
  unfold Mod.setStep
  dsimp only
  rw [if_neg hold]
  rfl

theorem fld_stepTaken {m : Mod} {k new : Nat} (f : Fld) (i : Nat) : (m.stepTaken k new).fld f i = (m.setFld F.MC_THERM_STEP new k).fld f i := by
  unfold Mod.stepTaken
  dsimp only
  split <;> rfl

theorem calm_stepTaken {m : Mod} {k new : Nat} (h : m.mc.all Mc.calm = true) : (m.stepTaken k new).mc.all Mc.calm = true := by
  have hlow : ((m.setFld F.MC_THERM_STEP new k).modMc k (fun c => { c with lowReports := 0 })).mc.all Mc.calm = true := calm_modMc h k
  unfold Mod.stepTaken
  dsimp only
  split
  · exact calm_modMc hlow k
  · exact hlow

theorem selfRefresh_stepTaken {m : Mod} {k : Nat} (h : k < m.mc.length) : ((m.stepTaken k 3).mcOf k).selfRefresh = true := by
  have hlen : k < (modNth m.mc k (fun c => { c with lowReports := 0 })).length := by rwa [length_modNth]
  exact congrArg Mc.selfRefresh (nth_modNth_self _ _ _ _ hlen)

theorem thermFrame_stepTaken {as : List Nat} {m n : Mod} {k : Nat} (h : ThermFrame as m n) (new : Nat) (hk : F.MC_THERM_STEP.addr k 0 ∈ as) :
    ThermFrame as m (n.stepTaken k new) := by
  have hstep := thermFrame_modMc (thermFrame_setFld h F.MC_THERM_STEP new k 0 0 hk) k (fun c => { c with lowReports := 0 })
  unfold Mod.stepTaken
  dsimp only
  split
  · exact thermFrame_modMc hstep k _
  · exact hstep

/-! ## A temperature report (09 R262) -/

/-- What the module is after controller `k` moved from `m`'s step to step `new` at a reading: the values the statement lists. -/
def StepMoved (k : Fin 24) (new : Nat) (temp : BitVec 8) (m t : Mod) : Prop :=
  t.fld F.MC_THERM_STEP k = new ∧ t.fld F.MC_THERM_TEMP k = temp.toNat ∧
  Raised t 0x0505 (stepRecord k (m.fld F.MC_THERM_STEP k) new temp.toInt) ∧ t.regul.changes = m.regul.changes ++ [(k.val, 0)] ∧
  ThermFrame [F.MC_THERM_STEP.addr k 0] m t

theorem unsigned_toInt (x : BitVec 8) : unsigned 8 x.toInt = x.toNat := by
  have hlt := x.isLt
  have hint := BitVec.toInt_eq_toNat_cond x
  unfold unsigned
  split at hint <;> omega

/-- The reading is noted in MC_THERM before the step is decided. -/
def Mod.tempNoted (m : Mod) (k : Nat) (temp : Int) : Mod := m.setFld F.MC_THERM_TEMP (unsigned 8 temp) k

theorem step_tempNoted (m : Mod) (k : Nat) (temp : Int) : (m.tempNoted k temp).fld F.MC_THERM_STEP k = m.fld F.MC_THERM_STEP k :=
  fld_setFld_apart _ _ _ (by decide)

theorem tempReport_up {m : Mod} {k : Nat} {temp : Int} (hs : m.fld F.MC_THERM_STEP k < 2) (ht : enterTemp (m.fld F.MC_THERM_STEP k) < temp)
    (hmax : temp ≤ 105) : m.tempReport k temp = (m.tempNoted k temp).setStep k (m.fld F.MC_THERM_STEP k + 1) temp := by
  unfold Mod.tempReport
  dsimp only
  rw [if_neg (by omega), if_pos ⟨hs, ht⟩]
  rfl

theorem tempReport_hold {m : Mod} {k : Nat} {temp : Int} (hs : m.fld F.MC_THERM_STEP k ≠ 3) (ht : 105 < temp) :
    m.tempReport k temp = (m.tempNoted k temp).setStep k 3 temp := by
  unfold Mod.tempReport
  dsimp only
  rw [if_pos ht, if_neg hs]
  rfl

/-- The module after a report that moves the package to step `new`. -/
def Mod.stepMoved (m : Mod) (k new : Nat) (temp : Int) : Mod :=
  (((m.tempNoted k temp).stepTaken k new).raise 0x0505 (stepRecord k (m.fld F.MC_THERM_STEP k) new temp)).capChange k 0

section
variable {m : Mod} {k : Fin 24} {new : Nat}

theorem role_stepTaken (temp : Int) : ((m.tempNoted k temp).stepTaken k new).fld F.FAB_ROLE_STATE = m.fld F.FAB_ROLE_STATE := by
  have hne {f : Fld} (hb : f.blk = .mc) (hoff : f.off + 0 * f.stride < 0x10000) : F.FAB_ROLE_STATE.addr 0 0 ≠ f.addr k 0 := by
    have hrange := mcReg_range hb k hoff
    have hrole : F.FAB_ROLE_STATE.addr 0 0 = 0x700005000010 := rfl
    omega
  rw [fld_stepTaken, fld_setFld_addr _ _ _ _ _ _ _ _ _ _ (hne rfl (by decide)), Mod.tempNoted,
    fld_setFld_addr _ _ _ _ _ _ _ _ _ _ (hne rfl (by decide))]

theorem setStep_tempNoted (temp : Int) (hrole : m.fld F.FAB_ROLE_STATE ≠ 2) (hold : m.fld F.MC_THERM_STEP k ≠ 3) :
    (m.tempNoted k temp).setStep k new temp = m.stepMoved k new temp := by
  have hset := setStep_of_not_hold (m := m.tempNoted k temp) (k := k) new temp (by rwa [role_stepTaken]) (by rwa [step_tempNoted])
  rwa [step_tempNoted] at hset

theorem thermFrame_stepMoved (temp : Int) : ThermFrame [F.MC_THERM_STEP.addr k 0] m (m.clearOut.stepMoved k new temp) := by
  have hnoted := thermFrame_setFld (thermFrame_clearOut [F.MC_THERM_STEP.addr k 0] m) F.MC_THERM_TEMP (unsigned 8 temp) k 0 0 (.head _)
  exact thermFrame_capChange (thermFrame_raise (thermFrame_stepTaken hnoted new (.head _)) _ _) k 0

theorem fld_stepMoved (temp : Int) {f : Fld} (hb : f.blk = .mc) (hoff : f.off + 0 * f.stride < 0x10000) :
    (m.stepMoved k new temp).fld f k = ((m.tempNoted k temp).setFld F.MC_THERM_STEP new k).fld f k :=
  (fld_raise _ _ _ _ _ _ _ (mcReg_not_event hb k hoff)).trans (fld_stepTaken _ _)

theorem mc_stepMoved (temp : Int) : (m.stepMoved k new temp).mc = ((m.tempNoted k temp).stepTaken k new).mc := mc_raise _ _ _

theorem regul_stepTaken : (m.stepTaken k new).regul = m.regul := by
  unfold Mod.stepTaken
  dsimp only
  split <;> rfl

theorem out_stepTaken : (m.stepTaken k new).out = m.out := by
  unfold Mod.stepTaken
  dsimp only
  split <;> rfl

theorem stepMoved_of_report (temp : BitVec 8) (hnew : new < 4) : StepMoved k new temp m (m.clearOut.stepMoved k new temp.toInt).settle := by
  refine ⟨(fld_settle _ _ _ _ _).trans ?step, (fld_settle _ _ _ _ _).trans ?temp, raised_settle (raised_raise _ _ _), ?changes,
    regsAndEvents_settle (thermFrame_stepMoved temp.toInt)⟩
  case step =>
    rw [fld_stepMoved _ rfl (by decide), fld_setFld_self _ _ _ _ _ _ (by decide)]
    exact Nat.mod_eq_of_lt hnew
  case temp =>
    rw [fld_stepMoved _ rfl (by decide), fld_setFld_apart _ _ _ (by decide), Mod.tempNoted, fld_setFld_self _ _ _ _ _ _ (by decide), unsigned_toInt]
    exact Nat.mod_eq_of_lt temp.isLt
  case changes =>
    exact congrArg (fun r : Regul => r.changes ++ [(k.val, 0)]) ((regul_raise _ _ _).trans regul_stepTaken)

end

/-- A report that moves the package. -/
theorem answers_stepMoved {s : State} {k : Fin 24} {temp : BitVec 8} {new : Nat} {P : State → Prop} (hq : s.m.quiet = true)
    (hrep : s.m.clearOut.tempReport k temp.toInt = s.m.clearOut.stepMoved k new temp.toInt)
    (hp : P { s with m := (s.m.clearOut.stepMoved k new temp.toInt).settle }) : Answers (.temperatureReport k temp) s P := by
  have hdrain : F.DIR_STATUS_DRAINING.addr 0 0 ∉ [F.MC_THERM_STEP.addr k 0] :=
    List.not_mem_cons_of_ne_of_not_mem (mcReg_ne_draining rfl k (by decide)) List.not_mem_nil
  have hcalm : (s.m.clearOut.tempNoted k temp.toInt).mc.all Mc.calm = true := calm_of_quiet (m := s.m) hq
  refine answers_runF (exec_temperatureReport k temp s) ?_ ?_ ?_ <;> rw [hrep]
  · refine quiet_of_lpFrame (lpFrame_of_thermFrame (thermFrame_stepMoved temp.toInt) hdrain) hq ?_
    rw [mc_stepMoved]
    exact calm_stepTaken hcalm
  · exact stays_raise _ _ (by rw [out_stepTaken]; rfl)
  · exact hp

/-! ## A request's time in HOLD ends (09 R264) -/

/-- The controller with its only request in HOLD gone. -/
def Mc.heldGone (c : Mc) (w : LpWait) : Mc :=
  { c with hold := [], queues := c.queues.map (fun q => q.filter (fun x => x.id != w.id)) }

/-- The module once the only request in HOLD has ended, and was counted. -/
def Mod.heldEnded (m : Mod) (k : Nat) (w : LpWait) : Mod := (m.modMc k (fun c => c.heldGone w)).satFld F.MC_THERM_HOLD_EXPIRED 1 k

/-- The only request in HOLD ends with ST_THERMAL; an earlier one has had the event. -/
theorem holdTimeout_of_single {m : Mod} {k : Nat} {w : LpWait} (hstep : m.fld F.MC_THERM_STEP k = 3) (hone : (m.mcOf k).hold = [w])
    (hfill : w.fill = none) (hexp : (m.mcOf k).holdExpired = true) :
    m.holdTimeout k w.id = (m.heldEnded k w).emit (.compl w.req.src .thermal []) := by
  have hgone : m.modMc k (fun c => { c with
      hold := c.hold.filter (fun x => x.id != w.id), queues := c.queues.map (fun q => q.filter (fun x => x.id != w.id)) }) =
      m.modMc k (fun c => c.heldGone w) := by
    refine congrArg (fun l => ({ m with mc := l } : Mod)) (modNth_congr {} ?_)
    have hone' : (nth m.mc k {}).hold = [w] := hone
    simp [Mc.heldGone, hone']
  have htake : m.takeHeld k w.id = some (m.modMc k (fun c => c.heldGone w), w.req.src, w.req.addr, none) := by
    simp [Mod.takeHeld, hone, hfill, hgone]
  have hold : m.inHold k = true := by simp [Mod.inHold, hstep]
  simp [Mod.holdTimeout, hold, htake, hexp, Mod.heldEnded]

/-- The controller's request in HOLD, alone. -/
abbrev Mod.withHeld (m : Mod) (k : Nat) (w : LpWait) : Mod := m.modMc k (fun c => { c with hold := [w] })

theorem mcStep_heldEnded (m : Mod) (k : Nat) (w : LpWait) :
    McStep k (fun c => c.heldGone w) [F.MC_THERM_STEP.addr k 0] m ((m.withHeld k w).clearOut.heldEnded k w) :=
  mcStep_setFld (mcStep_modMc (mcStep_modMc (mcStep_clearOut k _ m) (fun c => { c with hold := [w] })) (fun c => c.heldGone w))
    F.MC_THERM_HOLD_EXPIRED _ k 0 0 (.head _)

theorem calm_heldGone {c : Mc} (w : LpWait) (h : c.calm = true) : (c.heldGone w).calm = true := by
  simp only [Mc.calm, Mc.heldGone, Bool.and_eq_true] at h ⊢
  exact ⟨⟨h.1.1, rfl⟩, h.2⟩

theorem holdTimeout_answers {s : State} {k : Fin 24} {w : LpWait} {q : Fin 4} {seq key : Nat} (hq : s.m.quiet = true)
    (hstep : s.m.fld F.MC_THERM_STEP k = 3) (hfill : w.fill = none) (hsrc : w.req.src = .op q seq key) (hexp : (s.m.mcOf k).holdExpired = true) :
    Answers (.thermalHoldTimeout k w.id) { s with m := s.m.withHeld k w } (fun t => t.m.out = [.compl w.req.src .thermal []] ∧
      t.m.fld F.MC_THERM_HOLD_EXPIRED k = min (s.m.fld F.MC_THERM_HOLD_EXPIRED k + 1) 0xFFFF ∧
      t.m.mc = modNth s.m.mc k (fun x => { x with queues := x.queues.map (fun z => z.filter (fun y => y.id != w.id)) }) ∧
      OnlyRegs [F.MC_THERM_STEP.addr k 0] { s.m with mc := t.m.mc, opDone := s.m.opDone ++ [(q.val, seq, key, .thermal, [])] } t.m) := by
  have hlen : k.val < s.m.mc.length := lt_length_of_mcOf_ne fun he => by simp [he] at hexp
  have hmc : (s.m.withHeld k w).clearOut.mcOf k = { s.m.mcOf k with hold := [w] } := mcOf_modMc_self hlen
  have hrun : (s.m.withHeld k w).clearOut.holdTimeout k w.id = ((s.m.withHeld k w).clearOut.heldEnded k w).emit (.compl w.req.src .thermal []) :=
    holdTimeout_of_single hstep (by rw [hmc]) hfill (by rw [hmc]; exact hexp)
  have hframe := mcStep_emit (mcStep_heldEnded s.m k w) (.compl w.req.src .thermal [])
  have hdrain : F.DIR_STATUS_DRAINING.addr 0 0 ∉ [F.MC_THERM_STEP.addr k 0] :=
    List.not_mem_cons_of_ne_of_not_mem (mcReg_ne_draining rfl k (by decide)) List.not_mem_nil
  have hquiet := quiet_of_lpFrame (lpFrame_of_mcStep hframe hdrain) hq
    (by rw [hframe.1]; exact all_modNth (calm_of_quiet hq) (fun c hc => calm_heldGone w hc) k)
  have hqueues : modNth s.m.mc k (fun c => c.heldGone w) =
      modNth s.m.mc k (fun x => { x with queues := x.queues.map (fun z => z.filter (fun y => y.id != w.id)) }) := by
    refine modNth_congr {} ?_
    have hhold : (nth s.m.mc k {}).hold = [] := (mcOf_calm (calm_of_quiet hq) k).2.1
    simp [Mc.heldGone, hhold]
  have hend := conclude_of_opCompl hquiet (by rw [hsrc]; rfl)
  refine answers_concluded (exec_thermalHoldTimeout k w.id _) ((congrArg Mod.conclude hrun).trans hend) ?_
  obtain ⟨hn, hreg⟩ := hframe
  have hmcs : (((s.m.withHeld k w).clearOut.heldEnded k w).emit (.compl w.req.src .thermal [])).mc = modNth s.m.mc k (fun c => c.heldGone w) := by
    rw [hn]
  refine ⟨rfl, ?_, hmcs.trans hqueues, onlyRegs_settle ?_ rfl hreg⟩
  · exact (fld_settle _ _ _ _ _).trans (fld_satFld_self _ F.MC_THERM_HOLD_EXPIRED k (by decide))
  · rfl

/-! ## Refresh and self-refresh (09 R261, R265) -/

/-- The controller with a bank under refresh: its row is closed, and it takes the channel's slot (10 R280). -/
def Mc.refreshed (mc : Mc) (c bank : Nat) : Mc :=
  { mc with rows := mc.rows.del (c * 32 + bank), slots := modNth mc.slots c (fun _ => 0),
            refreshing := (c * 32 + bank) :: mc.refreshing.filter (· != c * 32 + bank) }

theorem refreshBank_eq (m : Mod) (k c bank : Nat) : m.refreshBank k c bank = m.modMc k (fun mc => mc.refreshed c bank) :=
  congrArg (fun l => ({ m with mc := l } : Mod)) (modNth_modNth m.mc k _ _)

/-- Settles O27: a report moves the package by its step's temperatures, and a request's time in HOLD, a refresh and an idle time in PARKED
are steps of the controller. -/
theorem lpddrThermal : Obligations.LpddrThermal := by
  unfold Obligations.LpddrThermal
  intro k temp s hq hrole step moves
  have hmoved (new : Nat) (hnew : new < 4) : moves new { s with m := (s.m.clearOut.stepMoved k new temp.toInt).settle } :=
    stepMoved_of_report temp hnew
  refine ⟨fun hstep ht hmax => ?up, fun hstep ht hlen => ?hold, fun w q seq key hstep hfill hsrc hexp => ?timeout, fun c bank => ?refresh,
    fun hparked => ?idle⟩
  case up =>
    have hset := setStep_tempNoted (m := s.m.clearOut) (k := k) (new := step + 1) temp.toInt hrole (show step ≠ 3 by omega)
    have hrep := tempReport_up (m := s.m.clearOut) (k := k) (temp := temp.toInt) hstep ht hmax
    exact answers_stepMoved hq (hrep.trans hset) (hmoved (step + 1) (by omega))
  case hold =>
    have hne : step ≠ 3 := by omega
    have hset := setStep_tempNoted (m := s.m.clearOut) (k := k) (new := 3) temp.toInt hrole hne
    have hrep := tempReport_hold (m := s.m.clearOut) (k := k) (temp := temp.toInt) hne ht
    refine answers_stepMoved hq (hrep.trans hset) ⟨hmoved 3 (by decide), ?_⟩
    show (nth (s.m.clearOut.stepMoved k 3 temp.toInt).mc k {}).selfRefresh = true
    rw [mc_stepMoved]
    exact selfRefresh_stepTaken hlen
  case timeout => exact holdTimeout_answers hq hstep hfill hsrc hexp
  case refresh =>
    refine answers_run (exec_refresh k c bank s) ?_
    rw [refreshBank_eq]
    exact ⟨rfl, onlyRegs_of_mcStep (mcStep_modMc (mcStep_clearOut k.val [] s.m) _) rfl⟩
  case idle =>
    refine answers_run (exec_selfRefreshIdle k s) ?_
    rw [if_pos (show s.m.clearOut.state = .parked from hparked)]
    exact ⟨rfl, onlyRegs_of_mcStep (mcStep_modMc (mcStep_clearOut k.val [] s.m) _) rfl⟩

end Sys2Proof.Machine

/-! # Proofs: narrow reads of LPDDR through Ochre (09 R258-R260) -/

namespace Sys2Proof.Machine

open Sys2Proof

/-! ## Addresses of a package's window (01 Table 01.6) -/

theorem lpddrAt_package {k o : Nat} (hk : k < 24) (ho : o < 0xDE0000000) : lpddrAt (k * 0x1000000000 + o) = some (k, o) := by
  have hdiv : (k * 0x1000000000 + o) / 0x1000000000 = k := by omega
  have hmod : (k * 0x1000000000 + o) % 0x1000000000 = o := by omega
  simp [lpddrAt, hdiv, hmod, hk, ho]

theorem memPopulated_of_lpddrAt {a n k o o' : Nat} (hfirst : lpddrAt a = some (k, o)) (hlast : lpddrAt (a + n - 1) = some (k, o')) :
    memPopulated a n = true := by
  simp [memPopulated, hfirst, hlast]

theorem memPopulated_package {k o n : Nat} (hk : k < 24) (hn : 1 ≤ n) (ho : o + n ≤ 0xDE0000000) :
    memPopulated (k * 0x1000000000 + o) n = true := by
  have hlast : k * 0x1000000000 + o + n - 1 = k * 0x1000000000 + (o + (n - 1)) := by omega
  exact memPopulated_of_lpddrAt (lpddrAt_package hk (by omega)) ((congrArg lpddrAt hlast).trans (lpddrAt_package hk (by omega)))

/-! ## The directory's step (09 R260; 11 R300, R301) -/

/-- With an empty directory and no request waiting there, a request of memory that serves it passes the directory at once. -/
theorem ncIssue_of_noEntry {m : Mod} {r : NcReq} (hdir : m.dir = []) (hretry : m.retry = []) (hsrc : m.reqSrc = [])
    (hheld : m.heldBack r = false) : m.ncIssue r = m.memPerform r := by
  have hprep : m.cohPrepare r.addr (opLen r.op) r.writes [] = (m, none) := by simp [Mod.cohPrepare, hdir]
  have hpage : ∀ l, m.pagePresent l = false := fun l => by simp [Mod.pagePresent, hdir]
  have hlook : m.lookups r.addr (opLen r.op) = m := by simp [Mod.lookups, hpage]
  simp [Mod.ncIssue, hpage, hlook, Mod.ncTry, hheld, hretry, hsrc, hprep]

/-! ## A read enters Ochre -/

section
variable {m : Mod} {a k o size : Nat} (src : Src) (hat : lpddrAt a = some (k, o)) (hn : 1 ≤ size) (ho : o + size ≤ 0xDE0000000)
  (hfail : m.fld F.MC_CTL_FAILED k = 0) (hen : m.fld F.MC_CTL_ENABLE k = 1) (hroom : m.och.length < 4096) (hlevel : (m.mcOf k).level = 0)
include hat hn ho hfail hen hroom hlevel

/-- A package that serves requests takes a narrow read into Ochre. -/
theorem ochRequest_of_room : m.ochRequest src a size = m.ochEnter src k a size := by
  have hin : ¬(size = 0 ∨ 0xDE0000000 < o + size) := by omega
  have hacc : m.ochAccepts k = true := by simp [Mod.ochAccepts, hroom, Mod.limitPasses, Mod.limitAt, hlevel]
  simp [Mod.ochRequest, hat, hin, hfail, hen, hacc]

/-- A narrow read passes the directory and its package's controller into Ochre, where it waits for its blocks. -/
theorem memAccess_ochre (hpop : memPopulated a size = true) (hhold : m.inHold k = false) (hdir : m.dir = []) (hretry : m.retry = [])
    (hsrc : m.reqSrc = []) : m.memAccess src .fabric a (.read size) (0, false) none true = (m.ochEnter src k a size, .waits) := by
  have hheld (r : NcReq) (hr : r.addr = a) : m.heldBack r = false := by simp [Mod.heldBack, hr, hat, Mod.holds, hhold]
  have hlen : opLen (.read size) = size := rfl
  unfold Mod.memAccess
  simp only [hlen, Nat.ne_of_gt hn, hpop, if_false, Bool.not_true, Bool.false_eq_true]
  rw [ncIssue_of_noEntry hdir hretry hsrc (hheld _ rfl)]
  simp [Mod.memPerform, hat, Mod.lpddrPerform, hfail, hen, isWrite, opLen, ochRequest_of_room src hat hn ho hfail hen hroom hlevel]

end

theorem onlyRegs_ochEnter (m : Mod) (src : Src) (k a size : Nat) : OnlyRegs [F.OCH_COUNT_COUNT.addr 0 0]
    { m with och := (m.clearOut.ochEnter src k a size).och, lpNext := m.lpNext + 1 } (m.clearOut.ochEnter src k a size).settle :=
  onlyRegs_settle rfl rfl fun _ ha => reg_setFld_ne _ F.OCH_COUNT_COUNT _ 0 0 0 fun he => ha (List.mem_singleton.mpr he)

theorem lpFrame_ochEnter (m : Mod) (src : Src) (k a size : Nat) : LpFrame m (m.clearOut.ochEnter src k a size) :=
  ⟨rfl, fld_setFld_addr _ F.OCH_COUNT_COUNT F.DIR_STATUS_DRAINING _ 0 0 0 0 0 0 (by decide)⟩

/-- Settles O26: the directory and the controller let the read pass into Ochre, which counts it. -/
theorem ochreHolds : Obligations.OchreHolds := by
  unfold Obligations.OchreHolds
  intro src k o size id s hq hk hn ho hfail hen hhold hdir hretry hsrc hroom hlevel
  refine ⟨?request, answers_run (exec_ochreAgeExpired id s) ⟨rfl, onlyRegs_settle rfl rfl fun _ _ => rfl⟩⟩
  have hat : lpddrAt (k * 0x1000000000 + o) = some (k, o) := lpddrAt_package hk (by omega)
  have haccess := memAccess_ochre (m := s.m.clearOut) src hat hn ho hfail hen hroom hlevel (memPopulated_package hk hn ho) hhold hdir hretry hsrc
  have hrun := exec_ochreRequest src (k * 0x1000000000 + o) size s
  unfold execOchreRequest at hrun
  simp only [hat] at hrun
  refine answers_runF hrun ?_ ?_ ?_ <;> simp only [haccess]
  · exact quiet_of_lpFrame (lpFrame_ochEnter s.m src k _ size) hq (calm_of_quiet (m := s.m) hq)
  · rfl
  · refine ⟨rfl, ?_, ⟨_, rfl, rfl, rfl, rfl, rfl, rfl, rfl⟩, onlyRegs_ochEnter s.m src k _ size⟩
    exact (fld_settle _ _ _ _ _).trans (fld_setFld_self _ F.OCH_COUNT_COUNT _ 0 0 0 (by decide))

end Sys2Proof.Machine

/-! # Proofs: one block of LPDDR: its decoder, its reads and writes (09 R252-R257, R270-R274) -/

namespace Sys2Proof.Machine

open Sys2Proof

/-! ## The decoder (09 R254) -/

/-- Without a marked pin up to four wrong symbols are corrected, wherever they are. -/
theorem decodeBlock_ok_of_le_four {errs : List Nat} (auto : Bool) (slot : Nat) (h : errs.length ≤ 4) :
    (decodeBlock none auto slot errs).ok = true := by
  simp only [decodeBlock, h, if_true]
  split
  · cases auto <;> rfl
  · rfl

/-- A marked pin's symbols are corrected, and one more. -/
theorem decodeBlock_ok_of_marked (pin : Nat) (auto : Bool) (slot : Nat) (errs : List Nat) :
    (decodeBlock (some pin) auto slot errs).ok = decide ((errs.filter (fun e => !(pinSyms pin slot).contains e)).length ≤ 1) := by
  simp only [decodeBlock]
  split <;> simp_all

/-- The decoder marks no pin while marking is off (09 R255). -/
theorem decodeBlock_mark_of_manual (marked : Option Nat) (slot : Nat) (errs : List Nat) : (decodeBlock marked false slot errs).mark = none := by
  cases marked with
  | some pin =>
    simp only [decodeBlock]
    split <;> rfl
  | none =>
    simp only [decodeBlock]
    split
    · split <;> rfl
    · split <;> rfl

/-- A block that does not decode marks no pin. -/
theorem decodeBlock_mark_of_failed {marked : Option Nat} {auto : Bool} {slot : Nat} {errs : List Nat}
    (h : (decodeBlock marked auto slot errs).ok = false) : (decodeBlock marked auto slot errs).mark = none := by
  cases auto with
  | false => exact decodeBlock_mark_of_manual marked slot errs
  | true =>
    cases marked with
    | some pin =>
      simp only [decodeBlock]
      split <;> rfl
    | none =>
      have hmany : ¬errs.length ≤ 4 := fun hle => Bool.false_ne_true (h.symm.trans (decodeBlock_ok_of_le_four true slot hle))
      simp only [decodeBlock, if_neg hmany] at h ⊢
      split at h
      · simp at h
      · rfl

theorem decodeBlock_nil (marked : Option Nat) (auto : Bool) (slot : Nat) : decodeBlock marked auto slot [] = ⟨true, [], none⟩ := by
  have hnone : (List.range 16).find? (fun _ => false) = none := rfl
  cases marked with
  | some pin => simp [decodeBlock]
  | none => simp [decodeBlock, hnone]

/-! ## A block is decoded as it is read -/

/-- What the decoder finds in the block at window offset `o` with the wrong symbols `errs`, as the controller is set. -/
def Mod.decodeOf (m : Mod) (k o : Nat) (errs : List Nat) : Decode :=
  decodeBlock (m.markedPin k (lpMap o).ch) (m.fld F.MC_CTL_AUTO_MARK k == 1) (lpMap o).slot errs

/-- The module after a block did not decode: counted, reported, its row's remap triggered (09 R273, R274). -/
def Mod.blockLost (m : Mod) (k o requester : Nat) : Mod :=
  (m.uncorrectable k (lpMap o) (k * 0x1000000000 + o) requester).remapTrigger k (lpMap o).ch (lpMap o).bank (lpMap o).row

theorem decodeRead_nil (m : Mod) (k o requester : Nat) : m.decodeRead k o [] requester = (m, true) := by
  simp [Mod.decodeRead, decodeBlock_nil]

theorem decodeRead_of_failed {m : Mod} {k o : Nat} {errs : List Nat} (requester : Nat) (h : (m.decodeOf k o errs).ok = false) :
    m.decodeRead k o errs requester = (m.blockLost k o requester, false) := by
  have hmark : (m.decodeOf k o errs).mark = none := decodeBlock_mark_of_failed h
  unfold Mod.decodeOf at h hmark
  simp [Mod.decodeRead, Mod.blockLost, h, hmark]

section
variable {m : Mod} {k o : Nat}

theorem lpReadPiece_of_clean (n requester : Nat) (hret : m.pageRetired k (o / 0x200000) = false)
    (hpoison : m.mem.poison.get? ((k * 0x1000000000 + o) / 64 * 64) = none) (hwrong : m.mem.wrongAt (k * 0x1000000000 + o) = []) :
    m.lpReadPiece k o n requester = (m, .ok, m.mem.readAt (k * 0x1000000000 + o) n) := by
  simp [Mod.lpReadPiece, hret, hpoison, hwrong, decodeRead_nil]

theorem lpReadPiece_of_failed {errs : List Nat} (n requester : Nat) (hret : m.pageRetired k (o / 0x200000) = false)
    (hpoison : m.mem.poison.get? ((k * 0x1000000000 + o) / 64 * 64) = none) (hwrong : m.mem.wrongAt (k * 0x1000000000 + o) = errs)
    (hfail : (m.decodeOf k o errs).ok = false) :
    m.lpReadPiece k o n requester =
      (((m.blockLost k o requester).drawBytes n).1, .uncorrectable, ((m.blockLost k o requester).drawBytes n).2) := by
  simp [Mod.lpReadPiece, hret, hpoison, hwrong, decodeRead_of_failed requester hfail]

/-- The memory after a whole block was written: no wrong symbol and no poison is left there. -/
def Mem.blockWritten (x : Mem) (a : Nat) (d : List Byte) : Mem :=
  { ({ x with poison := x.poison.del (a / 64 * 64) } : Mem).writeAt a (d.map some) with wrong := x.wrong.del (a / 64 * 64) }

theorem lpWritePiece_of_whole {d : List Byte} (requester : Nat) (hret : m.pageRetired k (o / 0x200000) = false) (hd : d.length = 64) :
    m.lpWritePiece k o (d.map some) requester = ({ m with mem := m.mem.blockWritten (k * 0x1000000000 + o) d }, .ok) := by
  have hsome : (d.map some).all Option.isNone = false := by
    cases d with
    | nil => simp at hd
    | cons b d => simp
  simp [Mod.lpWritePiece, hret, hsome, hd, Mem.blockWritten]

/-- An access wakes the package from self-refresh (09 R265). -/
abbrev Mod.awake (m : Mod) (k : Nat) : Mod := m.modMc k (fun c => { c with selfRefresh := false })

variable (hfail : m.fld F.MC_CTL_FAILED k = 0) (hen : m.fld F.MC_CTL_ENABLE k = 1)
include hfail hen

theorem lpAccess_read_of_block {n : Nat} (requester : Nat) (hn : 1 ≤ n) (hb : o % 64 + n ≤ 64) :
    m.lpAccess k o (.read n) requester = (m.awake k).lpReadPiece k o n requester := by
  simp [Mod.lpAccess, hfail, hen, blocksOf_within hn hb, firstBad]

theorem lpAccess_write_of_block {d : List (Option Byte)} (requester : Nat) (hn : 1 ≤ d.length) (hb : o % 64 + d.length ≤ 64) :
    m.lpAccess k o (.write d) requester =
      (((m.awake k).lpWritePiece k o d requester).1, ((m.awake k).lpWritePiece k o d requester).2, []) := by
  simp [Mod.lpAccess, hfail, hen, blocksOf_within hn hb, firstBad]

end

end Sys2Proof.Machine

/-! # Proofs: a request in its channel's command slot (09 R254, R257, R264, R273; 10 R284) -/

namespace Sys2Proof.Machine

open Sys2Proof

/-! ## The work of a package -/

/-- Only controllers change, no queue of package `k`, and nothing comes to wait at one: rows, slots, credit, queued remaps, self-refresh. -/
def PackageWork (k : Nat) (m n : Mod) : Prop :=
  n = { m with mc := n.mc } ∧ n.mc.length = m.mc.length ∧ (n.mcOf k).queues = (m.mcOf k).queues ∧
  (m.mc.all Mc.calm = true → n.mc.all Mc.calm = true)

theorem packageWork_refl (k : Nat) (m : Mod) : PackageWork k m m := ⟨rfl, rfl, rfl, id⟩

theorem packageWork_trans {k : Nat} {l m n : Mod} (h : PackageWork k l m) (g : PackageWork k m n) : PackageWork k l n := by
  obtain ⟨hm, hlen, hqueues, hcalm⟩ := h
  obtain ⟨hn, hlen', hqueues', hcalm'⟩ := g
  refine ⟨?_, hlen'.trans hlen, hqueues'.trans hqueues, hcalm' ∘ hcalm⟩
  rw [hn, hm]

theorem packageWork_modMc {g : Mc → Mc} (m : Mod) (k : Nat) (hq : ∀ c, (g c).queues = c.queues := by exact fun _ => rfl)
    (hc : ∀ c, (g c).calm = c.calm := by exact fun _ => rfl) : PackageWork k m (m.modMc k g) :=
  ⟨rfl, length_modNth _ _ _, mcOf_modMc_keeps hq m k, fun h => calm_modMc h k hc⟩

section
variable {k : Nat} {m n : Mod} (h : PackageWork k m n)
include h

theorem fld_of_packageWork (f : Fld) (i j x : Nat) : n.fld f i j x = m.fld f i j x := by
  rw [h.1]
  rfl

theorem mem_of_packageWork : n.mem = m.mem := by rw [h.1]

theorem out_of_packageWork : n.out = m.out := by rw [h.1]

theorem calm_of_packageWork (hm : m.mc.all Mc.calm = true) : n.mc.all Mc.calm = true := by
  obtain ⟨-, -, -, hcalm⟩ := h
  exact hcalm hm

end

theorem packageWork_foldl {α : Type} {k : Nat} {f : Mod → α → Mod} (hf : ∀ x y, PackageWork k x (f x y)) (l : List α) (m : Mod) :
    PackageWork k m (l.foldl f m) :=
  foldl_keeps (PackageWork k m) f (fun x y hx => packageWork_trans hx (hf x y)) l m (packageWork_refl k m)

theorem packageWork_checkBurst (m : Mod) (k c : Nat) (l : LpLoc) (write part : Bool) : PackageWork k m (m.checkBurst k c l write part).1 :=
  packageWork_modMc m k

theorem packageWork_requestBursts (m : Mod) (k o : Nat) (op : MemOp) : PackageWork k m (m.requestBursts k o op) := by
  cases op with
  | read n => exact packageWork_foldl (fun x p => packageWork_checkBurst x k _ _ _ _) _ m
  | write d => exact packageWork_foldl (fun x p => packageWork_checkBurst x k _ _ _ _) _ m

/-- A STREAM request that is not late is charged and nothing else (10 R285, R291). -/
theorem packageWork_served (m : Mod) (k bursts latency target : Nat) : PackageWork k m (m.served k 0 bursts latency target false) :=
  packageWork_modMc (g := fun mc => { mc with credit := modNth mc.credit 0 (· - bursts) }) m k

theorem packageWork_slotCount (m : Mod) (k c : Nat) (used : Bool) : PackageWork k m (m.slotCount k c used) := by
  unfold Mod.slotCount
  split
  · exact packageWork_refl k m
  · exact packageWork_modMc m k

theorem packageWork_remapTrigger (m : Mod) (k ch bank row : Nat) : PackageWork k m (m.remapTrigger k ch bank row) := by
  unfold Mod.remapTrigger
  dsimp only
  split
  · exact packageWork_refl k m
  · split
    · exact packageWork_refl k m
    · exact packageWork_modMc m k

/-! ## A request is served (10 R283) -/

/-- A STREAM request of an operation is served by its access; the rest is the package's work. -/
theorem serve1_of_access {m n : Mod} {k : Nat} {w : LpWait} {st : Status} {d : List Byte} (hnc : w.nc = none) (hcls : w.req.cls.val = 0)
    (hlate : w.late = false) (hacc : m.lpAccess k (w.req.addr % 0x1000000000) w.req.op 0 = (n, st, d)) :
    ∃ n', m.serve1 k w = (n', st, d) ∧ PackageWork k n n' := by
  refine ⟨(n.requestBursts k (w.req.addr % 0x1000000000) w.req.op).served k 0 (burstsOf (w.req.addr % 0x1000000000) w.req.op)
    (n.ticks - w.tick) w.target false, ?_,
    packageWork_trans (packageWork_requestBursts n k _ _) (packageWork_served _ k _ _ _)⟩
  simp [Mod.serve1, Mod.lpPerform, hnc, hcls, hlate, hacc]

/-! ## A request reaches a channel where nothing waits (10 R284, R287, R288) -/

/-- A package in service at which nothing waits. -/
structure PackageReady (m : Mod) (k : Nat) : Prop where
  quiet : m.quiet = true
  queues : (m.mcOf k).queues = [[], [], [], []]
  level : (m.mcOf k).level = 0
  refreshing : (m.mcOf k).refreshing = []
  noOchre : m.och = []
  working : m.fld F.MC_CTL_FAILED k = 0
  enabled : m.fld F.MC_CTL_ENABLE k = 1
  listed : k < m.mc.length

/-- The request as it waits at its channel. -/
def Mod.arriving (m : Mod) (k : Nat) (r : LpReq) : LpWait := m.lpWaitOf k m.lpNext r none none

/-- The module with the next number of a request taken. -/
def Mod.numbered (m : Mod) : Mod := { m with lpNext := m.lpNext + 1 }

/-- The module with a request in its channel's queue. -/
def Mod.withRequest (m : Mod) (k c : Nat) (r : LpReq) : Mod :=
  m.numbered.modMc k (fun mc => { mc with queues := modNth mc.queues c (· ++ [m.arriving k r]) })

section
variable {m : Mod} {k : Nat} (h : PackageReady m k)
include h

theorem queue_of_ready (c : Nat) : nth (m.mcOf k).queues c [] = [] := by
  rw [h.queues]
  exact nth_of_forall (P := fun q : List LpWait => q = []) (by simp) rfl c

theorem lpQueue_of_ready (c : Nat) (r : LpReq) : m.lpQueue k c r none none = m.withRequest k c r := by
  obtain ⟨hback, hhold, -⟩ := mcOf_calm (calm_of_quiet h.quiet) k
  have hacc : m.lpAccepts k c r = true := by
    simp [Mod.lpAccepts, Mod.chanQueue, queue_of_ready h c, hhold, Mod.limitPasses, Mod.limitAt, h.level]
  simp [Mod.lpQueue, Mod.lpEnter, hback, hacc, Mod.withRequest, Mod.arriving, Mod.numbered, Mod.modMc]

theorem queue_withRequest {c : Nat} (hc : c < 4) (r : LpReq) : nth ((m.withRequest k c r).mcOf k).queues c [] = [m.arriving k r] := by
  have hmc : (m.withRequest k c r).mcOf k = { m.mcOf k with queues := modNth (m.mcOf k).queues c (· ++ [m.arriving k r]) } :=
    mcOf_modMc_self (m := m.numbered) h.listed
  rw [hmc]
  show nth (modNth (m.mcOf k).queues c _) c [] = _
  rw [nth_modNth_self _ _ _ _ (by rw [h.queues]; exact hc), queue_of_ready h c]
  rfl

/-- The only request of a channel is chosen. -/
theorem choose_withRequest {c : Nat} (hc : c < 4) (r : LpReq) :
    (m.withRequest k c r).choose k c = some ((m.withRequest k c r).candOf k c (m.arriving k r)) := by
  have hready (b : Nat) : (m.withRequest k c r).bankReady k c b = true := by
    have hrefresh : ((m.withRequest k c r).mcOf k).refreshing = [] :=
      (mcOf_modMc_keeps (p := Mc.refreshing) (g := fun mc => { mc with queues := modNth mc.queues c (· ++ [m.arriving k r]) }) (fun _ => rfl)
        m.numbered k).trans h.refreshing
    simp [Mod.bankReady, hrefresh]
  have hoch : (m.withRequest k c r).ochCands k c = [] := by
    have hnone : (m.withRequest k c r).och = [] := h.noOchre
    simp [Mod.ochCands, Mod.ochPieces, hnone]
  simp [Mod.choose, queue_withRequest h hc r, hready, hoch]

/-- Taken from the queue in which it waited alone, the request leaves the queues as they were. -/
theorem queues_taken (c : Nat) (r : LpReq) :
    modNth (modNth (m.mcOf k).queues c (· ++ [m.arriving k r])) c (fun q => q.filter (fun x => x.id != (m.arriving k r).id)) = (m.mcOf k).queues := by
  rw [modNth_modNth]
  refine (modNth_congr (g := id) [] ?_).trans (modNth_id _ _)
  rw [queue_of_ready h c]
  simp

/-- At step 0 the request is served in its slot (09 R262, 10 R284). -/
theorem lpSlot_of_ready {c : Nat} (hc : c < 4) (r : LpReq) (errs : List BlockErr) {l : Mod} (hl : l.noteErrs errs = m)
    (hstep : m.fld F.MC_THERM_STEP k = 0) :
    ∃ n, PackageWork k m.numbered n ∧ l.lpSlot k c [r] errs =
      (n.serve1 k (m.arriving k r)).1.emit (.compl r.src (n.serve1 k (m.arriving k r)).2.1 (n.serve1 k (m.arriving k r)).2.2) := by
  have hstep' : (m.withRequest k c r).fld F.MC_THERM_STEP k = 0 := hstep
  have hfail : (m.withRequest k c r).fld F.MC_CTL_FAILED k = 0 := h.working
  have harrive : m.lpArrive k c [r] = m.withRequest k c r := lpQueue_of_ready h c r
  have hwork := packageWork_slotCount (m.withRequest k c r) k c true
  refine ⟨((m.withRequest k c r).slotCount k c true).modMc k
    (fun mc => { mc with queues := modNth mc.queues c (fun q => q.filter (fun x => x.id != (m.arriving k r).id)) }), ?work, ?served⟩
  case served =>
    simp [Mod.lpSlot, hl, harrive, hfail, Mod.inHold, hstep', Mod.slotOpen, choose_withRequest h hc r, Mod.candOf, Mod.serveWait]
    rfl
  case work =>
    have hqueues : ((m.withRequest k c r).mcOf k).queues = modNth (m.mcOf k).queues c (· ++ [m.arriving k r]) :=
      congrArg Mc.queues (mcOf_modMc_self (m := m.numbered) h.listed)
    have hlen : (m.withRequest k c r).mc.length = m.mc.length := length_modNth _ _ _
    have hcalm : (m.withRequest k c r).mc.all Mc.calm = true := calm_modMc (m := m.numbered) (calm_of_quiet h.quiet) k
    obtain ⟨hcount, hlen', hqueues', hcalm'⟩ := hwork
    refine ⟨?_, (length_modNth _ _ _).trans (hlen'.trans hlen), ?_, fun _ => calm_modMc (hcalm' hcalm) k⟩
    · rw [hcount]
      rfl
    · rw [mcOf_modMc_self (by rw [hlen', hlen]; exact h.listed), hqueues', hqueues]
      exact queues_taken h c r

/-- In HOLD it waits in its queue (09 R264). -/
theorem lpSlot_of_hold (c : Nat) (r : LpReq) (hold : m.inHold k = true) : m.lpSlot k c [r] [] = m.withRequest k c r := by
  have hfail : (m.withRequest k c r).fld F.MC_CTL_FAILED k = 0 := h.working
  have hold' : (m.withRequest k c r).inHold k = true := hold
  have harrive : m.lpArrive k c [r] = m.withRequest k c r := lpQueue_of_ready h c r
  have hnone : m.noteErrs [] = m := rfl
  simp [Mod.lpSlot, hnone, harrive, hfail, hold']

end

/-! ## A request of one block (09 R257, R273) -/

/-- A STREAM request that is not late, of `n` bytes within one block of package `k`, at window offset `o`, whose page is in service. -/
structure BlockRequest (m : Mod) (k : Nat) (r : LpReq) (o n : Nat) : Prop where
  stream : r.cls.val = 0
  onTime : r.lateAtIssue = false
  slack : 0 < m.slack r.deadline.val
  addr : r.addr = k * 0x1000000000 + o
  inside : o + n ≤ 0xDE0000000
  pos : 1 ≤ n
  block : o % 64 + n ≤ 64
  page : m.pageRetired k (o / 0x200000) = false

section
variable {m x : Mod} {k : Nat} (h : PackageWork k m x)
include h

theorem pageRetired_of_packageWork (p : Nat) : x.pageRetired k p = m.pageRetired k p := by
  simp only [Mod.pageRetired, fld_of_packageWork h]

theorem decodeOf_of_packageWork (o : Nat) (errs : List Nat) : x.decodeOf k o errs = m.decodeOf k o errs := by
  simp only [Mod.decodeOf, Mod.markedPin, fld_of_packageWork h]

theorem packageWork_withMem (y : Mem) : PackageWork k { m with mem := y } { x with mem := y } := by
  obtain ⟨hx, hlen, hqueues, hcalm⟩ := h
  exact ⟨congrArg (fun z : Mod => ({ z with mem := y } : Mod)) hx, hlen, hqueues, hcalm⟩

theorem packageWork_awake : PackageWork k m (x.awake k) := packageWork_trans h (packageWork_modMc x k)

end

section
variable {l m : Mod} {k c o n : Nat} {r : LpReq} {errs : List BlockErr} (hready : PackageReady m k) (hr : BlockRequest m k r o n) (hc : c < 4)
  (hstep : m.fld F.MC_THERM_STEP k = 0) (hl : l.noteErrs errs = m)
include hready hr hc hstep hl

/-- A request is served by the access that its package makes, awake, and completes with what the access gives. -/
theorem lpSlot_of_access {y : Mod → Mod} {st : Status} {d : Mod → List Byte}
    (hacc : ∀ x, PackageWork k m.numbered x → x.fld F.MC_CTL_FAILED k = 0 → x.fld F.MC_CTL_ENABLE k = 1 →
      x.lpAccess k o r.op 0 = (y (x.awake k), st, d (x.awake k))) :
    ∃ x z, PackageWork k m.numbered x ∧ PackageWork k (y x) z ∧ l.lpSlot k c [r] errs = z.emit (.compl r.src st (d x)) := by
  obtain ⟨x, hx, hslot⟩ := lpSlot_of_ready hready hc r errs hl hstep
  have hoff : r.addr % 0x1000000000 = o := by
    have haddr := hr.addr
    have hin := hr.inside
    have hpos := hr.pos
    omega
  have hlate : (m.arriving k r).late = false := by
    simp [Mod.arriving, Mod.lpWaitOf, hr.onTime, hr.slack]
  have hfail : x.fld F.MC_CTL_FAILED k = 0 := (fld_of_packageWork hx _ _ _ _).trans hready.working
  have hen : x.fld F.MC_CTL_ENABLE k = 1 := (fld_of_packageWork hx _ _ _ _).trans hready.enabled
  have hacc' : x.lpAccess k ((m.arriving k r).req.addr % 0x1000000000) (m.arriving k r).req.op 0 = (y (x.awake k), st, d (x.awake k)) :=
    (congrArg (fun a => x.lpAccess k a r.op 0) hoff).trans (hacc x hx hfail hen)
  obtain ⟨z, hserve, hz⟩ := serve1_of_access (m := x) (w := m.arriving k r) rfl hr.stream hlate hacc'
  exact ⟨x.awake k, z, packageWork_awake hx, hz, by rw [hslot, hserve]⟩

theorem lpSlot_read (hop : r.op = .read n) (hpoison : m.mem.poison.get? (r.addr / 64 * 64) = none)
    (hwrong : m.mem.wrong.get? (r.addr / 64 * 64) = none) :
    ∃ z, PackageWork k m.numbered z ∧ l.lpSlot k c [r] errs = z.emit (.compl r.src .ok (m.mem.readAt r.addr n)) := by
  have hacc (x : Mod) (hx : PackageWork k m.numbered x) (hfail : x.fld F.MC_CTL_FAILED k = 0) (hen : x.fld F.MC_CTL_ENABLE k = 1) :
      x.lpAccess k o r.op 0 = (x.awake k, .ok, m.mem.readAt r.addr n) := by
    have hmem : (x.awake k).mem = m.mem := mem_of_packageWork (m := m.numbered) (packageWork_awake hx)
    have hpage : (x.awake k).pageRetired k (o / 0x200000) = false := (pageRetired_of_packageWork (packageWork_awake hx) _).trans hr.page
    rw [hop, lpAccess_read_of_block hfail hen 0 hr.pos hr.block, lpReadPiece_of_clean n 0 hpage, hmem, hr.addr]
    · rwa [hmem, ← hr.addr]
    · rw [Mem.wrongAt, hmem, ← hr.addr, hwrong]
      rfl
  obtain ⟨x, z, hx, hz, hslot⟩ := lpSlot_of_access hready hr hc hstep hl (y := fun x => x) (st := .ok) (d := fun _ => m.mem.readAt r.addr n) hacc
  exact ⟨z, packageWork_trans hx hz, hslot⟩

theorem lpSlot_write {d : List Byte} (hop : r.op = .write (d.map some)) (hd : d.length = 64) (hn : n = 64) :
    ∃ z, PackageWork k { m.numbered with mem := m.mem.blockWritten r.addr d } z ∧ l.lpSlot k c [r] errs = z.emit (.compl r.src .ok []) := by
  have hacc (x : Mod) (hx : PackageWork k m.numbered x) (hfail : x.fld F.MC_CTL_FAILED k = 0) (hen : x.fld F.MC_CTL_ENABLE k = 1) :
      x.lpAccess k o r.op 0 = ({ x.awake k with mem := m.mem.blockWritten r.addr d }, .ok, []) := by
    have hmem : (x.awake k).mem = m.mem := mem_of_packageWork (m := m.numbered) (packageWork_awake hx)
    have hpage : (x.awake k).pageRetired k (o / 0x200000) = false := (pageRetired_of_packageWork (packageWork_awake hx) _).trans hr.page
    have hlen : (d.map some).length = n := by rw [List.length_map, hd, hn]
    rw [hop, lpAccess_write_of_block hfail hen 0 (by rw [hlen]; exact hr.pos) (by rw [hlen]; exact hr.block), lpWritePiece_of_whole 0 hpage hd,
      hmem, hr.addr]
  obtain ⟨x, z, hx, hz, hslot⟩ := lpSlot_of_access hready hr hc hstep hl (y := fun x => { x with mem := m.mem.blockWritten r.addr d })
    (st := .ok) (d := fun _ => []) hacc
  exact ⟨z, packageWork_trans (packageWork_withMem hx _) hz, hslot⟩

theorem lpSlot_lost {wrong : List Nat} (hop : r.op = .read n) (hpoison : m.mem.poison.get? (r.addr / 64 * 64) = none)
    (hwrong : m.mem.wrong.get? (r.addr / 64 * 64) = some wrong) (hfails : (m.decodeOf k o wrong).ok = false) :
    ∃ x z d, PackageWork k m.numbered x ∧ PackageWork k ((x.blockLost k o 0).drawBytes n).1 z ∧
      l.lpSlot k c [r] errs = z.emit (.compl r.src .uncorrectable d) := by
  have hacc (x : Mod) (hx : PackageWork k m.numbered x) (hfail : x.fld F.MC_CTL_FAILED k = 0) (hen : x.fld F.MC_CTL_ENABLE k = 1) :
      x.lpAccess k o r.op 0 = ((((x.awake k).blockLost k o 0).drawBytes n).1, .uncorrectable, (((x.awake k).blockLost k o 0).drawBytes n).2) := by
    have hmem : (x.awake k).mem = m.mem := mem_of_packageWork (m := m.numbered) (packageWork_awake hx)
    have hpage : (x.awake k).pageRetired k (o / 0x200000) = false := (pageRetired_of_packageWork (packageWork_awake hx) _).trans hr.page
    have hdecode : ((x.awake k).decodeOf k o wrong).ok = false := by rwa [decodeOf_of_packageWork (packageWork_awake hx)]
    rw [hop, lpAccess_read_of_block hfail hen 0 hr.pos hr.block]
    refine lpReadPiece_of_failed n 0 hpage ?_ ?_ hdecode
    · rwa [hmem, ← hr.addr]
    · rw [Mem.wrongAt, hmem, ← hr.addr, hwrong]
      rfl
  obtain ⟨x, z, hx, hz, hslot⟩ := lpSlot_of_access hready hr hc hstep hl (y := fun x => ((x.blockLost k o 0).drawBytes n).1)
    (st := .uncorrectable) (d := fun x => ((x.blockLost k o 0).drawBytes n).2) hacc
  exact ⟨x, z, _, hx, hz, hslot⟩

end

/-- The package's work keeps a module where nothing waits quiet. -/
theorem lpFrame_of_packageWork {k : Nat} {m n : Mod} (h : PackageWork k m n) : LpFrame m n := by
  refine ⟨?_, fld_of_packageWork h _ _ _ _⟩
  rw [h.1]

/-! ## A block that does not decode (09 R273) -/

theorem lpMap_ch_lt (o : Nat) : (lpMap o).ch < 4 := Nat.mod_lt _ (by decide)

/-- A saturating counter of several counts one. -/
theorem fld_satFld_at (m : Mod) (f : Fld) (i k : Nat) (h : f.lo + f.w ≤ 64) : (m.satFld f 1 i k).fld f i k = min (m.fld f i k + 1) (2 ^ f.w - 1) := by
  unfold Mod.satFld satAdd
  rw [fld_setFld_self _ _ _ _ _ _ (by simpa using h)]
  exact Nat.mod_eq_of_lt (Nat.lt_of_le_of_lt (Nat.min_le_right _ _) (Nat.sub_lt (Nat.two_pow_pos _) Nat.one_pos))

section
variable (m : Mod) (k : Fin 24) (o requester : Nat)

theorem countUe_inBlock : F.MC_COUNT_UE.off + (lpMap o).ch * F.MC_COUNT_UE.stride < 0x10000 := by
  have hch := lpMap_ch_lt o
  show 0x20 + (lpMap o).ch * 8 < 0x10000
  omega

theorem regsAndEvents_uncorrectable (a : Nat) :
    RegsAndEvents [F.MC_COUNT_UE.addr k (lpMap o).ch] m (m.uncorrectable k (lpMap o) a requester) :=
  regsAndEvents_raise (regsAndEvents_satFld (regsAndEvents_refl _ m) _ _ _ _ (.head _)) _ _

theorem fld_uncorrectable (a : Nat) : (m.uncorrectable k (lpMap o) a requester).fld F.MC_COUNT_UE k (lpMap o).ch =
    min (m.fld F.MC_COUNT_UE k (lpMap o).ch + 1) 0xFFFFFFFF :=
  (fld_raise _ _ _ _ _ _ _ (mcReg_not_event rfl k (countUe_inBlock o))).trans (fld_satFld_at m F.MC_COUNT_UE k _ (by decide))

/-- Its triggered remap is the package's work. -/
theorem packageWork_blockLost :
    PackageWork k (m.uncorrectable k (lpMap o) (k.val * 0x1000000000 + o) requester) (m.blockLost k o requester) :=
  packageWork_remapTrigger _ _ _ _ _

theorem fld_blockLost : (m.blockLost k o requester).fld F.MC_COUNT_UE k (lpMap o).ch = min (m.fld F.MC_COUNT_UE k (lpMap o).ch + 1) 0xFFFFFFFF :=
  (fld_of_packageWork (packageWork_blockLost m k o requester) _ _ _ _).trans (fld_uncorrectable m k o requester _)

theorem raised_blockLost : Raised (m.blockLost k o requester) 0x0501
    (d8 (k.val * 0x1000000000 + o) ++ d1 (4 * k.val + (lpMap o).ch) ++ d1 (lpMap o).bank ++ d4 (lpMap o).row ++ d1 requester) := by
  unfold Raised
  rw [out_of_packageWork (packageWork_blockLost m k o requester)]
  exact raised_raise _ _ _

theorem stays_blockLost (h : m.out = []) : (m.blockLost k o requester).out.all Out.stays = true := by
  rw [out_of_packageWork (packageWork_blockLost m k o requester)]
  exact stays_raise _ _ (by rw [out_satFld, h]; rfl)

theorem lpFrame_blockLost : LpFrame m (m.blockLost k o requester) := by
  have hdrain : F.DIR_STATUS_DRAINING.addr 0 0 ∉ [F.MC_COUNT_UE.addr k (lpMap o).ch] :=
    List.not_mem_cons_of_ne_of_not_mem (mcReg_ne_draining rfl k (countUe_inBlock o)) List.not_mem_nil
  exact lpFrame_trans (lpFrame_of_regsAndEvents (regsAndEvents_uncorrectable m k o requester _) hdrain)
    (lpFrame_of_packageWork (packageWork_blockLost m k o requester))

theorem calm_blockLost (h : m.mc.all Mc.calm = true) : (m.blockLost k o requester).mc.all Mc.calm = true := by
  refine calm_of_packageWork (packageWork_blockLost m k o requester) ?_
  rw [(regsAndEvents_uncorrectable m k o requester _).1]
  exact h

end

/-! ## Completions for operations -/

/-- Outputs that stay and a completion for an operation: the completion is noted for its sequencer. -/
theorem conclude_of_opCompl_last {m : Mod} {os : List Out} {q : Fin 4} {seq key : Nat} {st : Status} {d : List Byte} (hq : m.quiet = true)
    (hos : os.all Out.stays = true) (ho : m.out = os ++ [.compl (.op q seq key) st d]) :
    m.conclude = { m with opDone := m.opDone ++ [(q.val, seq, key, st, d)] } := by
  simp only [Mod.quiet, Bool.and_eq_true, Bool.not_eq_true'] at hq
  obtain ⟨⟨hidle, hmem⟩, hsvc⟩ := hq
  refine conclude_of_finish ?_ hmem hidle hsvc
  rw [finish_of_idle hidle, ho, List.foldl_append, foldl_route1 _ os hos]
  show ({ m with out := [] ++ os ++ [.compl (.op q seq key) st d], opDone := m.opDone ++ [(q.val, seq, key, st, d)] } : Mod) = _
  rw [List.nil_append, ← ho]

/-- The completion of an operation's request that a slot gives, after outputs that stay. -/
theorem lpSlot_answers {s : State} {k : Fin 24} {c q : Fin 4} {arrivals : List LpReq} {errs : List BlockErr} {n : Mod} {seq key : Nat} {st : Status}
    {d : List Byte} {P : State → Prop} (hq : s.m.quiet = true)
    (hslot : s.m.clearOut.lpSlot k c arrivals errs = n.emit (.compl (.op q seq key) st d)) (hn : LpFrame s.m n) (hcalm : n.mc.all Mc.calm = true)
    (hout : n.out.all Out.stays = true)
    (hp : P { s with m := { n.emit (.compl (.op q seq key) st d) with opDone := n.opDone ++ [(q.val, seq, key, st, d)] }.settle }) :
    Answers (.lpddrCommandSlot k c arrivals errs) s P := by
  have hquiet : (n.emit (.compl (.op q seq key) st d)).quiet = true := quiet_of_lpFrame (lpFrame_trans hn ⟨rfl, rfl⟩) hq hcalm
  refine answers_concluded (exec_lpddrCommandSlot k c arrivals errs s) ?_ hp
  rw [hslot]
  exact conclude_of_opCompl_last hquiet hout rfl

/-! ## The memory after a block was written (09 R257) -/

@[simp] theorem get?_del_self {α : Type} (t : Sparse α) (k : Nat) : Sparse.get? (t.del k) k = none := by
  have hkey := get?_filter_key t (fun x => x != k) k
  simpa [Sparse.del] using hkey

@[simp] theorem poison_writeAt (x : Mem) (a : Nat) (d : List (Option Byte)) : (x.writeAt a d).poison = x.poison := by
  induction d generalizing x a with
  | nil => rfl
  | cons v d ih =>
    cases v with
    | none => exact ih x (a + 1)
    | some b => exact ih _ (a + 1)

section
variable (x : Mem) (a : Nat) (d : List Byte)

theorem readAt_blockWritten : (x.blockWritten a d).readAt a d.length = d :=
  readAt_writeAt_self { x with poison := x.poison.del (a / 64 * 64) } a d

theorem poison_blockWritten : (x.blockWritten a d).poison.get? (a / 64 * 64) = none := by
  show Sparse.get? (Mem.writeAt _ a (d.map some)).poison _ = none
  simp

theorem byte_blockWritten {y : Nat} (h : y < a ∨ a + d.length ≤ y) : (x.blockWritten a d).byte y = x.byte y :=
  byte_writeAt_of_outside { x with poison := x.poison.del (a / 64 * 64) } a (d.map some) (by rwa [List.length_map])

end

/-! ## The slot serves (09 R254, R257, R264, R273; 10 R284) -/

section
variable {s : State} {k : Fin 24} {c q : Fin 4} {r : LpReq} {seq key o n : Nat} (hready : PackageReady s.m k) (hr : BlockRequest s.m k r o n)
  (hsrc : r.src = .op q seq key)
include hready

include hr hsrc in
theorem lpSlot_read_answers (hop : r.op = .read n) (hstep : s.m.fld F.MC_THERM_STEP k = 0)
    (hpoison : s.m.mem.poison.get? (r.addr / 64 * 64) = none) (hwrong : s.m.mem.wrong.get? (r.addr / 64 * 64) = none) :
    Answers (.lpddrCommandSlot k c [r] []) s (fun t => t.m.out = [.compl r.src .ok (s.m.mem.readAt r.addr n)] ∧
      (t.m.mcOf k).queues = [[], [], [], []] ∧ OnlyRegs []
        { s.m with mc := t.m.mc, lpNext := s.m.lpNext + 1, opDone := s.m.opDone ++ [(q.val, seq, key, .ok, s.m.mem.readAt r.addr n)] } t.m) := by
  have hclear : PackageReady s.m.clearOut k := { hready with quiet := hready.quiet }
  obtain ⟨z, hz, hslot⟩ := lpSlot_read (l := s.m.clearOut) (errs := []) hclear { hr with stream := hr.stream } c.isLt hstep rfl hop hpoison hwrong
  rw [hsrc] at hslot ⊢
  have hframe : LpFrame s.m z := lpFrame_trans (m := s.m.clearOut.numbered) ⟨rfl, rfl⟩ (lpFrame_of_packageWork hz)
  have hout : z.out = [] := out_of_packageWork hz
  obtain ⟨hform, -, hqueues, hcalm⟩ := hz
  refine lpSlot_answers hready.quiet hslot hframe (hcalm (calm_of_quiet hready.quiet)) (by rw [hout]; rfl)
    ⟨?_, hqueues.trans hready.queues, onlyRegs_settle ?_ ?_ ?_⟩
  · exact congrArg (· ++ _) hout
  · rw [hform]
    rfl
  · rw [hform]
    rfl
  · rw [hform]
    exact fun _ _ => rfl

include hr hsrc in
theorem lpSlot_write_answers {d : List Byte} (hop : r.op = .write (d.map some)) (hn : n = 64) (hd : d.length = 64)
    (hstep : s.m.fld F.MC_THERM_STEP k = 0) :
    Answers (.lpddrCommandSlot k c [r] []) s (fun t => t.m.out = [.compl r.src .ok []] ∧ t.m.mem.readAt r.addr 64 = d ∧
      t.m.mem.poison.get? r.addr = none ∧ SameRegsBut [] s.m t.m ∧ (∀ x, x < r.addr ∨ r.addr + 64 ≤ x → t.m.mem.byte x = s.m.mem.byte x)) := by
  have hclear : PackageReady s.m.clearOut k := { hready with quiet := hready.quiet }
  have haligned : r.addr / 64 * 64 = r.addr := by
    have haddr := hr.addr
    have hblock := hr.block
    omega
  obtain ⟨z, hz, hslot⟩ := lpSlot_write (l := s.m.clearOut) (errs := []) hclear { hr with stream := hr.stream } c.isLt hstep rfl hop hd hn
  rw [hsrc] at hslot ⊢
  have hframe : LpFrame s.m z :=
    lpFrame_trans (m := { s.m.clearOut.numbered with mem := s.m.mem.blockWritten r.addr d }) ⟨rfl, rfl⟩ (lpFrame_of_packageWork hz)
  have hout : z.out = [] := out_of_packageWork hz
  have hmem : z.mem = s.m.mem.blockWritten r.addr d := mem_of_packageWork hz
  refine lpSlot_answers hready.quiet hslot hframe (calm_of_packageWork hz (calm_of_quiet hready.quiet)) (by rw [hout]; rfl) ⟨?_, ?_, ?_, fun a _ => ?_, fun x hx => ?_⟩
  · exact congrArg (· ++ _) hout
  · rw [readAt_settle]
    show z.mem.readAt r.addr 64 = d
    rw [hmem, ← hd, readAt_blockWritten]
  · rw [poison_settle]
    show z.mem.poison.get? r.addr = none
    have hgone := poison_blockWritten s.m.mem r.addr d
    rwa [haligned, ← hmem] at hgone
  · rw [reg_settle]
    show z.reg a = s.m.reg a
    rw [hz.1]
    rfl
  · rw [byte_settle]
    show z.mem.byte x = _
    rw [hmem, byte_blockWritten _ _ _ (by rwa [hd])]

include hr hsrc in
theorem lpSlot_lost_answers {e : BlockErr} (hop : r.op = .read n) (hstep : s.m.fld F.MC_THERM_STEP k = 0)
    (hpoison : s.m.mem.poison.get? (r.addr / 64 * 64) = none) (haddr : e.addr = r.addr)
    (hfails : (s.m.decodeOf k o (e.syms.map Fin.val).eraseDups).ok = false) :
    Answers (.lpddrCommandSlot k c [r] [e]) s (fun t => (∃ d, .compl r.src .uncorrectable d ∈ t.m.out) ∧
      t.m.fld F.MC_COUNT_UE k (lpMap o).ch = min (s.m.fld F.MC_COUNT_UE k (lpMap o).ch + 1) 0xFFFFFFFF ∧
      Raised t.m 0x0501 (d8 r.addr ++ d1 (4 * k + (lpMap o).ch) ++ d1 (lpMap o).bank ++ d4 (lpMap o).row ++ d1 0)) := by
  have hnoted : PackageReady (s.m.clearOut.noteErrs [e]) k := { hready with quiet := hready.quiet }
  have hwrong : (s.m.clearOut.noteErrs [e]).mem.wrong.get? (r.addr / 64 * 64) = some (e.syms.map Fin.val).eraseDups := by
    rw [← haddr]
    exact get?_set_self _ _ _
  obtain ⟨x, z, d, hx, hz, hslot⟩ := lpSlot_lost (l := s.m.clearOut) (errs := [e]) hnoted { hr with stream := hr.stream } c.isLt hstep rfl hop
    hpoison hwrong hfails
  rw [hsrc] at hslot ⊢
  have hxout : x.out = [] := out_of_packageWork hx
  have hzout : z.out = (x.blockLost k o 0).out := out_of_packageWork (m := ((x.blockLost k o 0).drawBytes n).1) hz
  have hframe : LpFrame s.m z := by
    have hnote : LpFrame s.m (s.m.clearOut.noteErrs [e]).numbered := ⟨rfl, rfl⟩
    have hdraw : LpFrame (x.blockLost k o 0) ((x.blockLost k o 0).drawBytes n).1 := ⟨rfl, rfl⟩
    exact lpFrame_trans (lpFrame_trans hnote (lpFrame_of_packageWork hx))
      (lpFrame_trans (lpFrame_trans (lpFrame_blockLost x k o 0) hdraw) (lpFrame_of_packageWork hz))
  have hcalm : z.mc.all Mc.calm = true := calm_of_packageWork hz (calm_blockLost x k o 0 (calm_of_packageWork hx (calm_of_quiet hready.quiet)))
  refine lpSlot_answers hready.quiet hslot hframe hcalm ?_ ⟨⟨d, ?_⟩, ?_, ?_⟩
  · rw [hzout]
    exact stays_blockLost x k o 0 hxout
  · exact List.mem_append_right _ (List.mem_singleton_self _)
  · rw [fld_settle]
    calc z.fld F.MC_COUNT_UE k (lpMap o).ch = (x.blockLost k o 0).fld F.MC_COUNT_UE k (lpMap o).ch := fld_of_packageWork hz _ _ _ _
      _ = min (x.fld F.MC_COUNT_UE k (lpMap o).ch + 1) 0xFFFFFFFF := fld_blockLost x k o 0
      _ = min (s.m.fld F.MC_COUNT_UE k (lpMap o).ch + 1) 0xFFFFFFFF := by rw [fld_of_packageWork hx]; rfl
  · obtain ⟨rec, hcode, hdata, hmem⟩ := raised_blockLost x k o 0
    exact ⟨rec, hcode, by rw [hdata, hr.addr], List.mem_append_left _ (by rwa [hzout])⟩

theorem lpSlot_hold_answers (r : LpReq) (hold : s.m.inHold k = true) :
    Answers (.lpddrCommandSlot k c [r] []) s (fun t => t.m.out = [] ∧
      (∃ w, nth (t.m.mcOf k).queues c [] = [w] ∧ w.req = r) ∧ OnlyRegs [] { s.m with mc := t.m.mc, lpNext := s.m.lpNext + 1 } t.m) := by
  have hclear : PackageReady s.m.clearOut k := { hready with quiet := hready.quiet }
  have hslot := lpSlot_of_hold hclear c r hold
  have hquiet : (s.m.clearOut.withRequest k c r).quiet = true :=
    quiet_of_lpFrame (m := s.m) ⟨rfl, rfl⟩ hready.quiet (calm_modMc (m := s.m.clearOut.numbered) (calm_of_quiet hready.quiet) k)
  refine answers_runF (exec_lpddrCommandSlot k c [r] [] s) ?_ ?_ ?_ <;> rw [hslot]
  · exact hquiet
  · rfl
  · exact ⟨rfl, ⟨_, queue_withRequest hclear c.isLt r, rfl⟩, onlyRegs_settle rfl rfl fun _ _ => rfl⟩

end

/-- Settles O25: the request waits alone at its channel, so its slot chooses it and its package's access answers it. -/
theorem lpddrServes : Obligations.LpddrServes := by
  unfold Obligations.LpddrServes
  refine ⟨?slot, fun auto slot _ h => decodeBlock_ok_of_le_four auto slot h, decodeBlock_ok_of_marked, decodeBlock_mark_of_manual⟩
  intro k c r q seq key o n s hquiet hsrc hcls hlate hslack haddr hin hpos hblock hqueues hlevel hrefresh hoch hfail hen hpage hlen
  have hready : PackageReady s.m k := ⟨hquiet, hqueues, hlevel, hrefresh, hoch, hfail, hen, hlen⟩
  have hr : BlockRequest s.m k r o n := ⟨hcls, hlate, hslack, haddr, hin, hpos, hblock, hpage⟩
  exact ⟨fun hop hstep hpoison hwrong => lpSlot_read_answers hready hr hsrc hop hstep hpoison hwrong,
    fun _ hop hn hd hstep => lpSlot_write_answers hready hr hsrc hop hn hd hstep,
    fun _ hop hstep hpoison he hfails => lpSlot_lost_answers hready hr hsrc hop hstep hpoison he hfails,
    fun hold => lpSlot_hold_answers hready r hold⟩

end Sys2Proof.Machine

/-! # Proofs: scrub of a row unit (09 R272, R273) -/

namespace Sys2Proof.Machine

open Sys2Proof

/-! ## Event records leave LPDDR's tables (15 R402) -/

/-- No block's stored poison or wrong symbols changed. -/
def SameBlocks (m n : Mod) : Prop := n.mem.poison = m.mem.poison ∧ n.mem.wrong = m.mem.wrong

theorem sameBlocks_refl (m : Mod) : SameBlocks m m := ⟨rfl, rfl⟩

theorem sameBlocks_trans {l m n : Mod} (h : SameBlocks l m) (g : SameBlocks m n) : SameBlocks l n := ⟨g.1.trans h.1, g.2.trans h.2⟩

theorem sameBlocks_of_mem {m n : Mod} (h : n.mem = m.mem) : SameBlocks m n := ⟨congrArg Mem.poison h, congrArg Mem.wrong h⟩

theorem sameBlocks_meetBank (m : Mod) (arr b : Nat) : SameBlocks m (m.meetBank arr b).1 := by
  unfold Mod.meetBank
  simp only
  split
  · split
    · exact sameBlocks_refl m
    · exact sameBlocks_of_mem rfl
  · exact sameBlocks_refl m

theorem sameBlocks_hubWrite (m : Mod) (a : Nat) (d : List Byte) : SameBlocks m (m.hubWrite a d) := by
  rw [hubWrite_eq]
  refine foldl_keeps (SameBlocks m) _ (fun x i hx => sameBlocks_trans hx ?_) _ m (sameBlocks_refl m)
  unfold hubByte
  split
  · simp only
    split
    · exact sameBlocks_meetBank x 16 _
    · exact sameBlocks_trans (sameBlocks_meetBank x 16 _) ⟨rfl, rfl⟩
  · exact sameBlocks_refl x

theorem sameBlocks_enqueueEvent (m : Mod) (q : Nat) (b : List Byte) : SameBlocks m (m.enqueueEvent q b) := by
  unfold Mod.enqueueEvent
  simp only
  split
  · exact sameBlocks_trans (sameBlocks_hubWrite m _ b) (sameBlocks_of_mem rfl)
  · exact sameBlocks_of_mem rfl

theorem sameBlocks_queued (m : Mod) (bytes : List Byte) (l : List Nat) :
    SameBlocks m (if l.isEmpty = true then m.satFld F.HUB_EVQ_UNROUTED_COUNT 1 else l.foldl (fun m q => m.enqueueEvent q bytes) m) := by
  split
  · exact sameBlocks_of_mem rfl
  · exact foldl_keeps (SameBlocks m) _ (fun x q hx => sameBlocks_trans hx (sameBlocks_enqueueEvent x q bytes)) _ m (sameBlocks_refl m)

theorem sameBlocks_faulted (m : Mod) (b : Bool) :
    SameBlocks m (if b = true then { m.setFld F.HUB_FAULT_PENDING 1 with alert := m.alert ||| 0x10 } else m) := by
  split
  · exact sameBlocks_of_mem rfl
  · exact sameBlocks_refl m

theorem sameBlocks_deliver (m : Mod) (r : EventRec) : SameBlocks m (m.deliver r) :=
  sameBlocks_trans (sameBlocks_queued m r.bytes _) (sameBlocks_faulted _ (isFault r.code r.data))

theorem sameBlocks_raise (m : Mod) (code : Nat) (data : List Byte) : SameBlocks m (m.raise code data) := by
  unfold Mod.raise Mod.raiseWith Mod.draw
  exact sameBlocks_deliver _ _

theorem sameBlocks_blockLost (m : Mod) (k o requester : Nat) : SameBlocks m (m.blockLost k o requester) :=
  sameBlocks_trans (sameBlocks_trans (sameBlocks_of_mem rfl) (sameBlocks_raise (m.satFld F.MC_COUNT_UE 1 k (lpMap o).ch) _ _))
    (sameBlocks_of_mem (mem_of_packageWork (packageWork_remapTrigger _ k _ _ _)))

/-! ## The blocks of a row unit (09 R251) -/

/-- Address of block `i` of a row unit of package `k`. -/
def unitAddr (k u i : Nat) : Nat := k * 0x1000000000 + (u * 28 + i) * 64

theorem unitAddr_aligned (k u i : Nat) : unitAddr k u i / 64 * 64 = unitAddr k u i := by
  unfold unitAddr
  omega

theorem unitAddr_inj {k u i j : Nat} (h : unitAddr k u i = unitAddr k u j) : i = j := by
  unfold unitAddr at h
  omega

theorem lpddrAt_unitAddr {k u i : Nat} (hk : k < 24) (hi : i < unitBlocks u) : lpddrAt (unitAddr k u i) = some (k, (u * 28 + i) * 64) := by
  refine lpddrAt_package hk ?_
  unfold unitBlocks at hi
  split at hi
  · omega
  · split at hi <;> omega

theorem poisonLine_of_lpddr {m : Mod} {a : Nat} {p : Nat × Nat} (h : lpddrAt a = some p) :
    m.poisonLine a = { m with mem := { m.mem with poison := m.mem.poison.set (a / 64 * 64) () } } := by
  simp only [Mod.poisonLine, h]

/-! ## Scrub -/

/-- The scrub of block `i` of a row unit. -/
def Mod.scrubBlock (m : Mod) (k u i : Nat) : Mod :=
  if m.pageRetired k ((u * 28 + i) * 64 / 0x200000) || (m.mem.poison.get? (unitAddr k u i)).isSome then m
  else
    let wrong := m.mem.wrongAt (unitAddr k u i)
    let (m, ok) := m.decodeRead k ((u * 28 + i) * 64) wrong 4
    if !ok then m.poisonLine (unitAddr k u i)
    else if wrong.isEmpty then m else { m with mem := { m.mem with wrong := m.mem.wrong.del (unitAddr k u i) } }

/-- Scrub runs on the package (09 R272). -/
def Mod.scrubDue (m : Mod) (k : Nat) : Prop :=
  ¬(m.fld F.MC_CTL_SCRUB_EN k = 0 ∨ m.fld F.MC_CTL_ENABLE k = 0 ∨ m.fld F.MC_CTL_FAILED k = 1 ∨ m.inHold k = true)

/-- A row unit read in class TEST. -/
def Mod.unitServed (m : Mod) (k u : Nat) : Mod := m.served k 4 (unitBlocks u) 0 (m.effTarget k 4) false

theorem scrub_of_due {m n : Mod} {k : Nat} (u : Nat) {errs : List BlockErr} (hn : m.noteErrs errs = n) (h : n.scrubDue k) :
    m.scrub k u errs = ((List.range (unitBlocks u)).foldl (fun x i => x.scrubBlock k u i) n).unitServed k u := by
  unfold Mod.scrub
  rw [hn]
  exact if_neg h

section
variable {m : Mod} {k u i : Nat}

theorem wrongAt_unitAddr : m.mem.wrongAt (unitAddr k u i) = (m.mem.wrong.get? (unitAddr k u i)).getD [] := by
  rw [Mem.wrongAt, unitAddr_aligned]

/-- A block without wrong symbols stays as it is. -/
theorem scrubBlock_of_clean (h : m.mem.wrong.get? (unitAddr k u i) = none) : m.scrubBlock k u i = m := by
  simp [Mod.scrubBlock, wrongAt_unitAddr, h, decodeRead_nil]

theorem scrubBlock_of_failed {errs : List Nat} (hpage : m.pageRetired k ((u * 28 + i) * 64 / 0x200000) = false)
    (hpoison : m.mem.poison.get? (unitAddr k u i) = none) (hwrong : m.mem.wrong.get? (unitAddr k u i) = some errs)
    (hfails : (m.decodeOf k ((u * 28 + i) * 64) errs).ok = false) :
    m.scrubBlock k u i = (m.blockLost k ((u * 28 + i) * 64) 4).poisonLine (unitAddr k u i) := by
  simp [Mod.scrubBlock, hpage, hpoison, wrongAt_unitAddr, hwrong, decodeRead_of_failed 4 hfails]

end

/-- A fold that leaves what it has at every element but one does the work of that one. -/
theorem foldl_single {α β : Type} {f : α → β → α} {l : List β} {m : α} {i : β} (hi : i ∈ l) (hl : l.Nodup) (hm : ∀ j ∈ l, j ≠ i → f m j = m)
    (hi' : ∀ j ∈ l, j ≠ i → f (f m i) j = f m i) : l.foldl f m = f m i := by
  induction l with
  | nil => simp at hi
  | cons y ys ih =>
    obtain ⟨hy, hys⟩ := List.nodup_cons.mp hl
    rw [List.foldl_cons]
    by_cases he : y = i
    · subst he
      exact foldl_id _ _ _ fun j hj => hi' j (.tail _ hj) (ne_of_mem_of_not_mem hj hy)
    · rw [hm y (.head _) he]
      exact ih ((List.mem_cons.mp hi).resolve_left (Ne.symm he)) hys (fun j hj => hm j (.tail _ hj)) fun j hj => hi' j (.tail _ hj)

/-- A unit without wrong symbols stays as it is. -/
theorem scrubBlocks_of_clean {m : Mod} {k u : Nat} (h : ∀ i < unitBlocks u, m.mem.wrong.get? (unitAddr k u i) = none) :
    (List.range (unitBlocks u)).foldl (fun x i => x.scrubBlock k u i) m = m :=
  foldl_id _ _ _ fun i hi => scrubBlock_of_clean (h i (List.mem_range.mp hi))

/-- A controller charged for a row unit in class TEST (10 R285). -/
def Mc.unitCharged (c : Mc) (u : Nat) : Mc := { c with credit := modNth c.credit 4 (· - unitBlocks u) }

theorem mcStep_unitServed {k : Nat} {m n : Mod} (h : McStep k id [F.REG_LAT_AVG.addr 0 (4 * k + 3)] m n) (u : Nat) :
    McStep k (fun c => c.unitCharged u) [F.REG_LAT_AVG.addr 0 (4 * k + 3)] m (n.unitServed k u) := by
  unfold Mod.unitServed Mod.served
  dsimp only
  rw [if_neg (by decide), if_neg (Nat.not_lt_zero _)]
  exact mcStep_setFld (mcStep_modMc h (fun c => c.unitCharged u)) F.REG_LAT_AVG _ 0 (4 * k + 3) 0 (.head _)

theorem out_unitServed (m : Mod) (k u : Nat) : (m.unitServed k u).out = m.out := by
  unfold Mod.unitServed Mod.served
  dsimp only
  rw [if_neg (by decide), if_neg (Nat.not_lt_zero _), setFld_out]
  rfl

theorem mem_unitServed (m : Mod) (k u : Nat) : (m.unitServed k u).mem = m.mem := by
  rw [(mcStep_unitServed (mcStep_refl k _ m) u).1]

theorem fld_unitServed (m : Mod) (k : Fin 24) (u : Nat) {f : Fld} (hb : f.blk = .mc) {j : Nat} (hf : f.off + j * f.stride < 0x10000) :
    (m.unitServed k u).fld f k j = m.fld f k j := by
  have hne : f.addr k j ∉ [F.REG_LAT_AVG.addr 0 (4 * k.val + 3)] := by
    have hrange := mcReg_range hb k hf
    have hreg : F.REG_LAT_AVG.addr 0 (4 * k.val + 3) = 0x700008001000 + (4 * k.val + 3) * 8 := rfl
    have := k.isLt
    simp only [List.mem_singleton]
    omega
  simp only [Mod.fld, (mcStep_unitServed (mcStep_refl k _ m) u).2 _ hne]

/-! ## Scrub, answered -/

section
variable {s : State} {k : Fin 24} {u : Fin 33254839} (hclean : ∀ i < unitBlocks u, s.m.mem.wrong.get? (unitAddr k u i) = none)
include hclean

theorem scrub_clean_answers : Answers (.patrolScrub k u []) s (fun t => t.m.out = [] ∧
    (if s.m.fld F.MC_CTL_SCRUB_EN k = 0 ∨ s.m.fld F.MC_CTL_ENABLE k = 0 ∨ s.m.fld F.MC_CTL_FAILED k = 1 ∨ s.m.inHold k = true then OnlyRegs [] s.m t.m
    else OnlyRegs [F.REG_LAT_AVG.addr 0 (4 * k.val + 3)] { s.m with mc := modNth s.m.mc k (fun c => c.unitCharged u) } t.m)) := by
  refine answers_run (exec_patrolScrub k u [] s) ?_
  split
  case isTrue hidle =>
    have hscrub : s.m.clearOut.scrub k u [] = s.m.clearOut := if_pos hidle
    rw [hscrub]
    exact ⟨rfl, onlyRegs_settle rfl rfl fun _ _ => rfl⟩
  case isFalse hdue =>
    have hscrub : s.m.clearOut.scrub k u [] = s.m.clearOut.unitServed k u := by
      rw [scrub_of_due (n := s.m.clearOut) u rfl hdue, scrubBlocks_of_clean (m := s.m.clearOut) hclean]
    rw [hscrub]
    exact ⟨out_unitServed _ k u, onlyRegs_of_mcStep (mcStep_unitServed (mcStep_clearOut k _ s.m) u) rfl⟩

theorem scrub_lost_answers {i : Nat} {e : BlockErr} (hi : i < unitBlocks u) (hen : s.m.fld F.MC_CTL_SCRUB_EN k = 1) (hctl : s.m.fld F.MC_CTL_ENABLE k = 1)
    (hfail : s.m.fld F.MC_CTL_FAILED k = 0) (hhold : s.m.inHold k = false) (haddr : e.addr = unitAddr k u i)
    (hpage : s.m.pageRetired k ((u.val * 28 + i) * 64 / 0x200000) = false) (hpoison : s.m.mem.poison.get? e.addr = none)
    (hfails : (s.m.decodeOf k ((u.val * 28 + i) * 64) (e.syms.map Fin.val).eraseDups).ok = false) :
    Answers (.patrolScrub k u [e]) s (fun t => (t.m.mem.poison.get? e.addr).isSome = true ∧
      t.m.fld F.MC_COUNT_UE k (lpMap ((u.val * 28 + i) * 64)).ch = min (s.m.fld F.MC_COUNT_UE k (lpMap ((u.val * 28 + i) * 64)).ch + 1) 0xFFFFFFFF) := by
  let n := s.m.clearOut.noteErrs [e]
  have hwrong (j : Nat) : n.mem.wrong.get? (unitAddr k u j) = if j = i then some (e.syms.map Fin.val).eraseDups else s.m.mem.wrong.get? (unitAddr k u j) := by
    show Sparse.get? (s.m.mem.wrong.set (e.addr / 64 * 64) _) _ = _
    rw [haddr, unitAddr_aligned]
    split
    case isTrue he => rw [he, get?_set_self]
    case isFalse hne => exact get?_set_ne _ _ fun he => hne (unitAddr_inj he)
  have hdue : n.scrubDue k := by
    have hen' : n.fld F.MC_CTL_SCRUB_EN k = 1 := hen
    have hctl' : n.fld F.MC_CTL_ENABLE k = 1 := hctl
    have hfail' : n.fld F.MC_CTL_FAILED k = 0 := hfail
    have hhold' : n.inHold k = false := hhold
    simp [Mod.scrubDue, hen', hctl', hfail', hhold']
  have hat : lpddrAt (unitAddr k u i) = some (k.val, (u.val * 28 + i) * 64) := lpddrAt_unitAddr k.isLt hi
  have hlost : n.scrubBlock k u i = (n.blockLost k ((u.val * 28 + i) * 64) 4).poisonLine (unitAddr k u i) :=
    scrubBlock_of_failed hpage (haddr ▸ hpoison) ((hwrong i).trans (if_pos rfl)) hfails
  have hother (j : Nat) (hj : j < unitBlocks u) (hne : j ≠ i) : n.mem.wrong.get? (unitAddr k u j) = none :=
    (hwrong j).trans ((if_neg hne).trans (hclean j hj))
  have hblocks : (List.range (unitBlocks u)).foldl (fun x j => x.scrubBlock k u j) n = n.scrubBlock k u i := by
    refine foldl_single (f := fun (x : Mod) j => x.scrubBlock k u j) (List.mem_range.mpr hi) List.nodup_range
      (fun j hj hne => scrubBlock_of_clean (hother j (List.mem_range.mp hj) hne)) fun j hj hne => scrubBlock_of_clean ?_
    rw [hlost, poisonLine_of_lpddr hat]
    show (n.blockLost k _ 4).mem.wrong.get? _ = none
    rw [(sameBlocks_blockLost n k _ 4).2]
    exact hother j (List.mem_range.mp hj) hne
  refine answers_run (exec_patrolScrub k u [e] s) ?_
  rw [scrub_of_due u rfl hdue, hblocks, hlost, poisonLine_of_lpddr hat]
  refine ⟨?_, ?_⟩
  · rw [poison_settle, mem_unitServed, unitAddr_aligned, haddr]
    exact congrArg Option.isSome (get?_set_self _ _ _)
  · rw [fld_settle, fld_unitServed _ k u rfl (countUe_inBlock _)]
    exact fld_blockLost n k _ 4

end

end Sys2Proof.Machine

/-! # Proofs: remap of a row, and the correction log (09 R271, R275, R276, R491) -/

namespace Sys2Proof.Machine

open Sys2Proof

/-! ## A remap's table entry -/

/-- The attempt's spare is taken from the bank's counter. -/
def Mod.spareTaken (m : Mod) (k ch bank next : Nat) : Mod := m.setFld F.MC_SPARE_NEXT_NEXT (next + 1) k (32 * ch + bank)

/-- Table entry `j` gives the row its spare. -/
def Mod.remapSet (m : Mod) (k j bank row spare : Nat) : Mod :=
  (((m.setFld F.MC_REMAP_BANK bank k j).setFld F.MC_REMAP_ROW row k j).setFld F.MC_REMAP_SPARE spare k j).setFld F.MC_REMAP_VALID 1 k j

/-- Registers of the table lie above the spares' counters (09 Table 09.9). -/
theorem remapReg_ne_spareNext {f : Fld} (hb : f.blk = .mc) (hoff : f.off = 0x2000) {k ch bank : Nat} (hch : ch < 4) (hbank : bank < 32) (j : Nat)
    (hstride : f.stride = 8) : f.addr k j ≠ F.MC_SPARE_NEXT_NEXT.addr k (32 * ch + bank) := by
  rw [mcReg_addr hb, mcReg_addr rfl, hoff, hstride]
  show _ ≠ 0x700003000000 + k * 0x10000 + 0x1000 + (32 * ch + bank) * 8
  omega

/-- Two fields of one register that share no bit. -/
abbrev Fld.Beside (f g : Fld) : Prop :=
  g.blk = f.blk ∧ g.off = f.off ∧ g.stride = f.stride ∧ (g.lo + g.w ≤ f.lo ∨ f.lo + f.w ≤ g.lo) ∧ g.lo + g.w ≤ 64

theorem fld_setFld_beside (m : Mod) {f g : Fld} (v i k : Nat) (h : f.Beside g) : (m.setFld f v i k).fld g i k = m.fld g i k := by
  obtain ⟨hb, hoff, hstride, hbits, h64⟩ := h
  refine fld_setFld_bits m f g v i k 0 i k 0 ?_ (by simpa using hbits) (by simpa using h64)
  simp only [Fld.addr, hb, hoff, hstride]

section
variable (m : Mod) (k j : Nat) {bank row spare : Nat} (hbank : bank < 32) (hrow : row < 259804) (hspare : spare < 2340)
include hbank hrow hspare

theorem fld_remapSet :
    (m.remapSet k j bank row spare).fld F.MC_REMAP_VALID k j = 1 ∧ (m.remapSet k j bank row spare).fld F.MC_REMAP_BANK k j = bank ∧
    (m.remapSet k j bank row spare).fld F.MC_REMAP_ROW k j = row ∧ (m.remapSet k j bank row spare).fld F.MC_REMAP_SPARE k j = spare := by
  unfold Mod.remapSet
  refine ⟨?_, ?_, ?_, ?_⟩
  · exact fld_setFld_self _ _ _ _ _ _ (by decide)
  · rw [fld_setFld_beside _ _ _ _ (by decide), fld_setFld_beside _ _ _ _ (by decide),
      fld_setFld_beside _ _ _ _ (by decide), fld_setFld_self _ _ _ _ _ _ (by decide)]
    exact Nat.mod_eq_of_lt hbank
  · rw [fld_setFld_beside _ _ _ _ (by decide), fld_setFld_beside _ _ _ _ (by decide),
      fld_setFld_self _ _ _ _ _ _ (by decide)]
    exact Nat.mod_eq_of_lt (Nat.lt_trans hrow (by decide))
  · rw [fld_setFld_beside _ _ _ _ (by decide), fld_setFld_self _ _ _ _ _ _ (by decide)]
    exact Nat.mod_eq_of_lt (Nat.lt_trans hspare (by decide))

end

theorem regsAndEvents_remapSet {as : List Nat} {m n : Mod} (h : RegsAndEvents as m n) (k j bank row spare : Nat)
    (hj : F.MC_REMAP_VALID.addr k j ∈ as) : RegsAndEvents as m (n.remapSet k j bank row spare) :=
  have hmem := List.mem_append_left eventRegs hj
  regsAndEvents_setFld (regsAndEvents_setFld (regsAndEvents_setFld (regsAndEvents_setFld h F.MC_REMAP_BANK _ k j 0 hmem)
    F.MC_REMAP_ROW _ k j 0 hmem) F.MC_REMAP_SPARE _ k j 0 hmem) F.MC_REMAP_VALID _ k j 0 hmem

/-! ## A row without wrong symbols is copied (09 R275, R491) -/

section
variable {m : Mod} {k ch bank row : Nat}

/-- The copy changes nothing, and finds only stored poison. -/
theorem remapCopy_of_clean (h : ∀ i < unitBlocks (rowUnit ch bank row), m.mem.wrong.get? (unitAddr k (rowUnit ch bank row) i) = none) :
    ∃ bad, m.remapCopy k ch bank row = (m, bad) ∧ ∀ a ∈ bad, ∃ i < unitBlocks (rowUnit ch bank row), a = unitAddr k (rowUnit ch bank row) i := by
  have hcopy : (m.remapCopy k ch bank row).1 = m ∧
      ∀ a ∈ (m.remapCopy k ch bank row).2, ∃ i < unitBlocks (rowUnit ch bank row), a = unitAddr k (rowUnit ch bank row) i := by
    refine foldl_keeps_mem (fun acc : Mod × List Nat => acc.1 = m ∧ ∀ a ∈ acc.2, ∃ i < unitBlocks (rowUnit ch bank row),
      a = unitAddr k (rowUnit ch bank row) i) _ _ (fun acc i hi hacc => ?_) (m, []) ⟨rfl, fun _ ha => absurd ha List.not_mem_nil⟩
    obtain ⟨hsame, hbad⟩ := hacc
    have hlt := List.mem_range.mp hi
    have hwrong : acc.1.mem.wrongAt (unitAddr k (rowUnit ch bank row) i) = [] := by
      rw [hsame, wrongAt_unitAddr, h i hlt]
      rfl
    have hwrong' : acc.1.mem.wrongAt (k * 0x1000000000 + (rowUnit ch bank row * 28 + i) * 64) = [] := hwrong
    dsimp only
    rw [hwrong', decodeBlock_nil]
    split
    · refine ⟨hsame, fun a ha => ?_⟩
      rcases List.mem_append.mp ha with ha | ha
      · exact hbad a ha
      · exact ⟨i, hlt, List.mem_singleton.mp ha⟩
    · exact ⟨hsame, hbad⟩
  exact ⟨_, Prod.ext hcopy.1 rfl, hcopy.2⟩

/-- A spare that shows no wrong symbol verifies. -/
theorem readVerify_nil (m : Mod) (k ch bank row : Nat) (bad : List Nat) : m.readVerify k ch bank row bad [] = (m, true) := by
  simp [Mod.readVerify]

/-- Only memory changes, and no byte of it. -/
def BlocksOnly (m n : Mod) : Prop := n = { m with mem := n.mem } ∧ SameMem m n

theorem blocksOnly_poisoned {n : Mod} (h : BlocksOnly m n) (bad : List Nat) (hbad : ∀ a ∈ bad, (lpddrAt a).isSome = true) :
    BlocksOnly m (bad.foldl (fun x a => x.poisonLine a) n) := by
  refine foldl_keeps_mem (BlocksOnly m) _ _ (fun x a ha hx => ?_) n h
  obtain ⟨p, hp⟩ := Option.isSome_iff_exists.mp (hbad a ha)
  obtain ⟨hx, hbytes⟩ := hx
  rw [poisonLine_of_lpddr hp]
  refine ⟨?_, hbytes⟩
  rw [hx]

theorem blocksOnly_spareTakes (m : Mod) (k ch bank row : Nat) (bad : List Nat) (hbad : ∀ a ∈ bad, (lpddrAt a).isSome = true) :
    BlocksOnly m (m.spareTakes k ch bank row bad []) := by
  unfold Mod.spareTakes
  dsimp only
  refine blocksOnly_poisoned ?_ bad hbad
  split
  · exact ⟨rfl, fun _ => rfl⟩
  · exact ⟨rfl, fun _ => rfl⟩

end

/-! ## The remap of a row whose blocks decode (09 R275) -/

/-- A row without wrong symbols, not in the table; its bank has a next spare, and entry `j` of its channel is the first free one. -/
structure RemapReady (m : Mod) (k ch bank row next j : Nat) : Prop where
  channel_lt : ch < 4
  bank_lt : bank < 32
  entry_lt : j < 256
  spare_lt : next < 2340
  clean : ∀ i < unitBlocks (rowUnit ch bank row), m.mem.wrong.get? (unitAddr k (rowUnit ch bank row) i) = none
  unlisted : m.remapEntry k ch bank row = none
  counter : m.fld F.MC_SPARE_NEXT_NEXT k (32 * ch + bank) = next
  free : m.fld F.MC_REMAP_VALID k (256 * ch + j) = 0
  used : ∀ i < j, m.fld F.MC_REMAP_VALID k (256 * ch + i) = 1

section
variable {m : Mod} {k ch bank row next j : Nat}

theorem remapEntry_spareTaken (hch : ch < 4) (hbank : bank < 32) : (m.spareTaken k ch bank next).remapEntry k ch bank row = m.remapEntry k ch bank row := by
  have hkeeps (f : Fld) (hb : f.blk = .mc) (hoff : f.off = 0x2000) (hstride : f.stride = 8) (i : Nat) :
      (m.spareTaken k ch bank next).fld f k i = m.fld f k i :=
    fld_setFld_addr _ _ _ _ _ _ _ _ _ _ (remapReg_ne_spareNext hb hoff hch hbank i hstride)
  unfold Mod.remapEntry
  simp only [hkeeps F.MC_REMAP_VALID rfl rfl rfl, hkeeps F.MC_REMAP_BANK rfl rfl rfl, hkeeps F.MC_REMAP_ROW rfl rfl rfl]

theorem fld_of_blocksOnly {n : Mod} (h : BlocksOnly m n) (f : Fld) (i k x : Nat) : n.fld f i k x = m.fld f i k x := by
  rw [h.1]
  rfl

theorem remapEntry_of_blocksOnly {n : Mod} (h : BlocksOnly m n) : n.remapEntry k ch bank row = m.remapEntry k ch bank row := by
  rw [h.1]
  rfl

theorem regsAndEvents_of_blocksOnly {n : Mod} (h : BlocksOnly m n) (as : List Nat) : RegsAndEvents as m n := by
  obtain ⟨hn, hbytes⟩ := h
  refine ⟨?_, fun a _ => hbytes a, fun a _ => ?_⟩
  · rw [hn]
  · rw [hn]
    rfl

variable (h : RemapReady m k ch bank row next j)
include h

/-- The table is not full. -/
theorem remapUsed_lt : m.remapUsed k ch < 256 := by
  have hlt : ((List.range 256).filter (fun i => m.fld F.MC_REMAP_VALID k (256 * ch + i) == 1)).length < (List.range 256).length :=
    List.length_filter_lt_length_iff_exists.mpr ⟨j, List.mem_range.mpr h.entry_lt, by simp [h.free]⟩
  rwa [List.length_range] at hlt

/-- The first free entry is the one that a remap takes. -/
theorem firstFree : (List.range 256).find? (fun i => m.fld F.MC_REMAP_VALID k (256 * ch + i) == 0) = some j := by
  rw [List.find?_range_eq_some]
  exact ⟨by simp [h.free], List.mem_range.mpr h.entry_lt, fun i hi => by simp [h.used i hi]⟩

/-- The first attempt gives the row its bank's next spare. -/
theorem remapAttempts_of_ready (hk : k < 24) (ts : List Nat) (t : Nat) : ∃ n, BlocksOnly (m.spareTaken k ch bank next) n ∧
    m.remapAttempts k ch bank row [] (t :: ts) =
      (n.remapSet k (256 * ch + j) bank row next).raise 0x0502 (d1 (4 * k + ch) ++ d1 bank ++ d4 row ++ d2 next) := by
  obtain ⟨bad, hcopy, hbad⟩ := remapCopy_of_clean (m := m.spareTaken k ch bank next) h.clean
  have hlpddr : ∀ a ∈ bad, (lpddrAt a).isSome = true := by
    intro a ha
    obtain ⟨i, hi, rfl⟩ := hbad a ha
    rw [lpddrAt_unitAddr hk hi]
    rfl
  have htakes := blocksOnly_spareTakes (m.spareTaken k ch bank next) k ch bank row bad hlpddr
  refine ⟨_, htakes, ?_⟩
  have hspares : next ≠ 2340 := Nat.ne_of_lt h.spare_lt
  have hentry := (remapEntry_of_blocksOnly htakes).trans ((remapEntry_spareTaken h.channel_lt h.bank_lt).trans h.unlisted)
  have hvalid (i : Nat) : ((m.spareTaken k ch bank next).spareTakes k ch bank row bad []).fld F.MC_REMAP_VALID k (256 * ch + i) =
      m.fld F.MC_REMAP_VALID k (256 * ch + i) :=
    (fld_of_blocksOnly htakes _ _ _ _).trans (fld_setFld_addr _ _ _ _ _ _ _ _ _ _ (remapReg_ne_spareNext rfl rfl h.channel_lt h.bank_lt _ rfl))
  have htaken : m.setFld F.MC_SPARE_NEXT_NEXT (next + 1) k (32 * ch + bank) = m.spareTaken k ch bank next := rfl
  have hfirst := firstFree h
  simp only [← hvalid] at hfirst
  simp only [Mod.remapAttempts, h.counter, hspares, if_false, htaken, hcopy, List.filter_nil, List.map_nil, readVerify_nil, Bool.not_true,
    Bool.false_eq_true, hentry, hfirst]
  rfl

end

/-! ## The remap, answered -/

/-- The oldest queued remap is taken from its queue. -/
abbrev Mod.remapStarted (m : Mod) (k : Nat) (rest : List (Nat × Nat × Nat)) : Mod := m.modMc k (fun c => { c with remaps := rest })

theorem rowRemap_of_ready {m : Mod} {k ch bank row next j : Nat} {rest : List (Nat × Nat × Nat)} (h : RemapReady (m.remapStarted k rest) k ch bank row next j)
    (hremaps : (m.mcOf k).remaps = (ch, bank, row) :: rest) (hhold : m.inHold k = false) :
    m.rowRemap k [] [] = (m.remapStarted k rest).remapAttempts k ch bank row [] [0, 1, 2] := by
  have hnone : m.noteErrs [] = m := rfl
  have hused : ((m.remapStarted k rest).remapUsed k ch == 256) = false := by simpa using Nat.ne_of_lt (remapUsed_lt h)
  simp only [Mod.rowRemap, hnone, hremaps, hhold, Bool.false_eq_true, if_false, hused, Bool.and_false]

theorem fld_remapSet_ne (m : Mod) (k j bank row spare : Nat) {f : Fld} {i : Nat} (hne : f.addr k i ≠ F.MC_REMAP_VALID.addr k j) :
    (m.remapSet k j bank row spare).fld f k i = m.fld f k i := by
  unfold Mod.remapSet
  rw [fld_setFld_addr _ F.MC_REMAP_VALID _ _ _ _ _ _ _ _ hne, fld_setFld_addr _ F.MC_REMAP_SPARE _ _ _ _ _ _ _ _ hne,
    fld_setFld_addr _ F.MC_REMAP_ROW _ _ _ _ _ _ _ _ hne, fld_setFld_addr _ F.MC_REMAP_BANK _ _ _ _ _ _ _ _ hne]

theorem out_remapSet (m : Mod) (k j bank row spare : Nat) : (m.remapSet k j bank row spare).out = m.out := by
  unfold Mod.remapSet
  rw [setFld_out, setFld_out, setFld_out, setFld_out]

/-- The registers that a remap's new table entry changes. -/
abbrev remapRegs (k ch bank j : Nat) : List Nat := [F.MC_SPARE_NEXT_NEXT.addr k (32 * ch + bank), F.MC_REMAP_VALID.addr k (256 * ch + j)]

section
variable {ch bank j : Nat} (hch : ch < 4)
include hch

theorem spareNext_inBlock (hbank : bank < 32) : F.MC_SPARE_NEXT_NEXT.off + (32 * ch + bank) * F.MC_SPARE_NEXT_NEXT.stride < 0x10000 := by
  show 0x1000 + (32 * ch + bank) * 8 < 0x10000
  omega

theorem remapEntry_inBlock (hj : j < 256) : F.MC_REMAP_VALID.off + (256 * ch + j) * F.MC_REMAP_VALID.stride < 0x10000 := by
  show 0x2000 + (256 * ch + j) * 8 < 0x10000
  omega

theorem draining_not_mem_remapRegs (k : Fin 24) (hbank : bank < 32) (hj : j < 256) : F.DIR_STATUS_DRAINING.addr 0 0 ∉ remapRegs k ch bank j :=
  List.not_mem_cons_of_ne_of_not_mem (mcReg_ne_draining rfl k (spareNext_inBlock hch hbank))
    (List.not_mem_cons_of_ne_of_not_mem (mcReg_ne_draining rfl k (remapEntry_inBlock hch hj)) List.not_mem_nil)

end

/-- The spare taken, its copy and the new entry change the remap's registers and no byte of memory. -/
theorem regsAndEvents_remapped {m n : Mod} {k ch bank next : Nat} (h : BlocksOnly (m.spareTaken k ch bank next) n) (row j : Nat) :
    RegsAndEvents (remapRegs k ch bank j) m (n.remapSet k (256 * ch + j) bank row next) :=
  have htaken : RegsAndEvents (remapRegs k ch bank j) m (m.spareTaken k ch bank next) :=
    regsAndEvents_setFld (regsAndEvents_refl _ m) F.MC_SPARE_NEXT_NEXT _ k _ 0 (.head _)
  regsAndEvents_remapSet (regsAndEvents_trans htaken (regsAndEvents_of_blocksOnly h _)) _ _ _ _ _ (.tail _ (.head _))

theorem rowRemap_answers {s : State} {k : Fin 24} {ch bank row next j : Nat} {rest : List (Nat × Nat × Nat)} (hquiet : s.m.quiet = true)
    (h : RemapReady s.m k ch bank row next j) (hrow : row < 259804) (hremaps : (s.m.mcOf k).remaps = (ch, bank, row) :: rest)
    (hhold : s.m.inHold k = false) :
    Answers (.rowRemap k [] []) s (fun t => t.m.fld F.MC_SPARE_NEXT_NEXT k (32 * ch + bank) = next + 1 ∧
      t.m.fld F.MC_REMAP_VALID k (256 * ch + j) = 1 ∧ t.m.fld F.MC_REMAP_BANK k (256 * ch + j) = bank ∧
      t.m.fld F.MC_REMAP_ROW k (256 * ch + j) = row ∧ t.m.fld F.MC_REMAP_SPARE k (256 * ch + j) = next ∧
      Raised t.m 0x0502 (d1 (4 * k + ch) ++ d1 bank ++ d4 row ++ d2 next) ∧
      RegsAndEvents (remapRegs k ch bank j) { s.m with mc := modNth s.m.mc k (fun x => { x with remaps := rest }) } t.m) := by
  have hch := h.channel_lt
  have hbank := h.bank_lt
  have hspare := h.spare_lt
  have hstarted : RemapReady (s.m.clearOut.remapStarted k rest) k ch bank row next j := { h with unlisted := h.unlisted }
  obtain ⟨n, hn, hattempt⟩ := remapAttempts_of_ready hstarted k.isLt [1, 2] 0
  have hrun := (rowRemap_of_ready hstarted hremaps hhold).trans hattempt
  have hframe := regsAndEvents_raise (regsAndEvents_trans (m := s.m.clearOut.remapStarted k rest) (l := s.m.remapStarted k rest)
    (regsAndEvents_clearOut _ _) (regsAndEvents_remapped hn row j)) 0x0502 (d1 (4 * k + ch) ++ d1 bank ++ d4 row ++ d2 next)
  obtain ⟨hvalid, hbankSet, hrowSet, hspareSet⟩ := fld_remapSet n k (256 * ch + j) hbank hrow hspare
  have hkept (f : Fld) (hb : f.blk = .mc) {i : Nat} (hi : f.off + i * f.stride < 0x10000) :=
    (fld_settle _ f k i 0).trans (fld_raise (n.remapSet k (256 * ch + j) bank row next) 0x0502
      (d1 (4 * k + ch) ++ d1 bank ++ d4 row ++ d2 next) f k i 0 (mcReg_not_event hb k hi))
  have hentry := remapEntry_inBlock hch h.entry_lt
  refine answers_runF (exec_rowRemap k [] [] s) ?quiet ?stays ?answer <;> rw [List.map_nil, hrun]
  case quiet =>
    refine quiet_of_lpFrame (m := s.m) (lpFrame_trans (m := s.m.remapStarted k rest) ⟨rfl, rfl⟩
      (lpFrame_of_regsAndEvents hframe (draining_not_mem_remapRegs hch k hbank h.entry_lt))) hquiet ?_
    rw [hframe.1]
    exact calm_modMc (calm_of_quiet hquiet) k
  case stays =>
    refine stays_raise _ _ ?_
    rw [out_remapSet, hn.1]
    rfl
  case answer =>
    refine ⟨?_, (hkept F.MC_REMAP_VALID rfl hentry).trans hvalid, (hkept F.MC_REMAP_BANK rfl hentry).trans hbankSet, (hkept F.MC_REMAP_ROW rfl hentry).trans hrowSet,
      (hkept F.MC_REMAP_SPARE rfl hentry).trans hspareSet, raised_settle (raised_raise _ _ _), regsAndEvents_settle hframe⟩
    rw [hkept _ rfl (spareNext_inBlock hch hbank), fld_remapSet_ne _ _ _ _ _ _ (remapReg_ne_spareNext rfl rfl hch hbank _ rfl).symm,
      fld_of_blocksOnly hn]
    exact (fld_setFld_self _ _ _ _ _ _ (by decide)).trans (Nat.mod_eq_of_lt (by show next + 1 < 4096; omega))

/-! ## The log is cleared (09 R271) -/

/-- The listed log entries are made invalid. -/
def Mod.logInvalid (m : Mod) (k : Nat) (l : List Nat) : Mod := l.foldl (fun x i => x.setFld F.MC_LOG_VALID 0 k i) m

theorem logClear_eq (m : Mod) (k : Nat) : m.logClear k = (m.logInvalid k (List.range 16)).modMc k (fun c => { c with logOrder := List.range 16 }) := rfl

theorem mcStep_logInvalid (m : Mod) (k : Nat) (l : List Nat) : McStep k id (l.map (F.MC_LOG_VALID.addr k)) m (m.clearOut.logInvalid k l) :=
  foldl_keeps_mem (McStep k id _ m) _ l (fun _ i hi hx => mcStep_setFld hx F.MC_LOG_VALID 0 k i 0 (List.mem_map_of_mem hi)) _ (mcStep_clearOut k _ m)

theorem out_logInvalid (m : Mod) (k : Nat) (l : List Nat) : (m.logInvalid k l).out = m.out :=
  foldl_keeps (fun x : Mod => x.out = m.out) _ (fun x i hx => (setFld_out x F.MC_LOG_VALID 0 k i 0).trans hx) l m rfl

theorem fld_logInvalid {m : Mod} {k i : Nat} {l : List Nat} (h : i ∈ l ∨ m.fld F.MC_LOG_VALID k i = 0) :
    (m.logInvalid k l).fld F.MC_LOG_VALID k i = 0 := by
  induction l generalizing m with
  | nil => exact h.resolve_left List.not_mem_nil
  | cons x xs ih =>
    refine ih ?_
    by_cases he : i = x
    · subst he
      exact .inr (fld_setFld_self _ _ _ _ _ _ (by decide))
    · rcases h with hmem | hzero
      · exact .inl ((List.mem_cons.mp hmem).resolve_left he)
      · refine .inr ((fld_setFld_addr _ _ _ _ _ _ _ _ _ _ ?_).trans hzero)
        rw [mcReg_addr rfl, mcReg_addr rfl]
        show 0x700003000000 + k * 0x10000 + 0x100 + i * 8 ≠ 0x700003000000 + k * 0x10000 + 0x100 + x * 8
        omega

theorem logClear_answers {ag : Agent} (hag : regAgent ag = true) (k : Fin 24) (s : State) :
    Answers (.logClear ag k) s (fun t => t.m.out = [.done .ok []] ∧ (∀ i < 16, t.m.fld F.MC_LOG_VALID k i = 0) ∧
      OnlyRegs ((List.range 16).map (F.MC_LOG_VALID.addr k)) { s.m with mc := modNth s.m.mc k (fun x => { x with logOrder := List.range 16 }) } t.m) := by
  have hstep := mcStep_emit (mcStep_modMc (mcStep_logInvalid s.m k (List.range 16)) (fun c => { c with logOrder := List.range 16 })) (.done .ok [])
  refine answers_run (exec_logClear ag k s) ?_
  rw [byAgent_taken hag rfl, logClear_eq]
  refine ⟨?_, fun i hi => ?_, onlyRegs_of_mcStep hstep rfl⟩
  · rw [settle_out, emit_out, modMc_out, out_logInvalid]
    rfl
  · rw [fld_settle, fld_emit, fld_modMc]
    exact fld_logInvalid (.inl (List.mem_range.mpr hi))

/-- Settles O28: scrub does the work of the one block that does not decode, and a remap's first attempt finds its spare and the table's first free
entry. -/
theorem lpddrRepairs : Obligations.LpddrRepairs := by
  unfold Obligations.LpddrRepairs
  intro ag k s hquiet hag _
  refine ⟨fun u hclean => scrub_clean_answers hclean, fun u i e hclean hi hen hctl hfail hhold haddr hpage hpoison hfails =>
    scrub_lost_answers hclean hi hen hctl hfail hhold haddr hpage hpoison hfails, ?remap, logClear_answers hag k s⟩
  intro ch bank row j next rest hch hbank hrow hj hnext hremaps hclean hhold hentry hcounter hfree hused
  exact rowRemap_answers hquiet ⟨hch, hbank, hj, hnext, hclean, hentry, hcounter, hfree, hused⟩ hrow hremaps hhold

end Sys2Proof.Machine

/-! # Proofs: the regulator (10 R281, R282, R285-R287, R289, R290) -/

namespace Sys2Proof.Machine

open Sys2Proof

/-! ## Registers of the regulator (10 Table 10.4) -/

theorem regulReg_addr {f : Fld} (hb : f.blk = .reg) (j : Nat) : f.addr 0 j = 0x700008000000 + f.off + j * f.stride := by
  rw [Fld.addr, hb]
  rfl

theorem regulReg_not_event {f : Fld} (hb : f.blk = .reg) {j : Nat} : f.addr 0 j ∉ eventRegs := by
  intro hmem
  have haddr := regulReg_addr hb j
  have := eventReg_range _ hmem
  omega

/-- REG_EFFk lies above the single registers of its block. -/
theorem effReg_ne_single {f g : Fld} (hf : f.blk = .reg) (hoff : f.off = 0x200) (hg : g.blk = .reg) (hs : g.stride = 0) (hgoff : g.off < 0x200)
    (k : Nat) : f.addr 0 k ≠ g.addr 0 0 := by
  rw [regulReg_addr hf, regulReg_addr hg, hs]
  omega

/-! ## Only registers change -/

/-- `n` differs from `m` in the listed registers only. -/
def RegsStep (as : List Nat) (m n : Mod) : Prop := n = { m with regs := n.regs } ∧ SameRegsBut as m n

theorem regsStep_refl (as : List Nat) (m : Mod) : RegsStep as m m := ⟨rfl, fun _ _ => rfl⟩

theorem regsStep_setReg {as : List Nat} {m n : Mod} (h : RegsStep as m n) {a : Nat} (w : Word) (ha : a ∈ as) : RegsStep as m (n.setReg a w) := by
  obtain ⟨hn, hregs⟩ := h
  refine ⟨?_, fun b hb => (reg_setReg_ne n w (ne_of_mem_of_not_mem ha hb).symm).trans (hregs b hb)⟩
  rw [hn]
  rfl

theorem regsStep_setFld {as : List Nat} {m n : Mod} (h : RegsStep as m n) (f : Fld) (v i k : Nat) (ha : f.addr i k ∈ as) :
    RegsStep as m (n.setFld f v i k) := regsStep_setReg h _ ha

theorem sameRest_of_regsStep {as : List Nat} {m n : Mod} (h : RegsStep as m n) : SameRest m n := by
  obtain ⟨hn, -⟩ := h
  rw [hn]
  rfl

theorem sameRest_of_clearOut {m n : Mod} (h : SameRest m.clearOut n) : SameRest m n := h

theorem sameRest_emit {m n : Mod} (h : SameRest m n) (o : Out) : SameRest m (n.emit o) :=
  congrArg (fun x : Mod => ({ x with out := n.out ++ [o] } : Mod)) h

/-- What is no register keeps its value. -/
theorem regsStep_keeps {as : List Nat} {m n : Mod} (h : RegsStep as m n) : n.mem = m.mem ∧ n.out = m.out ∧ n.regul = m.regul := by
  obtain ⟨hn, -⟩ := h
  refine ⟨?_, ?_, ?_⟩ <;> rw [hn]

/-- A write of the listed registers that completes with a status. -/
theorem onlyRegs_of_regsStep_done {as : List Nat} {m n : Mod} (h : RegsStep as m.clearOut n) (st : Status) :
    OnlyRegs as m (n.emit (.done st [])).settle := by
  have hrest := sameRest_emit (sameRest_of_clearOut (sameRest_of_regsStep h)) (.done st [])
  obtain ⟨hmem, -, -⟩ := regsStep_keeps h
  obtain ⟨-, hregs⟩ := h
  exact onlyRegs_settle hrest hmem hregs

/-! ## The regulator's own state changes -/

def Mod.modRegul (m : Mod) (g : Regul → Regul) : Mod := { m with regul := g m.regul }

@[simp] theorem reg_modRegul (m : Mod) (g : Regul → Regul) (a : Nat) : (m.modRegul g).reg a = m.reg a := rfl
@[simp] theorem fld_modRegul (m : Mod) (g : Regul → Regul) (f : Fld) (i k j : Nat) : (m.modRegul g).fld f i k j = m.fld f i k j := rfl
@[simp] theorem modRegul_regul (m : Mod) (g : Regul → Regul) : (m.modRegul g).regul = g m.regul := rfl

theorem regsStep_modRegul {as : List Nat} {m n : Mod} (h : RegsStep as m n) (g : Regul → Regul) : RegsStep as (m.modRegul g) (n.modRegul g) := by
  obtain ⟨hn, hregs⟩ := h
  exact ⟨congrArg (fun x : Mod => x.modRegul g) hn, hregs⟩

/-- The regulator's own state and the listed registers change. -/
theorem onlyRegs_of_regsStep_modRegul {as : List Nat} {m n : Mod} {g : Regul → Regul} (h : RegsStep as (m.clearOut.modRegul g) n) :
    n.settle.out = [] ∧ OnlyRegs as { m with regul := g m.regul } n.settle := by
  have hrest : SameRest (m.modRegul g) n := sameRest_of_clearOut (m := m.modRegul g) (sameRest_of_regsStep h)
  obtain ⟨hmem, hout, -⟩ := regsStep_keeps h
  obtain ⟨-, hregs⟩ := h
  exact ⟨hout, onlyRegs_settle hrest hmem hregs⟩

/-! ## A tick of the deadline counter (10 R281, R282) -/

/-- The tick count moves on by one. -/
def Mod.tickCounted (m : Mod) : Mod :=
  (m.setFld F.REG_NOW_NOW ((m.ticks + 1) % 2 ^ 64)).setFld F.REG_NOW_HIGH ((m.ticks + 1) % 2 ^ 64 / 0x10000)

/-- The accumulator once it has passed 512, from `a`. -/
def accPassed (a : Nat) : Nat := a + 7 * ceilDiv (512 - a) 7 - 512

def Regul.withAcc (a : Nat) (r : Regul) : Regul := { r with acc := a }

/-- The waiting STREAM requests whose slack has reached 0 are marked late. -/
def Mod.lateMarked (m : Mod) : Mod :=
  { m with mc := m.mc.map (fun c => { c with queues := c.queues.map (fun q => q.map m.markLate), hold := c.hold.map m.markLate }) }

theorem deadlineTick_eq (m : Mod) : m.deadlineTick = (m.modRegul (Regul.withAcc (accPassed m.regul.acc))).tickCounted.lateMarked := rfl

theorem fld_lateMarked (m : Mod) (f : Fld) (i k j : Nat) : m.lateMarked.fld f i k j = m.fld f i k j := rfl

theorem sameRest_lateMarked {m n : Mod} (h : SameRest m n) : SameRest { m with mc := n.lateMarked.mc } n.lateMarked :=
  congrArg (fun x : Mod => ({ x with mc := n.lateMarked.mc } : Mod)) h

theorem ticks_tickCounted (m : Mod) : m.tickCounted.ticks = (m.ticks + 1) % 2 ^ 64 := by
  have hnow : m.tickCounted.fld F.REG_NOW_NOW = (m.ticks + 1) % 2 ^ 64 % 2 ^ 16 := by
    unfold Mod.tickCounted
    rw [fld_setFld_apart _ _ _ (by decide)]
    exact fld_setFld_self _ _ _ _ _ _ (by decide)
  have hhigh : m.tickCounted.fld F.REG_NOW_HIGH = (m.ticks + 1) % 2 ^ 64 / 0x10000 % 2 ^ 48 := fld_setFld_self _ _ _ _ _ _ (by decide)
  have hsum : m.tickCounted.ticks = (m.ticks + 1) % 2 ^ 64 % 2 ^ 16 + 0x10000 * ((m.ticks + 1) % 2 ^ 64 / 0x10000 % 2 ^ 48) := by
    rw [← hnow, ← hhigh]
    rfl
  omega

theorem late_markLate (m : Mod) (w : LpWait) (hcls : (m.markLate w).req.cls.val = 0) (hslack : m.slack (m.markLate w).deadline ≤ 0) :
    (m.markLate w).late = true := by
  unfold Mod.markLate at hcls hslack ⊢
  split_ifs at hcls hslack ⊢ with hstream hdue
  · rfl
  · exact absurd hslack hdue
  · exact absurd hcls hstream

theorem late_of_lateMarked {m : Mod} {c : Mc} {z : List LpWait} {w : LpWait} (hc : c ∈ m.lateMarked.mc) (hz : z ∈ c.queues) (hw : w ∈ z)
    (hcls : w.req.cls.val = 0) (hslack : m.slack w.deadline ≤ 0) : w.late = true := by
  obtain ⟨c₀, -, rfl⟩ := List.mem_map.mp hc
  obtain ⟨z₀, -, rfl⟩ := List.mem_map.mp hz
  obtain ⟨w₀, -, rfl⟩ := List.mem_map.mp hw
  exact late_markLate m w₀ hcls hslack

/-- The tick count is read from its two fields. -/
theorem ticks_congr {m n : Mod} (h : ∀ f : Fld, n.fld f = m.fld f) : n.ticks = m.ticks := by simp only [Mod.ticks, h]

theorem slack_congr {m n : Mod} (h : ∀ f : Fld, n.fld f = m.fld f) (d : Nat) : n.slack d = m.slack d := by simp only [Mod.slack, h]

theorem regsStep_tickCounted (m : Mod) : RegsStep [F.REG_NOW_NOW.addr 0 0] m m.tickCounted :=
  regsStep_setFld (regsStep_setFld (regsStep_refl _ m) F.REG_NOW_NOW _ 0 0 (.head _)) F.REG_NOW_HIGH _ 0 0 (.head _)

/-- The module after a tick: what `n`, with the tick counted, leaves once its late requests are marked. -/
theorem lateMarked_leaves {as : List Nat} {m n : Mod} {a : Nat} (hstep : RegsStep as (m.clearOut.modRegul (Regul.withAcc a)) n) :
    n.lateMarked.settle.ticks = n.ticks ∧ n.lateMarked.settle.out = [] ∧
    (∀ c ∈ n.lateMarked.settle.mc, ∀ z ∈ c.queues, ∀ w ∈ z, w.req.cls.val = 0 → n.lateMarked.settle.slack w.deadline ≤ 0 → w.late = true) ∧
    OnlyRegs as { m with mc := n.lateMarked.settle.mc, regul := { m.regul with acc := n.lateMarked.settle.regul.acc } } n.lateMarked.settle := by
  have hfld (f : Fld) : n.lateMarked.settle.fld f = n.fld f := fld_settle _ _ _ _ _
  have hrest : SameRest (m.modRegul (Regul.withAcc a)) n := sameRest_of_clearOut (m := m.modRegul _) (sameRest_of_regsStep hstep)
  obtain ⟨hmem, hout, hregul⟩ := regsStep_keeps hstep
  obtain ⟨-, hregs⟩ := hstep
  refine ⟨ticks_congr hfld, hout, fun c hc z hz w hw hcls hslack => ?late, onlyRegs_settle ?rest hmem hregs⟩
  case late =>
    rw [slack_congr hfld] at hslack
    exact late_of_lateMarked hc hz hw hcls hslack
  case rest =>
    show SameRest { m with mc := n.lateMarked.mc, regul := { m.regul with acc := n.regul.acc } } n.lateMarked
    rw [hregul, modRegul_regul]
    exact sameRest_lateMarked hrest

theorem deadlineTick_answers (s : State) : Answers .deadlineTick s (fun t => t.m.ticks = (s.m.ticks + 1) % 2 ^ 64 ∧ t.m.out = [] ∧
    (∀ c ∈ t.m.mc, ∀ z ∈ c.queues, ∀ w ∈ z, w.req.cls.val = 0 → t.m.slack w.deadline ≤ 0 → w.late = true) ∧
    OnlyRegs [F.REG_NOW_NOW.addr 0 0] { s.m with mc := t.m.mc, regul := { s.m.regul with acc := t.m.regul.acc } } t.m) := by
  refine answers_run (exec_deadlineTick s) ?_
  rw [deadlineTick_eq]
  obtain ⟨hticks, hleaves⟩ := lateMarked_leaves (m := s.m) (regsStep_tickCounted _)
  have hbefore : (s.m.clearOut.modRegul (Regul.withAcc (accPassed s.m.clearOut.regul.acc))).ticks = s.m.ticks := ticks_congr fun _ => rfl
  exact ⟨by rw [hticks, ticks_tickCounted, hbefore], hleaves⟩

/-! ## A controller's window and its queue level (10 R285, R287) -/

theorem reservationWindow_answers (k : Fin 24) (s : State) : Answers (.reservationWindow k) s (fun t => t.m.out = [] ∧
    OnlyRegs [] { s.m with mc := modNth s.m.mc k (fun x =>
      { x with credit := [7 * s.m.effRes k 0, 7 * s.m.effRes k 1, 7 * s.m.effRes k 2, 7 * s.m.effRes k 3, 7 * s.m.effRes k 4] }) } t.m) :=
  answers_run (exec_reservationWindow k s) ⟨rfl, onlyRegs_of_mcStep (mcStep_modMc (mcStep_clearOut k.val [] s.m) _) rfl⟩

/-- The level of a fullest channel queue of `n` requests, of 128 at most (10 R287). -/
def queueLevel (n : Nat) : Nat := if 116 ≤ n then 3 else if 96 ≤ n then 2 else if 64 ≤ n then 1 else 0

/-- 90 %, 75 % and 50 % of 128 requests are reached at 116, 96 and 64. -/
theorem queueLevel_eq (n : Nat) :
    (if 9 * 128 ≤ 10 * n then 3 else if 3 * 128 ≤ 4 * n then 2 else if 128 ≤ 2 * n then 1 else 0) = queueLevel n := by
  have h90 : 9 * 128 ≤ 10 * n ↔ 116 ≤ n := by omega
  have h75 : 3 * 128 ≤ 4 * n ↔ 96 ≤ n := by omega
  have h50 : 128 ≤ 2 * n ↔ 64 ≤ n := by omega
  simp only [h90, h75, h50, queueLevel]

theorem levelBroadcast_eq (m : Mod) (k : Nat) :
    m.levelBroadcast k = m.modMc k (fun c => { c with level := queueLevel (((List.range 4).map (m.chanLoad k)).foldl max 0) }) := by
  unfold Mod.levelBroadcast
  simp only [queueLevel_eq, List.foldl_map]

theorem queueLevelBroadcast_answers (k : Fin 24) (s : State) : Answers (.queueLevelBroadcast k) s (fun t => t.m.out = [] ∧
    OnlyRegs [] { s.m with mc := modNth s.m.mc k (fun x =>
      { x with level := queueLevel (((List.range 4).map (s.m.chanLoad k)).foldl max 0) }) } t.m) := by
  refine answers_run (exec_queueLevelBroadcast k s) ?_
  rw [levelBroadcast_eq]
  exact ⟨rfl, onlyRegs_of_mcStep (mcStep_modMc (mcStep_clearOut k.val [] s.m) _) rfl⟩

/-! ## A write of reservations (10 R286) -/

/-- The sum of the five fields of REG_RESk. -/
def resSum (v : Nat) : Nat := bits v 0 8 + bits v 8 8 + bits v 16 8 + bits v 24 8 + bits v 32 8

/-- The reservations written, with the status of the write. -/
def Mod.resTaken (m : Mod) (k v : Nat) : Mod :=
  (m.setFld F.REG_STATUS_RESULT 0).setReg (F.REG_RES_STREAM.addr 0 k) (BitVec.ofNat 64 (bits v 0 40))

/-- The write once its status is decided. -/
def Mod.resAnswered (m : Mod) (k v : Nat) (st : Status) : Mod × Status :=
  if st = .ok then ((m.setFld F.REG_STATUS_RESULT st.toNat).setReg (F.REG_RES_STREAM.addr 0 k) (BitVec.ofNat 64 (bits v 0 40)), st)
  else (m.setFld F.REG_STATUS_RESULT st.toNat, st)

theorem resWrite_taken {m : Mod} {k v : Nat} (h : resSum v ≤ 204) : m.resWrite k v = (m.resTaken k v, .ok) := by
  have hst : (if 204 < resSum v then Status.access else .ok) = .ok := if_neg (Nat.not_lt.mpr h)
  exact congrArg (m.resAnswered k v) hst

theorem resWrite_refused {m : Mod} {k v : Nat} (h : 204 < resSum v) : m.resWrite k v = (m.setFld F.REG_STATUS_RESULT 0x0D, .access) := by
  have hst : (if 204 < resSum v then Status.access else .ok) = .access := if_pos h
  exact congrArg (m.resAnswered k v) hst

theorem resReg_ne_status (k : Nat) : F.REG_STATUS_RESULT.addr 0 0 ≠ F.REG_RES_STREAM.addr 0 k := by
  rw [regulReg_addr rfl, regulReg_addr rfl]
  show 0x700008000000 ≠ 0x700008000100 + k * 8
  omega

theorem reg_resTaken (m : Mod) (k v : Nat) : ((m.resTaken k v).reg (F.REG_RES_STREAM.addr 0 k)).toNat = v % 2 ^ 40 := by
  have hlt := bits_lt v 0 40
  unfold Mod.resTaken
  rw [reg_setReg_self, BitVec.toNat_ofNat, Nat.mod_eq_of_lt (Nat.lt_trans hlt (by decide)), bits_eq_div, Nat.pow_zero, Nat.div_one]

theorem result_resTaken (m : Mod) (k v : Nat) : (m.resTaken k v).fld F.REG_STATUS_RESULT = 0 := by
  have hkept : (m.resTaken k v).fld F.REG_STATUS_RESULT = (m.setFld F.REG_STATUS_RESULT 0).fld F.REG_STATUS_RESULT := by
    simp only [Mod.fld, Mod.resTaken, reg_setReg_ne _ _ (resReg_ne_status k)]
  exact hkept.trans (fld_setFld_self _ _ _ _ _ _ (by decide))

theorem reservationWrite_taken_answers {ag : Agent} (hag : regAgent ag = true) (k : Fin 24) {data : Word} (s : State)
    (h : resSum data.toNat ≤ 204) : Answers (.reservationWrite ag k data) s (fun t => t.m.out = [.done .ok []] ∧
      t.m.fld F.REG_STATUS_RESULT = 0 ∧ (t.m.reg (F.REG_RES_STREAM.addr 0 k)).toNat = data.toNat % 2 ^ 40 ∧
      OnlyRegs [F.REG_STATUS_RESULT.addr 0 0, F.REG_RES_STREAM.addr 0 k] s.m t.m) := by
  refine answers_run (exec_reservationWrite ag k data s) ?_
  rw [byAgent_taken hag (resWrite_taken h)]
  refine ⟨rfl, (fld_settle _ _ _ _ _).trans (result_resTaken _ _ _), ?_, onlyRegs_of_regsStep_done ?_ _⟩
  · rw [reg_settle]
    exact reg_resTaken _ _ _
  · exact regsStep_setReg (regsStep_setFld (regsStep_refl _ _) F.REG_STATUS_RESULT 0 0 0 (.head _)) _ (.tail _ (.head _))

theorem reservationWrite_refused_answers {ag : Agent} (hag : regAgent ag = true) (hcore : isCore ag = false) (k : Fin 24) {data : Word}
    (s : State) (h : 204 < resSum data.toNat) : Answers (.reservationWrite ag k data) s (fun t => t.m.out = [.done .access []] ∧
      t.m.fld F.REG_STATUS_RESULT = 0x0D ∧ OnlyRegs [F.REG_STATUS_RESULT.addr 0 0] s.m t.m) := by
  refine answers_run (exec_reservationWrite ag k data s) ?_
  rw [byAgent_refused hag hcore, resWrite_refused h]
  refine ⟨rfl, (fld_settle _ _ _ _ _).trans (fld_setFld_self _ F.REG_STATUS_RESULT _ 0 0 0 (by decide)), onlyRegs_of_regsStep_done ?_ _⟩
  exact regsStep_setFld (regsStep_refl _ _) F.REG_STATUS_RESULT 0x0D 0 0 (.head _)

/-! ## Capacity (10 R289, R290) -/

theorem maskOf_lt {n : Nat} {l : List Nat} (h : ∀ i ∈ l, i < n) : maskOf l < 2 ^ n :=
  foldl_keeps_mem (fun x : Nat => x < 2 ^ n) _ l
    (fun _ i hi hx => Nat.or_lt_two_pow hx (Nat.pow_lt_pow_right (by decide) (h i hi))) 0 (Nat.two_pow_pos n)

/-- The controllers that are oversubscribed (10 Table 10.5 OVS_MASK). -/
def Mod.ovsMask (m : Mod) : Nat := maskOf ((List.range 24).filter (fun k => (m.capOf k).2.2))

theorem ovsMask_lt (m : Mod) : m.ovsMask < 2 ^ 24 := maskOf_lt fun _ hi => List.mem_range.mp (List.mem_of_mem_filter hi)

/-- REG_EFF of the listed controllers takes their capacity and scale. -/
def Mod.effTaken (m : Mod) (cap : Nat → Nat × Nat × Bool) (l : List Nat) : Mod :=
  l.foldl (fun x k => (x.setFld F.REG_EFF_EFF (cap k).1 0 k).setFld F.REG_EFF_SCALE (cap k).2.1 0 k) m

theorem regsStep_effTaken (m : Mod) (cap : Nat → Nat × Nat × Bool) (l : List Nat) :
    RegsStep (l.map (F.REG_EFF_EFF.addr 0)) m (m.effTaken cap l) :=
  foldl_keeps_mem (RegsStep _ m) _ l (fun _ k hk hx => regsStep_setFld
    (regsStep_setFld hx F.REG_EFF_EFF _ 0 k (List.mem_map_of_mem hk)) F.REG_EFF_SCALE _ 0 k (List.mem_map_of_mem (f := F.REG_EFF_EFF.addr 0) hk))
    m (regsStep_refl _ m)

/-- REG_EFFk holds the capacity and scale `cap`. -/
def Mod.effIs (m : Mod) (k : Nat) (cap : Nat × Nat × Bool) : Prop :=
  m.fld F.REG_EFF_EFF 0 k = cap.1 % 2 ^ 9 ∧ m.fld F.REG_EFF_SCALE 0 k = cap.2.1 % 2 ^ 17

theorem effIs_congr {m n : Mod} {k : Nat} {cap : Nat × Nat × Bool} (h : m.effIs k cap)
    (hreg : n.reg (F.REG_EFF_EFF.addr 0 k) = m.reg (F.REG_EFF_EFF.addr 0 k)) : n.effIs k cap := by
  obtain ⟨heff, hscale⟩ := h
  have hscaleReg : n.reg (F.REG_EFF_SCALE.addr 0 k) = m.reg (F.REG_EFF_SCALE.addr 0 k) := hreg
  exact ⟨by rw [← heff, Mod.fld, hreg, Mod.fld], by rw [← hscale, Mod.fld, hscaleReg, Mod.fld]⟩

theorem effIs_set (m : Mod) (k : Nat) (cap : Nat × Nat × Bool) :
    ((m.setFld F.REG_EFF_EFF cap.1 0 k).setFld F.REG_EFF_SCALE cap.2.1 0 k).effIs k cap := by
  refine ⟨?_, fld_setFld_self _ _ _ _ _ _ (by decide)⟩
  rw [fld_setFld_beside _ _ _ _ (by decide)]
  exact fld_setFld_self _ _ _ _ _ _ (by decide)

theorem effReg_ne {j k : Nat} (h : k ≠ j) : F.REG_EFF_EFF.addr 0 k ≠ F.REG_EFF_EFF.addr 0 j := by
  rw [regulReg_addr rfl, regulReg_addr rfl]
  show 0x700008000200 + k * 8 ≠ 0x700008000200 + j * 8
  omega

theorem effIs_effTaken (m : Mod) (cap : Nat → Nat × Nat × Bool) {l : List Nat} {k : Nat} (hk : k ∈ l) : (m.effTaken cap l).effIs k (cap k) := by
  refine foldl_reaches (fun x : Mod => x.effIs k (cap k)) _ (fun x j hx => ?_) hk (fun x => effIs_set x k (cap k)) m
  by_cases hj : k = j
  · subst hj
    exact effIs_set x k (cap k)
  · refine effIs_congr hx ?_
    rw [reg_setFld_ne _ F.REG_EFF_SCALE _ _ _ _ (effReg_ne hj), reg_setFld_ne _ _ _ _ _ _ (effReg_ne hj)]

/-! ## The regulator takes up the capacity (10 R289, R290) -/

/-- No change is pending any more. -/
def Regul.taken (r : Regul) : Regul := { r with changes := [] }

/-- REG_STATUS shows the oversubscribed controllers, and no change is pending any more. -/
def Mod.ovsShown (m : Mod) (mask : Nat) : Mod :=
  ((m.setFld F.REG_STATUS_OVS_MASK mask).setFld F.REG_STATUS_OVERSUB (b2n (mask != 0))).modRegul Regul.taken

theorem fld_ovsShown (m : Mod) {mask : Nat} (h : mask < 2 ^ 24) :
    (m.ovsShown mask).fld F.REG_STATUS_OVS_MASK = mask ∧ (m.ovsShown mask).fld F.REG_STATUS_OVERSUB = (if mask = 0 then 0 else 1) := by
  unfold Mod.ovsShown
  rw [fld_modRegul, fld_modRegul]
  constructor
  · rw [fld_setFld_apart _ _ _ (by decide), fld_setFld_self _ _ _ _ _ _ (by decide)]
    exact Nat.mod_eq_of_lt h
  · rw [fld_setFld_self _ _ _ _ _ _ (by decide)]
    by_cases hz : mask = 0 <;> simp [hz, b2n, F.REG_STATUS_OVERSUB]

theorem effIs_ovsShown {m : Mod} {k : Nat} {cap : Nat × Nat × Bool} (h : m.effIs k cap) (mask : Nat) : (m.ovsShown mask).effIs k cap := by
  have hne {f : Fld} (hb : f.blk = .reg) (hs : f.stride = 0) (hoff : f.off < 0x200) : F.REG_EFF_EFF.addr 0 k ≠ f.addr 0 0 :=
    effReg_ne_single rfl rfl hb hs hoff k
  refine effIs_congr h ?_
  unfold Mod.ovsShown
  rw [reg_modRegul, reg_setFld_ne _ _ _ _ _ _ (hne rfl rfl (by decide)), reg_setFld_ne _ _ _ _ _ _ (hne rfl rfl (by decide))]

/-- The module after a recompute, but for the entry into OVERSUBSCRIBED and its end. -/
def Mod.capsTaken (m : Mod) : Mod := (m.effTaken m.capOf (List.range 24)).ovsShown m.ovsMask

/-- `n` holds the capacity and scale of every controller of `m`, and nothing is left to recompute. -/
def CapsTaken (m n : Mod) : Prop :=
  (∀ k < 24, n.fld F.REG_EFF_EFF 0 k = (m.capOf k).1 % 512 ∧ n.fld F.REG_EFF_SCALE 0 k = (m.capOf k).2.1 % 2 ^ 17) ∧
  n.fld F.REG_STATUS_OVS_MASK = m.ovsMask ∧ n.fld F.REG_STATUS_OVERSUB = (if m.ovsMask = 0 then 0 else 1) ∧ n.regul.changes = []

/-- What keeps the regulator's registers and its pending changes keeps what was taken up. -/
theorem capsTaken_congr {m n n' : Mod} (h : CapsTaken m n) (hfld : ∀ f : Fld, f.blk = .reg → ∀ k, n'.fld f 0 k = n.fld f 0 k)
    (hchanges : n'.regul.changes = n.regul.changes) : CapsTaken m n' := by
  obtain ⟨heff, hmask, hovs, hnone⟩ := h
  refine ⟨fun k hk => ?_, (hfld _ rfl 0).trans hmask, (hfld _ rfl 0).trans hovs, hchanges.trans hnone⟩
  rw [hfld _ rfl k, hfld _ rfl k]
  exact heff k hk

theorem capsTaken_raise {m n : Mod} (h : CapsTaken m n) (code : Nat) (data : List Byte) : CapsTaken m (n.raise code data) :=
  capsTaken_congr h (fun f hf k => fld_raise _ _ _ f 0 k 0 (regulReg_not_event hf)) (by rw [regul_raise])

theorem capsTaken_settle {m n : Mod} (h : CapsTaken m n) : CapsTaken m n.settle :=
  capsTaken_congr h (fun _ _ _ => fld_settle _ _ _ _ _) rfl

theorem capsTaken_capsTaken (m : Mod) : CapsTaken m m.capsTaken := by
  obtain ⟨hmask, hovs⟩ := fld_ovsShown (m.effTaken m.capOf (List.range 24)) (ovsMask_lt m)
  exact ⟨fun k hk => effIs_ovsShown (effIs_effTaken m m.capOf (List.mem_range.mpr hk)) _, hmask, hovs, rfl⟩

/-- The registers that a recompute may change. -/
def capRegs : List Nat := F.REG_STATUS_OVERSUB.addr 0 0 :: (List.range 24).map (F.REG_EFF_EFF.addr 0)

theorem regsStep_ovsShown {m n : Mod} (h : RegsStep capRegs m n) (mask : Nat) : RegsStep capRegs (m.modRegul Regul.taken) (n.ovsShown mask) :=
  regsStep_modRegul (regsStep_setFld (regsStep_setFld h F.REG_STATUS_OVS_MASK mask 0 0 (.head _)) F.REG_STATUS_OVERSUB _ 0 0 (.head _)) _

theorem regsStep_capsTaken (m : Mod) : RegsStep capRegs (m.modRegul Regul.taken) m.capsTaken := by
  obtain ⟨hn, hregs⟩ := regsStep_effTaken m m.capOf (List.range 24)
  exact regsStep_ovsShown ⟨hn, fun a ha => hregs a fun hmem => ha (.tail _ hmem)⟩ _

theorem capOf_clearOut (m : Mod) (k : Nat) : m.clearOut.capOf k = m.capOf k := rfl

theorem ovsMask_clearOut (m : Mod) : m.clearOut.ovsMask = m.ovsMask := by simp only [Mod.ovsMask, capOf_clearOut]

theorem capsTaken_of_clearOut {m n : Mod} (h : CapsTaken m.clearOut n) : CapsTaken m n := by
  simpa only [CapsTaken, capOf_clearOut, ovsMask_clearOut] using h

/-! ## The recompute (10 R290, Table 10.2) -/

/-- The misses count from 0. -/
def Regul.recounted (r : Regul) : Regul := { r with missed := [0, 0, 0, 0, 0] }

/-- OVERSUBSCRIBED is entered: the misses count from 0, and the record names the controller and cause `c`. -/
def Mod.ovsEntered (m : Mod) (mask : Nat) (c : Nat × Nat) : Mod := (m.modRegul Regul.recounted).raise 0x0601 (d4 mask ++ d1 c.2 ++ d1 c.1)

/-- OVERSUBSCRIBED is left: the record carries the misses. -/
def Mod.ovsLeft (m : Mod) : Mod := m.raise 0x0602 ((List.range 5).flatMap (fun i => dCount (nth m.regul.missed i 0)))

/-- The change that a recompute's record names: that of the lowest-numbered controller. -/
def firstChange (c : Nat × Nat) (cs : List (Nat × Nat)) : Nat × Nat := cs.foldl (fun a b => if b.1 < a.1 then b else a) c

theorem capsTaken_ovsEntered {m n : Mod} (h : CapsTaken m n) (mask : Nat) (c : Nat × Nat) : CapsTaken m (n.ovsEntered mask c) :=
  capsTaken_raise (capsTaken_congr h (fun f _ k => fld_modRegul n _ f 0 k 0) rfl) _ _

theorem missed_ovsEntered (m : Mod) (mask : Nat) (c : Nat × Nat) : (m.ovsEntered mask c).regul.missed = [0, 0, 0, 0, 0] :=
  congrArg Regul.missed (regul_raise _ _ _)

theorem nth_map_range {α : Type} {n k : Nat} (f : Nat → α) (d : α) (hk : k < n) : nth ((List.range n).map f) k d = f k := by
  simp [nth, hk]

/-! The recompute's table of capacities is read at the controllers it was made for. -/

theorem ovsMask_eq (m : Mod) : maskOf ((List.range 24).filter (fun k => (nth ((List.range 24).map m.capOf) k (0, 0, false)).2.2)) = m.ovsMask :=
  congrArg maskOf (List.filter_congr fun k hk => by rw [nth_map_range _ _ (List.mem_range.mp hk)])

theorem effTaken_eq (m : Mod) : (List.range 24).foldl (fun (x : Mod) k =>
      (x.setFld F.REG_EFF_EFF (nth ((List.range 24).map m.capOf) k (0, 0, false)).1 0 k).setFld F.REG_EFF_SCALE
        (nth ((List.range 24).map m.capOf) k (0, 0, false)).2.1 0 k) m = m.effTaken m.capOf (List.range 24) :=
  List.foldl_ext _ _ _ fun x k hk => by rw [nth_map_range _ _ (List.mem_range.mp hk)]

/-- The end of a recompute, by OVERSUBSCRIBED before it and the mask of the oversubscribed controllers. -/
def Mod.ovsMoved (m : Mod) (was mask : Nat) (c : Nat × Nat) : Mod :=
  if was = 0 ∧ mask ≠ 0 then (m.ovsShown mask).ovsEntered mask c
  else if was = 1 ∧ mask = 0 then (m.ovsShown mask).ovsLeft else m.ovsShown mask

theorem recompute_cons {m : Mod} {c : Nat × Nat} {cs : List (Nat × Nat)} (h : m.regul.changes = c :: cs) :
    m.recompute = ((List.range 24).foldl (fun (x : Mod) k =>
        (x.setFld F.REG_EFF_EFF (nth ((List.range 24).map m.capOf) k (0, 0, false)).1 0 k).setFld F.REG_EFF_SCALE
          (nth ((List.range 24).map m.capOf) k (0, 0, false)).2.1 0 k) m).ovsMoved (m.fld F.REG_STATUS_OVERSUB)
      (maskOf ((List.range 24).filter (fun k => (nth ((List.range 24).map m.capOf) k (0, 0, false)).2.2))) (firstChange c cs) := by
  unfold Mod.recompute
  split
  · next hnil => exact absurd (hnil.symm.trans h) (List.cons_ne_nil _ _).symm
  · next c' cs' hcons =>
    obtain ⟨rfl, rfl⟩ := List.cons.inj (hcons.symm.trans h)
    rfl

theorem recompute_eq {m : Mod} {c : Nat × Nat} {cs : List (Nat × Nat)} (h : m.regul.changes = c :: cs) :
    m.recompute = (m.effTaken m.capOf (List.range 24)).ovsMoved (m.fld F.REG_STATUS_OVERSUB) m.ovsMask (firstChange c cs) := by
  rw [recompute_cons h, effTaken_eq, ovsMask_eq]

section
variable {s : State} {c : Nat × Nat} {cs : List (Nat × Nat)} (h : s.m.regul.changes = c :: cs)
include h

/-- What the command leaves, by OVERSUBSCRIBED before and after it. -/
theorem recompute_clearOut :
    s.m.clearOut.recompute =
      if s.m.fld F.REG_STATUS_OVERSUB = 0 ∧ s.m.ovsMask ≠ 0 then s.m.clearOut.capsTaken.ovsEntered s.m.ovsMask (firstChange c cs)
      else if s.m.fld F.REG_STATUS_OVERSUB = 1 ∧ s.m.ovsMask = 0 then s.m.clearOut.capsTaken.ovsLeft else s.m.clearOut.capsTaken := by
  have hchanges : s.m.clearOut.regul.changes = c :: cs := h
  rw [recompute_eq hchanges, fld_clearOut, Mod.capsTaken, ovsMask_clearOut, Mod.ovsMoved]

theorem capsTaken_recompute : CapsTaken s.m s.m.clearOut.recompute.settle := by
  have htaken : CapsTaken s.m s.m.clearOut.capsTaken := capsTaken_of_clearOut (capsTaken_capsTaken _)
  rw [recompute_clearOut h]
  refine capsTaken_settle ?_
  split_ifs
  · exact capsTaken_ovsEntered htaken _ _
  · exact capsTaken_raise htaken _ _
  · exact htaken

theorem capacityRecompute_takes : Answers .capacityRecompute s (fun t => CapsTaken s.m t.m) :=
  answers_run (exec_capacityRecompute s) (capsTaken_recompute h)

theorem capacityRecompute_steady (hmask : s.m.ovsMask = 0) (hovs : s.m.fld F.REG_STATUS_OVERSUB = 0) :
    Answers .capacityRecompute s (fun t => t.m.out = [] ∧ OnlyRegs capRegs { s.m with regul := { s.m.regul with changes := [] } } t.m) := by
  have hrun : s.m.clearOut.recompute = s.m.clearOut.capsTaken := by
    rw [recompute_clearOut h, if_neg (not_and_not_right.mpr fun _ => hmask), if_neg (by simp [hovs])]
  refine answers_run (exec_capacityRecompute s) ?_
  rw [hrun]
  exact onlyRegs_of_regsStep_modRegul (regsStep_capsTaken s.m.clearOut)

theorem capacityRecompute_enters (hmask : s.m.ovsMask ≠ 0) (hovs : s.m.fld F.REG_STATUS_OVERSUB = 0) :
    Answers .capacityRecompute s (fun t => CapsTaken s.m t.m ∧ t.m.regul.missed = [0, 0, 0, 0, 0] ∧
      Raised t.m 0x0601 (d4 s.m.ovsMask ++ d1 (firstChange c cs).2 ++ d1 (firstChange c cs).1)) := by
  have hrun : s.m.clearOut.recompute = s.m.clearOut.capsTaken.ovsEntered s.m.ovsMask (firstChange c cs) :=
    (recompute_clearOut h).trans (if_pos ⟨hovs, hmask⟩)
  refine answers_run (exec_capacityRecompute s) ⟨capsTaken_recompute h, ?_⟩
  rw [hrun]
  exact ⟨missed_ovsEntered _ _ _, raised_settle (raised_raise _ _ _)⟩

theorem capacityRecompute_leaves (hmask : s.m.ovsMask = 0) (hovs : s.m.fld F.REG_STATUS_OVERSUB = 1) :
    Answers .capacityRecompute s (fun t => CapsTaken s.m t.m ∧
      Raised t.m 0x0602 ((List.range 5).flatMap (fun i => dCount (nth s.m.regul.missed i 0)))) := by
  have hrun : s.m.clearOut.recompute = s.m.clearOut.capsTaken.ovsLeft := by
    rw [recompute_clearOut h, if_neg (not_and_not_right.mpr fun _ => hmask), if_pos ⟨hovs, hmask⟩]
  obtain ⟨-, -, hregul⟩ := regsStep_keeps (regsStep_capsTaken s.m.clearOut)
  have hmissed : s.m.clearOut.capsTaken.regul.missed = s.m.regul.missed := by
    rw [hregul, modRegul_regul]
    rfl
  refine answers_run (exec_capacityRecompute s) ⟨capsTaken_recompute h, ?_⟩
  rw [hrun, ← hmissed]
  exact raised_settle (raised_raise _ _ _)

end

/-- Settles O30: a tick, a window, a level and a write of reservations each by what its row changes; a recompute by the state of
OVERSUBSCRIBED before and after it. -/
theorem regulatorRuns : Obligations.RegulatorRuns := by
  unfold Obligations.RegulatorRuns
  refine ⟨fun ag k data s hag => ⟨deadlineTick_answers s, reservationWindow_answers k s, ?level,
    fun hsum => reservationWrite_taken_answers hag k s hsum, fun hsum hcore => reservationWrite_refused_answers hag hcore k s hsum⟩, fun s c cs hchanges => ?recompute⟩
  case level =>
    rintro n rfl
    exact queueLevelBroadcast_answers k s
  case recompute =>
    refine ⟨capacityRecompute_takes hchanges, capacityRecompute_steady hchanges, fun hmask hovs hone => ?_, capacityRecompute_leaves hchanges⟩
    subst hone
    exact capacityRecompute_enters hchanges hmask hovs

end Sys2Proof.Machine

/-! # Proofs: accesses of the cores to their caches (11 R294, R306, Table 11.4; 16 R420) -/

namespace Sys2Proof.Machine

open Sys2Proof

/-! ## A module with one cache line -/

section
variable {m : Mod} {l x : Line}

theorem lineFind_sole {a addr : Nat} (h : m.lines = [l]) (ha : l.agent = a) (hl : l.addr = addr) : m.lineFind a addr = some l := by
  simp [Mod.lineFind, h, ha, hl]

theorem lineFind_of_nil (h : m.lines = []) (a addr : Nat) : m.lineFind a addr = none := by simp [Mod.lineFind, h]

theorem linePut_sole (h : m.lines = [l]) (ha : x.agent = l.agent) (hl : x.addr = l.addr) : m.linePut x = { m with lines := [x] } := by
  simp [Mod.linePut, Mod.lineDrop, h, ha, hl]

theorem linePut_of_nil (h : m.lines = []) (x : Line) : m.linePut x = { m with lines := [x] } := by
  simp [Mod.linePut, Mod.lineDrop, h]

end

/-! ## The end of a command of the coherence machinery -/

/-- Nothing of the entry waits for what the end of a command can give it: no transaction waits for its package alone, and no snoop of a
remote home waits behind one (09 R264, 11 R305). -/
def DirEntry.calm (e : DirEntry) : Bool := !e.waitsHome && e.held.isNone

/-- `n` differs from `m` at most in outputs, registers, memory, cache lines, directory entries, the requests and messages between them, and a
drain of the proxies goes on as it did. -/
def CohFrame (m n : Mod) : Prop :=
  n = { m with out := n.out, regs := n.regs, mem := n.mem, lines := n.lines, dir := n.dir, retry := n.retry, retryFilled := n.retryFilled,
               net := n.net, ncAcks := n.ncAcks } ∧
  n.fld F.DIR_STATUS_DRAINING = m.fld F.DIR_STATUS_DRAINING

theorem dirCalm_of_quiet {m : Mod} (h : m.quiet = true) : m.dir.all DirEntry.calm = true := by
  simp only [Mod.quiet, memQuiet_eq, Bool.and_eq_true] at h
  obtain ⟨⟨-, ⟨⟨⟨⟨⟨-, hdir⟩, -⟩, -⟩, -⟩, -⟩⟩, -⟩ := h
  exact hdir

/-- A module where nothing waits stays one while nothing comes to wait at the directory. -/
theorem quiet_of_cohFrame {m n : Mod} (h : CohFrame m n) (hq : m.quiet = true) (hd : n.dir.all DirEntry.calm = true) : n.quiet = true := by
  obtain ⟨hn, hdrain⟩ := h
  have hdir : (n.dir.all fun e => !e.waitsHome && e.held.isNone) = m.dir.all fun e => !e.waitsHome && e.held.isNone :=
    hd.trans (dirCalm_of_quiet hq).symm
  have hmem : n.memQuiet = m.memQuiet := by
    simp only [memQuiet_eq, hdir, hdrain]
    rw [hn]
  rw [← hq]
  refine quiet_congr ?_ ?_ ?_ hmem (svcReady_congr ?_ ?_ ?_) <;> rw [hn]

/-- A command whose effect leaves other cache lines, messages and outputs that stay in the block answers just these. -/
theorem answers_lines {c : Instr} {s : State} {f : Mod → Mod} {ls : List Line} {net : List CohMsg} {os : List Out} (hq : s.m.quiet = true)
    (h : exec c s = s.runF f) (hf : f s.m.clearOut = { s.m with lines := ls, net := net, out := os }) (hos : os.all Out.stays = true) :
    Answers c s (fun t => t.m.out = os ∧ OnlyRegs [] { s.m with lines := ls, net := net } t.m) := by
  have hframe : CohFrame s.m { s.m with lines := ls, net := net, out := os } := ⟨rfl, rfl⟩
  refine answers_runF h ?_ ?_ ?_ <;> rw [hf]
  · exact quiet_of_cohFrame hframe hq (dirCalm_of_quiet (m := s.m) hq)
  · exact hos
  · exact ⟨rfl, onlyRegs_settle rfl rfl fun _ _ => rfl⟩

/-! ## An access meets its line (11 Table 11.4) -/

section
variable {m : Mod} {x : CoreAccess} {c : Fin 65} {line : Nat} {l : Line}

theorem completeAccess_read {n : Nat} (hop : x.op = .read n) (hp : l.poison = false) :
    m.completeAccess l x = m.emit (.core x.ag .ok ((l.data.drop (x.addr % 64)).take n)) := by
  simp [Mod.completeAccess, hop, hp]

theorem completeAccess_store {d : List Byte} (hop : x.op = .write (d.map some)) (hamo : x.amo = none) (hp : l.poison = false) :
    m.completeAccess l x =
      (m.linePut { l with st := .m, data := splice l.data (x.addr % 64) d, l1 := l1Of x.ag }).emit (.core x.ag .ok []) := by
  simp [Mod.completeAccess, hop, hamo, hp]

theorem completeAccess_amo {d : List (Option Byte)} {fn : AmoFn} {v : Word} (hop : x.op = .write d) (hamo : x.amo = some (fn, v))
    (hp : l.poison = false) :
    m.completeAccess l x =
      (m.linePut { l with st := .m, data := splice l.data (x.addr % 64) (toBytes d.length (amoResult fn d.length
        (ofBytes ((l.data.drop (x.addr % 64)).take d.length)) v.toNat)), l1 := l1Of x.ag }).emit
        (.core x.ag .ok ((l.data.drop (x.addr % 64)).take d.length)) := by
  simp [Mod.completeAccess, hop, hamo, hp]

/-- A line in E or M allows every access. -/
theorem cachedAccess_owned (hfind : m.lineFind c line = some l) (hst : l.st = .e ∨ l.st = .m) :
    m.cachedAccess c line x = m.completeAccess l x := by
  rcases hst with hst | hst <;> simp [Mod.cachedAccess, hfind, hst]

/-- The line that an access opens which the cache does not hold. -/
def CoreAccess.opens (x : CoreAccess) (c : Fin 65) (line : Nat) : Line :=
  { agent := c.val, addr := line, st := if isWrite x.op then .im else .isE, data := [], poison := false, access := some x, snoop := none }

/-- A missing line is asked of its home. -/
theorem cachedAccess_missing (h : m.lines = []) : m.cachedAccess c line x =
    { m with lines := [x.opens c line],
             net := m.net ++ [{ kind := if isWrite x.op then .rdX else .rdS, src := some c, dst := none, line := line }] } := by
  simp only [Mod.cachedAccess, lineFind_of_nil h, linePut_of_nil h]
  rfl

/-! ## An access of a core -/

/-- An access within a line, an AMO one that is naturally aligned, meets the core's cache. -/
theorem coreAccess_cached (hfit : x.addr % 64 + opLen x.op ≤ 64)
    (hamo : x.amo.isSome = true → (opLen x.op = 4 ∨ opLen x.op = 8) ∧ x.addr % opLen x.op = 0)
    (hc : cacheOf x.ag = some c) (hl : m.cacheLine x.addr = some line) : m.coreAccess x = m.cachedAccess c line x := by
  have hgood : ¬(x.addr % 64 + opLen x.op > 64 ∨
      (x.amo.isSome = true ∧ ((opLen x.op ≠ 4 ∧ opLen x.op ≠ 8) ∨ x.addr % opLen x.op ≠ 0))) := by
    rintro (h | ⟨h, hbad⟩)
    · omega
    · obtain ⟨hlen, halign⟩ := hamo h
      omega
  simp only [Mod.coreAccess, hgood, false_and, if_false, hc, hl]

/-- It completes in a line that the core's cache holds alone, in E or M. -/
theorem coreAccess_owned (hfit : x.addr % 64 + opLen x.op ≤ 64)
    (hamo : x.amo.isSome = true → (opLen x.op = 4 ∨ opLen x.op = 8) ∧ x.addr % opLen x.op = 0)
    (hc : cacheOf x.ag = some c) (hl : m.cacheLine x.addr = some line) (hlines : m.lines = [l]) (hagent : l.agent = c.val)
    (haddr : l.addr = line) (hst : l.st = .e ∨ l.st = .m) : m.coreAccess x = m.completeAccess l x :=
  (coreAccess_cached hfit hamo hc hl).trans (cachedAccess_owned (lineFind_sole hlines hagent haddr) hst)

/-- Cacheable memory lies below the register regions (01 Table 01.6). -/
theorem lt_of_cacheableHere {a : Nat} (h : cacheableHere a = true) : a < 0x700000000000 := by
  by_contra hge
  have hlp : lpddrAt a = none := lpddrAt_of_ge (by omega)
  have hsram : sramAt a = none := by
    have hhub : ¬(0x400000000000 ≤ a ∧ a < 0x400080000000) := by omega
    have hdie : ¬(0x400100000000 ≤ a ∧ a < 0x400500000000) := by omega
    simp only [sramAt, hhub, hdie, if_false]
  simp [cacheableHere, hlp, hsram] at h

theorem atRegister_of_cacheLine {a : Nat} (h : m.cacheLine a = some line) : m.atRegister a = false := by
  unfold Mod.cacheLine at h
  unfold Mod.atRegister
  split at h
  · rename_i y hy
    have hlow : y < 0x700000000000 := lt_of_cacheableHere (Option.ite_none_right_eq_some.mp h).1
    simp [hy, Nat.not_le.mpr hlow]
  · rename_i node y hy
    simp [hy]
  · simp at h

/-- An access of cacheable memory across lines raises the misaligned exception (log 60). -/
theorem coreAccess_across (hacross : 64 < x.addr % 64 + opLen x.op) (hl : m.cacheLine x.addr = some line) :
    m.coreAccess x = m.emit (.exception x.ag (misaligned x.kind) x.addr) := by
  simp [Mod.coreAccess, hacross, atRegister_of_cacheLine hl]

end

/-! ## The commands of a core -/

section
variable {s : State} {i : Instr} {x : CoreAccess} {c : Fin 65} {line : Nat} {l : Line}
  (hi : exec i s = s.runF fun m => m.coreAccess x) (hq : s.m.quiet = true)
include hi hq

theorem core_across_answers (hacross : 64 < x.addr % 64 + opLen x.op) (hl : s.m.cacheLine x.addr = some line) :
    Answers i s (fun t => t.m.out = [.exception x.ag (misaligned x.kind) x.addr] ∧ OnlyRegs [] s.m t.m) :=
  answers_lines (ls := s.m.lines) (net := s.m.net) hq hi (coreAccess_across (m := s.m.clearOut) hacross hl) rfl

variable (hfit : x.addr % 64 + opLen x.op ≤ 64)
  (hamo : x.amo.isSome = true → (opLen x.op = 4 ∨ opLen x.op = 8) ∧ x.addr % opLen x.op = 0)
  (hc : cacheOf x.ag = some c) (hl : s.m.cacheLine x.addr = some line)
include hfit hamo hc hl

theorem core_missing_answers (hlines : s.m.lines = []) : Answers i s (fun t => t.m.out = [] ∧ OnlyRegs [] { s.m with
    lines := [x.opens c line],
    net := s.m.net ++ [{ kind := if isWrite x.op then .rdX else .rdS, src := some c, dst := none, line := line }] } t.m) :=
  answers_lines hq hi ((coreAccess_cached (m := s.m.clearOut) hfit hamo hc hl).trans (cachedAccess_missing hlines)) rfl

/-! The cache holds the line alone, in E or M. -/

variable (hlines : s.m.lines = [l]) (hagent : l.agent = c.val) (haddr : l.addr = line) (hst : l.st = .e ∨ l.st = .m)
include hlines hagent haddr hst

theorem core_reads_answers {n : Nat} (hop : x.op = .read n) (hp : l.poison = false) : Answers i s (fun t =>
    t.m.out = [.core x.ag .ok ((l.data.drop (x.addr % 64)).take n)] ∧ OnlyRegs [] s.m t.m) :=
  answers_lines (ls := s.m.lines) (net := s.m.net) hq hi
    ((coreAccess_owned (m := s.m.clearOut) hfit hamo hc hl hlines hagent haddr hst).trans (completeAccess_read hop hp)) rfl

theorem core_writes_answers {data out : List Byte} (hcomplete : s.m.clearOut.completeAccess l x =
      (s.m.clearOut.linePut { l with st := .m, data := splice l.data (x.addr % 64) data, l1 := l1Of x.ag }).emit (.core x.ag .ok out)) :
    Answers i s (fun t => t.m.out = [.core x.ag .ok out] ∧
      OnlyRegs [] { s.m with lines := [{ l with st := .m, data := splice l.data (x.addr % 64) data, l1 := l1Of x.ag }] } t.m) := by
  refine answers_lines (net := s.m.net) hq hi ?_ rfl
  rw [coreAccess_owned (m := s.m.clearOut) hfit hamo hc hl hlines hagent haddr hst, hcomplete,
    linePut_sole (m := s.m.clearOut) hlines (by rfl) (by rfl)]
  rfl

end

/-- Settles O34: an access within a line meets the cache, where it completes in the line that the core owns or asks for the line it misses;
one across lines of cacheable memory is misaligned. -/
theorem coreAccesses : Obligations.CoreAccesses := by
  unfold Obligations.CoreAccesses
  intro ag c addr line n l d fn x s hq hc hl hn hfit hd
  have hstore : addr.toNat % 64 + opLen (.write (d.map some)) ≤ 64 := by simpa [opLen, hd] using hfit
  refine ⟨?owned, ?missing, fun k hk => core_across_answers (exec_coreLoad ag addr k s) hq hk hl⟩
  case owned =>
    intro hlines hagent haddr hp hst
    refine ⟨?load, ?fetch, ?store, ?amo⟩
    case load => exact core_reads_answers (exec_coreLoad ag addr n s) hq hfit nofun hc hl hlines hagent haddr hst rfl hp
    case fetch => exact core_reads_answers (exec_coreInstructionFetch ag addr n s) hq hfit nofun hc hl hlines hagent haddr hst rfl hp
    case store =>
      exact core_writes_answers (exec_coreStore ag addr d s) hq hstore nofun hc hl hlines hagent haddr hst
        (completeAccess_store rfl rfl hp)
    case amo =>
      intro hsize halign
      have hlen : (List.replicate n (some (0 : Byte))).length = n := List.length_replicate
      have hwrite := completeAccess_amo (m := s.m.clearOut) (l := l) (d := List.replicate n (some 0)) (fn := fn) (v := x)
        (x := { ag := ag, kind := 2, addr := addr.toNat, op := .write (List.replicate n (some 0)), amo := some (fn, x) }) rfl rfl hp
      rw [hlen] at hwrite
      exact core_writes_answers (exec_coreAmo ag addr n fn x s) hq (by simpa [opLen] using hfit)
        (fun _ => by simpa [opLen] using ⟨hsize, halign⟩) hc hl hlines hagent haddr hst hwrite
  case missing =>
    intro hlines
    exact ⟨core_missing_answers (exec_coreLoad ag addr n s) hq hfit nofun hc hl hlines,
      core_missing_answers (exec_coreStore ag addr d s) hq hstore nofun hc hl hlines⟩

end Sys2Proof.Machine

/-! # Proofs: a line that its home cannot read (08 R236; 11 R306; 18 R470)

O32 says that Data completes the load that waits for its line, whatever the message carries beside its kind and its poison. A line that its
home cannot read at all goes to its asker in a Data message too, with the status of the read (`CohMsg.why`), and the load then ends with a
fault. The counterexample is reached by two commands from a running module in which bank 0 of the hub buffer is OFF: a load of its first
bytes, and the home's answer to the RdS that the load sent. -/

namespace Sys2Proof.Machine

open Sys2Proof

/-- The load of the buffer's first bytes by AC1. -/
def firstLoad : CoreAccess := { ag := .ac 1, kind := 1, addr := 0x400000000000, op := .read 4 }

/-- A running module in which bank 0 of the hub buffer is OFF. -/
def bankOff : State := ⟨[], ({ pwrgd := true, state := .active } : Mod).setBankState 16 0 2⟩

/-- The shared L2 has asked the home for the line. -/
def lineAsked : State := { bankOff with m := (bankOff.m.clearOut.coreAccess firstLoad).conclude.settle }

/-- The home has met the bank and sent what it can. -/
def lineUnread : State :=
  { lineAsked with m := (lineAsked.m.clearOut.reqArrives (.agent 64) 0x400000000000 .rdS (.rdS (.agent 64))).conclude.settle }

/-- The Data message has reached the L2. -/
def loadFailed : State := { lineUnread with m := (lineUnread.m.clearOut.dataArrives 64 0x400000000000 .data).conclude.settle }

theorem exec_coreLoad_bankOff : exec (.coreLoad (.ac 1) 0x400000000000 4) bankOff = .next lineAsked := rfl

theorem exec_rds_lineAsked : exec (.rds (.agent 64) 0x400000000000) lineAsked = .next lineUnread := rfl

theorem exec_data_lineUnread : exec (.data (some 64) 0x400000000000 [] .e false) lineUnread = .next loadFailed := rfl

/-- The line as the L2 waits for it. -/
def waitingLine : Line :=
  { agent := 64, addr := 0x400000000000, st := .isE, data := [], poison := false, access := some firstLoad, snoop := none }

theorem lineUnread_premises : lineUnread.m.quiet = true ∧ lineUnread.m.lines = [waitingLine] := by decide +kernel

/-- The home has sent one message: bytes that nothing defines, with ST_BANK_OFF. -/
theorem lineUnread_net : lineUnread.m.net.length = 1 ∧ ∀ x ∈ lineUnread.m.net,
    x.kind = .data ∧ x.dst = some 64 ∧ x.line = 0x400000000000 ∧ x.poison = false ∧ x.why = .bankOff := by decide +kernel

/-- The L2 has given the line up. -/
theorem loadFailed_lines : loadFailed.m.lines = [] := by decide +kernel

/-- Refutes O32: its clause for Data leaves the line in the agent's cache with the load completed, but in `loadFailed` the line is gone: the
message of `lineUnread` carries ST_BANK_OFF. -/
theorem not_agentsAnswer : ¬ Obligations.AgentsAnswer := by
  unfold Obligations.AgentsAnswer
  rintro ⟨holds, -⟩
  obtain ⟨hquiet, hlines⟩ := lineUnread_premises
  obtain ⟨hone, hnet⟩ := lineUnread_net
  obtain ⟨msg, hmsg⟩ := List.length_eq_one_iff.mp hone
  obtain ⟨hkind, hdst, hline, hpoison, -⟩ := hnet msg (hmsg ▸ List.mem_singleton_self msg)
  obtain ⟨-, -, -, -, -, -, hdata, -⟩ := holds 64 0x400000000000 waitingLine msg lineUnread hquiet hlines rfl rfl hmsg hline hdst
  obtain ⟨t, ht, -, hframe, -⟩ := hdata firstLoad 4 [] .e hkind rfl rfl rfl rfl hpoison
  rw [exec_data_lineUnread, Host.Outcome.next.injEq] at ht
  subst ht
  unfold SameRest at hframe
  have hkept : loadFailed.m.lines = [{ waitingLine with st := msg.grant, data := msg.data, poison := false, access := none }] := by
    rw [hframe]
  rw [loadFailed_lines] at hkept
  exact absurd hkept (List.cons_ne_nil _ _).symm

end Sys2Proof.Machine

/-! # Proofs: the home of a line of the hub buffer (11 R299, R300, R305, R307, R308) -/

namespace Sys2Proof.Machine

open Sys2Proof

/-! ## A line of the hub buffer -/

/-- The line at offset `off` of the hub buffer: its bank is ON, and no access waits at the buffer. -/
structure HomeLine (m : Mod) (ln off : Nat) : Prop where
  addr : ln = 0x400000000000 + off
  aligned : off % 64 = 0
  inside : off < 0x80000000
  on : m.bankState 16 (bankOf 16 off) = 0
  alone : (m.sramOf 16).ywait = []

theorem homeLine_congr {m n : Mod} {ln off : Nat} (h : HomeLine m ln off) (hr : n.regs = m.regs) (hs : n.sram = m.sram) : HomeLine n ln off where
  addr := h.addr
  aligned := h.aligned
  inside := h.inside
  on := (fld_congr hr _ _ _ _).trans h.on
  alone := by
    unfold Mod.sramOf
    rw [hs]
    exact h.alone

/-- The directory's counters are not registers of the buffer. -/
theorem homeLine_addFld {m : Mod} {ln off : Nat} (h : HomeLine m ln off) (n i : Nat) : HomeLine (m.addFld F.DIR_COUNT_COUNT n 0 i) ln off where
  addr := h.addr
  aligned := h.aligned
  inside := h.inside
  on := by
    have hbank := bankOf_lt 16 off
    have hcount : F.DIR_COUNT_COUNT.addr 0 i = 0x700009000020 + i * 8 := rfl
    have hstate : F.BANK_STATE_ST.addr 16 (bankOf 16 off / 32) = 0x700002000100 + bankOf 16 off / 32 * 8 := rfl
    exact (fld_setFld_addr m F.DIR_COUNT_COUNT F.BANK_STATE_ST _ 0 i 0 _ _ _ (by omega)).trans h.on
  alone := h.alone

section
variable {m : Mod} {ln off : Nat} (h : HomeLine m ln off)
include h

theorem lpddrAt_homeLine : lpddrAt ln = none := lpddrAt_of_ge (by have := h.addr; omega)

theorem sramAt_homeLine : sramAt ln = some (16, off) := by
  rw [h.addr]
  exact sramAt_window (arr := 16) h.inside

theorem lineNode_homeLine : lineNode ln = none := by
  have haddr := h.addr
  have hin := h.inside
  have hhi : bits ln 62 2 = 0 := by
    rw [bits_eq_div]
    omega
  simp [lineNode, hhi]

theorem lineHolds_homeLine : m.lineHolds ln = false := by simp [Mod.lineHolds, lpddrAt_homeLine h]

theorem lineInFlight_homeLine : m.lineInFlight ln = false := by
  simp [Mod.lineInFlight, lpddrAt_homeLine h, sramAt_homeLine h, h.alone]

theorem meetBank_homeLine : m.meetBank 16 (bankOf 16 off) = (m, 0) := by
  rw [meetBank_of_not_ret (by rw [h.on]; decide), h.on]

theorem drainY_homeLine : m.drainY 16 = m := by simp [Mod.drainY, h.alone]

/-- The home reads the line at once when its parity is right (11 R308). -/
theorem homeRead_homeLine (hgood : ∀ i < 64, m.mem.parityBad (ln + i) = false) (ag : Agent) :
    m.homeRead ln ag = (m, m.mem.readAt ln 64, .ok) := by
  have haddr : sramBase 16 + off = ln := h.addr.symm
  have hread : m.sramReadPiece (some ag) 16 off 64 = (m, .ok, m.mem.readAt (sramBase 16 + off) 64) :=
    sramReadPiece_of_on (meetBank_homeLine h) fun i hi => by simp [haddr, hgood i hi]
  simp [Mod.homeRead, lpddrAt_homeLine h, sramAt_homeLine h, Mod.yAccess, drainY_homeLine h,
    sramAccess_read_of_block (m := m) (y := some ag) (arr := 16) (off := off) (n := 64) (by decide) (by rw [h.aligned]), hread, haddr]

/-- Dirty data is written home at once (11 R308). -/
theorem dirtyHome_homeLine {d : List Byte} (hd : d.length = 64) (k : MsgKind) :
    m.dirtyHome ln d false k = { m with mem := m.mem.writeAt ln (d.map some) } := by
  have haddr : sramBase 16 + off = ln := h.addr.symm
  have hlen : (d.map some).length = 64 := by rw [List.length_map, hd]
  have hwrite : m.sramAccess (some (.ac 0)) 16 off (.write (d.map some)) = ({ m with mem := m.mem.writeAt ln (d.map some) }, .ok, []) := by
    rw [sramAccess_write_of_block (by rw [hlen]; decide) (by rw [hlen, h.aligned]), sramWritePiece_of_on (meetBank_homeLine h), haddr]
  simp [Mod.dirtyHome, lineNode_homeLine h, Mod.homeWrite, lineHolds_homeLine h, Mod.homeStore, lpddrAt_homeLine h, sramAt_homeLine h,
    Mod.yAccess, drainY_homeLine h, padTo_of_length hd, hwrite]

/-- Bytes of the line whose parity is right, with an empty directory where nothing waits, are open to accesses. -/
theorem hubOpen_homeLine (hdir : m.dir = []) (hretry : m.retry = []) (hsrc : m.reqSrc = [])
    (hgood : ∀ i < 64, m.mem.parityBad (ln + i) = false) {i n : Nat} (hn : 1 ≤ n) (hin : i + n ≤ 64) : m.hubOpen (ln + i) n := by
  have haddr := h.addr
  have halign := h.aligned
  have hinside := h.inside
  refine ⟨?_, hdir, hretry, hsrc, h.alone, fun j hj => ⟨?_, ?_, ?_⟩⟩
  · have hpop : memPopulated (sramBase 16 + (off + i)) n = true :=
      memPopulated_window (arr := 16) hn (by show off + i + n ≤ 0x80000000; omega)
    rwa [← Nat.add_assoc, show sramBase 16 + off = ln from haddr.symm] at hpop
  · rw [Nat.add_assoc]
    exact hgood (i + j) (by omega)
  · have hat : sramAt (sramBase 16 + (off + i + j)) = some (16, off + i + j) :=
      sramAt_window (arr := 16) (by show off + i + j < 0x80000000; omega)
    have hbyte : ln + i + j = sramBase 16 + (off + i + j) := by
      show ln + i + j = 0x400000000000 + (off + i + j)
      omega
    have hoff : ln + i + j - 0x400000000000 = off + i + j := by omega
    rw [hoff, hbyte, hat]
  · have hbank : bankOf 16 (ln + i + j - 0x400000000000) = bankOf 16 off := by
      have hblock : (ln + i + j - 0x400000000000) / 64 = off / 64 := by omega
      simp [bankOf, hblock]
    rw [hbank]
    exact h.on

end

/-! ## A directory with one entry -/

section
variable {m : Mod} {e x : DirEntry}

theorem dirFind_of_nil (h : m.dir = []) (line : Nat) : m.dirFind line = none := by simp [Mod.dirFind, h]

theorem dirFind_sole {line : Nat} (h : m.dir = [e]) (hl : e.line = line) : m.dirFind line = some e := by simp [Mod.dirFind, h, hl]

theorem dirPut_of_nil (h : m.dir = []) (x : DirEntry) : m.dirPut x = { m with dir := [x] } := by simp [Mod.dirPut, h]

theorem dirPut_sole (h : m.dir = [e]) (hl : x.line = e.line) : m.dirPut x = { m with dir := [x] } := by simp [Mod.dirPut, h, hl]

theorem dirFree_sole {line : Nat} (h : m.dir = [e]) (hl : e.line = line) : m.dirFree line = { m with dir := [] } := by simp [Mod.dirFree, h, hl]

/-- The only message in flight is taken. -/
theorem recv_sole {msg : CohMsg} {p : CohMsg → Bool} (h : m.net = [msg]) (hp : p msg = true) : m.recv p = some (msg, { m with net := [] }) := by
  simp [Mod.recv, h, hp]

end

/-! ## Requests at the directory (11 R298, R299) -/

/-- The requests that open a transaction: all but a Push. -/
def DirReq.opens : DirReq → Bool
  | .push _ => false
  | _ => true

section
variable {m : Mod} {ln off : Nat} {e : DirEntry} {req : DirReq} {a : Fin 65}

theorem accept_held (hfind : m.dirFind ln = some e) (hreq : req.opens = true) : m.accept ln req = m.startTxn e req := by
  cases req with
  | push target => exact absurd hreq Bool.false_ne_true
  | _ => simp only [Mod.accept, hfind]

theorem accept_new (hdir : m.dir = []) (hreq : req.opens = true) : m.accept ln req = m.startTxn (newEntry ln) req := by
  have hroom : m.setFull ln = false := by simp [Mod.setFull, hdir]
  cases req with
  | push target => exact absurd hreq Bool.false_ne_true
  | _ => simp [Mod.accept, dirFind_of_nil hdir, hroom]

/-- A request of a line that is not BUSY is counted and taken up at once when no other waits. -/
theorem dirRequest_of_free (h : HomeLine m ln off) (hretry : m.retry = []) (hsrc : m.reqSrc = []) (hbusy : m.dirBusy ln = false) :
    m.dirRequest ln req = (m.addFld F.DIR_COUNT_COUNT 1 0 0).accept ln req := by
  have hcounted := homeLine_addFld h 1 0
  have hfill : (m.addFld F.DIR_COUNT_COUNT 1 0 0).fillOf ln req = none := by simp [Mod.fillOf, lpddrAt_homeLine h]
  have hretry' : (m.addFld F.DIR_COUNT_COUNT 1 0 0).retry = [] := hretry
  have hsrc' : (m.addFld F.DIR_COUNT_COUNT 1 0 0).reqSrc = [] := hsrc
  have hbusy' : (m.addFld F.DIR_COUNT_COUNT 1 0 0).dirBusy ln = false := hbusy
  simp [Mod.dirRequest, Mod.dirTake, hretry', hsrc', hbusy', lineInFlight_homeLine hcounted, hfill]

/-- The request of a local agent is the only message in flight. -/
theorem reqArrives_sole {k : MsgKind} (hnet : m.net = [{ kind := k, src := some a, dst := none, line := ln }]) :
    m.reqArrives (.agent a) ln k req = ({ m with net := [] } : Mod).dirRequest ln req := by
  simp only [Mod.reqArrives]
  rw [recv_sole hnet (by simp)]

end

/-! ## A transaction that snoops no holder (11 R299, R300, R307) -/

/-- The transaction of a request that waits for nothing. -/
def DirReq.alone (req : DirReq) : DirTxn := { req := req, await := [], data := [], push := none }

/-- The entry of a line of the module's own memory that agent `a` owns. -/
def ownedEntry (ln : Nat) (a : Fin 65) : DirEntry :=
  { line := ln, proxy := false, owner := some (.agent a), agents := [], members := [], busy := none }

/-- The entry of a line of the module's own memory that agent `a` alone shares. -/
def sharedEntry (ln : Nat) (a : Fin 65) : DirEntry := { ownedEntry ln a with owner := none, agents := [a] }

/-- The home's data for agent `a`. -/
def homeData (ln : Nat) (a : Fin 65) (data : List Byte) (g : LState) : CohMsg :=
  { kind := .data, src := none, dst := some a, line := ln, data := data, grant := g }

section
variable {m : Mod} {off : Nat} {e : DirEntry}

theorem startTxn_rdS_of_unowned (h : Holder) (howner : e.owner = none) :
    m.startTxn e (.rdS h) = m.endIfDone { e with busy := some (DirReq.rdS h).alone } := by
  simp [Mod.startTxn, howner, DirReq.alone]

theorem startTxn_rdX_of_unheld (h : Holder) (howner : e.owner = none) (hshare : e.sharers = []) :
    m.startTxn e (.rdX h) = m.endIfDone { e with busy := some (DirReq.rdX h).alone } := by
  simp [Mod.startTxn, howner, hshare, DirReq.alone]

theorem startTxn_upg_of_sharer {h : Holder} (howner : e.owner = none) (hshare : e.sharers = [h]) :
    m.startTxn e (.upg h) = m.endIfDone { e with busy := some (DirReq.upg h).alone } := by
  simp [Mod.startTxn, howner, hshare, DirReq.alone]

/-- An Upg of the line's owner goes on as an RdX, and is counted (11 R307). -/
theorem startTxn_upg_of_owner {h : Holder} (howner : e.owner = some h) :
    m.startTxn e (.upg h) = (m.addFld F.DIR_COUNT_COUNT 1 0 5).endIfDone { e with busy := some (DirReq.rdX h).alone } := by
  simp [Mod.startTxn, howner, DirReq.alone]

theorem endIfDone_alone {req : DirReq} (h : HomeLine m e.line off) (hproxy : e.proxy = false) :
    m.endIfDone { e with busy := some req.alone } = m.finishTxn { e with busy := some req.alone } req.alone := by
  simp [Mod.endIfDone, DirReq.alone, hproxy, lineHolds_homeLine h]

end

section
variable {m : Mod} {ln off : Nat} {a : Fin 65} (h : HomeLine m ln off)
include h

theorem newEntry_homeLine : newEntry ln = { ownedEntry ln a with owner := none } := by
  simp [newEntry, lineNode_homeLine h, ownedEntry]

theorem sendData_homeLine (hgood : ∀ i < 64, m.mem.parityBad (ln + i) = false) (g : LState) :
    m.sendData (.agent a) ln g = { m with net := m.net ++ [homeData ln a (m.mem.readAt ln 64) g] } := by
  simp only [Mod.sendData, homeRead_homeLine h hgood]
  rfl

/-- The line goes to agent `a`, its owner from now on, with its data. -/
theorem sendData_owned (hput : m.dirPut (ownedEntry ln a) = { m with dir := [ownedEntry ln a] })
    (hgood : ∀ i < 64, m.mem.parityBad (ln + i) = false) (g : LState) : (m.dirPut (ownedEntry ln a)).sendData (.agent a) ln g =
      { m with dir := [ownedEntry ln a], net := m.net ++ [homeData ln a (m.mem.readAt ln 64) g] } := by
  have hline : HomeLine { m with dir := [ownedEntry ln a] } ln off := homeLine_congr h rfl rfl
  rw [hput, sendData_homeLine hline hgood]

/-- RdS of a line without holders is granted in E (11 R300). -/
theorem accept_rdS (hdir : m.dir = []) (hgood : ∀ i < 64, m.mem.parityBad (ln + i) = false) :
    m.accept ln (.rdS (.agent a)) = { m with dir := [ownedEntry ln a], net := m.net ++ [homeData ln a (m.mem.readAt ln 64) .e] } := by
  rw [accept_new hdir rfl, newEntry_homeLine h (a := a), startTxn_rdS_of_unowned _ rfl,
    endIfDone_alone (e := { ownedEntry ln a with owner := none }) h rfl]
  exact sendData_owned h (dirPut_of_nil hdir _) hgood .e

/-- RdX of a line without holders is granted in M (11 R300). -/
theorem accept_rdX (hdir : m.dir = []) (hgood : ∀ i < 64, m.mem.parityBad (ln + i) = false) :
    m.accept ln (.rdX (.agent a)) = { m with dir := [ownedEntry ln a], net := m.net ++ [homeData ln a (m.mem.readAt ln 64) .m] } := by
  rw [accept_new hdir rfl, newEntry_homeLine h (a := a), startTxn_rdX_of_unheld _ rfl rfl,
    endIfDone_alone (e := { ownedEntry ln a with owner := none }) h rfl]
  exact sendData_owned h (dirPut_of_nil hdir _) hgood .m

/-- Upg of the line's one sharer is granted M without data (11 R307). -/
theorem accept_upg_of_sharer (hdir : m.dir = [sharedEntry ln a]) :
    m.accept ln (.upg (.agent a)) =
      { m with dir := [ownedEntry ln a], net := m.net ++ [{ kind := .grantM, src := none, dst := some a, line := ln }] } := by
  have hfind : m.dirFind ln = some (sharedEntry ln a) := dirFind_sole hdir rfl
  have hput : m.dirPut (ownedEntry ln a) = { m with dir := [ownedEntry ln a] } := dirPut_sole hdir rfl
  rw [accept_held hfind rfl, startTxn_upg_of_sharer rfl rfl, endIfDone_alone (e := sharedEntry ln a) h rfl]
  exact congrArg (fun n : Mod => n.sendGrantM (.agent a) ln) hput

end

/-! ## What the directory's commands answer -/

section
variable {c : Instr} {s : State} {f : Mod → Mod} {es : List DirEntry} {net : List CohMsg} (hq : s.m.quiet = true) (h : exec c s = s.runF f)
  (hes : es.all DirEntry.calm = true)
include hq h hes

/-- A command whose effect is one count, entries and messages. -/
theorem answers_counted {i : Nat} (hf : f s.m.clearOut = { s.m.clearOut.addFld F.DIR_COUNT_COUNT 1 0 i with dir := es, net := net }) :
    Answers c s (fun t => t.m.out = [] ∧ t.m.fld F.DIR_COUNT_COUNT 0 i = (s.m.fld F.DIR_COUNT_COUNT 0 i + 1) % 2 ^ 64 ∧
      OnlyRegs [F.DIR_COUNT_COUNT.addr 0 i] { s.m with dir := es, net := net } t.m) := by
  have hdrain : F.DIR_STATUS_DRAINING.addr 0 0 ≠ F.DIR_COUNT_COUNT.addr 0 i := by
    show 0x700009000008 ≠ 0x700009000020 + i * 8
    omega
  have hframe : CohFrame s.m { s.m.clearOut.addFld F.DIR_COUNT_COUNT 1 0 i with dir := es, net := net } :=
    ⟨rfl, fld_setFld_addr s.m F.DIR_COUNT_COUNT F.DIR_STATUS_DRAINING _ 0 i 0 0 0 0 hdrain⟩
  refine answers_runF h ?_ ?_ ?_ <;> rw [hf]
  · exact quiet_of_cohFrame hframe hq hes
  · rfl
  · refine ⟨rfl, ?_, onlyRegs_settle rfl rfl fun x hx => reg_setFld_ne s.m _ _ _ _ _ fun he => hx (List.mem_singleton.mpr he)⟩
    exact (fld_settle _ _ _ _ _).trans (fld_setFld_self s.m F.DIR_COUNT_COUNT _ 0 i 0 (by decide))

end

section
variable {c : Instr} {s : State} {f : Mod → Mod} (hq : s.m.quiet = true) (h : exec c s = s.runF f)
include hq h

/-- A command whose effect is the completion of an operation's request. -/
theorem answers_opCompl {acks : List (Src × Status × List Byte)} {q : Fin 4} {seq key : Nat} {st : Status} {d : List Byte}
    (hf : f s.m.clearOut = { s.m with ncAcks := acks, out := [.compl (.op q seq key) st d] }) :
    Answers c s (fun t => t.m.out = [.compl (.op q seq key) st d] ∧
      OnlyRegs [] { s.m with ncAcks := acks, opDone := s.m.opDone ++ [(q.val, seq, key, st, d)] } t.m) := by
  have hquiet : ({ s.m with ncAcks := acks, out := [.compl (.op q seq key) st d] } : Mod).quiet = true := hq
  have hend : (f s.m.clearOut).conclude =
      { s.m with ncAcks := acks, out := [.compl (.op q seq key) st d], opDone := s.m.opDone ++ [(q.val, seq, key, st, d)] } := by
    rw [hf]
    exact conclude_of_opCompl hquiet rfl
  exact answers_concluded h hend ⟨rfl, onlyRegs_settle rfl rfl fun _ _ => rfl⟩

/-- A command whose effect is on memory and leaves its acknowledgement on its way. -/
theorem answers_ncAck {x : Mem} {acks : List (Src × Status × List Byte)} {P : State → Prop}
    (hf : f s.m.clearOut = { s.m.clearOut with mem := x, ncAcks := acks })
    (hp : P { s with m := ({ s.m.clearOut with mem := x, ncAcks := acks } : Mod).settle }) : Answers c s P := by
  have hquiet : ({ s.m.clearOut with mem := x, ncAcks := acks } : Mod).quiet = true := hq
  exact answers_runF h (by rw [hf]; exact hquiet) (by rw [hf]; rfl) (by rwa [hf])

end

/-! ## Non-caching requests (11 R305) -/

section
variable {m : Mod} {y : Option Agent} {a : Nat}

/-- Bytes of one block of the hub buffer that are open to accesses are read at once. -/
theorem sramAccess_read_of_hubBlock {n : Nat} (h : m.hubOpen a n) (hn : 1 ≤ n) (hb : (a - 0x400000000000) % 64 + n ≤ 64) :
    m.sramAccess y 16 (a - 0x400000000000) (.read n) = (m, .ok, m.mem.readAt a n) := by
  obtain ⟨hlow, -⟩ := hubOpen_range h hn
  obtain ⟨hmet, -⟩ := hubOpen_byte h hn (i := 0) (by omega)
  rw [Nat.add_zero] at hmet
  rw [sramAccess_read_of_block hn hb, sramReadPiece_of_on hmet fun i hi => (hubOpen_byte h hn hi).2, hubBase_add hlow]

/-- They are written at once. -/
theorem sramAccess_write_of_hubBlock {d : List (Option Byte)} (h : m.hubOpen a d.length) (hn : 1 ≤ d.length)
    (hb : (a - 0x400000000000) % 64 + d.length ≤ 64) :
    m.sramAccess y 16 (a - 0x400000000000) (.write d) = ({ m with mem := m.mem.writeAt a d }, .ok, []) := by
  obtain ⟨hlow, -⟩ := hubOpen_range h hn
  obtain ⟨hmet, -⟩ := hubOpen_byte h hn (i := 0) (by omega)
  rw [Nat.add_zero] at hmet
  rw [sramAccess_write_of_block hn hb, sramWritePiece_of_on hmet, hubBase_add hlow]

end

/-- An update in place is a read of its quantity and a write of the result. -/
theorem yPerform_atom_of_accesses {m : Mod} {ag : Agent} {arr off : Nat} {old : List Byte} {w : Nat → Mod} (x : AtomOp)
    (hread : m.sramAccess (some ag) arr off (.read 8) = (m, .ok, old))
    (hwrite : ∀ v, m.sramAccess (some ag) arr off (.write ((toBytes 8 v).map some)) = (w v, .ok, [])) :
    m.yPerform ag arr off (.read 8) (some x) = (w (atomResult x (ofBytes old)), .ok, old) := by
  simp only [Mod.yPerform, hread, hwrite]

/-- The module with the 8 bytes at `a` replaced by those of `v`. -/
def Mod.withWord (m : Mod) (a v : Nat) : Mod := { m with mem := m.mem.writeAt a ((toBytes 8 v).map some) }

theorem sramAccess_writeWord_of_hubBlock {m : Mod} {y : Option Agent} {a : Nat} (h : m.hubOpen a 8) (hb : (a - 0x400000000000) % 64 + 8 ≤ 64)
    (v : Nat) : m.sramAccess y 16 (a - 0x400000000000) (.write ((toBytes 8 v).map some)) = (m.withWord a v, .ok, []) := by
  have hlen : ((toBytes 8 v).map some).length = 8 := by rw [List.length_map, length_toBytes]
  exact sramAccess_write_of_hubBlock (by rwa [hlen]) (by rw [hlen]; decide) (by rwa [hlen])

/-- An update in place of a quantity of the hub buffer. -/
theorem yPerform_atom_of_hubOpen {m : Mod} {ag : Agent} {a : Nat} (h : m.hubOpen a 8) (hb : (a - 0x400000000000) % 64 + 8 ≤ 64) (x : AtomOp) :
    m.yPerform ag 16 (a - 0x400000000000) (.read 8) (some x) =
      (m.withWord a (atomResult x (ofBytes (m.mem.readAt a 8))), .ok, m.mem.readAt a 8) :=
  yPerform_atom_of_accesses x (sramAccess_read_of_hubBlock h (by decide) hb) (sramAccess_writeWord_of_hubBlock h hb)

section
variable {m : Mod} {a n : Nat} {src : Src} {ag : Agent} (h : m.hubOpen a n) (hn : 1 ≤ n)
include h hn

/-- The hub buffer is local memory, under its own addresses. -/
theorem decodeAddr_of_hubOpen : m.decodeAddr a = .here a :=
  decodeAddr_of_lt m (by have := hubOpen_range h hn; omega)

theorem localMem_of_hubOpen {op : MemOp} : m.localMem src ag a op = m.memAccess src ag a op := by
  have hrange := hubOpen_range h hn
  have hset : ¬(0x500000000000 ≤ a ∧ a < 0x600000000000) := by omega
  have hclear : ¬(0x600000000000 ≤ a ∧ a < 0x700000000000) := by omega
  simp only [Mod.localMem, aliasOf, hset, hclear, if_false]

variable (hb : (a - 0x400000000000) % 64 + n ≤ 64)
include hb

/-- NC_RD returns the bytes. -/
theorem ncArrives_read : m.ncArrives src ag a (.read n) none none = m.emit (.compl src .ok (m.mem.readAt a n)) := by
  have hlow : a < 0x700000000000 := by have := hubOpen_range h hn; omega
  have hacc : m.memAccess src ag a (.read n) = (m, .done .ok (m.mem.readAt a n)) := by
    rw [memAccess_of_hubOpen h hn rfl, sramAccess_read_of_hubBlock h hn hb]
  simp [Mod.ncArrives, decodeAddr_of_hubOpen h hn, hlow, localMem_of_hubOpen h hn, hacc, isWrite]

/-- NC_WR writes the bytes it gives and is acknowledged. -/
theorem ncArrives_write {d : List (Option Byte)} (hd : d.length = n) : m.ncArrives src ag a (.write d) none none =
    { m with mem := m.mem.writeAt a d, ncAcks := m.ncAcks ++ [(src, .ok, [])] } := by
  subst hd
  have hlow : a < 0x700000000000 := by have := hubOpen_range h hn; omega
  have hacc : m.memAccess src ag a (.write d) = ({ m with mem := m.mem.writeAt a d }, .done .ok []) := by
    rw [memAccess_of_hubOpen h hn rfl, sramAccess_write_of_hubBlock h hn hb]
  simp [Mod.ncArrives, decodeAddr_of_hubOpen h hn, hlow, localMem_of_hubOpen h hn, hacc, isWrite]

end

theorem hubOpen_populated {m : Mod} {a n : Nat} (h : m.hubOpen a n) : memPopulated a n = true := by
  obtain ⟨hpop, -⟩ := h
  exact hpop

theorem hubOpen_alone {m : Mod} {a n : Nat} (h : m.hubOpen a n) : (m.sramOf 16).ywait = [] := by
  obtain ⟨-, -, -, -, halone, -⟩ := h
  exact halone

/-- An update in place of the hub buffer, where no access waits, is performed at once. -/
theorem sramPerform_atom_of_alone {m k : Mod} {a off : Nat} {src : Src} {ag : Agent} {x : AtomOp} {st : Status} {old : List Byte}
    (halone : (m.sramOf 16).ywait = []) (hperf : m.yPerform ag 16 off (.read 8) (some x) = (k, st, old)) :
    m.sramPerform 16 off { src := src, ag := ag, op := .read 8, addr := a, atom := some x } = (k, .done st old) := by
  simp [Mod.sramPerform, Mod.yBehind, halone, hperf, Mod.hinted]

section
variable {m : Mod} {a : Nat} {src : Src} {ag : Agent} (h : m.hubOpen a 8) (ha : a % 8 = 0)
include h ha

theorem memAtom_of_hubOpen (x : AtomOp) :
    m.memAtom src ag a x = (m.withWord a (atomResult x (ofBytes (m.mem.readAt a 8))), .done .ok (m.mem.readAt a 8)) := by
  have hrange := hubOpen_range h (by decide)
  have hb : (a - 0x400000000000) % 64 + 8 ≤ 64 := by omega
  have hiss := (ncIssue_of_hubOpen h (by decide) (r := { src := src, ag := ag, op := .read 8, addr := a, atom := some x }) rfl rfl).trans
    (sramPerform_atom_of_alone (hubOpen_alone h) (yPerform_atom_of_hubOpen h hb x))
  simp only [Mod.memAtom, ha, hubOpen_populated h, hiss, ne_eq, not_true_eq_false, Bool.not_true, Bool.false_eq_true, if_false]

/-- NC_ATOM updates its quantity and is acknowledged with the old value. -/
theorem ncArrives_atom (x : AtomOp) : m.ncArrives src ag a (.read 8) (some x) none =
    { m.withWord a (atomResult x (ofBytes (m.mem.readAt a 8))) with ncAcks := m.ncAcks ++ [(src, .ok, m.mem.readAt a 8)] } := by
  have hlow : a < 0x500000000000 := by have := hubOpen_range h (by decide); omega
  simp only [Mod.ncArrives, decodeAddr_of_hubOpen h (by decide), Mod.atomAccess, hlow, if_true, memAtom_of_hubOpen h ha]
  rfl

end

/-! ## Requests of one line -/

section
variable {s : State} {a : Fin 65} {line : Word} {off : Nat} (hq : s.m.quiet = true) (h : HomeLine s.m line.toNat off) (hretry : s.m.retry = [])
  (hsrc : s.m.reqSrc = [])
include hq h hretry hsrc

/-- A request of agent `a`, the only message in flight, that the directory grants at once. -/
theorem answers_granted {c : Instr} {k : MsgKind} {req : DirReq} {reply : CohMsg}
    (hc : exec c s = s.runF fun m => m.reqArrives (.agent a) line.toNat k req)
    (hnet : s.m.net = [{ kind := k, src := some a, dst := none, line := line.toNat }]) (hbusy : s.m.dirBusy line.toNat = false)
    (haccept : ∀ m : Mod, HomeLine m line.toNat off → m.dir = s.m.dir → m.mem = s.m.mem →
      m.accept line.toNat req = { m with dir := [ownedEntry line.toNat a], net := m.net ++ [reply] }) :
    Answers c s (fun t => t.m.out = [] ∧ t.m.fld F.DIR_COUNT_COUNT 0 0 = (s.m.fld F.DIR_COUNT_COUNT 0 0 + 1) % 2 ^ 64 ∧
      OnlyRegs [F.DIR_COUNT_COUNT.addr 0 0] { s.m with dir := [ownedEntry line.toNat a], net := [reply] } t.m) := by
  have hline : HomeLine { s.m.clearOut with net := [] } line.toNat off := homeLine_congr h rfl rfl
  refine answers_counted hq hc rfl ?_
  rw [reqArrives_sole (m := s.m.clearOut) hnet, dirRequest_of_free hline hretry hsrc hbusy, haccept _ (homeLine_addFld hline 1 0) rfl rfl]
  rfl

end

/-- Settles O31: the directory takes the only request up at once, and no holder has to be asked; a non-caching one meets the buffer's Y port. -/
theorem homeServes : Obligations.HomeServes := by
  unfold Obligations.HomeServes
  intro a line off s hq haddr halign hin hon halone hgood hretry hsrc ln data asks owned counted grants reply
  have h : HomeLine s.m line.toNat off := ⟨haddr, halign, hin, hon, halone⟩
  have hnew (hdir : s.m.dir = []) : s.m.dirBusy line.toNat = false := by simp [Mod.dirBusy, dirFind_of_nil hdir]
  refine ⟨?rds, ?rdx, ?upg, ?nc⟩
  case rds =>
    intro hnet hdir
    exact answers_granted hq h hretry hsrc (exec_rds (.agent a) line s) hnet (hnew hdir)
      fun m hm hmdir hmem => (accept_rdS hm (hmdir.trans hdir) (by rwa [hmem])).trans (by rw [hmem]; rfl)
  case rdx =>
    intro hnet hdir
    exact answers_granted hq h hretry hsrc (exec_rdx (.agent a) line s) hnet (hnew hdir)
      fun m hm hmdir hmem => (accept_rdX hm (hmdir.trans hdir) (by rwa [hmem])).trans (by rw [hmem]; rfl)
  case upg =>
    intro hnet hdir
    have hbusy : s.m.dirBusy line.toNat = false := by
      have hfind : s.m.dirFind line.toNat = some (sharedEntry line.toNat a) := dirFind_sole hdir rfl
      simp only [Mod.dirBusy, hfind]
      rfl
    exact answers_granted hq h hretry hsrc (exec_upg (.agent a) line s) hnet hbusy
      fun m hm hmdir _ => accept_upg_of_sharer hm (hmdir.trans hdir)
  case nc =>
    intro q seq key i n ag d x addr hdir hinl hn hat hd src got
    have hopen : s.m.clearOut.hubOpen addr.toNat n := by
      rw [hat]
      exact hubOpen_homeLine (m := s.m.clearOut) (homeLine_congr h rfl rfl) hdir hretry hsrc hgood hn hinl
    have hb : (addr.toNat - 0x400000000000) % 64 + n ≤ 64 := by omega
    refine ⟨?read, ?write, ?atom⟩
    case read =>
      have hread := ncArrives_read (src := src) (ag := ag) hopen hn hb
      rw [hat] at hread
      refine answers_opCompl (acks := s.m.ncAcks) hq (exec_ncRd src ag addr n s) ?_
      rw [hat]
      exact hread
    case write =>
      refine answers_ncAck hq (exec_ncWr src ag addr d none s) (ncArrives_write hopen hn hb hd)
        ⟨rfl, rfl, sameRest_settle rfl, fun x _ => reg_settle _ x, fun j hj => ?_, fun y hy => ?_⟩
      · have hnew := byte_writeAt_of_lt s.m.mem addr.toNat d (i := j) (by rwa [hd])
        rw [← hat]
        exact (byte_settle _ _).trans hnew
      · exact (byte_settle _ _).trans (byte_writeAt_of_outside s.m.mem _ d (by rw [hat, hd]; exact hy))
    case atom =>
      rintro rfl hword
      rw [hat] at hopen
      have hword : (line.toNat + i) % 8 = 0 := by omega
      have hatom := ncArrives_atom (src := src) (ag := ag) hopen hword x
      have hnew := readAt_writeAt_self s.m.mem (line.toNat + i) (toBytes 8 (atomResult x (ofBytes got)))
      rw [length_toBytes] at hnew
      have hkept (y : Nat) (hy : y < line.toNat + i ∨ line.toNat + i + 8 ≤ y) :=
        byte_writeAt_of_outside s.m.mem (line.toNat + i) ((toBytes 8 (atomResult x (ofBytes got))).map some) (y := y)
          (by rwa [List.length_map, length_toBytes])
      refine answers_ncAck hq (exec_ncAtom src ag addr x s) ?_
        ⟨rfl, rfl, (readAt_settle _ _ _).trans hnew, fun y hy => (byte_settle _ _).trans (hkept y hy)⟩
      rw [hat, if_neg (by omega)]
      exact hatom

end Sys2Proof.Machine

/-! # Proofs: answers at the directory (11 R297-R299, R304, R305, R308, R309, R312) -/

namespace Sys2Proof.Machine

open Sys2Proof

/-! ## The transaction that evicts a line -/

/-- The transaction of an eviction that waits for the answers of `await` and the dirty data of `data`. -/
def evictTxn (await data : List Holder) : DirTxn := { req := .evict, await := await, data := data, push := none }

section
variable {m : Mod} {e : DirEntry} {h : Holder} {ln off : Nat}

theorem dropHolder_owner (howner : e.owner = some h) (hagents : e.agents = []) (hmembers : e.members = []) :
    e.dropHolder h = { e with owner := none } := by
  simp [DirEntry.dropHolder, howner, hagents, hmembers]

/-- An eviction that waits for nothing frees the entry. -/
theorem endIfDone_evict (hdir : m.dir = [e]) {x : DirEntry} {t : DirTxn} (hx : x.line = e.line) (hbusy : x.busy = some t) (hreq : t.req = .evict)
    (hawait : t.await = []) (hdata : t.data = []) (hpush : t.push = none) (hheld : x.held = none) : m.endIfDone x = { m with dir := [] } := by
  have hfree : m.dirFree x.line = { m with dir := [] } := dirFree_sole hdir hx.symm
  cases hproxy : x.proxy <;>
    simp [Mod.endIfDone, hbusy, hreq, hawait, hdata, hpush, hproxy, DirReq.needsMemory, Mod.finishTxn, hheld, hfree]

/-- One that waits for dirty data stays. -/
theorem endIfDone_of_data (hdir : m.dir = [e]) {x : DirEntry} {t : DirTxn} (hx : x.line = e.line) (hbusy : x.busy = some t)
    (hdata : t.data ≠ []) : m.endIfDone x = { m with dir := [x] } := by
  simp [Mod.endIfDone, hbusy, hdata, dirPut_sole hdir hx]

/-- The data of an evicted line goes to memory. -/
theorem takeDirty_evict (hline : e.line = ln) (hhome : HomeLine m ln off) {await data : List Holder} {d : List Byte} (hd : d.length = 64) (k : MsgKind) :
    m.takeDirty e (evictTxn await data) d false k = ({ m with mem := m.mem.writeAt ln (d.map some) }, evictTxn await data) := by
  have hserves : e.servesData (evictTxn await data) = false := by simp [DirEntry.servesData, evictTxn]
  rw [← hline] at hhome ⊢
  simp only [Mod.takeDirty, hserves, dirtyHome_homeLine hhome hd]
  rfl

theorem unstale_of_nil (hstale : m.stale = []) : m.unstale h ln = none := by simp [Mod.unstale, hstale]

variable (hdir : m.dir = [e]) (hline : e.line = ln) (hstale : m.stale = [])
include hdir hline hstale

/-- The holder that the eviction waits for no longer holds the line. -/
theorem holderAnswer_evict (hbusy : e.busy = some (evictTxn [h] [])) (dirty : Bool) : m.holderAnswer ln h true dirty =
    m.endIfDone { e.dropHolder h with busy := some (evictTxn [] (if dirty then [h] else [])) } := by
  cases dirty <;> simp [Mod.holderAnswer, unstale_of_nil hstale, dirFind_sole hdir hline, hbusy, evictTxn]

/-- The answer of the one that held it clean ends the eviction. -/
theorem holderAnswer_clean (hbusy : e.busy = some (evictTxn [h] [])) (hheld : e.held = none) :
    m.holderAnswer ln h true false = { m with dir := [] } := by
  rw [holderAnswer_evict hdir hline hstale hbusy]
  exact endIfDone_evict hdir rfl rfl rfl rfl rfl rfl hheld

/-- After the answer of the one that held it dirty, the eviction waits for its data. -/
theorem holderAnswer_dirty (hbusy : e.busy = some (evictTxn [h] [])) :
    m.holderAnswer ln h true true = { m with dir := [{ e.dropHolder h with busy := some (evictTxn [] [h]) }] } := by
  rw [holderAnswer_evict hdir hline hstale hbusy]
  exact endIfDone_of_data hdir rfl rfl (List.cons_ne_nil _ _)

/-- A holder that writes the line back answers that its data comes (11 R309). -/
theorem wbPendIn_evict (hbusy : e.busy = some (evictTxn [h] [])) :
    m.wbPendIn ln h = { m with dir := [{ e with busy := some (evictTxn [] [h]) }] } := by
  have hput : m.dirPut { e with busy := some (evictTxn [] [h]) } = _ := dirPut_sole hdir rfl
  simpa [Mod.wbPendIn, unstale_of_nil hstale, dirFind_sole hdir hline, hbusy, evictTxn] using hput

omit hstale in
/-- A RecallAck to an eviction: no holder keeps the line in S. -/
theorem recallAnswer_evict (hbusy : e.busy = some (evictTxn [h] [])) : m.recallAnswer ln h .clean = m.holderAnswer ln h true false ∧
    m.recallAnswer ln h .dirtyFollows = m.holderAnswer ln h true true := by
  simp [Mod.recallAnswer, dirFind_sole hdir hline, DirEntry.keepsS, hbusy, evictTxn]

omit hstale

variable (hhome : HomeLine m ln off) (hbusy : e.busy = some (evictTxn [] [h])) (hheld : e.held = none) {d : List Byte} (hd : d.length = 64)
include hhome hbusy hheld hd

/-- The dirty data that an eviction waits for is written home and ends it (11 R308). -/
theorem recallDataIn_evict : m.recallDataIn ln h d false = { m with mem := m.mem.writeAt ln (d.map some), dir := [] } := by
  have hdir' : ({ m with mem := m.mem.writeAt ln (d.map some) } : Mod).dir = [e] := hdir
  have hfind := dirFind_sole hdir hline
  have hdone : (evictTxn [] [h]).data.filter (· != h) = [] := by simp [evictTxn]
  have hwait : ((evictTxn [] [h]).data.contains h || (evictTxn [] [h]).await.contains h) = true := by simp [evictTxn]
  simp only [Mod.recallDataIn, lineHolds_homeLine hhome, Mod.recallTaken, hfind, hbusy, hwait, Bool.false_eq_true, if_false, if_true,
    takeDirty_evict hline hhome hd]
  exact endIfDone_evict hdir' rfl rfl rfl rfl hdone rfl hheld

end

section
variable {m : Mod} {e : DirEntry} {a : Fin 65} {ln off : Nat} (hdir : m.dir = [e]) (hline : e.line = ln)
include hdir hline

/-- A writeback that an eviction waits for is written home and acknowledged, and ends it (11 R309). -/
theorem wbDataIn_evict (hhome : HomeLine m ln off) (hbusy : e.busy = some (evictTxn [] [.agent a])) (hheld : e.held = none) {d : List Byte}
    (hd : d.length = 64) : m.wbDataIn ln (.agent a) d false =
      { m with mem := m.mem.writeAt ln (d.map some), dir := [], net := m.net ++ [{ kind := .wbAck, src := none, dst := some a, line := ln }] } := by
  have hdir' : (({ m with mem := m.mem.writeAt ln (d.map some) } : Mod).send { kind := .wbAck, src := none, dst := some a, line := ln }).dir = [e] :=
    hdir
  have hfind := dirFind_sole hdir hline
  have hdone : (evictTxn [] [Holder.agent a]).data.filter (· != .agent a) = [] := by simp [evictTxn]
  have hopen : (evictTxn [] [Holder.agent a]).await.contains (.agent a) = false := rfl
  have hdata : (evictTxn [] [Holder.agent a]).data.contains (.agent a) = true := by simp [evictTxn]
  simp only [Mod.wbDataIn, lineHolds_homeLine hhome, Mod.wbTaken, hfind, hbusy, hopen, hdata, Bool.false_or, Bool.true_or, Bool.not_true,
    Bool.false_eq_true, if_false, if_true, takeDirty_evict hline hhome hd]
  exact endIfDone_evict hdir' rfl rfl rfl rfl hdone rfl hheld

/-! ## The answer to a Push (11 R304) -/

/-- A Push's target that takes the line owns it; when it does not, the entry is free again. Both are counted. -/
theorem pushAnswer_sole {k : MsgKind} {msg : CohMsg} (hnet : m.net = [msg]) (hkind : msg.kind = k) (hsrc : msg.src = some a)
    (hmsg : msg.line = ln) {t : DirTxn} (hbusy : e.busy = some t) (hpush : t.push = some a.val) :
    m.pushAnswer a ln k true =
      { m.addFld F.DIR_COUNT_COUNT 1 0 3 with dir := [{ e with owner := some (.agent a), busy := none }], net := [] } ∧
    m.pushAnswer a ln k false = { m.addFld F.DIR_COUNT_COUNT 1 0 4 with dir := [], net := [] } := by
  have hrecv := recv_sole (p := fun x => x.kind == k && x.src == some a && x.line == ln) hnet (by simp [hkind, hsrc, hmsg])
  have hdir' : ({ m with net := [] } : Mod).dir = [e] := hdir
  have hfind : ({ m with net := [] } : Mod).dirFind ln = some e := dirFind_sole hdir' hline
  have hput := dirPut_sole hdir' (x := { e with owner := some (.agent a), busy := none }) rfl
  have hfree := dirFree_sole hdir' hline
  have hthis : e.busy.bind (·.push) = some a.val := by rw [hbusy]; exact hpush
  simp only [Mod.pushAnswer, hrecv, hfind, hthis, if_true, hput, hfree, Bool.false_eq_true, if_false]
  exact ⟨rfl, rfl⟩

end

/-- The answer of a local agent is the only message in flight. -/
theorem answerArrives_sole {m : Mod} {a : Fin 65} {ln : Nat} {p : MsgKind → Bool} {g : Mod → MsgKind → Mod} {k : MsgKind} {msg : CohMsg}
    (hnet : m.net = [msg]) (hp : p msg.kind = true) (hsrc : msg.src = some a) (hmsg : msg.line = ln) :
    m.answerArrives (.agent a) ln p g k = g { m with net := [] } msg.kind := by
  simp only [Mod.answerArrives]
  rw [recv_sole hnet (by simp [hp, hsrc, hmsg])]

/-! ## A request that waits in the retry queue (11 R298, R299) -/

theorem eq_ownedEntry {e : DirEntry} {ln : Nat} {a : Fin 65} (hline : e.line = ln) (hproxy : e.proxy = false) (howner : e.owner = some (.agent a))
    (hagents : e.agents = []) (hmembers : e.members = []) (hbusy : e.busy = none) (hheld : e.held = none) : e = ownedEntry ln a := by
  rw [ownedEntry, ← hline, ← hproxy, ← howner, ← hagents, ← hmembers, ← hbusy, ← hheld]

/-- The module with an empty retry queue. -/
def Mod.retryEmptied (m : Mod) : Mod := { m with retry := [], retryFilled := false }

/-- The last request of the queue leaves it. -/
theorem retryRefill_emptied {m : Mod} (hsrc : m.reqSrc = []) : ({ m with retry := [] } : Mod).retryRefill = m.retryEmptied := by
  simp [Mod.retryRefill, hsrc, Mod.retryEmptied]

/-- An Upg that waits for a free line leaves the queue; its agent, the line's owner by then, gets the line anew (11 R307). -/
theorem retryRelease_upg {m : Mod} {ln off : Nat} {a : Fin 65} (h : HomeLine m ln off) (hdir : m.dir = [ownedEntry ln a])
    (hretry : m.retry = [(ln, .upg (.agent a))]) (hsrc : m.reqSrc = []) (hgood : ∀ i < 64, m.mem.parityBad (ln + i) = false) :
    m.retryRelease ln = { m.retryEmptied.addFld F.DIR_COUNT_COUNT 1 0 5 with
      dir := [ownedEntry ln a], net := m.net ++ [homeData ln a (m.mem.readAt ln 64) .m] } := by
  have hfind : m.dirFind ln = some (ownedEntry ln a) := dirFind_sole hdir rfl
  have hbusy : m.dirBusy ln = false := by
    simp only [Mod.dirBusy, hfind]
    rfl
  have htaken : m.retryRelease ln = m.retryEmptied.accept ln (.upg (.agent a)) := by
    simp [Mod.retryRelease, hretry, hbusy, lineInFlight_homeLine h, lineHolds_homeLine h, hfind, retryRefill_emptied hsrc]
  have hline : HomeLine (m.retryEmptied.addFld F.DIR_COUNT_COUNT 1 0 5) ln off :=
    homeLine_addFld (m := m.retryEmptied) (homeLine_congr h rfl rfl) 1 5
  have hdir' : (m.retryEmptied.addFld F.DIR_COUNT_COUNT 1 0 5).dir = [ownedEntry ln a] := hdir
  have hfind' : m.retryEmptied.dirFind ln = some (ownedEntry ln a) := hfind
  rw [htaken, accept_held hfind' rfl, startTxn_upg_of_owner rfl, endIfDone_alone (e := ownedEntry ln a) hline rfl]
  exact sendData_owned hline (dirPut_sole hdir' rfl) hgood .m

/-! ## The end of a command while remote coherence drains (11 R312, Table 11.10) -/

/-- No entry of the directory is a proxy, and nothing waits at it. -/
def DirEntry.homeAtRest (e : DirEntry) : Bool := !e.proxy && e.calm

section
variable {m : Mod}

/-- Nothing waits at a calm package, in HOLD or not. -/
theorem endHold_calm (hmc : m.mc.all Mc.calm = true) (hdir : m.dir.all DirEntry.calm = true) (k : Nat) : m.endHold k = m := by
  obtain ⟨-, hhold, hdata⟩ := mcOf_calm hmc k
  have hsame : (fun c : Mc => { c with hold := [], homeData := [] }) (m.mcOf k) = id (m.mcOf k) := by
    show ({ m.mcOf k with hold := [], homeData := [] } : Mc) = m.mcOf k
    rw [← hhold, ← hdata]
  have hmod : m.modMc k (fun c => { c with hold := [], homeData := [] }) = m := by
    unfold Mod.modMc
    rw [modNth_congr {} hsame, modNth_id]
  have hnone : m.dir.filter (fun e => e.waitsHome && (lpddrAt e.line).any (fun p => p.1 == k)) = [] := by
    rw [List.filter_eq_nil_iff]
    intro e he
    have hcalm := List.all_eq_true.mp hdir e he
    simp only [DirEntry.calm, Bool.and_eq_true, Bool.not_eq_true'] at hcalm
    obtain ⟨hwaits, -⟩ := hcalm
    simp [hwaits]
  simp [Mod.endHold, hhold, hdata, hmod, hnone]

theorem admitAll_calm (hmc : m.mc.all Mc.calm = true) (k : Nat) : m.admitAll k = m := by
  obtain ⟨hbacklog, -⟩ := mcOf_calm hmc k
  simp [Mod.admitAll, hbacklog]

theorem idleProxies_atRest (hdir : m.dir.all DirEntry.homeAtRest = true) : m.dir.filter (fun e => e.proxy && e.busy.isNone) = [] := by
  rw [List.filter_eq_nil_iff]
  intro e he
  have hrest := List.all_eq_true.mp hdir e he
  simp only [DirEntry.homeAtRest, Bool.and_eq_true, Bool.not_eq_true'] at hrest
  obtain ⟨hproxy, -⟩ := hrest
  simp [hproxy]

/-- A directory without proxies has nothing to evict. -/
theorem dirSettle_atRest (hdir : m.dir.all DirEntry.homeAtRest = true) : m.dirSettle = m := by
  have hheld : m.dir.filter (fun e => e.busy.isNone && e.held.isSome) = [] := by
    rw [List.filter_eq_nil_iff]
    intro e he
    have hrest := List.all_eq_true.mp hdir e he
    simp only [DirEntry.homeAtRest, DirEntry.calm, Bool.and_eq_true, Option.isNone_iff_eq_none] at hrest
    obtain ⟨-, -, hheld⟩ := hrest
    simp [hheld]
  simp [Mod.dirSettle, hheld, idleProxies_atRest hdir]

end

/-- A drain that has begun moves nothing when the directory holds no proxy. -/
theorem conclude_draining {m : Mod} {d : Nat} {os : List Out} (hq : m.quiet = true) (hdir : m.dir.all DirEntry.homeAtRest = true)
    (hos : os.all Out.stays = true) :
    ({ m.setFld F.DIR_STATUS_DRAINING d with out := os } : Mod).conclude = { m.setFld F.DIR_STATUS_DRAINING d with out := os } := by
  simp only [Mod.quiet, memQuiet_eq, Bool.and_eq_true, Bool.not_eq_true', List.isEmpty_iff] at hq
  obtain ⟨⟨hidle, ⟨⟨⟨⟨⟨hmc, hcalm⟩, hoch⟩, hpush⟩, hcore⟩, -⟩⟩, hsvc⟩ := hq
  generalize hn : ({ m.setFld F.DIR_STATUS_DRAINING d with out := os } : Mod) = n
  have hmem : n.memSettle = n := by
    have hloop : (List.range 24).foldl (fun m k => (m.endHold k).admitAll k) n = n := by
      refine foldl_id _ _ _ fun k _ => ?_
      rw [endHold_calm (by rw [← hn]; exact hmc) (by rw [← hn]; exact hcalm), admitAll_calm (by rw [← hn]; exact hmc)]
    have hochSrc : n.ochAdmit = n := by simp [Mod.ochAdmit, ← hn, hoch]
    have hpushDue : n.pushHinted = n := by simp [Mod.pushHinted, ← hn, hpush]
    simp only [Mod.memSettle, hloop, hochSrc, hpushDue, dirSettle_atRest (m := n) (by rw [← hn]; exact hdir), ite_self]
  have hcoreq : n.coreSettle = n := by simp [Mod.coreSettle, ← hn, hcore]
  have hidle' : n.idle = true := by rw [← hn]; exact hidle
  unfold Mod.conclude
  rw [hmem, hcoreq, finish_quiet n hidle' (by rw [← hn]; exact hos), fabLoop_quiet n _ hidle']
  exact svcLoop_quiet n _ (by rw [← hn]; exact hsvc)

/-! ## What the directory's commands answer -/

section
variable {c : Instr} {s : State} {f : Mod → Mod} {es : List DirEntry} {net : List CohMsg} (hq : s.m.quiet = true) (h : exec c s = s.runF f)
  (hes : es.all DirEntry.calm = true)
include hq h hes

/-- A command whose effect is entries and messages. -/
theorem answers_dir (hf : f s.m.clearOut = { s.m.clearOut with dir := es, net := net }) :
    Answers c s (fun t => t.m.out = [] ∧ OnlyRegs [] { s.m with dir := es, net := net } t.m) := by
  have hframe : CohFrame s.m { s.m.clearOut with dir := es, net := net } := ⟨rfl, rfl⟩
  refine answers_runF h ?_ ?_ ?_ <;> rw [hf]
  · exact quiet_of_cohFrame hframe hq hes
  · rfl
  · exact ⟨rfl, onlyRegs_settle rfl rfl fun _ _ => rfl⟩

/-- A command that leaves the Upg's agent the owner and the queue empty. -/
theorem answers_released (hf : f s.m.clearOut = { s.m.clearOut.retryEmptied.addFld F.DIR_COUNT_COUNT 1 0 5 with dir := es, net := net }) :
    Answers c s (fun t => t.m.retry = [] ∧ t.m.dir = es ∧ t.m.net = net) := by
  have hframe : CohFrame s.m { s.m.clearOut.retryEmptied.addFld F.DIR_COUNT_COUNT 1 0 5 with dir := es, net := net } :=
    ⟨rfl, fld_setFld_addr s.m.clearOut.retryEmptied F.DIR_COUNT_COUNT F.DIR_STATUS_DRAINING _ 0 5 0 0 0 0 (by decide)⟩
  refine answers_runF h ?_ ?_ ?_ <;> rw [hf]
  · exact quiet_of_cohFrame hframe hq hes
  · rfl
  · exact ⟨rfl, rfl, rfl⟩

end

/-- What a command leaves that writes a line home, ends its entry and sends `net`. -/
def LineWritten (ln : Nat) (d : List Byte) (net : List CohMsg) (s t : State) : Prop :=
  t.m.out = [] ∧ t.m.mem.readAt ln 64 = d ∧ SameRest { s.m with dir := [], net := net } t.m ∧ SameRegsBut [] s.m t.m ∧
    ∀ y, y < ln ∨ ln + 64 ≤ y → t.m.mem.byte y = s.m.mem.byte y

theorem answers_lineWritten {c : Instr} {s : State} {f : Mod → Mod} {ln : Nat} {d : List Byte} {net : List CohMsg} (hq : s.m.quiet = true)
    (h : exec c s = s.runF f) (hd : d.length = 64)
    (hf : f s.m.clearOut = { s.m.clearOut with mem := s.m.mem.writeAt ln (d.map some), dir := [], net := net }) :
    Answers c s (LineWritten ln d net s) := by
  have hframe : CohFrame s.m { s.m.clearOut with mem := s.m.mem.writeAt ln (d.map some), dir := [], net := net } := ⟨rfl, rfl⟩
  have hnew := readAt_writeAt_self s.m.mem ln d
  rw [hd] at hnew
  have hkept (y : Nat) (hy : y < ln ∨ ln + 64 ≤ y) :=
    byte_writeAt_of_outside s.m.mem ln (d.map some) (y := y) (by rwa [List.length_map, hd])
  refine answers_runF h ?_ ?_ ?_ <;> rw [hf]
  · exact quiet_of_cohFrame hframe hq rfl
  · rfl
  · exact ⟨rfl, (readAt_settle _ _ _).trans hnew, sameRest_settle rfl, fun x _ => reg_settle _ x,
      fun y hy => (byte_settle _ _).trans (hkept y hy)⟩

/-- Clearing DIR_CTL.REMOTE_EN with no proxy in the directory leaves the drain to end (11 R312). -/
theorem answers_remoteEnClear {s : State} {ag : Agent} (hq : s.m.quiet = true) (hag : regAgent ag = true)
    (hdir : s.m.dir.all DirEntry.homeAtRest = true) (hen : s.m.fld F.DIR_CTL_REMOTE_EN = 1) :
    Answers (.remoteEnClear ag) s (fun t => t.m.out = [.done .ok []] ∧ t.m.fld F.DIR_STATUS_DRAINING = 1 ∧
      OnlyRegs [F.DIR_STATUS_DRAINING.addr 0 0] s.m t.m) := by
  have hclear : s.m.clearOut.remoteEnClear = s.m.clearOut.setFld F.DIR_STATUS_DRAINING 1 := by
    simp [Mod.remoteEnClear, hen, idleProxies_atRest hdir]
  have hend : (s.m.clearOut.byAgent ag (F.DIR_CTL_REMOTE_EN.addr 0 0) (fun m => (m.remoteEnClear, .ok))).conclude =
      { s.m.setFld F.DIR_STATUS_DRAINING 1 with out := [.done .ok []] } := by
    rw [byAgent_ok hag rfl, hclear]
    exact conclude_draining hq hdir rfl
  refine answers_concluded (exec_remoteEnClear ag s) hend ⟨rfl, ?_, ?_⟩
  · exact (fld_settle _ _ _ _ _).trans (fld_setFld_self s.m F.DIR_STATUS_DRAINING 1 0 0 0 (by decide))
  · exact onlyRegs_settle rfl rfl fun x hx => reg_setFld_ne s.m _ _ _ _ _ fun he => hx (List.mem_singleton.mpr he)

/-- The module after a drain of the proxies has ended. -/
def Mod.drained (m : Mod) : Mod :=
  ((m.setFld F.DIR_STATUS_DRAINING 1).setFld F.DIR_STATUS_DRAINING 0).setFld F.DIR_CTL_REMOTE_EN 0

theorem drained_draining (m : Mod) : m.drained.fld F.DIR_STATUS_DRAINING = 0 :=
  (fld_setFld_addr _ F.DIR_CTL_REMOTE_EN F.DIR_STATUS_DRAINING 0 0 0 0 0 0 0 (by decide)).trans
    (fld_setFld_self _ F.DIR_STATUS_DRAINING 0 0 0 0 (by decide))

theorem drained_remoteEn (m : Mod) : m.drained.fld F.DIR_CTL_REMOTE_EN = 0 := fld_setFld_self _ F.DIR_CTL_REMOTE_EN 0 0 0 0 (by decide)

theorem drained_regs (m : Mod) : SameRegsBut [F.DIR_STATUS_DRAINING.addr 0 0, F.DIR_CTL_REMOTE_EN.addr 0 0] m m.drained := by
  intro x hx
  simp only [List.mem_cons, List.not_mem_nil, or_false, not_or] at hx
  obtain ⟨hdrain, hen⟩ := hx
  exact (reg_setFld_ne _ _ _ _ _ _ hen).trans ((reg_setFld_ne _ _ _ _ _ _ hdrain).trans (reg_setFld_ne m _ _ _ _ _ hdrain))

/-- A drain with no proxy left in the directory ends, and remote coherence with it (11 R312). -/
theorem answers_proxyDrainComplete {s : State} (hq : s.m.quiet = true) (hdir : s.m.dir.all (fun e => !e.proxy) = true) :
    Answers .proxyDrainComplete { s with m := s.m.setFld F.DIR_STATUS_DRAINING 1 } (fun t => t.m.out = [] ∧
      t.m.fld F.DIR_STATUS_DRAINING = 0 ∧ t.m.fld F.DIR_CTL_REMOTE_EN = 0 ∧
      OnlyRegs [F.DIR_STATUS_DRAINING.addr 0 0, F.DIR_CTL_REMOTE_EN.addr 0 0] s.m t.m) := by
  have hdraining : (s.m.setFld F.DIR_STATUS_DRAINING 1).fld F.DIR_STATUS_DRAINING = 1 := fld_setFld_self s.m F.DIR_STATUS_DRAINING 1 0 0 0 (by decide)
  have hcond : (s.m.setFld F.DIR_STATUS_DRAINING 1).clearOut.fld F.DIR_STATUS_DRAINING = 1 ∧
      (s.m.setFld F.DIR_STATUS_DRAINING 1).clearOut.dir.all (fun e => !e.proxy) = true := ⟨hdraining, hdir⟩
  have hidle : s.m.fld F.DIR_STATUS_DRAINING = 0 := by
    have hq' := hq
    simp only [Mod.quiet, memQuiet_eq, Bool.and_eq_true, beq_iff_eq] at hq'
    obtain ⟨⟨-, ⟨-, hdrain⟩⟩, -⟩ := hq'
    exact hdrain
  have hframe : CohFrame s.m s.m.clearOut.drained := ⟨rfl, (drained_draining s.m.clearOut).trans hidle.symm⟩
  refine answers_runF (exec_proxyDrainComplete _) ?_ ?_ ?_ <;> rw [if_pos hcond]
  · exact quiet_of_cohFrame hframe hq (dirCalm_of_quiet (m := s.m) hq)
  · rfl
  · exact ⟨rfl, (fld_settle _ _ _ _ _).trans (drained_draining s.m), (fld_settle _ _ _ _ _).trans (drained_remoteEn s.m),
      onlyRegs_settle rfl rfl (drained_regs s.m)⟩

/-- Settles O33: an answer that its transaction waits for is the only message in flight, so the directory's one entry is the one it meets. -/
theorem directoryAnswers : Obligations.DirectoryAnswers := by
  unfold Obligations.DirectoryAnswers
  intro ag a line off d e msg s hq haddr halign hin hon halone hdir hline hmembers hagents howner hnet hmsrc hmline hdata hmpoison
    hstale hsrc waits leaves busy written counts
  have h : HomeLine s.m line.toNat off := ⟨haddr, halign, hin, hon, halone⟩
  have h' : HomeLine { s.m.clearOut with net := [] } line.toNat off := homeLine_congr h rfl rfl
  have hdir' : ({ s.m.clearOut with net := [] } : Mod).dir = [e] := hdir
  have hstale' : ({ s.m.clearOut with net := [] } : Mod).stale = [] := hstale
  have hcalm : [e].all DirEntry.calm = true := hdir ▸ dirCalm_of_quiet hq
  have hheld : e.held = none := by
    simp only [List.all_cons, List.all_nil, DirEntry.calm, Bool.and_eq_true, Option.isNone_iff_eq_none] at hcalm
    obtain ⟨⟨-, hheld⟩, -⟩ := hcalm
    exact hheld
  have hcalmOf {x : DirEntry} (hx : x.held = none) (hwaits : x.waitsHome = false) : [x].all DirEntry.calm = true := by
    simp [DirEntry.calm, hx, hwaits]
  have hdrop := dropHolder_owner howner hagents hmembers
  refine ⟨?invAck, ?clean, ?dirty, ?wbPend, ?recallData, ?wbData, ?pushAck, ?pushDrop, ?ncAck, ?retry, ?clear, ?drain⟩
  case invAck =>
    intro hkind hbusy
    refine answers_dir hq (exec_invAck (.agent a) line s) rfl ?_
    rw [answerArrives_sole (m := s.m.clearOut) hnet (by simp [hkind]) hmsrc hmline]
    exact holderAnswer_clean hdir' hline hstale' hbusy hheld
  case clean =>
    intro hkind hbusy
    refine answers_dir hq (exec_recallAck (.agent a) line .clean s) rfl ?_
    rw [answerArrives_sole (m := s.m.clearOut) hnet (by simp [hkind]) hmsrc hmline, hkind]
    exact (recallAnswer_evict hdir' hline hbusy).1.trans (holderAnswer_clean hdir' hline hstale' hbusy hheld)
  case dirty =>
    intro hkind hbusy
    refine answers_dir hq (exec_recallAck (.agent a) line .dirtyFollows s) (hcalmOf hheld (by simp [DirEntry.waitsHome, busy])) ?_
    rw [answerArrives_sole (m := s.m.clearOut) hnet (by simp [hkind]) hmsrc hmline, hkind]
    refine (recallAnswer_evict hdir' hline hbusy).2.trans ?_
    rw [holderAnswer_dirty hdir' hline hstale' hbusy, hdrop]
    rfl
  case wbPend =>
    intro hkind hbusy
    refine answers_dir hq (exec_wbPend (.agent a) line s) (hcalmOf hheld (by simp [DirEntry.waitsHome, busy])) ?_
    rw [answerArrives_sole (m := s.m.clearOut) hnet (by simp [hkind]) hmsrc hmline]
    exact wbPendIn_evict hdir' hline hstale' hbusy
  case recallData =>
    intro hkind hbusy
    refine answers_lineWritten hq (exec_recallData (.agent a) line d false s) hdata ?_
    simp only
    rw [recv_sole (m := s.m.clearOut) hnet (by simp [hkind, hmsrc, hmline])]
    simp only [hmpoison]
    exact recallDataIn_evict hdir' hline h' hbusy hheld hdata
  case wbData =>
    intro hkind hbusy
    refine answers_lineWritten hq (exec_wbData (.agent a) line d false s) hdata ?_
    simp only
    rw [recv_sole (m := s.m.clearOut) hnet (by simp [hkind, hmsrc, hmline])]
    simp only [hmpoison]
    exact wbDataIn_evict hdir' hline h' hbusy hheld hdata
  case pushAck =>
    intro hkind hbusy
    have hfree : [{ e with owner := some (.agent a), busy := none }].all DirEntry.calm = true := hcalmOf hheld (by simp [DirEntry.waitsHome])
    exact answers_counted hq (exec_pushAck a line s) hfree
      (pushAnswer_sole (m := s.m.clearOut) hdir hline hnet hkind hmsrc hmline hbusy rfl).1
  case pushDrop =>
    intro hkind hbusy
    exact answers_counted hq (exec_pushDrop a line s) rfl
      (pushAnswer_sole (m := s.m.clearOut) hdir hline hnet hkind hmsrc hmline hbusy rfl).2
  case ncAck =>
    intro q seq key st x hacks
    have hfind : s.m.clearOut.ncAcks.find? (fun y => y.1 == .op q seq key) = some (.op q seq key, st, x) := by simp [hacks]
    have hrest : s.m.clearOut.ncAcks.eraseP (fun y => y.1 == .op q seq key) = [] := by simp [hacks]
    refine answers_opCompl (acks := []) hq (exec_ncAck (.op q seq key) s) ?_
    simp only [hfind, hrest]
    rfl
  case retry =>
    rintro b hbusy hproxy rfl hretry hgood
    have he : e = ownedEntry line.toNat b := eq_ownedEntry hline hproxy howner hagents hmembers hbusy hheld
    refine answers_released hq (exec_retryQueueRelease line s) hcalm ?_
    have hrelease := retryRelease_upg (m := s.m.clearOut) (homeLine_congr h rfl rfl) (hdir.trans (by rw [he])) hretry hsrc hgood
    rw [hrelease, he]
    simp only [clearOut_net, hnet]
    rfl
  case clear =>
    intro hag hproxy hen
    exact answers_remoteEnClear hq hag (by simpa [hdir, DirEntry.homeAtRest, hproxy] using hcalm) hen
  case drain =>
    intro hproxy
    exact answers_proxyDrainComplete hq (by simp [hdir, hproxy])

end Sys2Proof.Machine

/-! # Facts about fields, frames and event records that the proofs below share (00 R7; 15 R402) -/

namespace Sys2Proof.Machine

open Sys2Proof

/-! ## Fields whose bits lie apart -/

/-- The bits of two fields lie apart: no write of one reaches the other, whatever their registers. -/
abbrev Fld.BitsApart (f g : Fld) : Prop := (g.lo + g.w ≤ f.lo ∨ f.lo + f.w ≤ g.lo) ∧ g.lo + g.w ≤ 64

theorem fld_setFld_bitsApart (m : Mod) {f g : Fld} (v i k i' k' : Nat) (h : f.BitsApart g) :
    (m.setFld f v i k).fld g i' k' = m.fld g i' k' := by
  obtain ⟨hbits, h64⟩ := h
  by_cases ha : g.addr i' k' = f.addr i k
  · exact fld_setFld_bits m f g v i k 0 i' k' 0 ha (by simpa using hbits) (by simpa using h64)
  · exact fld_setFld_addr m f g v i k 0 i' k' 0 ha

/-- A field written with a value that fits reads that value. -/
theorem fld_setFld_fits (m : Mod) (f : Fld) {v : Nat} (i k : Nat) (h : f.lo + f.w ≤ 64) (hv : v < 2 ^ f.w) :
    (m.setFld f v i k).fld f i k = v := by
  rw [fld_setFld_self _ _ _ _ _ _ (by simpa using h), Nat.mod_eq_of_lt hv]

theorem b2n_lt (b : Bool) : b2n b < 2 ^ 1 := by cases b <;> decide

/-- A one-bit field is 0 or 1. -/
theorem fld_flag (m : Mod) {f : Fld} (i k j : Nat) (h : f.w = 1) : m.fld f i k j = 0 ∨ m.fld f i k j = 1 := by
  have := fld_lt m f i k j
  rw [h] at this
  omega

/-! ## Registers that event records leave alone -/

/-- Event records change registers of the hub's own block and bank states of its buffer only. -/
theorem eventRegs_range : ∀ a ∈ eventRegs, a < 0x700001000000 ∨ (0x700002000100 ≤ a ∧ a < 0x700002000200) := by decide

theorem not_eventReg_of_ge {a : Nat} (h : 0x700002000200 ≤ a) : a ∉ eventRegs := fun hmem => by
  have := eventRegs_range a hmem
  omega

/-- Blocks that lie above the registers that event records change. -/
def Block.aboveEvents : Block → Bool
  | .mc | .och | .fab | .lane | .d2d | .reg | .dir | .pwr | .thm | .ecd | .mgd => true
  | _ => false

theorem addr_aboveEvents {f : Fld} (h : f.blk.aboveEvents = true) (i k : Nat) : 0x700003000000 ≤ f.addr i k := by
  unfold Fld.addr
  cases hb : f.blk <;> simp [hb, Block.aboveEvents] at h <;> simp only [Block.base] <;> omega

theorem addr_not_eventReg {f : Fld} (h : f.blk.aboveEvents = true) (i k : Nat) : f.addr i k ∉ eventRegs :=
  not_eventReg_of_ge (le_trans (by decide) (addr_aboveEvents h i k))

theorem fld_raise_above (m : Mod) (code : Nat) (data : List Byte) {f : Fld} (i k j : Nat) (h : f.blk.aboveEvents = true) :
    (m.raise code data).fld f i k j = m.fld f i k j := fld_raise m code data f i k j (addr_not_eventReg h i k)

/-! ## Records that stay raised -/

/-- A record raised stays among the outputs of what follows. -/
theorem raised_mono {m n : Mod} {code : Nat} {data : List Byte} (h : Raised m code data) (hout : ∀ o ∈ m.out, o ∈ n.out) :
    Raised n code data := by
  obtain ⟨r, hcode, hdata, hmem⟩ := h
  exact ⟨r, hcode, hdata, hout _ hmem⟩

theorem raised_setFld {m : Mod} {code : Nat} {data : List Byte} (h : Raised m code data) (f : Fld) (v i k j : Nat) :
    Raised (m.setFld f v i k j) code data := h

theorem raised_raise_of_raised {m : Mod} {code : Nat} {data : List Byte} (h : Raised m code data) (c : Nat) (d : List Byte) :
    Raised (m.raise c d) code data := by
  obtain ⟨r, hr⟩ := out_raise m c d
  exact raised_mono h (fun o ho => by rw [hr]; exact List.mem_append_left _ ho)

/-! ## Free values drawn -/

@[simp] theorem fld_drawBytes (m : Mod) (n : Nat) (f : Fld) (i k j : Nat) : (m.drawBytes n).1.fld f i k j = m.fld f i k j :=
  fld_congr (m := (m.drawBytes n).1) rfl f i k j

theorem regsAndEvents_drawBytes {as : List Nat} {m n : Mod} (h : RegsAndEvents as m n) (k : Nat) : RegsAndEvents as m (n.drawBytes k).1 :=
  regsAndEvents_trans h ⟨rfl, fun _ _ => rfl, fun _ _ => rfl⟩

end Sys2Proof.Machine

/-! # Proofs: the module right after reset (01 Table 01.9; 17 Tables 17.7, 17.8; 15 Table 15.4) -/

namespace Sys2Proof.Machine

open Sys2Proof

/-- Nothing is listed in a table of the reset state, so every table is in canonical form. -/
theorem reset_safe : State.reset.Safe := ⟨⟨rfl, rfl, rfl, rfl, rfl, rfl, rfl⟩, rfl⟩

theorem reset_quiet : State.reset.m.quiet = true := by decide +kernel

/-- A register that nothing has written reads its reset value. -/
theorem reg_reset (a : Nat) : State.reset.m.reg a = resetWord a := rfl

/-- THM_LIMITS resets to the limits of 17 Table 17.8. -/
theorem thmLimits_reset : State.reset.m.fld F.THM_LIMITS_WARN = 95 ∧ State.reset.m.fld F.THM_LIMITS_THROTTLE = 105 ∧
    State.reset.m.fld F.THM_LIMITS_TRIP = 115 ∧ State.reset.m.fld F.THM_LIMITS_HYST = 5 := by decide +kernel

/-- Event queue 3 takes every class, the others none (15 Table 15.4). -/
theorem classMask_reset : ∀ q < 4, State.reset.m.fld F.EVQ_CTL_CLASS_MASK 0 q = if q = 3 then 0xFFFFFFFF else 0 := by decide +kernel

/-- Settles O60: the tables of the reset state list nothing, and its registers read the reset columns. -/
theorem resetValues : Obligations.ResetValues := by
  unfold Obligations.ResetValues
  obtain ⟨hwarn, hthrottle, htrip, hhyst⟩ := thmLimits_reset
  exact ⟨reset_safe, rfl, rfl, rfl, rfl, rfl, rfl, rfl, rfl, rfl, rfl, rfl, rfl, rfl, rfl, rfl, rfl, rfl, rfl, rfl, reset_quiet,
    reg_reset, hwarn, hthrottle, htrip, hhyst, classMask_reset⟩

end Sys2Proof.Machine

/-! # Proofs: EXTEND of a digest whose line waits in the directory's retry queue (11 R298, R299; 15 R409, R418)

O50 asks that the directory holds no entry, but not that no request waits for the digest's line. A line whose entry has been freed while
a later request for it is still in the retry queue is such a state: the read of the digest then waits behind that request. -/

namespace Sys2Proof.Machine

open Sys2Proof

-- The kernel evaluates states here. One after another, these evaluations stay within the check's memory; side by side they need not.
set_option Elab.async false

/-- EXTEND of measurement 5 has been taken with its digest at the start of the hub buffer, all zeros; a read of agent 1 for that line waits
in the retry queue, and the directory holds no entry. -/
def extendWaits : State :=
  ⟨[], { pwrgd := true, state := .active, rot := some (.extend 5 0x400000000000), mem := { fills := [(25016, .zero)] },
         retry := [(0x400000000000, .rdS (.agent 1))] }⟩

/-- The state that the end of the command leaves. -/
def extendHeld : State := { extendWaits with m := extendWaits.m.clearOut.rotComplete.conclude.settle }

theorem exec_rotCommandComplete_extendWaits : exec .rotCommandComplete extendWaits = .next extendHeld := rfl

/-- The premises that O50 asks of a state before ROT_COMMAND_COMPLETE. -/
theorem extendWaits_premises : extendWaits.m.quiet = true ∧ extendWaits.m.bankState 16 (bankOf 16 0) = 0 ∧
    (∀ j < 64, extendWaits.m.mem.parityBad (0x400000000000 + j) = false) := by decide +kernel

/-- The digest's line is not free, so the root of trust still runs its command. -/
theorem extendHeld_rot : extendHeld.m.rot = some (.extend 5 0x400000000000) := by decide +kernel

/-- Refutes O50: a request for the digest's line waits in the retry queue, so the read of the digest waits behind it and the command does
not end. -/
theorem not_extendSetsMeasurement : ¬ Obligations.ExtendSetsMeasurement := by
  unfold Obligations.ExtendSetsMeasurement
  intro h
  obtain ⟨hquiet, hbank, hparity⟩ := extendWaits_premises
  obtain ⟨t, ht, -, -, -, hrest, -, -⟩ := h 5 0x400000000000 0 extendWaits hquiet rfl rfl rfl rfl rfl rfl hbank rfl hparity
  rw [exec_rotCommandComplete_extendWaits, Host.Outcome.next.injEq] at ht
  subst ht
  have hrot : extendHeld.m.rot = none := by rw [hrest]
  rw [extendHeld_rot] at hrot
  exact absurd hrot (by decide)

end Sys2Proof.Machine

/-! # Proofs: MGD_ROT_STATUS.RESULT after an EXTEND that is taken (00 R486; 15 R409)

O49 lets an EXTEND that is taken change nothing but the root of trust's job. Its write leaves its status in MGD_ROT_STATUS.RESULT (00 R486),
where an earlier refusal has left another value. -/

namespace Sys2Proof.Machine

open Sys2Proof

-- The kernel evaluates states here. One after another, these evaluations stay within the check's memory; side by side they need not.
set_option Elab.async false

/-- A running module whose last command to the root of trust was refused with ST_ACCESS. -/
def rotRefused : State :=
  ⟨[], { pwrgd := true, state := .active, regs := [(F.MGD_ROT_STATUS_RESULT.addr 0 0, 0xD00)] }⟩

/-- The state that an EXTEND of measurement 5 by RT0 leaves, its digest at the start of the hub buffer. -/
def rotTaken : State :=
  { rotRefused with m := (rotRefused.m.clearOut.byAgent (.rt 0) (F.MGD_ROT_CMD_OP.addr 0 0)
      (fun m => m.rotCmd (.rt 0) 1 5 0x400000000000)).conclude.settle }

theorem exec_extend_rotRefused : exec (.extend (.rt 0) 5 0x400000000000) rotRefused = .next rotTaken := rfl

theorem rotRefused_quiet : rotRefused.m.quiet = true := by decide +kernel

/-- The EXTEND's status, ST_OK, has replaced the refusal's. -/
theorem rot_results : rotRefused.m.fld F.MGD_ROT_STATUS_RESULT = 0xD ∧ rotTaken.m.fld F.MGD_ROT_STATUS_RESULT = 0 := by decide +kernel

/-- Refutes O49: its clause for EXTEND lets no register change, but MGD_ROT_STATUS.RESULT goes from ST_ACCESS to ST_OK. -/
theorem not_rootOfTrust : ¬ Obligations.RootOfTrust := by
  unfold Obligations.RootOfTrust
  rintro ⟨commands, -⟩
  obtain ⟨hextend, -, -⟩ := commands (.rt 0) 0x400000000000 5 0 rotRefused rotRefused_quiet rfl rfl
  obtain ⟨t, ht, -, -, -, hregs⟩ := hextend rfl (by decide)
  rw [exec_extend_rotRefused, Host.Outcome.next.injEq] at ht
  subst ht
  have hsame : rotTaken.m.fld F.MGD_ROT_STATUS_RESULT = rotRefused.m.fld F.MGD_ROT_STATUS_RESULT := by
    simp only [Mod.fld, hregs _ List.not_mem_nil]
    rfl
  obtain ⟨hbefore, hafter⟩ := rot_results
  rw [hbefore, hafter] at hsame
  exact absurd hsame (by decide)

end Sys2Proof.Machine

/-! # Proofs: temperatures, ceilings and the coolant (17 R451-R455) -/

namespace Sys2Proof.Machine

open Sys2Proof

/-! ## WARN and THROTTLE of a die (17 R452, R453) -/

/-- A limit's flag after a reading: set at the limit, cleared below it by the hysteresis (17 R452, R453). -/
def limitFlag (was : Nat) (limit hyst t : Int) : Nat :=
  if was = 0 then (if limit ≤ t then 1 else 0) else (if t ≤ limit - hyst then 0 else 1)

/-- The reading's effect on WARN. -/
def Mod.warnStep (m : Mod) (i : Nat) (t : Int) : Mod :=
  if m.fld F.THM_TEMP_WARN 0 i != 1 && decide ((m.fld F.THM_LIMITS_WARN : Int) * 16 ≤ t) then
    (m.setFld F.THM_TEMP_WARN 1 0 i).raise 0x0D04 (d1 i ++ d2 (unsigned 16 t))
  else if m.fld F.THM_TEMP_WARN 0 i == 1 && decide (t ≤ ((m.fld F.THM_LIMITS_WARN : Int) - m.fld F.THM_LIMITS_HYST) * 16) then
    (m.setFld F.THM_TEMP_WARN 0 0 i).raise 0x0D04 (d1 i ++ d2 (unsigned 16 t))
  else m

/-- The reading's effect on THROTTLE and the ceiling. -/
def Mod.throttleStep (m : Mod) (i : Nat) (t : Int) : Mod :=
  if m.fld F.THM_TEMP_THROTTLE 0 i != 1 && decide ((m.fld F.THM_LIMITS_THROTTLE : Int) * 16 ≤ t) then
    let n := m.setCeiling i (min (m.fld F.THM_TEMP_CEILING 0 i) (m.stepInForce i))
    (n.setFld F.THM_TEMP_THROTTLE 1 0 i).raise 0x0D05 (d1 i ++ d2 (unsigned 16 t) ++ d1 (n.fld F.THM_TEMP_CEILING 0 i))
  else if m.fld F.THM_TEMP_THROTTLE 0 i == 1 && decide (t ≤ ((m.fld F.THM_LIMITS_THROTTLE : Int) - m.fld F.THM_LIMITS_HYST) * 16) then
    (m.setFld F.THM_TEMP_THROTTLE 0 0 i).raise 0x0D05 (d1 i ++ d2 (unsigned 16 t) ++ d1 (m.fld F.THM_TEMP_CEILING 0 i))
  else m

theorem thmLimits_ne_temp (f g : Fld) (hf : f.blk = .thm ∧ f.off = 0x100 ∧ f.stride = 8) (hg : g.blk = .thm ∧ g.off = 8 ∧ g.stride = 0)
    (i : Nat) : g.addr 0 0 ≠ f.addr 0 i := by
  obtain ⟨hfb, hfo, hfs⟩ := hf
  obtain ⟨hgb, hgo, hgs⟩ := hg
  simp only [Fld.addr, hfb, hfo, hfs, hgb, hgo, hgs]
  omega

/-- WARN's step leaves the limits and THROTTLE as they are. -/
theorem fld_warnStep (m : Mod) (i : Nat) (t : Int) {g : Fld} {k : Nat} (hg : g.blk = .thm)
    (h : F.THM_TEMP_WARN.BitsApart g ∨ g.addr 0 k ≠ F.THM_TEMP_WARN.addr 0 i) : (m.warnStep i t).fld g 0 k = m.fld g 0 k := by
  have hev : g.blk.aboveEvents = true := by rw [hg]; rfl
  have hset : ∀ v, (m.setFld F.THM_TEMP_WARN v 0 i).fld g 0 k = m.fld g 0 k := fun v =>
    h.elim (fld_setFld_bitsApart m v 0 i 0 k) (fun ha => fld_setFld_addr m _ _ v 0 i 0 0 k 0 ha)
  unfold Mod.warnStep
  split
  · rw [fld_raise_above _ _ _ _ _ _ hev, hset]
  · split
    · rw [fld_raise_above _ _ _ _ _ _ hev, hset]
    · rfl

theorem thermal_eq (m : Mod) (i : Nat) (t : Int) : m.thermal i t = (m.warnStep i t).throttleStep i t := by
  have hlim := fun (g : Fld) (hg : g.blk = .thm ∧ g.off = 8 ∧ g.stride = 0) =>
    fld_warnStep m i t (k := 0) hg.1 (.inr (thmLimits_ne_temp _ _ ⟨rfl, rfl, rfl⟩ hg i))
  have hthr : (m.warnStep i t).fld F.THM_TEMP_THROTTLE 0 i = m.fld F.THM_TEMP_THROTTLE 0 i :=
    fld_warnStep m i t rfl (.inl (by decide))
  unfold Mod.throttleStep
  rw [hlim F.THM_LIMITS_THROTTLE ⟨rfl, rfl, rfl⟩, hlim F.THM_LIMITS_HYST ⟨rfl, rfl, rfl⟩, hthr]
  rfl

/-- WARN after the reading. -/
theorem fld_warnStep_warn (m : Mod) (i : Nat) (t : Int) : (m.warnStep i t).fld F.THM_TEMP_WARN 0 i =
    limitFlag (m.fld F.THM_TEMP_WARN 0 i) (m.fld F.THM_LIMITS_WARN * 16) (m.fld F.THM_LIMITS_HYST * 16) t := by
  have hset : ∀ v < 2, ∀ c d, ((m.setFld F.THM_TEMP_WARN v 0 i).raise c d).fld F.THM_TEMP_WARN 0 i = v := fun v hv c d => by
    rw [fld_raise_above _ _ _ _ _ _ rfl, fld_setFld_fits _ _ _ _ (by decide) hv]
  unfold Mod.warnStep limitFlag
  rcases fld_flag m (f := F.THM_TEMP_WARN) 0 i 0 rfl with h | h <;> rw [h]
  · by_cases ht : (m.fld F.THM_LIMITS_WARN : Int) * 16 ≤ t
    · simp [ht, hset]
    · simp [ht, h]
  · by_cases ht : t ≤ ((m.fld F.THM_LIMITS_WARN : Int) - m.fld F.THM_LIMITS_HYST) * 16
    · simp [ht, hset, ← sub_mul]
    · simp [ht, h, ← sub_mul]

theorem fld_setCeiling (m : Mod) (i v : Nat) {g : Fld} (k : Nat) (h : F.THM_TEMP_CEILING.BitsApart g) :
    (m.setCeiling i v).fld g 0 k = m.fld g 0 k := by
  unfold Mod.setCeiling
  split
  · exact foldl_keeps (fun n => n.fld g 0 k = m.fld g 0 k) _ (fun n j hn => (fld_setFld_bitsApart n _ 0 j 0 k h).trans hn) _ m rfl
  · exact fld_setFld_bitsApart m _ 0 i 0 k h

theorem fld_throttleStep (m : Mod) (i : Nat) (t : Int) {g : Fld} (k : Nat) (hg : g.blk = .thm) (hc : F.THM_TEMP_CEILING.BitsApart g)
    (h : F.THM_TEMP_THROTTLE.BitsApart g) : (m.throttleStep i t).fld g 0 k = m.fld g 0 k := by
  have hev : g.blk.aboveEvents = true := by rw [hg]; rfl
  unfold Mod.throttleStep
  split
  · rw [fld_raise_above _ _ _ _ _ _ hev, fld_setFld_bitsApart _ _ _ _ _ _ h, fld_setCeiling _ _ _ _ hc]
  · split
    · rw [fld_raise_above _ _ _ _ _ _ hev, fld_setFld_bitsApart _ _ _ _ _ _ h]
    · rfl

/-- THROTTLE after the reading. -/
theorem fld_throttleStep_throttle (m : Mod) (i : Nat) (t : Int) : (m.throttleStep i t).fld F.THM_TEMP_THROTTLE 0 i =
    limitFlag (m.fld F.THM_TEMP_THROTTLE 0 i) (m.fld F.THM_LIMITS_THROTTLE * 16) (m.fld F.THM_LIMITS_HYST * 16) t := by
  have hset : ∀ n : Mod, ∀ v < 2, ∀ c d, ((n.setFld F.THM_TEMP_THROTTLE v 0 i).raise c d).fld F.THM_TEMP_THROTTLE 0 i = v := fun n v hv c d => by
    rw [fld_raise_above _ _ _ _ _ _ rfl, fld_setFld_fits _ _ _ _ (by decide) hv]
  unfold Mod.throttleStep limitFlag
  rcases fld_flag m (f := F.THM_TEMP_THROTTLE) 0 i 0 rfl with h | h <;> rw [h]
  · by_cases ht : (m.fld F.THM_LIMITS_THROTTLE : Int) * 16 ≤ t
    · simp [ht, hset]
    · simp [ht, h]
  · by_cases ht : t ≤ ((m.fld F.THM_LIMITS_THROTTLE : Int) - m.fld F.THM_LIMITS_HYST) * 16
    · simp [ht, hset, ← sub_mul]
    · simp [ht, h, ← sub_mul]

/-- Beside WARN, THROTTLE and the ceilings, a reading's flags leave THM_TEMP as it was. -/
theorem fld_thermal (m : Mod) (i : Nat) (t : Int) {g : Fld} (k : Nat) (hg : g.blk = .thm) (hw : F.THM_TEMP_WARN.BitsApart g)
    (hc : F.THM_TEMP_CEILING.BitsApart g) (h : F.THM_TEMP_THROTTLE.BitsApart g) : (m.thermal i t).fld g 0 k = m.fld g 0 k := by
  rw [thermal_eq, fld_throttleStep _ _ _ _ hg hc h, fld_warnStep _ _ _ hg (.inl hw)]

theorem fld_thermal_warn (m : Mod) (i : Nat) (t : Int) : (m.thermal i t).fld F.THM_TEMP_WARN 0 i =
    limitFlag (m.fld F.THM_TEMP_WARN 0 i) (m.fld F.THM_LIMITS_WARN * 16) (m.fld F.THM_LIMITS_HYST * 16) t := by
  rw [thermal_eq, fld_throttleStep _ _ _ _ rfl (by decide) (by decide), fld_warnStep_warn]

theorem fld_thermal_throttle (m : Mod) (i : Nat) (t : Int) : (m.thermal i t).fld F.THM_TEMP_THROTTLE 0 i =
    limitFlag (m.fld F.THM_TEMP_THROTTLE 0 i) (m.fld F.THM_LIMITS_THROTTLE * 16) (m.fld F.THM_LIMITS_HYST * 16) t := by
  have hlim := fun (g : Fld) (hg : g.blk = .thm ∧ g.off = 8 ∧ g.stride = 0) =>
    fld_warnStep m i t (k := 0) hg.1 (.inr (thmLimits_ne_temp _ _ ⟨rfl, rfl, rfl⟩ hg i))
  rw [thermal_eq, fld_throttleStep_throttle, fld_warnStep m i t rfl (.inl (by decide)), hlim F.THM_LIMITS_THROTTLE ⟨rfl, rfl, rfl⟩,
    hlim F.THM_LIMITS_HYST ⟨rfl, rfl, rfl⟩]

/-! ## The outputs and the frame of a reading -/

theorem out_setCeiling (m : Mod) (i v : Nat) : (m.setCeiling i v).out = m.out := by
  unfold Mod.setCeiling
  split
  · exact foldl_keeps (fun n : Mod => n.out = m.out) (fun n j => n.setFld F.THM_TEMP_CEILING v 0 j) (fun n j hn => hn) _ m rfl
  · rfl

theorem raised_throttleStep {m : Mod} {code : Nat} {data : List Byte} (h : Raised m code data) (i : Nat) (t : Int) :
    Raised (m.throttleStep i t) code data := by
  unfold Mod.throttleStep
  split
  · exact raised_raise_of_raised (raised_setFld (raised_mono h (fun o ho => by rwa [out_setCeiling])) _ _ _ _ _) _ _
  · split
    · exact raised_raise_of_raised (raised_setFld h _ _ _ _ _) _ _
    · exact h

theorem raised_warnStep_of_raised {m : Mod} {code : Nat} {data : List Byte} (h : Raised m code data) (i : Nat) (t : Int) :
    Raised (m.warnStep i t) code data := by
  unfold Mod.warnStep
  split
  · exact raised_raise_of_raised (raised_setFld h _ _ _ _ _) _ _
  · split
    · exact raised_raise_of_raised (raised_setFld h _ _ _ _ _) _ _
    · exact h

theorem raised_thermal {m : Mod} {code : Nat} {data : List Byte} (h : Raised m code data) (i : Nat) (t : Int) :
    Raised (m.thermal i t) code data := by
  rw [thermal_eq]
  exact raised_throttleStep (raised_warnStep_of_raised h i t) i t

/-- A reading that reaches WARN raises its record (17 R452). -/
theorem raised_thermal_warn {m : Mod} {i : Nat} {t : Int} (hw : m.fld F.THM_TEMP_WARN 0 i = 0)
    (ht : (m.fld F.THM_LIMITS_WARN : Int) * 16 ≤ t) : Raised (m.thermal i t) 0x0D04 (d1 i ++ d2 (unsigned 16 t)) := by
  rw [thermal_eq]
  refine raised_throttleStep ?_ i t
  simp only [Mod.warnStep, hw, ht]
  exact raised_raise _ _ _

/-- The ceiling of one of the sensors that move the module's stands in one of their registers. -/
theorem regsAndEvents_setCeiling {as : List Nat} {m n : Mod} (h : RegsAndEvents as m n) {i : Nat} (v : Nat)
    (hi : F.THM_TEMP_CEILING.addr 0 i ∈ as) (hall : moduleSensors.contains i = true → ∀ j ∈ moduleSensors, F.THM_TEMP_CEILING.addr 0 j ∈ as) :
    RegsAndEvents as m (n.setCeiling i v) := by
  unfold Mod.setCeiling
  split
  · rename_i hc
    exact foldl_keeps_mem (RegsAndEvents as m) _ _ (fun x j hj hx => regsAndEvents_setFld hx _ _ _ _ _ (List.mem_append_left _ (hall hc j hj))) n h
  · exact regsAndEvents_setFld h _ _ _ _ _ (List.mem_append_left _ hi)

theorem regsAndEvents_thermal {as : List Nat} {m n : Mod} (h : RegsAndEvents as m n) {i : Nat} (t : Int)
    (hi : F.THM_TEMP_CEILING.addr 0 i ∈ as) (hall : moduleSensors.contains i = true → ∀ j ∈ moduleSensors, F.THM_TEMP_CEILING.addr 0 j ∈ as) :
    RegsAndEvents as m (n.thermal i t) := by
  have hset : ∀ {x : Mod}, RegsAndEvents as m x → ∀ f : Fld, f.addr 0 i = F.THM_TEMP_CEILING.addr 0 i → ∀ v, RegsAndEvents as m (x.setFld f v 0 i) :=
    fun hx f hf v => regsAndEvents_setFld hx f v 0 i 0 (by rw [hf]; exact List.mem_append_left _ hi)
  have hwarn : RegsAndEvents as m (n.warnStep i t) := by
    unfold Mod.warnStep
    split
    · exact regsAndEvents_raise (hset h F.THM_TEMP_WARN rfl _) _ _
    · split
      · exact regsAndEvents_raise (hset h F.THM_TEMP_WARN rfl _) _ _
      · exact h
  rw [thermal_eq]
  generalize n.warnStep i t = x at *
  unfold Mod.throttleStep
  split
  · exact regsAndEvents_raise (hset (regsAndEvents_setCeiling hwarn _ hi hall) F.THM_TEMP_THROTTLE rfl _) _ _
  · split
    · exact regsAndEvents_raise (hset hwarn F.THM_TEMP_THROTTLE rfl _) _ _
    · exact hwarn

/-! ## One sensor's sample (17 R451, R454) -/

/-- THM_TEMP of a sensor that works, its reading written. -/
def Mod.sampled (m : Mod) (i : Nat) (raw : BitVec 16) : Mod :=
  (((m.setFld F.THM_TEMP_FAILED 0 0 i).setFld F.THM_TEMP_TRIP_DIS 0 0 i).setFld F.THM_TEMP_SUBSTITUTED 0 0 i).setFld
    F.THM_TEMP_READING raw.toNat 0 i

theorem sensor_works {m : Mod} {ss : List Sensor} {i : Nat} {x : Sensor} (h : x.failed = false) :
    m.sensor ss i x = (m.sampled i x.raw).thermal i x.raw.toInt := by
  simp [Mod.sensor, Mod.sampled, h, b2n]

theorem fld_sampled (m : Mod) (i : Nat) (raw : BitVec 16) :
    (m.sampled i raw).fld F.THM_TEMP_READING 0 i = raw.toNat ∧ (m.sampled i raw).fld F.THM_TEMP_FAILED 0 i = 0 ∧
    (m.sampled i raw).fld F.THM_TEMP_WARN 0 i = m.fld F.THM_TEMP_WARN 0 i ∧
    (m.sampled i raw).fld F.THM_TEMP_THROTTLE 0 i = m.fld F.THM_TEMP_THROTTLE 0 i := by
  unfold Mod.sampled
  refine ⟨fld_setFld_fits _ _ _ _ (by decide) raw.isLt, ?_, ?_, ?_⟩
  · rw [fld_setFld_bitsApart _ _ _ _ _ _ (by decide), fld_setFld_bitsApart _ _ _ _ _ _ (by decide),
      fld_setFld_bitsApart _ _ _ _ _ _ (by decide), fld_setFld_fits _ _ _ _ (by decide) (by decide)]
  all_goals rw [fld_setFld_bitsApart _ _ _ _ _ _ (by decide), fld_setFld_bitsApart _ _ _ _ _ _ (by decide),
      fld_setFld_bitsApart _ _ _ _ _ _ (by decide), fld_setFld_bitsApart _ _ _ _ _ _ (by decide)]

theorem fld_sampled_limits (m : Mod) (i : Nat) (raw : BitVec 16) {g : Fld} (hg : g.blk = .thm ∧ g.off = 8 ∧ g.stride = 0) :
    (m.sampled i raw).fld g = m.fld g := by
  unfold Mod.sampled
  rw [fld_setFld_addr _ _ _ _ _ _ _ _ _ _ (thmLimits_ne_temp _ _ ⟨rfl, rfl, rfl⟩ hg i),
    fld_setFld_addr _ _ _ _ _ _ _ _ _ _ (thmLimits_ne_temp _ _ ⟨rfl, rfl, rfl⟩ hg i),
    fld_setFld_addr _ _ _ _ _ _ _ _ _ _ (thmLimits_ne_temp _ _ ⟨rfl, rfl, rfl⟩ hg i),
    fld_setFld_addr _ _ _ _ _ _ _ _ _ _ (thmLimits_ne_temp _ _ ⟨rfl, rfl, rfl⟩ hg i)]

/-- A reading is a two's complement number of 16 bits (17 R451). -/
theorem unsigned_reading (x : BitVec 16) : unsigned 16 x.toInt = x.toNat := by
  have hlt := x.isLt
  have hint := BitVec.toInt_eq_toNat_cond x
  unfold unsigned
  split at hint <;> omega

/-- The hub's sensor alone is sampled. -/
theorem sensorSample_one {m : Mod} (x : Sensor) (h : m.pwrgd = true) : m.sensorSample [x] = m.sensor [x] 0 x := by
  unfold Mod.sensorSample
  rw [if_neg (by simp [h]), List.range_succ_eq_map, List.foldl_cons]
  refine foldl_id _ _ _ (fun i hi => ?_)
  obtain ⟨j, -, rfl⟩ := List.mem_map.mp hi
  rfl

theorem sensorSample_one_answers {s : State} (x : Sensor) (hp : s.m.pwrgd = true) (hx : x.failed = false) :
    Answers (.sensorSample [x]) s (fun t => t.m.fld F.THM_TEMP_READING 0 0 = x.raw.toNat ∧ t.m.fld F.THM_TEMP_FAILED 0 0 = 0 ∧
      t.m.fld F.THM_TEMP_WARN 0 0 = limitFlag (s.m.fld F.THM_TEMP_WARN 0 0) (s.m.fld F.THM_LIMITS_WARN * 16)
        (s.m.fld F.THM_LIMITS_HYST * 16) x.raw.toInt ∧
      t.m.fld F.THM_TEMP_THROTTLE 0 0 = limitFlag (s.m.fld F.THM_TEMP_THROTTLE 0 0) (s.m.fld F.THM_LIMITS_THROTTLE * 16)
        (s.m.fld F.THM_LIMITS_HYST * 16) x.raw.toInt ∧
      (s.m.fld F.THM_TEMP_WARN 0 0 = 0 → (s.m.fld F.THM_LIMITS_WARN : Int) * 16 ≤ x.raw.toInt →
        Raised t.m 0x0D04 (d1 0 ++ d2 x.raw.toNat)) ∧
      RegsAndEvents (moduleSensors.map (F.THM_TEMP_READING.addr 0)) s.m t.m) := by
  refine answers_run (exec_sensorSample [x] s) ?_
  obtain ⟨hread, hfail, hwarn, hthr⟩ := fld_sampled s.m.clearOut 0 x.raw
  have hlim : ∀ g : Fld, g.blk = .thm ∧ g.off = 8 ∧ g.stride = 0 → (s.m.clearOut.sampled 0 x.raw).fld g = s.m.fld g :=
    fun g hg => fld_sampled_limits s.m.clearOut 0 x.raw hg
  rw [show s.m.clearOut.sensorSample [x] = _ from sensorSample_one x hp, sensor_works hx]
  simp only [fld_settle]
  refine ⟨?_, ?_, ?_, ?_, fun hw ht => raised_settle ?_, regsAndEvents_settle ?_⟩
  · rw [fld_thermal _ _ _ _ rfl (by decide) (by decide) (by decide), hread]
  · rw [fld_thermal _ _ _ _ rfl (by decide) (by decide) (by decide), hfail]
  · rw [fld_thermal_warn, hwarn, hlim _ ⟨rfl, rfl, rfl⟩, hlim _ ⟨rfl, rfl, rfl⟩]
    rfl
  · rw [fld_thermal_throttle, hthr, hlim _ ⟨rfl, rfl, rfl⟩, hlim _ ⟨rfl, rfl, rfl⟩]
    rfl
  · rw [← unsigned_reading x.raw]
    exact raised_thermal_warn (hwarn.trans hw) (by rw [hlim _ ⟨rfl, rfl, rfl⟩]; exact ht)
  · have hset := fun {n : Mod} (hn : RegsAndEvents (moduleSensors.map (F.THM_TEMP_READING.addr 0)) s.m n) (f : Fld)
        (hf : f.addr 0 0 = F.THM_TEMP_READING.addr 0 0) (v : Nat) => regsAndEvents_setFld hn f v 0 0 0 (by rw [hf]; decide)
    exact regsAndEvents_thermal (hset (hset (hset (hset (regsAndEvents_clearOut _ s.m) F.THM_TEMP_FAILED rfl _) F.THM_TEMP_TRIP_DIS rfl _)
      F.THM_TEMP_SUBSTITUTED rfl _) F.THM_TEMP_READING rfl _) _ (by decide) (by decide)

/-- THM_TEMP of a sensor that fails without a substitute, and its record (17 R454). -/
def Mod.sensorLost (m : Mod) (i : Nat) (raw : BitVec 16) : Mod :=
  let m := ((m.setFld F.THM_TEMP_FAILED 1 0 i).setFld F.THM_TEMP_TRIP_DIS 1 0 i).setFld F.THM_TEMP_SUBSTITUTED 0 0 i
  let m := (m.setFld F.THM_TEMP_READING raw.toNat 0 i).drawBytes 1
  m.1.raise 0x0D06 (d1 i ++ d2 raw.toNat ++ m.2)

theorem sensor_fails {m : Mod} {ss : List Sensor} {i : Nat} {x : Sensor} (hx : x.failed = true) (h0 : i ≠ 0) (h17 : i ≠ 17)
    (hwas : m.fld F.THM_TEMP_FAILED 0 i = 0) : ∃ t, m.sensor ss i x = (m.sensorLost i x.raw).thermal i t := by
  have hsub : m.substitute ss i = none := by simp [Mod.substitute, h0, h17]
  unfold Mod.sensor Mod.sensorLost
  simp only [hx, hwas, hsub, b2n, if_true, Option.isSome_none, Bool.false_eq_true, if_false, Bool.true_and, Nat.zero_ne_one,
    Bool.not_eq_true', beq_eq_false_iff_ne, ne_eq, not_false_eq_true]
  exact ⟨_, rfl⟩

theorem fld_sensorLost (m : Mod) (i : Nat) (raw : BitVec 16) : (m.sensorLost i raw).fld F.THM_TEMP_FAILED 0 i = 1 ∧
    (m.sensorLost i raw).fld F.THM_TEMP_TRIP_DIS 0 i = 1 ∧ (m.sensorLost i raw).fld F.THM_TEMP_SUBSTITUTED 0 i = 0 := by
  unfold Mod.sensorLost
  simp only [fld_raise_above _ _ _ _ _ _ (show F.THM_TEMP_FAILED.blk.aboveEvents = true from rfl),
    fld_raise_above _ _ _ _ _ _ (show F.THM_TEMP_TRIP_DIS.blk.aboveEvents = true from rfl),
    fld_raise_above _ _ _ _ _ _ (show F.THM_TEMP_SUBSTITUTED.blk.aboveEvents = true from rfl), fld_drawBytes]
  refine ⟨?_, ?_, ?_⟩
  · rw [fld_setFld_bitsApart _ _ _ _ _ _ (by decide), fld_setFld_bitsApart _ _ _ _ _ _ (by decide),
      fld_setFld_bitsApart _ _ _ _ _ _ (by decide), fld_setFld_fits _ _ _ _ (by decide) (by decide)]
  · rw [fld_setFld_bitsApart _ _ _ _ _ _ (by decide), fld_setFld_bitsApart _ _ _ _ _ _ (by decide),
      fld_setFld_fits _ _ _ _ (by decide) (by decide)]
  · rw [fld_setFld_bitsApart _ _ _ _ _ _ (by decide), fld_setFld_fits _ _ _ _ (by decide) (by decide)]

/-- Another sensor's sample leaves FAILED. -/
theorem fld_sensor_ne (m : Mod) (ss : List Sensor) {i j : Nat} (x : Sensor) (h : i ≠ j) :
    (m.sensor ss j x).fld F.THM_TEMP_FAILED 0 i = m.fld F.THM_TEMP_FAILED 0 i := by
  have haddr : ∀ f : Fld, f.addr 0 j = F.THM_TEMP_FAILED.addr 0 j → ∀ (n : Mod) (v : Nat),
      (n.setFld f v 0 j).fld F.THM_TEMP_FAILED 0 i = n.fld F.THM_TEMP_FAILED 0 i := fun f hf n v =>
    fld_setFld_addr n f _ v 0 j 0 0 i 0 (by
      rw [hf]
      simp only [Fld.addr, F.THM_TEMP_FAILED]
      omega)
  unfold Mod.sensor
  simp only
  rw [fld_thermal _ _ _ _ rfl (by decide) (by decide) (by decide)]
  split
  · rw [fld_raise_above _ _ _ _ _ _ rfl]
    rw [fld_drawBytes, haddr F.THM_TEMP_READING rfl, haddr F.THM_TEMP_SUBSTITUTED rfl, haddr F.THM_TEMP_TRIP_DIS rfl,
      haddr F.THM_TEMP_FAILED rfl]
  · rw [haddr F.THM_TEMP_READING rfl, haddr F.THM_TEMP_SUBSTITUTED rfl, haddr F.THM_TEMP_TRIP_DIS rfl, haddr F.THM_TEMP_FAILED rfl]

/-- The samples before the last of a list, and the last. -/
theorem sensorSample_snoc {m : Mod} (pre : List Sensor) (x : Sensor) (hp : m.pwrgd = true) (hlen : pre.length < 20) :
    ∃ n : Mod, (∀ i, i = pre.length → n.fld F.THM_TEMP_FAILED 0 i = m.fld F.THM_TEMP_FAILED 0 i) ∧
      m.sensorSample (pre ++ [x]) = n.sensor (pre ++ [x]) pre.length x := by
  have hsplit : List.range 20 = List.range pre.length ++ (pre.length :: (List.range (19 - pre.length)).map (· + (pre.length + 1))) := by
    conv_lhs => rw [show (20 : Nat) = pre.length + (1 + (19 - pre.length)) by omega, List.range_add, List.range_add]
    simp [Function.comp_def, Nat.add_comm, Nat.add_left_comm]
  unfold Mod.sensorSample
  rw [if_neg (by simp [hp]), hsplit, List.foldl_append, List.foldl_cons]
  refine ⟨(List.range pre.length).foldl (fun n i => match (pre ++ [x])[i]? with
    | some s => n.sensor (pre ++ [x]) i s
    | none => n) m, fun i hi => ?_, ?_⟩
  · refine foldl_keeps_mem (fun n : Mod => n.fld F.THM_TEMP_FAILED 0 i = m.fld F.THM_TEMP_FAILED 0 i) _ _ (fun n j hj hn => ?_) m rfl
    have hne : i ≠ j := by
      have := List.mem_range.mp hj
      omega
    split
    · exact (fld_sensor_ne n _ _ hne).trans hn
    · exact hn
  · rw [foldl_id]
    · simp only [List.getElem?_concat_length] <;> rfl
    · intro j hj
      obtain ⟨k, -, rfl⟩ := List.mem_map.mp hj
      rw [List.getElem?_eq_none (by rw [List.length_append, List.length_singleton]; omega)]

theorem sensorSample_fails_answers {s : State} (pre : List Sensor) (x : Sensor) {i : Nat} (hp : s.m.pwrgd = true) (hi : i = pre.length)
    (hlt : i < 20) (h0 : i ≠ 0) (h17 : i ≠ 17) (hx : x.failed = true) (hwas : s.m.fld F.THM_TEMP_FAILED 0 i = 0) :
    Answers (.sensorSample (pre ++ [x])) s (fun t => t.m.fld F.THM_TEMP_FAILED 0 i = 1 ∧ t.m.fld F.THM_TEMP_TRIP_DIS 0 i = 1 ∧
      t.m.fld F.THM_TEMP_SUBSTITUTED 0 i = 0 ∧ ∃ d, Raised t.m 0x0D06 (d1 i ++ d2 x.raw.toNat ++ d)) := by
  refine answers_run (exec_sensorSample _ s) ?_
  obtain ⟨n, hfail, hn⟩ := sensorSample_snoc (m := s.m.clearOut) pre x hp (hi ▸ hlt)
  subst hi
  obtain ⟨t, ht⟩ := sensor_fails (ss := pre ++ [x]) hx h0 h17 ((hfail _ rfl).trans hwas)
  obtain ⟨h1, h2, h3⟩ := fld_sensorLost n pre.length x.raw
  rw [hn, ht]
  simp only [fld_settle, fld_thermal _ _ _ _ (show F.THM_TEMP_FAILED.blk = .thm from rfl) (by decide) (by decide) (by decide),
    fld_thermal _ _ _ _ (show F.THM_TEMP_TRIP_DIS.blk = .thm from rfl) (by decide) (by decide) (by decide),
    fld_thermal _ _ _ _ (show F.THM_TEMP_SUBSTITUTED.blk = .thm from rfl) (by decide) (by decide) (by decide)]
  exact ⟨h1, h2, h3, _, raised_settle (raised_thermal (raised_raise _ _ _) _ _)⟩

/-! ## A ceiling moves (17 R453) -/

theorem ceiling_answers {s : State} {i : Fin 20} {v : Nat} (hv : v < 2 ^ 5)
    (h : s.m.clearOut.ceilingStep i = s.m.clearOut.setFld F.THM_TEMP_CEILING v 0 i ∨
      (s.m.clearOut.ceilingStep i = s.m.clearOut ∧ s.m.fld F.THM_TEMP_CEILING 0 i = v)) :
    Answers (.throttleCeilingStep i) s (fun t => t.m.out = [] ∧ t.m.fld F.THM_TEMP_CEILING 0 i = v ∧
      OnlyRegs [F.THM_TEMP_CEILING.addr 0 i] s.m t.m) := by
  refine answers_run (exec_throttleCeilingStep i s) ?_
  rcases h with h | ⟨h, hsame⟩ <;> rw [h]
  · exact ⟨rfl, by rw [fld_settle, fld_setFld_fits _ _ _ _ (by decide) hv],
      onlyRegs_settle rfl rfl (fun a ha => reg_setFld_ne _ _ _ _ _ _ (by simpa using ha))⟩
  · exact ⟨rfl, (fld_settle _ _ _ _ _).trans hsame, onlyRegs_settle rfl rfl (fun _ _ => rfl)⟩

theorem ceilingStep_hot {m : Mod} {i : Nat} (hp : m.pwrgd = true) (hi : moduleSensors.contains i = false)
    (hhot : m.fld F.THM_TEMP_THROTTLE 0 i = 1) : m.ceilingStep i =
    if m.fld F.THM_CTL_FLOOR < m.fld F.THM_TEMP_CEILING 0 i then m.setFld F.THM_TEMP_CEILING (m.fld F.THM_TEMP_CEILING 0 i - 1) 0 i else m := by
  unfold Mod.ceilingStep Mod.setCeiling
  simp only [hp, hi, hhot]
  rfl

theorem ceilingStep_cool {m : Mod} {i : Nat} (hp : m.pwrgd = true) (hi : moduleSensors.contains i = false)
    (hcool : m.fld F.THM_TEMP_THROTTLE 0 i = 0) : m.ceilingStep i =
    m.setFld F.THM_TEMP_CEILING (min 16 (m.fld F.THM_TEMP_CEILING 0 i + 1)) 0 i := by
  unfold Mod.ceilingStep Mod.setCeiling
  simp only [hp, hi, hcool]
  rfl

/-! ## The coolant (17 R451, R455) -/

theorem fld_thermistor (m : Mod) (i : Nat) (r : BitVec 16) : (m.thermistor i r).fld F.THM_TEMP_READING 0 i = r.toNat := by
  unfold Mod.thermistor
  simp only
  split
  · rw [fld_raise_above _ _ _ _ _ _ rfl]
    rw [fld_drawBytes, fld_setFld_bitsApart _ _ _ _ _ _ (by decide), fld_setFld_fits _ _ _ _ (by decide) r.isLt]
  · rw [fld_setFld_bitsApart _ _ _ _ _ _ (by decide), fld_setFld_fits _ _ _ _ (by decide) r.isLt]

theorem regsAndEvents_thermistor {as : List Nat} {m n : Mod} (h : RegsAndEvents as m n) {i : Nat} (r : BitVec 16)
    (hi : F.THM_TEMP_READING.addr 0 i ∈ as) : RegsAndEvents as m (n.thermistor i r) := by
  have hset : ∀ {x : Mod}, RegsAndEvents as m x → ∀ f : Fld, f.addr 0 i = F.THM_TEMP_READING.addr 0 i → ∀ v, RegsAndEvents as m (x.setFld f v 0 i) :=
    fun hx f hf v => regsAndEvents_setFld hx f v 0 i 0 (by rw [hf]; exact List.mem_append_left _ hi)
  unfold Mod.thermistor
  simp only
  split
  · refine regsAndEvents_raise ?_ _ _
    exact regsAndEvents_drawBytes (hset (hset h F.THM_TEMP_READING rfl _) F.THM_TEMP_FAILED rfl _) 1
  · exact hset (hset h F.THM_TEMP_READING rfl _) F.THM_TEMP_FAILED rfl _

/-- The coolant's registers. -/
def coolantRegs : List Nat := [F.THM_TEMP_READING.addr 0 20, F.THM_TEMP_READING.addr 0 21]

/-- Both thermistors read. -/
def Mod.coolantRead (m : Mod) (inlet outlet : BitVec 16) : Mod :=
  (({ m with coolant := some (inlet.toInt, outlet.toInt) } : Mod).thermistor 20 inlet).thermistor 21 outlet

theorem regsAndEvents_coolantRead (m : Mod) (inlet outlet : BitVec 16) :
    RegsAndEvents coolantRegs { m with coolant := some (inlet.toInt, outlet.toInt) } (m.clearOut.coolantRead inlet outlet) := by
  have h : RegsAndEvents coolantRegs { m with coolant := some (inlet.toInt, outlet.toInt) }
      { m.clearOut with coolant := some (inlet.toInt, outlet.toInt) } := ⟨rfl, fun _ _ => rfl, fun _ _ => rfl⟩
  unfold Mod.coolantRead
  exact regsAndEvents_thermistor (regsAndEvents_thermistor h inlet (by decide)) outlet (by decide)

theorem coolant_coolantRead (m : Mod) (inlet outlet : BitVec 16) :
    (m.clearOut.coolantRead inlet outlet).coolant = some (inlet.toInt, outlet.toInt) ∧
    (m.clearOut.coolantRead inlet outlet).coolantBad = m.coolantBad := by
  obtain ⟨hrest, -, -⟩ := regsAndEvents_coolantRead m inlet outlet
  rw [hrest]
  exact ⟨rfl, rfl⟩

theorem fld_coolantRead (m : Mod) (inlet outlet : BitVec 16) :
    (m.coolantRead inlet outlet).fld F.THM_TEMP_READING 0 20 = inlet.toNat ∧
    (m.coolantRead inlet outlet).fld F.THM_TEMP_READING 0 21 = outlet.toNat := by
  refine ⟨?_, fld_thermistor _ _ _⟩
  have h : RegsAndEvents [F.THM_TEMP_READING.addr 0 21] _ (m.coolantRead inlet outlet) :=
    regsAndEvents_thermistor (regsAndEvents_refl _ _) outlet (by decide)
  obtain ⟨-, -, hregs⟩ := h
  rw [Mod.fld, hregs _ (by decide)]
  exact fld_thermistor _ 20 inlet

/-- The end of a coolant sample: the flag goes up with its record, or down, or stays. -/
def Mod.coolantJudged (n : Mod) (bad good : Bool) (data : List Byte) : Mod :=
  if !n.coolantBad && bad then ({ n with coolantBad := true } : Mod).raise 0x0D08 data
  else if n.coolantBad && good then { n with coolantBad := false } else n

theorem coolantSample_eq {m : Mod} (inlet outlet : BitVec 16) (hp : m.pwrgd = true) : m.coolantSample inlet outlet =
    (m.coolantRead inlet outlet).coolantJudged (decide (640 < inlet.toInt) || decide (1040 < outlet.toInt))
      (decide (inlet.toInt ≤ 608) && decide (outlet.toInt ≤ 1008)) (d2 inlet.toNat ++ d2 outlet.toNat) := by
  unfold Mod.coolantSample
  simp only
  rw [if_neg (by simp [hp]), ← Mod.coolantRead]
  unfold Mod.coolantJudged
  simp only [Bool.and_assoc]

theorem coolantBad_raise (m : Mod) (code : Nat) (data : List Byte) : (m.raise code data).coolantBad = m.coolantBad ∧
    (m.raise code data).coolant = m.coolant := by
  obtain ⟨hrest, -, -⟩ := regsAndEvents_raise (regsAndEvents_refl [] m) code data
  rw [hrest]
  exact ⟨rfl, rfl⟩

theorem coolantJudged_facts (n : Mod) (bad good : Bool) (data : List Byte) :
    (n.coolantJudged bad good data).coolant = n.coolant ∧
    (n.coolantJudged bad good data).coolantBad = (if n.coolantBad then !good else bad) ∧
    (n.coolantBad = false → bad = true → Raised (n.coolantJudged bad good data) 0x0D08 data) ∧
    RegsAndEvents [] { n with coolantBad := if n.coolantBad then !good else bad } (n.coolantJudged bad good data) := by
  have hsame : ∀ b, n.coolantBad = b → RegsAndEvents [] { n with coolantBad := b } n := fun b hb => by
    rw [← hb]
    exact regsAndEvents_refl _ _
  unfold Mod.coolantJudged
  cases hb : n.coolantBad
  case false =>
    cases bad
    case false => exact ⟨rfl, hb, fun _ h => absurd h (by decide), hsame _ hb⟩
    case true =>
      obtain ⟨hbad, hcool⟩ := coolantBad_raise { n with coolantBad := true } 0x0D08 data
      exact ⟨hcool, hbad, fun _ _ => raised_raise _ _ _, regsAndEvents_raise (regsAndEvents_refl _ _) _ _⟩
  case true =>
    cases good
    case false => exact ⟨rfl, hb, fun h => absurd h (by decide), hsame _ hb⟩
    case true => exact ⟨rfl, rfl, fun h => absurd h (by decide), regsAndEvents_refl _ _⟩

theorem coolantSample_answers {s : State} (inlet outlet : BitVec 16) (hp : s.m.pwrgd = true) :
    let bad := decide (640 < inlet.toInt) || decide (1040 < outlet.toInt)
    let good := decide (inlet.toInt ≤ 608) && decide (outlet.toInt ≤ 1008)
    Answers (.coolantSample inlet outlet) s (fun t => t.m.coolant = some (inlet.toInt, outlet.toInt) ∧
      t.m.coolantBad = (if s.m.coolantBad then !good else bad) ∧
      (s.m.coolantBad = false → bad = true → Raised t.m 0x0D08 (d2 inlet.toNat ++ d2 outlet.toNat)) ∧
      t.m.fld F.THM_TEMP_READING 0 20 = inlet.toNat ∧ t.m.fld F.THM_TEMP_READING 0 21 = outlet.toNat ∧
      RegsAndEvents coolantRegs { s.m with coolant := some (inlet.toInt, outlet.toInt), coolantBad := t.m.coolantBad } t.m) := by
  intro bad good
  refine answers_run (exec_coolantSample inlet outlet s) ?_
  rw [show s.m.clearOut.coolantSample inlet outlet = _ from coolantSample_eq inlet outlet hp]
  obtain ⟨hcool, hbad⟩ := coolant_coolantRead s.m inlet outlet
  obtain ⟨h20, h21⟩ := fld_coolantRead s.m.clearOut inlet outlet
  have hread := regsAndEvents_coolantRead s.m inlet outlet
  generalize s.m.clearOut.coolantRead inlet outlet = n at *
  obtain ⟨hc, hb, hraised, hframe⟩ := coolantJudged_facts n bad good (d2 inlet.toNat ++ d2 outlet.toNat)
  rw [hbad] at hb hraised hframe
  simp only [fld_settle]
  refine ⟨hc.trans hcool, hb, fun hs hbd => raised_settle (hraised hs hbd), ?_, ?_, regsAndEvents_settle ?_⟩
  · rw [fld_regsAndEvents hframe _ _ _ _ (addr_not_eventReg rfl _ _)]
    exact h20
  · rw [fld_regsAndEvents hframe _ _ _ _ (addr_not_eventReg rfl _ _)]
    exact h21
  · obtain ⟨h1, h2, h3⟩ := hread
    have hwith : ∀ b, RegsAndEvents coolantRegs { s.m with coolant := some (inlet.toInt, outlet.toInt), coolantBad := b }
        { n with coolantBad := b } := fun b => ⟨by rw [h1], h2, h3⟩
    show RegsAndEvents coolantRegs { s.m with coolant := _, coolantBad := (n.coolantJudged bad good _).coolantBad } _
    rw [hb]
    exact regsAndEvents_trans (hwith _) (regsAndEvents_mono hframe (by simp))

/-- Settles O58: each sample writes its reading, then WARN and THROTTLE follow their limits; a ceiling's step and the coolant's flag by cases
of what they were. -/
theorem temperaturesFollow : Obligations.TemperaturesFollow := by
  unfold Obligations.TemperaturesFollow
  intro s hp
  refine ⟨fun x hx _ => sensorSample_one_answers x hp hx, fun pre x i hi hlt h0 h17 hx hwas =>
    sensorSample_fails_answers pre x hp hi hlt h0 h17 hx hwas, fun i hi => ⟨fun hhot => ?_, fun hcool => ?_⟩,
    fun inlet outlet => coolantSample_answers inlet outlet hp⟩
  · have hlt : s.m.fld F.THM_TEMP_CEILING 0 i < 2 ^ 5 := fld_lt s.m F.THM_TEMP_CEILING 0 i 0
    refine ceiling_answers (v := if s.m.fld F.THM_CTL_FLOOR < s.m.fld F.THM_TEMP_CEILING 0 i then s.m.fld F.THM_TEMP_CEILING 0 i - 1
      else s.m.fld F.THM_TEMP_CEILING 0 i) (by split <;> omega) ?_
    have hstep : s.m.clearOut.ceilingStep i = if s.m.fld F.THM_CTL_FLOOR < s.m.fld F.THM_TEMP_CEILING 0 i then
        s.m.clearOut.setFld F.THM_TEMP_CEILING (s.m.fld F.THM_TEMP_CEILING 0 i - 1) 0 i else s.m.clearOut :=
      ceilingStep_hot hp hi hhot
    by_cases hfloor : s.m.fld F.THM_CTL_FLOOR < s.m.fld F.THM_TEMP_CEILING 0 i
    · exact .inl (by rw [hstep, if_pos hfloor, if_pos hfloor])
    · exact .inr ⟨by rw [hstep, if_neg hfloor], by rw [if_neg hfloor]⟩
  · exact ceiling_answers (by omega) (.inl (ceilingStep_cool hp hi hcool))

end Sys2Proof.Machine

/-! # Proofs: a die test whose loss of a sharer logs a correction (09 R271; 11 R315; 19 R474)

O59 speaks of every state in which nothing waits. As for O52 and O56 (see `strayLog`), a state whose correction log names an entry beyond the
sixteen is one of them: the test puts its die into Slate, the line that a core of the die shared is granted to its asker, and the symbol
corrected in reading it is logged over D2D_STATUS of the die's port. -/

namespace Sys2Proof.Machine

open Sys2Proof

-- The kernel evaluates states here. One after another, these evaluations stay within the check's memory; side by side they need not.
set_option Elab.async false

/-- Die 0 is not ACTIVE, and an application core waits for one of its tile cores to answer an invalidation. -/
def lineAtTestedDie : State := ⟨[], { strayLog 0 64 0 with active := 0 }⟩

/-- The state that the start of logic BIST on die 0 leaves. -/
def dieTested : State :=
  { lineAtTestedDie with m := (lineAtTestedDie.m.clearOut.byAgent .fabMgmt (F.DT_CMD_OP.addr 0 0) (fun m => m.dtCmd 0 1)).conclude.settle }

theorem exec_logicBistBoot_lineAtTestedDie : exec (.logicBistBoot .fabMgmt 0) lineAtTestedDie = .next dieTested := rfl

/-- The premises that O59 asks of a state before a die test. -/
theorem lineAtTestedDie_premises : lineAtTestedDie.m.quiet = true ∧ bit lineAtTestedDie.m.active 0 = false ∧
    lineAtTestedDie.m.state ≠ .parked := by decide +kernel

/-- The correction's entry has replaced the state Slate of die 0's port. -/
theorem dieTested_port : dieTested.m.fld F.D2D_STATUS_STATE 0 = 0 := by decide +kernel

/-- Refutes O59: its clause for the start of a die test says that the die's port is in Slate, but in `dieTested` the correction that the loss
of the die's cores set off was logged over D2D_STATUS of that port. -/
theorem not_testsRun : ¬ Obligations.TestsRun := by
  unfold Obligations.TestsRun
  rintro ⟨tests, -⟩
  obtain ⟨hquiet, hinactive, hstate⟩ := lineAtTestedDie_premises
  obtain ⟨hstart, -⟩ := tests .fabMgmt lineAtTestedDie hquiet rfl rfl
  obtain ⟨hgo, -⟩ := hstart (.logicBistBoot, 1) (by simp) 0
  obtain ⟨t, ht, -, -, -, -, -, hslate, -⟩ := hgo (by decide) hinactive rfl rfl hstate
  rw [exec_logicBistBoot_lineAtTestedDie, Host.Outcome.next.injEq] at ht
  subst ht
  exact absurd (dieTested_port.symm.trans hslate) (by decide)

end Sys2Proof.Machine

/-! # Proofs: a request for PARKED that logs a correction (09 R271; 11 R315; 17 R445)

O57 speaks of every state in which nothing waits. As for O52 and O56 (see `strayLog`), a state whose correction log names an entry beyond the
sixteen is one of them. The request writes RESULT; then the tile cores leave the directory, a line that one of them shared is granted to its
asker, and the symbol corrected in reading it is logged over PWR_STATE. -/

namespace Sys2Proof.Machine

open Sys2Proof

-- The kernel evaluates states here. One after another, these evaluations stay within the check's memory; side by side they need not.
set_option Elab.async false

/-- A running module as `strayLog` has it, but the line lies at 256 MiB of LP0, and the entry of MC_LOG lies over PWR_STATE. -/
def lineAtPark : State :=
  ⟨[], ({ pwrgd := true, state := .active, active := 0xFFFF, mem := { wrong := [(0x10000000, [0])] },
          mc := { logOrder := [(F.PWR_STATE_STATE.addr 0 0 - F.MC_LOG_CH.addr 0 0) / 8] } :: List.replicate 23 {},
          dir := [{ line := 0x10000000, proxy := false, owner := none, agents := [0], members := [],
                    busy := some { req := .rdX (.agent 64), await := [.agent 0], data := [], push := none } }] } : Mod).setFld F.MC_CTL_ENABLE 1⟩

/-- The state that the request for PARKED leaves. -/
def linePark : State :=
  { lineAtPark with m := (lineAtPark.m.clearOut.byAgent .fabMgmt (F.PWR_STATE_REQ.addr 0 0)
      (fun m => m.pwrReq 2 (classOf .fabMgmt))).conclude.settle }

theorem exec_parkedRequest_lineAtPark : exec (.parkedRequest .fabMgmt) lineAtPark = .next linePark := rfl

/-- The premises that O57 asks of a state before a request for PARKED that is taken. -/
theorem lineAtPark_premises : lineAtPark.m.quiet = true ∧ lineAtPark.m.state = .active ∧ lineAtPark.m.parkBusy = false := by decide +kernel

/-- The correction's entry has replaced the RESULT of the request: bits 9 to 16 of its row stand there. -/
theorem linePark_result : linePark.m.fld F.PWR_STATE_RESULT = 2 := by decide +kernel

/-- Refutes O57: its clause for a request for PARKED that is taken says that RESULT is ST_OK, but in `linePark` the correction that the tile
cores' leave set off was logged over that register. -/
theorem not_powerStates : ¬ Obligations.PowerStates := by
  unfold Obligations.PowerStates
  intro h
  obtain ⟨hquiet, hactive, hfree⟩ := lineAtPark_premises
  obtain ⟨hrequests, -⟩ := h .fabMgmt lineAtPark hquiet rfl
  obtain ⟨-, -, hparked, -⟩ := hrequests rfl
  obtain ⟨t, ht, -, -, hresult, -⟩ := hparked hactive hfree
  rw [exec_parkedRequest_lineAtPark, Host.Outcome.next.injEq] at ht
  subst ht
  exact absurd (linePark_result.symm.trans hresult) (by decide)

end Sys2Proof.Machine

/-! # Proofs: a bulk read whose line waits in the directory's retry queue (11 R298, R299; 15 R412)

O51 asks of a bulk transfer that the directory holds no entry, but not that no request waits for the transfer's line. Where one waits in the
retry queue, the transfer waits behind it, and the endpoint answers nothing in this command. -/

namespace Sys2Proof.Machine

open Sys2Proof

-- The kernel evaluates states here. One after another, these evaluations stay within the check's memory; side by side they need not.
set_option Elab.async false

/-- An authentic BULK_READ of 8 bytes under the empty key. -/
def bulkReadFrame : SvcFrame :=
  { mac := 0, auth := true, bootId := 0, seq := 1, arg := 8, payload := [], tag := svcTag [] (svcHeader 5 0 2 0 0 1 8) [] }

/-- The endpoint's bulk address is the first byte of ECD0's array, all zeros, and agent 1's read of that line waits in the retry queue. -/
def bulkWaits : State :=
  ⟨[], { ((({ } : Mod).setFld F.MGD_SVC_ENABLE 1).setFld F.MGD_STATUS_KEY_SET 1).setFld F.MGD_BULK_ADDR_ADDR (sramBase 0) with
         pwrgd := true, state := .active, link := true, mem := { fills := [(25000, .zero)] },
         retry := [(sramBase 0, .rdS (.agent 1))] }⟩

/-- The module with the request taken up (15 R411). -/
def bulkTaken : Mod := { bulkWaits.m.clearOut with topSeq := 2 }

/-- The module with the transfer's first unit asked for. -/
def bulkAsked : Mod := bulkTaken.bulkGo bulkFuel { op := 5, frame := bulkReadFrame }

theorem bulkWaits_premises : bulkWaits.m.quiet = true ∧ bulkWaits.m.fld F.MGD_SVC_ENABLE = 1 ∧
    bulkWaits.m.decodeAddr bulkWaits.m.bulkAddr = .here (sramBase 0 + 0) ∧ bulkWaits.m.portSlate 0 = false ∧
    bulkWaits.m.bankState 0 (bankOf 0 0) = 0 ∧ (∀ i < 8, bulkWaits.m.mem.parityBad (sramBase 0 + 0 + i) = false) := by decide +kernel

theorem bulkWaits_refusal : bulkWaits.m.refusal 5 bulkReadFrame = none :=
  Tests.refusal_none _ _ _ rfl (by decide +kernel) rfl (show (0 : Word) = _ by decide +kernel) (Nat.zero_le _)

/-- The endpoint takes the request up, and its first unit waits. -/
theorem svcStep_bulkWaits : ({ bulkWaits.m.clearOut with svcq := [(5, bulkReadFrame)] } : Mod).svcStep = bulkAsked := by
  have hnone : ({ bulkWaits.m.clearOut with svcq := [] } : Mod).refusal 5 bulkReadFrame = none := bulkWaits_refusal
  show ({ bulkWaits.m.clearOut with svcq := [] } : Mod).serve 5 bulkReadFrame = _
  unfold Mod.serve
  rw [if_neg (by decide), hnone]
  rfl

theorem bulkAsked_waits : bulkAsked.svcRun.isSome = true ∧ bulkAsked.svcReady = false ∧ bulkAsked.idle = true ∧ bulkAsked.memQuiet = true ∧
    bulkAsked.out = [] := by decide +kernel

/-- The module with the request in line. -/
def bulkArrived : Mod := { bulkWaits.m.clearOut with svcq := [(5, bulkReadFrame)] }

theorem bulkArrived_quiet : bulkArrived.idle = true ∧ bulkArrived.memQuiet = true ∧ bulkArrived.out.all Out.stays = true ∧
    bulkArrived.svcReady = true := by decide +kernel

theorem svcArrive_bulkWaits : bulkWaits.m.clearOut.svcArrive 5 bulkReadFrame = bulkArrived :=
  if_neg (by decide +kernel)

/-- The command ends with the transfer waiting for its line. -/
theorem conclude_bulkArrived : bulkArrived.conclude = bulkAsked := by
  obtain ⟨hidle, hmem, hout, hready⟩ := bulkArrived_quiet
  obtain ⟨-, hwaits, hidle', -, hout'⟩ := bulkAsked_waits
  have hfin : bulkAsked.finish = bulkAsked := finish_quiet _ hidle' (by rw [hout']; rfl)
  unfold Mod.conclude
  rw [memSettle_quiet _ hmem, coreSettle_quiet _ hmem, finish_quiet _ hidle hout, fabLoop_quiet _ _ hidle]
  show bulkArrived.svcLoop 4 = _
  rw [Mod.svcLoop, if_pos hready, show ({ bulkArrived with out := [] } : Mod).svcStep = bulkAsked from svcStep_bulkWaits, hfin]
  exact svcLoop_quiet bulkAsked 3 hwaits

theorem exec_bulkRead_bulkWaits : exec (.bulkRead bulkReadFrame) bulkWaits = .next { bulkWaits with m := bulkAsked.settle } := by
  rw [exec_bulkRead]
  show bulkWaits.runF _ = _
  rw [runF_next, svcArrive_bulkWaits, conclude_bulkArrived]

/-- Refutes O51: the clauses of the bulk transfers leave the retry queue open. Where a request for the transfer's line waits there, the
transfer waits behind it (11 R298), and the endpoint has answered nothing when the command ends. -/
theorem not_serviceAnswers : ¬ Obligations.ServiceAnswers := by
  unfold Obligations.ServiceAnswers
  intro h
  obtain ⟨hq, hen, haddr, hslate, hbank, hpar⟩ := bulkWaits_premises
  obtain ⟨-, -, -, -, -, -, -, -, hbulk, -⟩ :=
    h bulkReadFrame bulkWaits hq rfl rfl hen rfl (by decide +kernel)
  obtain ⟨hread, -⟩ := hbulk 0 0 8 haddr (by decide) (by decide) (by decide) rfl hslate rfl hbank hpar
  obtain ⟨t, ht, hreply, -⟩ := hread bulkWaits_refusal rfl
  rw [exec_bulkRead_bulkWaits, Host.Outcome.next.injEq] at ht
  subst ht
  exact absurd (bulkAsked_waits.2.2.2.2.symm.trans hreply) (by simp)

end Sys2Proof.Machine

/-! # Proofs: responses and notices whose receive buffers are kept (10 R288; 12 R336, R351)

O38 and O40 ask of a packet that its flits leave the receiver, in states whose requests may still wait at their sources: `Mod.quiet` leaves
those out (11 R298), and a packet whose source is one of theirs keeps its buffer, as a doorbell does in `keepingMember`. -/

namespace Sys2Proof.Machine

open Sys2Proof

-- The kernel evaluates states here. One after another, these evaluations stay within the check's memory; side by side they need not.
set_option Elab.async false

/-! ## A response -/

/-- The open request of context 0 that node 7 answers, number 21. -/
def openRequest : GrtEntry :=
  { idx := 21, src := .op 0 0 0, node := 7, port := some 1, ord := false, quarantined := false, waiting := none, held := false }

/-- Its response. -/
def openResponse : Packet := mkPacket 2 0x40 0 7 21 0 [] []

/-- The member with the write of node 7, number 21, at its source, and the open request. -/
def askingMember : State := { keepingMember with m := { keepingMember.m with fab := { keepingMember.m.fab with grt := [openRequest] } } }

/-- The state that the response leaves. -/
def answeredMember : State :=
  { askingMember with m := (askingMember.m.clearOut.arrive 1 openResponse (fun m => m.responseArrives 1 openResponse)).conclude.settle }

theorem exec_rsp_askingMember : exec (.rsp 1 openResponse) askingMember = .next answeredMember := rfl

theorem askingMember_quiet : askingMember.m.quiet = true ∧ openResponse.dst.val = askingMember.m.fld F.FAB_NODE_ID := by decide +kernel

theorem askingMember_takes : askingMember.m.takes 1 openResponse := by
  unfold Mod.takes
  decide +kernel

/-- The response's buffer is kept: the receiver takes its source for that of the write. -/
theorem answeredMember_kept : answeredMember.m.fab.kept = [(1, openResponse)] := by decide +kernel

/-- Refutes O38: a response that has the node, the number and the port of a write that waits at its source ends its request, but its receive
buffer is kept with the write's (10 R288). -/
theorem not_responsesEndRequests : ¬ Obligations.ResponsesEndRequests := by
  unfold Obligations.ResponsesEndRequests
  intro h
  obtain ⟨hquiet, hdst⟩ := askingMember_quiet
  obtain ⟨hresponse, -⟩ := h 1 openResponse openRequest 0 0 0 askingMember hquiet rfl rfl (Or.inl rfl)
  obtain ⟨hopen, -⟩ := hresponse askingMember_takes hdst rfl rfl
  obtain ⟨t, ht, -, hrest, -, -⟩ := hopen rfl
  rw [if_pos (show openResponse.ty = 0x40 from rfl), exec_rsp_askingMember, Host.Outcome.next.injEq] at ht
  subst ht
  have hkept : answeredMember.m.fab.kept = askingMember.m.fab.kept := congrArg (fun m => m.fab.kept) hrest
  rw [answeredMember_kept] at hkept
  exact absurd hkept (List.cons_ne_nil _ _)

/-! ## An event packet -/

/-- An event record of node 7 for this module, number 21. -/
def eventNotice : Packet := mkPacket 5 0x67 0 7 21 0 [] (List.replicate 32 0)

/-- The state that the event packet leaves. -/
def notifiedMember : State :=
  { keepingMember with m := (keepingMember.m.clearOut.arrive 1 eventNotice (fun m => m.eventArrives eventNotice.body)).conclude.settle }

theorem exec_eventPacket_keepingMember : exec (.eventPacket 1 eventNotice) keepingMember = .next notifiedMember := rfl

theorem keepingMember_takes_eventNotice : keepingMember.m.takes 1 eventNotice ∧ eventNotice.dst.val = keepingMember.m.fld F.FAB_NODE_ID := by
  unfold Mod.takes
  decide +kernel

/-- The notice's buffer is kept: the receiver takes its source for that of the write. -/
theorem notifiedMember_kept : notifiedMember.m.fab.kept = [(1, eventNotice)] := by decide +kernel

/-- Refutes O40: an event packet that has the node, the number and the port of a write that waits at its source is delivered, but its receive
buffer is kept with the write's (10 R288). -/
theorem not_membershipLosses : ¬ Obligations.MembershipLosses := by
  unfold Obligations.MembershipLosses
  intro h
  obtain ⟨htakes, hdst⟩ := keepingMember_takes_eventNotice
  obtain ⟨hnotices, -⟩ := h 1 1 eventNotice 7 keepingMember keepingMember_quiet.1 rfl rfl rfl rfl rfl
  obtain ⟨-, -, -, -, hevent⟩ := hnotices hdst rfl
  obtain ⟨t, ht, -, -, hrest, -, -⟩ := hevent htakes
  rw [exec_eventPacket_keepingMember, Host.Outcome.next.injEq] at ht
  subst ht
  have hkept : notifiedMember.m.fab.kept = keepingMember.m.fab.kept := congrArg (fun m => m.fab.kept) hrest
  rw [notifiedMember_kept] at hkept
  exact absurd hkept (List.cons_ne_nil _ _)

end Sys2Proof.Machine

/-! # Proofs: a lost clock and a partition reset that log a correction (09 R271; 14 R395; 16 R434)

O47 and O55 speak of every state in which nothing waits. As for O52, O56 and O59 (see `strayLog`), a state whose correction log names an entry
beyond the sixteen is one of them: the port enters Slate, the line that a core of the die shared is granted to its asker, and the symbol
corrected in reading it is logged over D2D_STATUS of the port. -/

namespace Sys2Proof.Machine

open Sys2Proof

-- The kernel evaluates states here. One after another, these evaluations stay within the check's memory; side by side they need not.
set_option Elab.async false

/-! ## The loss of the forwarded clock of port 0 (14 R395) -/

/-- An application core waits for a tile core of die 0, whose port is ACTIVE with one trained bundle. -/
def lineAtActivePort : State :=
  ⟨[], { (strayLog 0 64 0).setFld F.D2D_STATUS_STATE 2 0 with dports := [{ bundles := [{ trained := true }] }] }⟩

/-- The state that the loss of the clock leaves. -/
def clockLost : State := { lineAtActivePort with m := (lineAtActivePort.m.clearOut.clockLoss 0 1 false).conclude.settle }

theorem exec_lossOfForwardedClock_lineAtActivePort :
    exec (.lossOfForwardedClock 0 1 false) lineAtActivePort = .next clockLost := rfl

/-- The premises that O47 asks of a state before a port loses its clock. -/
theorem lineAtActivePort_premises : lineAtActivePort.m.quiet = true ∧ lineAtActivePort.m.fld F.D2D_STATUS_STATE 0 = 2 ∧
    (List.range (bundleCount 0)).filter (fun b => (lineAtActivePort.m.bundleOf 0 b).trained && lineAtActivePort.m.dirWidth 0 b true != 3) = [0] := by
  decide +kernel

/-- The correction's entry has replaced the state Slate of die 0's port. -/
theorem clockLost_port : clockLost.m.fld F.D2D_STATUS_STATE 0 = 0 := by decide +kernel

/-- Refutes O47: its clause for a lost clock on every live bundle says that the port is in Slate, but in `clockLost` the correction that the
loss of the die's cores set off was logged over D2D_STATUS of the port. -/
theorem not_dieLinksTrain : ¬ Obligations.DieLinksTrain := by
  unfold Obligations.DieLinksTrain
  intro h
  obtain ⟨hquiet, hactive, hlive⟩ := lineAtActivePort_premises
  obtain ⟨-, -, hclock⟩ := h .fabMgmt 0 1 0 lineAtActivePort hquiet rfl (by decide)
  obtain ⟨hslate, -⟩ := hclock false [0] hactive rfl hlive.symm
  obtain ⟨t, ht, hstate, -⟩ := hslate (List.cons_ne_nil _ _) rfl
  rw [exec_lossOfForwardedClock_lineAtActivePort, Host.Outcome.next.injEq] at ht
  subst ht
  exact absurd (clockLost_port.symm.trans hstate) (by decide)

/-! ## The reset of partition 0 (16 R434, R435) -/

/-- An application core waits for a tile core of die 1 to answer an invalidation; the dies are of one partition. -/
def lineAtPartition : State := ⟨[], { strayLog 0 64 4 with ctxs := List.replicate 4 {} }⟩

/-- The state that the start of the reset leaves. -/
def partitionDown : State := { lineAtPartition with m := (lineAtPartition.m.clearOut.resetRow .fabMgmt 4 noBoot []).conclude.settle }

theorem exec_partitionReset_lineAtPartition : exec (.partitionReset .fabMgmt 0) lineAtPartition = .next partitionDown := rfl

/-- The premises that O55 asks of a state before the reset of a partition. -/
theorem lineAtPartition_premises : lineAtPartition.m.quiet = true ∧ lineAtPartition.m.state ≠ .parked ∧ lineAtPartition.m.partition 0 ≠ [] ∧
    0 ∈ lineAtPartition.m.partition 0 := by decide +kernel

/-- Die 0 was in Slate when die 1 went down; the correction's entry has replaced that state of its port. -/
theorem partitionDown_port : partitionDown.m.fld F.D2D_STATUS_STATE 0 = 0 := by decide +kernel

/-- Refutes O55: its clause for the reset of a partition says that the port of each of its dies is in Slate, but in `partitionDown` the
correction that the loss of die 1's cores set off was logged over D2D_STATUS of port 0. -/
theorem not_unitResets : ¬ Obligations.UnitResets := by
  unfold Obligations.UnitResets
  intro h
  obtain ⟨hquiet, hstate, hdies, hdie⟩ := lineAtPartition_premises
  obtain ⟨hstart, -⟩ := h .fabMgmt 0 [] lineAtPartition hquiet rfl rfl
  obtain ⟨-, -, -, hpartition⟩ := hstart rfl hstate
  obtain ⟨t, ht, -, -, hdown⟩ := hpartition (by decide) hdies (by decide)
  rw [exec_partitionReset_lineAtPartition, Host.Outcome.next.injEq] at ht
  subst ht
  obtain ⟨hslate, -⟩ := hdown 0 hdie
  exact absurd (partitionDown_port.symm.trans hslate) (by decide)

end Sys2Proof.Machine

/-! # Proofs: a released interlock whose lost request lets a row begin (06 R191; 09 R271; 13 R359)

O45 speaks of every state in which nothing waits by `Mod.quiet`, which leaves out the rows of a SCATTER_ADD that stand in line behind the row
under way. The interlock takes the port down that the open request of the row under way took, the row ends, and the next one begins with a
read of its table; the symbol corrected in it is logged over LANE_TX_MASK of the dark port (see `strayLog` for a log entry beyond the
sixteen). -/

namespace Sys2Proof.Machine

open Sys2Proof

-- The kernel evaluates states here. One after another, these evaluations stay within the check's memory; side by side they need not.
set_option Elab.async false

/-- A row of four additions that node 7 asked for, to a table at an address of LP0. -/
def rowAt (addr : Nat) : AddRow := { src := .fabric 7 1 0, addr := addr, format := 0, count := 4, row := [] }

/-- Port 0 is ACTIVE and carries the open request of the row under way; the table of the next row has a wrong symbol; the next correction
takes the entry of MC_LOG that lies over LANE_TX_MASK of port 0. -/
def rowsInLine : State :=
  let m : Mod := {
    pwrgd := true, state := .active, lanes := List.replicate 10 {}, mem := { wrong := [(0x10000000, [0])] },
    mc := { logOrder := [(F.LANE_TX_MASK_LIT.addr 0 0 - F.MC_LOG_CH.addr 0 0) / 8] } :: List.replicate 23 {},
    fab := { grt := [{ idx := 0, src := .adder 0, node := 7, port := some 0, ord := false, quarantined := false, waiting := none, held := false }],
             adds := [rowAt 0x1000, rowAt 0x10000000] } }
  ⟨[], (m.setFld F.LANE_STATUS_STATE 6 0).setFld F.MC_CTL_ENABLE 1⟩

/-- The state that the release of LASER_EN_N leaves. -/
def lightsOff : State := { rowsInLine with m := rowsInLine.m.clearOut.laserOff.conclude.settle }

theorem exec_laserEnNDeassert_rowsInLine : exec .laserEnNDeassert rowsInLine = .next lightsOff := rfl

/-- The premises that O45 asks of a state before the release. -/
theorem rowsInLine_quiet : rowsInLine.m.quiet = true ∧ rowsInLine.m.svcRun = none := by decide +kernel

/-- The correction's entry stands in the mask of the lit lanes. -/
theorem lightsOff_lit : lightsOff.m.fld F.LANE_TX_MASK_LIT 0 ≠ 0 := by decide +kernel

/-- Refutes O45: its clause for the release of LASER_EN_N says that no lane of any port is lit, but in `lightsOff` the correction that the
next row's read set off was logged over that mask of port 0. -/
theorem not_portsLight : ¬ Obligations.PortsLight := by
  unfold Obligations.PortsLight
  rintro ⟨-, interlock⟩
  obtain ⟨hquiet, hsvc⟩ := rowsInLine_quiet
  obtain ⟨hrelease, -⟩ := interlock rowsInLine hquiet hsvc
  obtain ⟨t, ht, -, -, -, hdark, -⟩ := hrelease
  rw [exec_laserEnNDeassert_rowsInLine, Host.Outcome.next.injEq] at ht
  subst ht
  exact lightsOff_lit (hdark 0 (by decide)).2

end Sys2Proof.Machine

/-! # Facts about the optical ports and the fabric's registers that the proofs below share (12; 13) -/

namespace Sys2Proof.Machine

open Sys2Proof

/-! ## Addresses -/

/-- Registers of one block at different offsets. -/
theorem addr_ne_of_blk {f g : Fld} {i k k' : Nat} (hb : f.blk = g.blk) (h : f.off + k * f.stride ≠ g.off + k' * g.stride) :
    f.addr i k ≠ g.addr i k' := by
  unfold Fld.addr
  rw [hb]
  omega

/-- DIR_STATUS lies above the ports' registers. -/
theorem lane_ne_draining {f : Fld} (hb : f.blk = .lane) (p : Fin 10) {k : Nat} (h : f.off + k * f.stride < 0x10000) :
    F.DIR_STATUS_DRAINING.addr 0 0 ≠ f.addr p k := by
  have hp := p.isLt
  have haddr : F.DIR_STATUS_DRAINING.addr 0 0 = 0x700009000008 := rfl
  unfold Fld.addr at haddr ⊢
  rw [hb, haddr]
  simp only [Block.base]
  omega

/-- DIR_STATUS lies above the fabric's registers. -/
theorem fab_ne_draining {f : Fld} (hb : f.blk = .fab) (i : Nat) {k : Nat} (h : f.off + k * f.stride < 0x1000000) :
    F.DIR_STATUS_DRAINING.addr 0 0 ≠ f.addr i k := by
  have haddr : F.DIR_STATUS_DRAINING.addr 0 0 = 0x700009000008 := rfl
  unfold Fld.addr at haddr ⊢
  rw [hb, haddr]
  simp only [Block.base]
  omega

/-- The fabric's registers lie below the ports'. -/
theorem fab_ne_lane {f g : Fld} (hf : f.blk = .fab) (hg : g.blk = .lane) (i p : Nat) {k k' : Nat} (h : f.off + k * f.stride < 0x1000000) :
    f.addr i k ≠ g.addr p k' := by
  unfold Fld.addr
  rw [hf, hg]
  simp only [Block.base]
  omega

/-! ## Counters -/

theorem fld_addFld_self (m : Mod) (f : Fld) (n i k : Nat) (h : f.lo + f.w ≤ 64) : (m.addFld f n i k).fld f i k = (m.fld f i k + n) % 2 ^ f.w :=
  fld_setFld_self _ _ _ _ _ _ (by simpa using h)

/-! ## Steps of the ports and the fabric engine -/

/-- `n` differs from `m` in its outputs, in the listed registers, in the ports, which are `lanes`, and in the fabric engine, which is `fab`. -/
def PortStep (as : List Nat) (lanes : List Lane) (fab : Fab) (m n : Mod) : Prop :=
  n = { m with out := n.out, regs := n.regs, lanes := lanes, fab := fab } ∧ SameRegsBut as m n

section
variable {as : List Nat} {lanes : List Lane} {fab : Fab} {m n : Mod}

theorem portStep_refl (as : List Nat) (m : Mod) : PortStep as m.lanes m.fab m m := ⟨rfl, fun _ _ => rfl⟩

theorem portStep_setReg (h : PortStep as lanes fab m n) {a : Nat} (w : Word) (ha : a ∈ as) : PortStep as lanes fab m (n.setReg a w) := by
  obtain ⟨hn, hregs⟩ := h
  refine ⟨?_, fun b hb => (reg_setReg_ne n w (ne_of_mem_of_not_mem ha hb).symm).trans (hregs b hb)⟩
  rw [hn]
  rfl

theorem portStep_setFld (h : PortStep as lanes fab m n) (f : Fld) (v i k j : Nat) (ha : f.addr i k ∈ as) :
    PortStep as lanes fab m (n.setFld f v i k j) := portStep_setReg h _ ha

theorem portStep_addFld (h : PortStep as lanes fab m n) (f : Fld) (v i k : Nat) (ha : f.addr i k ∈ as) :
    PortStep as lanes fab m (n.addFld f v i k) := portStep_setFld h _ _ _ _ _ ha

theorem portStep_emit (h : PortStep as lanes fab m n) (o : Out) : PortStep as lanes fab m (n.emit o) := by
  obtain ⟨hn, hregs⟩ := h
  refine ⟨?_, hregs⟩
  rw [hn]
  rfl

theorem portStep_modLane (h : PortStep as lanes fab m n) (p : Nat) (g : Lane → Lane) :
    PortStep as (modNth lanes p g) fab m (n.modLane p g) := by
  obtain ⟨hn, hregs⟩ := h
  refine ⟨?_, hregs⟩
  rw [hn]
  rfl

theorem portStep_modFab (h : PortStep as lanes fab m n) (g : Fab → Fab) : PortStep as lanes (g fab) m (n.modFab g) := by
  obtain ⟨hn, hregs⟩ := h
  refine ⟨?_, hregs⟩
  rw [hn]
  rfl

theorem lanes_of_portStep (h : PortStep as lanes fab m n) : n.lanes = lanes := by rw [h.1]

theorem onlyRegs_of_portStep (h : PortStep as lanes fab m.clearOut n) : OnlyRegs as { m with lanes := lanes, fab := fab } n.settle := by
  obtain ⟨hn, hregs⟩ := h
  have hrest : SameRest { m with lanes := lanes, fab := fab } n := by
    rw [hn]
    rfl
  have hmem : n.mem = m.mem := by
    rw [hn]
    rfl
  exact onlyRegs_settle hrest hmem hregs

/-- No port queues a packet. -/
def noneQueued (lanes : List Lane) : Bool := lanes.all (fun l => l.txq.isEmpty)

/-- Nothing waits in the fabric engine. -/
def fabAtRest (f : Fab) : Bool :=
  f.calm && f.grt.all (fun e => e.waiting.isNone) && f.parked.isEmpty && f.stalled.isEmpty && !f.fullSeen

theorem noneQueued_of_quiet (h : m.quiet = true) : noneQueued m.lanes = true := by
  simp only [Mod.quiet, Mod.idle, Bool.and_eq_true] at h
  exact h.1.1.1.2

theorem fabAtRest_of_quiet (h : m.quiet = true) : fabAtRest m.fab = true := by
  simp only [Mod.quiet, Mod.idle, Mod.fabricQuiet, Bool.and_eq_true] at h
  simp only [fabAtRest, Bool.and_eq_true]
  exact h.1.1.1.1

theorem memQuiet_of_portStep (h : PortStep as lanes fab m n) (hd : F.DIR_STATUS_DRAINING.addr 0 0 ∉ as) : n.memQuiet = m.memQuiet := by
  obtain ⟨hn, hregs⟩ := h
  have hdrain : n.fld F.DIR_STATUS_DRAINING = m.fld F.DIR_STATUS_DRAINING := by simp only [Mod.fld, hregs _ hd]
  exact memQuiet_congr (by rw [hn]) (by rw [hn]) (by rw [hn]) (by rw [hn]) (by rw [hn]) hdrain

theorem svcReady_of_portStep (h : PortStep as lanes fab m n) : n.svcReady = m.svcReady :=
  svcReady_congr (by rw [h.1]) (by rw [h.1]) (by rw [h.1])

/-- Where nothing waits and the step leaves nothing to wait in the ports or the fabric engine, nothing waits after it. -/
theorem quiet_of_portStep (h : PortStep as lanes fab m n) (hq : m.quiet = true) (hd : F.DIR_STATUS_DRAINING.addr 0 0 ∉ as)
    (hl : noneQueued lanes = true) (hf : fabAtRest fab = true) : n.quiet = true := by
  have hmem := memQuiet_of_portStep h hd
  have hsvc := svcReady_of_portStep h
  have hcoll : n.collQuiet = m.collQuiet := by
    obtain ⟨hn, -⟩ := h
    unfold Mod.collQuiet
    rw [hn]
  have hfab : n.fabricQuiet = true := by
    unfold Mod.fabricQuiet
    rw [show n.fab = fab by rw [h.1]]
    exact hf
  simp only [Mod.quiet, Mod.idle, Bool.and_eq_true] at hq ⊢
  obtain ⟨⟨⟨⟨-, -⟩, hc⟩, hm⟩, hs⟩ := hq
  rw [lanes_of_portStep h, hcoll, hmem, hsvc]
  exact ⟨⟨⟨⟨hfab, hl⟩, hc⟩, hm⟩, hs⟩

end

theorem noneQueued_modNth {lanes : List Lane} (h : noneQueued lanes = true) (p : Nat) {g : Lane → Lane}
    (hg : ∀ l : Lane, l.txq = [] → (g l).txq = []) : noneQueued (modNth lanes p g) = true := by
  simp only [noneQueued, List.all_eq_true, List.isEmpty_iff] at h ⊢
  induction lanes generalizing p with
  | nil => simp [modNth]
  | cons l ls ih =>
    obtain ⟨hl, hls⟩ := List.forall_mem_cons.mp h
    cases p with
    | zero => exact List.forall_mem_cons.mpr ⟨hg l hl, hls⟩
    | succ p => exact List.forall_mem_cons.mpr ⟨hl, ih p hls⟩

/-- A port's queue is empty where nothing waits. -/
theorem txq_of_noneQueued {lanes : List Lane} (h : noneQueued lanes = true) (p : Nat) : (nth lanes p {}).txq = [] := by
  simp only [noneQueued, List.all_eq_true, List.isEmpty_iff] at h
  exact nth_of_forall (P := fun l : Lane => l.txq = []) h rfl p

/-- A command whose effect is a step of the ports that leaves nothing waiting answers that effect, settled. -/
theorem answers_portStep {c : Instr} {s : State} {f : Mod → Mod} {as : List Nat} {lanes : List Lane} {fab : Fab} {P : State → Prop}
    (h : exec c s = s.runF f) (hq : s.m.quiet = true) (hstep : PortStep as lanes fab s.m.clearOut (f s.m.clearOut))
    (hd : F.DIR_STATUS_DRAINING.addr 0 0 ∉ as) (hl : noneQueued lanes = true) (hf : fabAtRest fab = true)
    (ho : (f s.m.clearOut).out.all Out.stays = true) (hp : OnlyRegs as { s.m with lanes := lanes, fab := fab } (f s.m.clearOut).settle →
      P { s with m := (f s.m.clearOut).settle }) : Answers c s P :=
  answers_runF h (quiet_of_portStep hstep hq hd hl hf) ho (hp (onlyRegs_of_portStep hstep))

theorem laneState_clearOut (m : Mod) (p : Nat) : m.clearOut.laneState p = m.laneState p := rfl
theorem laneOf_clearOut (m : Mod) (p : Nat) : m.clearOut.laneOf p = m.laneOf p := rfl

end Sys2Proof.Machine

/-! # Proofs: a lost partner whose fence logs a correction (09 R271; 11 R315; 12 R350)

O44 speaks of every state in which nothing waits. As for O52 and O56 (see `strayLog`), a state whose correction log names an entry beyond the
sixteen is one of them. The loss of the last port to a partner sets its fence bit; then the partner leaves the directory, a line that it shared
is granted to its asker, and the symbol corrected in reading it is logged over the word of FAB_FENCE that holds the bit. -/

namespace Sys2Proof.Machine

open Sys2Proof

-- The kernel evaluates states here. One after another, these evaluations stay within the check's memory; side by side they need not.
set_option Elab.async false

/-- Port 0 is ACTIVE, its partner is node 7, and an application core waits for that node to answer an invalidation of the first line of LP0,
which has a wrong symbol; the next correction takes the entry of MC_LOG that lies over the first word of FAB_FENCE. -/
def lineAtPartner : State :=
  let m : Mod := {
    pwrgd := true, state := .active, lanes := List.replicate 10 {}, mem := { wrong := [(0, [0])] },
    mc := { logOrder := [(F.FAB_FENCE_FENCED.addr 0 0 - F.MC_LOG_CH.addr 0 0) / 8] } :: List.replicate 23 {},
    dir := [{ line := 0, proxy := false, owner := none, agents := [], members := [7],
              busy := some { req := .rdX (.agent 64), await := [.member 7], data := [], push := none } }] }
  let partner := (m.setFld F.FAB_PORT_PEER 7 0 0).setFld F.FAB_PORT_PEER_VALID 1 0 0
  ⟨[], (partner.setFld F.LANE_STATUS_STATE 6 0).setFld F.MC_CTL_ENABLE 1⟩

/-- The state that the loss of the partner leaves. -/
def partnerLost : State := { lineAtPartner with m := (lineAtPartner.m.clearOut.portDown 0 8 7).conclude.settle }

/-- The premises that O44 asks of a state before a port loses its last partner. -/
theorem lineAtPartner_premises : lineAtPartner.m.quiet = true ∧ lineAtPartner.m.fld F.LANE_STATUS_RX_ASLEEP 0 = 0 ∧
    lineAtPartner.m.laneState 0 = 6 ∧ lineAtPartner.m.fld F.FAB_ROLE_STATE ≠ 2 ∧
    ∀ r < 10, r ≠ 0 → lineAtPartner.m.fld F.FAB_PORT_PEER_VALID 0 r = 0 := by decide +kernel

/-- Without light and awake, the ACTIVE port goes down (13 R378). -/
theorem exec_heartbeatTimeout_lineAtPartner : exec (.heartbeatTimeout 0 false) lineAtPartner = .next partnerLost := by
  obtain ⟨-, hawake, hactive, -⟩ := lineAtPartner_premises
  have hasleep : ¬lineAtPartner.m.clearOut.fld F.LANE_STATUS_RX_ASLEEP 0 = 1 := by
    rw [fld_clearOut, hawake]
    decide
  have hstate : 2 ≤ lineAtPartner.m.clearOut.laneState 0 ∧ lineAtPartner.m.clearOut.laneState 0 ≤ 6 := by
    rw [laneState_clearOut, hactive]
    decide
  rw [exec_heartbeatTimeout]
  unfold execHeartbeatTimeout
  rw [runF_next]
  simp only [Fin.val_zero, if_neg hasleep, if_pos hstate, Bool.false_eq_true, if_false]
  rfl

/-- The correction's entry has replaced the partner's fence bit. -/
theorem partnerLost_fence : partnerLost.m.fenced (lineAtPartner.m.fld F.FAB_PORT_PEER 0 0) = false := by decide +kernel

/-- Refutes O44: its clause for the last port to a partner says that the partner is fenced, but in `partnerLost` the correction that its leave
of the directory set off was logged over its fence bit. -/
theorem not_portsRetrainAndFail : ¬ Obligations.PortsRetrainAndFail := by
  unfold Obligations.PortsRetrainAndFail
  intro h
  obtain ⟨hquiet, hawake, hactive, hrole, halone⟩ := lineAtPartner_premises
  obtain ⟨-, -, -, -, -, -, -, -, hlast, -⟩ := h .fabMgmt 0 lineAtPartner hquiet rfl (by decide) rfl
  obtain ⟨t, ht, -, -, -, hfence⟩ := hlast hawake hactive rfl hrole halone
  rw [exec_heartbeatTimeout_lineAtPartner, Host.Outcome.next.injEq] at ht
  subst ht
  exact absurd (partnerLost_fence.symm.trans hfence) (by decide)

end Sys2Proof.Machine

/-! # Proofs: ports that drain and sleep (12 R335; 13 R380, R381) -/

namespace Sys2Proof.Machine

open Sys2Proof

section
variable {port : Fin 10} {s : State}

/-! ## Sleep -/

/-- A command that sets a sleep bit of a port. -/
theorem answers_sleepBit {c : Instr} {f : Mod → Mod} (h : exec c s = s.runF f) (hq : s.m.quiet = true) (b : Fld) (v : Nat)
    (hb : b.addr port 0 = F.LANE_STATUS_STATE.addr port 0) (hw : b.lo + b.w ≤ 64) (hv : v < 2 ^ b.w) {os : List Out}
    (hos : os.all Out.stays = true) (hf : f s.m.clearOut = { s.m.clearOut.setFld b v port with out := os }) :
    Answers c s (fun t => t.m.out = os ∧ t.m.fld b port = v ∧ OnlyRegs [F.LANE_STATUS_STATE.addr port 0] s.m t.m) := by
  have hstep : PortStep [F.LANE_STATUS_STATE.addr port 0] s.m.lanes s.m.fab s.m.clearOut (f s.m.clearOut) := by
    rw [hf]
    obtain ⟨hn, hregs⟩ := portStep_setFld (portStep_refl [F.LANE_STATUS_STATE.addr port 0] s.m.clearOut) b v port 0 0 (by simp [hb])
    exact ⟨rfl, hregs⟩
  refine answers_portStep h hq hstep ?_ (noneQueued_of_quiet hq) (fabAtRest_of_quiet hq) (by rw [hf]; exact hos) (fun honly => ⟨?_, ?_, honly⟩)
  · exact List.mem_singleton.not.mpr (lane_ne_draining rfl port (by decide))
  · rw [hf]
    rfl
  · rw [fld_settle, hf]
    exact fld_setFld_fits s.m.clearOut b port 0 hw hv

/-! ## A write of FAB_PORTp -/

/-- The plain fields of FAB_PORTp as a write leaves them (12 R335). -/
def Mod.portFields (m : Mod) (p v : Nat) : Mod :=
  ((m.setFld F.FAB_PORT_ROUTE_EN (bits v 0 1) 0 p).setFld F.FAB_PORT_DIM (bits v 1 3) 0 p).setFld F.FAB_PORT_DATELINE (bits v 4 1) 0 p

theorem portWrite_drain {m : Mod} {p v : Nat} (hv : bit v 5 = true) (hd : m.fab.draining.contains p = false) :
    m.portWrite p v = (((m.portFields p v).modFab (fun f => { f with draining := f.draining ++ [p] })).modLane p
      (fun l => { l with barDue := l.barDue ++ [false] }), .ok) := by
  have hd' : (m.portFields p v).fab.draining.contains p = false := hd
  unfold Mod.portWrite
  rw [if_pos hv]
  exact if_neg (fun h => Bool.false_ne_true (hd'.symm.trans h))

theorem portWrite_drainEnd {m : Mod} {p v : Nat} (hv : bit v 5 = false) (h0 : bit v 0 = true) :
    m.portWrite p v = (((m.portFields p v).modFab (fun f => { f with draining := f.draining.filter (· != p) })).setFld
      F.FAB_PORT_DRAINED 0 0 p, .ok) := by
  unfold Mod.portWrite
  rw [if_neg (by simp [hv]), if_pos h0]
  rfl

/-- What the plain fields read after the write. -/
theorem fld_portFields (m : Mod) (p v : Nat) : (m.portFields p v).fld F.FAB_PORT_ROUTE_EN 0 p = bits v 0 1 ∧
    (m.portFields p v).fld F.FAB_PORT_DIM 0 p = bits v 1 3 ∧ (m.portFields p v).fld F.FAB_PORT_DATELINE 0 p = bits v 4 1 := by
  unfold Mod.portFields
  refine ⟨?_, ?_, ?_⟩
  · rw [fld_setFld_bitsApart _ _ _ _ _ _ (by decide), fld_setFld_bitsApart _ _ _ _ _ _ (by decide)]
    exact fld_setFld_fits _ F.FAB_PORT_ROUTE_EN 0 p (by decide) (bits_lt v 0 1)
  · rw [fld_setFld_bitsApart _ _ _ _ _ _ (by decide)]
    exact fld_setFld_fits _ F.FAB_PORT_DIM 0 p (by decide) (bits_lt v 1 3)
  · exact fld_setFld_fits _ F.FAB_PORT_DATELINE 0 p (by decide) (bits_lt v 4 1)

theorem portStep_portFields (m : Mod) (p v : Nat) : PortStep [F.FAB_PORT_ROUTE_EN.addr 0 p] m.lanes m.fab m (m.portFields p v) :=
  portStep_setFld (portStep_setFld (portStep_setFld (portStep_refl _ m) F.FAB_PORT_ROUTE_EN _ 0 p 0 (List.mem_singleton_self _)) F.FAB_PORT_DIM _ 0 p 0
    (List.mem_singleton_self _)) F.FAB_PORT_DATELINE _ 0 p 0 (List.mem_singleton_self _)

theorem bit_eq_testBit (v i : Nat) : bit v i = v.testBit i := by
  unfold bit bits Nat.testBit
  rw [Nat.one_and_eq_mod_two, Nat.pow_one]
  rcases Nat.mod_two_eq_zero_or_one (v >>> i) with h | h <;> rw [h] <;> rfl

/-- Fields below bit `n` are those of the low `n` bits. -/
theorem bits_congr_mod {v w n : Nat} (h : v % 2 ^ n = w % 2 ^ n) {lo k : Nat} (hk : lo + k ≤ n) : bits v lo k = bits w lo k := by
  rw [← bits_mod v lo k n hk, h, bits_mod w lo k n hk]

/-- The fields that DRAIN does not set come from the data as written. -/
theorem bits_drainData (v : Nat) : bits (v ||| 0x20) 0 1 = bits v 0 1 ∧ bits (v ||| 0x20) 1 3 = bits v 1 3 ∧
    bits (v ||| 0x20) 4 1 = bits v 4 1 ∧ bit (v ||| 0x20) 5 = true := by
  have hlow : (v ||| 0x20) % 2 ^ 5 = v % 2 ^ 5 := by
    rw [Nat.or_mod_two_pow, show 0x20 % 2 ^ 5 = 0 from rfl, Nat.or_zero]
  refine ⟨bits_congr_mod hlow (by decide), bits_congr_mod hlow (by decide), bits_congr_mod hlow (by decide), ?_⟩
  rw [bit_eq_testBit, Nat.testBit_or, show Nat.testBit 0x20 5 = true by decide, Bool.or_true]

/-- The fields that the end of a drain does not set come from the data as written. -/
theorem bits_drainEndData (v : Nat) : let w := putBits (v ||| 1) 5 1 0
    bits w 0 1 = 1 ∧ bits w 1 3 = bits v 1 3 ∧ bits w 4 1 = bits v 4 1 ∧ bit w 5 = false := by
  have hhigh : (v ||| 1) / 2 = v / 2 := by simp [← Nat.shiftRight_one, Nat.shiftRight_or_distrib]
  have hfield : ∀ lo k, bits (v ||| 1) (lo + 1) k = bits v (lo + 1) k := fun lo k => by
    rw [bits_eq_div, bits_eq_div, Nat.add_comm lo 1, Nat.pow_add, Nat.pow_one, ← Nat.div_div_eq_div_mul, ← Nat.div_div_eq_div_mul, hhigh]
  refine ⟨?_, ?_, ?_, ?_⟩
  · rw [bits_putBits_below _ _ _ _ _ _ (by decide), bits_eq_div, Nat.pow_zero, Nat.div_one]
    exact Nat.or_mod_two_eq_one.mpr (Or.inr rfl)
  · rw [bits_putBits_below _ _ _ _ _ _ (by decide)]
    exact hfield 0 3
  · rw [bits_putBits_below _ _ _ _ _ _ (by decide)]
    exact hfield 3 1
  · unfold bit
    rw [bits_putBits_self]
    rfl

theorem fabPort_ne_draining (p : Nat) (hp : p < 10) : F.DIR_STATUS_DRAINING.addr 0 0 ∉ [F.FAB_PORT_ROUTE_EN.addr 0 p] :=
  List.mem_singleton.not.mpr (fab_ne_draining rfl 0 (by show 0x100 + p * 8 < _; omega))

theorem answers_portDrain {ag : Agent} {data : Word} (hq : s.m.quiet = true) (hag : regAgent ag = true)
    (hd : s.m.fab.draining.contains port.val = false) :
    Answers (.portDrain ag port data) s (fun t => (t.m.out = [.done .ok []] ∧ t.m.fld F.FAB_PORT_ROUTE_EN 0 port = bits data.toNat 0 1 ∧
      t.m.fld F.FAB_PORT_DIM 0 port = bits data.toNat 1 3 ∧ t.m.fld F.FAB_PORT_DATELINE 0 port = bits data.toNat 4 1) ∧
      OnlyRegs [F.FAB_PORT_ROUTE_EN.addr 0 port] { s.m with
        fab := { s.m.fab with draining := s.m.fab.draining ++ [port.val] },
        lanes := modNth s.m.lanes port (fun l => { l with barDue := l.barDue ++ [false] }) } t.m) := by
  obtain ⟨hen, hdim, hdate, hdrain⟩ := bits_drainData data.toNat
  have hwrite := portWrite_drain (m := s.m.clearOut) hdrain hd
  obtain ⟨fen, fdim, fdate⟩ := fld_portFields s.m.clearOut port (data.toNat ||| 0x20)
  have hstep := portStep_emit (portStep_modLane (portStep_modFab (portStep_portFields s.m.clearOut port (data.toNat ||| 0x20))
    (fun f => { f with draining := f.draining ++ [port.val] })) port (fun l => { l with barDue := l.barDue ++ [false] })) (.done .ok [])
  refine answers_portStep (exec_portDrain ag port data s) hq (as := [F.FAB_PORT_ROUTE_EN.addr 0 port])
    (lanes := modNth s.m.lanes port (fun l => { l with barDue := l.barDue ++ [false] }))
    (fab := { s.m.fab with draining := s.m.fab.draining ++ [port.val] }) ?_ (fabPort_ne_draining port port.isLt)
    (noneQueued_modNth (noneQueued_of_quiet hq) _ (fun _ h => h)) (fabAtRest_of_quiet hq) ?_ (fun honly => ⟨⟨?_, ?_, ?_, ?_⟩, honly⟩)
  all_goals rw [byAgent_ok hag (by rw [hwrite]), hwrite]
  · exact hstep
  · rfl
  · rfl
  · exact ((fld_settle _ _ _ _ _).trans fen).trans hen
  · exact ((fld_settle _ _ _ _ _).trans fdim).trans hdim
  · exact ((fld_settle _ _ _ _ _).trans fdate).trans hdate

theorem answers_drainEnd {ag : Agent} {data : Word} (hq : s.m.quiet = true) (hag : regAgent ag = true) :
    Answers (.drainEnd ag port data) s (fun t => (t.m.out = [.done .ok []] ∧ t.m.fld F.FAB_PORT_ROUTE_EN 0 port = 1 ∧
      t.m.fld F.FAB_PORT_DIM 0 port = bits data.toNat 1 3 ∧ t.m.fld F.FAB_PORT_DATELINE 0 port = bits data.toNat 4 1) ∧
      t.m.fld F.FAB_PORT_DRAINED 0 port = 0 ∧ OnlyRegs [F.FAB_PORT_ROUTE_EN.addr 0 port] { s.m with
        fab := { s.m.fab with draining := s.m.fab.draining.filter (· != port.val) } } t.m) := by
  obtain ⟨hen, hdim, hdate, hdrain⟩ := bits_drainEndData data.toNat
  have hwrite := portWrite_drainEnd (m := s.m.clearOut) (p := port) hdrain (beq_iff_eq.mpr hen)
  obtain ⟨fen, fdim, fdate⟩ := fld_portFields s.m.clearOut port (putBits (data.toNat ||| 1) 5 1 0)
  have hstep := portStep_emit (portStep_setFld (portStep_modFab (portStep_portFields s.m.clearOut port (putBits (data.toNat ||| 1) 5 1 0))
    (fun f => { f with draining := f.draining.filter (· != port.val) })) F.FAB_PORT_DRAINED 0 0 port 0 (List.mem_singleton_self _)) (.done .ok [])
  refine answers_portStep (exec_drainEnd ag port data s) hq (as := [F.FAB_PORT_ROUTE_EN.addr 0 port])
    (lanes := s.m.lanes) (fab := { s.m.fab with draining := s.m.fab.draining.filter (· != port.val) }) ?_ (fabPort_ne_draining port port.isLt)
    (noneQueued_of_quiet hq) (fabAtRest_of_quiet hq) ?_ (fun honly => ⟨⟨?_, ?_, ?_, ?_⟩, ?_, honly⟩)
  all_goals rw [byAgent_ok hag (by rw [hwrite]), hwrite]
  · exact hstep
  · rfl
  · rfl
  · exact ((fld_settle _ _ _ _ _).trans (fld_setFld_bitsApart _ _ _ _ _ _ (by decide))).trans (fen.trans hen)
  · exact ((fld_settle _ _ _ _ _).trans (fld_setFld_bitsApart _ _ _ _ _ _ (by decide))).trans (fdim.trans hdim)
  · exact ((fld_settle _ _ _ _ _).trans (fld_setFld_bitsApart _ _ _ _ _ _ (by decide))).trans (fdate.trans hdate)
  · exact (fld_settle _ _ _ _ _).trans (fld_setFld_fits _ F.FAB_PORT_DRAINED 0 port (by decide) (by decide))

end

/-! ## The obligation -/

theorem txSleep_of_idle {m : Mod} {p : Nat} (h6 : m.laneState p = 6) (hawake : m.fld F.LANE_STATUS_TX_ASLEEP p = 0)
    (hl : (m.laneOf p).txq = [] ∧ (m.laneOf p).replay = [] ∧ (m.laneOf p).ackDue = false ∧ (m.laneOf p).nakDue = false ∧ (m.laneOf p).crdDue = []) :
    m.txSleep p = (m.setFld F.LANE_STATUS_TX_ASLEEP 1 p).emit (.control p .slp) := by
  obtain ⟨htxq, hreplay, hack, hnak, hcrd⟩ := hl
  simp [Mod.txSleep, h6, hawake, htxq, hreplay, hack, hnak, hcrd]

/-- Settles O42: the drain's clauses are writes of FAB_PORTp, the others set or clear one sleep bit of the port. -/
theorem portsSleepAndDrain : Obligations.PortsSleepAndDrain := by
  unfold Obligations.PortsSleepAndDrain
  intro ag port data s hq hag hport l fp status written
  have htxq : l.txq = [] := txq_of_noneQueued (noneQueued_of_quiet hq) port
  refine ⟨answers_portDrain hq hag, answers_drainEnd hq hag, fun hauto h6 hawake hreplay hack hnak hcrd => ?sleep, ?wake, ?wakeBy, fun h6 => ?slp, ?receiver⟩
  case sleep =>
    refine answers_sleepBit (exec_txSleepEntry port s) hq F.LANE_STATUS_TX_ASLEEP 1 rfl (by decide) (by decide) rfl ?_
    exact (if_pos hauto).trans (txSleep_of_idle (m := s.m.clearOut) h6 hawake ⟨htxq, hreplay, hack, hnak, hcrd⟩)
  case wake => exact answers_sleepBit (exec_txWake port none s) hq F.LANE_STATUS_TX_ASLEEP 0 rfl (by decide) (by decide) rfl rfl
  case wakeBy => exact answers_sleepBit (exec_txWake port (some ag) s) hq F.LANE_STATUS_TX_ASLEEP 0 rfl (by decide) (by decide) rfl (byAgent_ok hag rfl)
  case slp => exact answers_sleepBit (exec_slp port s) hq F.LANE_STATUS_RX_ASLEEP 1 rfl (by decide) (by decide) rfl (if_pos h6)
  case receiver => exact answers_sleepBit (exec_receiverWake port s) hq F.LANE_STATUS_RX_ASLEEP 0 rfl (by decide) (by decide) rfl rfl

end Sys2Proof.Machine

/-! # Proofs: flits and control sequences of an ACTIVE port (13 R365-R369, R378, R379; 12 R335) -/

namespace Sys2Proof.Machine

open Sys2Proof

/-! ## One port changes -/

theorem laneOf_modLane {m : Mod} {p : Nat} (g : Lane → Lane) (hp : p < m.lanes.length) : (m.modLane p g).laneOf p = g (m.laneOf p) :=
  nth_modNth_self m.lanes p g {} hp

/-- A change that leaves the port's lane as it is. -/
theorem modLane_fixed {m : Mod} {p : Nat} {g : Lane → Lane} (h : g (m.laneOf p) = m.laneOf p) : m.modLane p g = m := by
  have hl : modNth m.lanes p g = m.lanes := (modNth_congr {} (g := id) h).trans (modNth_id _ _)
  unfold Mod.modLane
  rw [hl]

/-- The registers of a port that its flits and control sequences change: its status and some of its counts. -/
def flitRegs (port : Nat) (is : List Nat) : List Nat := F.LANE_STATUS_STATE.addr port 0 :: is.map (F.LANE_COUNT_COUNT.addr port)

theorem draining_not_flitReg (port : Fin 10) {is : List Nat} (h : ∀ i ∈ is, i < 8) : F.DIR_STATUS_DRAINING.addr 0 0 ∉ flitRegs port is := by
  unfold flitRegs
  rw [List.mem_cons, List.mem_map, not_or]
  refine ⟨lane_ne_draining rfl port (by decide), ?_⟩
  rintro ⟨i, hi, he⟩
  exact lane_ne_draining rfl port (by have := h i hi; show 0x40 + i * 8 < _; omega) he.symm

theorem status_mem_flitRegs (port : Nat) (is : List Nat) : F.LANE_STATUS_RETRY.addr port 0 ∈ flitRegs port is := List.mem_cons_self ..
theorem count_mem_flitRegs {port i : Nat} {is : List Nat} (h : i ∈ is) : F.LANE_COUNT_COUNT.addr port i ∈ flitRegs port is :=
  List.mem_cons_of_mem _ (List.mem_map_of_mem h)

/-! ## Counts and RETRY -/

theorem fld_count_addFld_ne (m : Mod) (n p : Nat) {i j : Nat} (h : i ≠ j) :
    (m.addFld F.LANE_COUNT_COUNT n p i).fld F.LANE_COUNT_COUNT p j = m.fld F.LANE_COUNT_COUNT p j :=
  fld_setFld_addr _ _ _ _ _ _ _ _ _ _ (addr_ne_of_blk rfl (by show 0x40 + j * 8 ≠ 0x40 + i * 8; omega))

theorem fld_retry_addFld (m : Mod) (n p i : Nat) : (m.addFld F.LANE_COUNT_COUNT n p i).fld F.LANE_STATUS_RETRY p = m.fld F.LANE_STATUS_RETRY p :=
  fld_setFld_addr _ _ _ _ _ _ _ _ _ _ (addr_ne_of_blk rfl (by show 0x8 + 0 * 0 ≠ 0x40 + i * 8; omega))

theorem fld_count_syncRetry (m : Mod) (p i : Nat) : (m.syncRetry p).fld F.LANE_COUNT_COUNT p i = m.fld F.LANE_COUNT_COUNT p i :=
  fld_setFld_addr _ _ _ _ _ _ _ _ _ _ (addr_ne_of_blk rfl (by show 0x40 + i * 8 ≠ 0x8 + 0 * 0; omega))

theorem fld_retry_syncRetry (m : Mod) (p : Nat) :
    (m.syncRetry p).fld F.LANE_STATUS_RETRY p = b2n ((m.laneOf p).retryRx.isSome || (m.laneOf p).retryTx.isSome) :=
  fld_setFld_fits m F.LANE_STATUS_RETRY p 0 (by decide) (b2n_lt _)

theorem laneOf_addFld (m : Mod) (f : Fld) (n i k p : Nat) : (m.addFld f n i k).laneOf p = m.laneOf p := rfl
theorem laneOf_syncRetry (m : Mod) (p q : Nat) : (m.syncRetry p).laneOf q = m.laneOf q := rfl

theorem portStep_syncRetry {as : List Nat} {lanes : List Lane} {fab : Fab} {m n : Mod} (h : PortStep as lanes fab m n) {p : Nat}
    (ha : F.LANE_STATUS_RETRY.addr p 0 ∈ as) : PortStep as lanes fab m (n.syncRetry p) := portStep_setFld h _ _ _ _ _ ha

/-! ## Flits -/

/-- The lane that has accepted the flit with credit index `x` (13 R365, R366). -/
def Lane.accepting (x : Nat) (l : Lane) : Lane :=
  { l with expect := (l.expect + 1) % 4096, accepted := l.accepted + 1, ackDue := true, discard := false, naksSent := 0, retryRx := none,
           held := modNth l.held x (· + 1) }

/-- The shared pool is untouched while no index holds more than its own 64 flits (13 R369). -/
theorem shared_eq_zero {held : List Nat} (h : held.all (· ≤ 64) = true) : (held.map (fun x => x - 64)).foldl (· + ·) 0 = 0 := by
  have hall : ∀ x ∈ held, x ≤ 64 := by simpa using h
  have hzero : held.map (fun x => x - 64) = List.replicate held.length 0 :=
    List.eq_replicate_iff.mpr ⟨List.length_map _, fun x hx => by
      obtain ⟨y, hy, rfl⟩ := List.mem_map.mp hx
      exact Nat.sub_eq_zero_of_le (hall y hy)⟩
  rw [hzero]
  induction held.length with
  | zero => rfl
  | succ n ih => exact ih

/-- What follows the count of an accepted flit: the checks of flits, and what they free (13 R369; 12 Table 12.7). -/
def Mod.flitChecked (m : Mod) (p : Nat) (f : Flit) : Mod :=
  let x := f.vc.val * 2 + b2n f.sub
  let v := m.flitViolation p f
  let head := decide (f.kind.val ≤ 1)
  let l := m.laneOf p
  let gone := if v = some 3 then 1 + nth l.part x 0 else if !head && l.skipVc.contains f.vc.val then 1 else 0
  let m := m.modLane p (fun l => { l.freed x gone with
    part := if v = some 3 ∨ f.kind.val = 3 then modNth l.part x (fun _ => 0)
      else if f.kind.val = 1 then modNth l.part x (fun _ => 1)
      else if f.kind.val = 2 ∧ gone = 0 then modNth l.part x (· + 1) else l.part,
    openVc := if v = some 3 then l.openVc.filter (· != f.vc.val)
      else if f.kind.val = 1 then l.openVc ++ [f.vc.val] else if f.kind.val = 3 then l.openVc.filter (· != f.vc.val) else l.openVc,
    skipVc := if v = some 3 then l.skipVc ++ [f.vc.val] else if head then l.skipVc.filter (· != f.vc.val) else l.skipVc })
  match v with
  | some c => (m.violation c p f.src.val f.ty.toNat).retrain p 3
  | none => m

theorem acceptFlit_eq (m : Mod) (p : Nat) (f : Flit) : m.acceptFlit p f =
    (((m.modLane p (Lane.accepting (f.vc.val * 2 + b2n f.sub))).syncRetry p).addFld F.LANE_COUNT_COUNT 1 p 1).flitChecked p f := rfl

/-- The checks find nothing in a packet of one flit, where no packet is open and the receiver has room. -/
theorem flitChecked_single {m : Mod} {p : Nat} {f : Flit} (hkind : f.kind.val = 0) (hopen : (m.laneOf p).openVc = [])
    (hskip : (m.laneOf p).skipVc = []) (hroom : (m.laneOf p).held.all (· ≤ 64) = true) : m.flitChecked p f = m := by
  have hpast := shared_eq_zero hroom
  have hviol : m.flitViolation p f = none := by simp [Mod.flitViolation, hkind, hopen, hpast]
  unfold Mod.flitChecked
  simp only [hviol, hkind]
  refine modLane_fixed ?_
  have hfilter : (m.laneOf p).skipVc.filter (· != f.vc.val) = (m.laneOf p).skipVc := by
    rw [hskip]
    rfl
  simp [hfilter, Lane.freed]

theorem flit_accepted {m : Mod} {p : Nat} {f : Flit} (h6 : m.laneState p = 6) (hp : p < m.lanes.length) (hcrc : f.crcGood = true)
    (hviol : f.violations = 0) (hnum : f.num.val = (m.laneOf p).expect) (hdiscard : (m.laneOf p).discard = false) (hkind : f.kind.val = 0)
    (hopen : (m.laneOf p).openVc = []) (hskip : (m.laneOf p).skipVc = [])
    (hroom : (modNth (m.laneOf p).held (f.vc.val * 2 + b2n f.sub) (· + 1)).all (· ≤ 64) = true) :
    m.flit p f = (((m.addFld F.LANE_COUNT_COUNT f.violations p 6).modLane p (Lane.accepting (f.vc.val * 2 + b2n f.sub))).syncRetry p).addFld
      F.LANE_COUNT_COUNT 1 p 1 := by
  have hlane : ((((m.addFld F.LANE_COUNT_COUNT f.violations p 6).modLane p (Lane.accepting (f.vc.val * 2 + b2n f.sub))).syncRetry p).addFld
      F.LANE_COUNT_COUNT 1 p 1).laneOf p = (m.laneOf p).accepting (f.vc.val * 2 + b2n f.sub) := by
    rw [laneOf_addFld, laneOf_syncRetry, laneOf_modLane _ (by exact hp), laneOf_addFld]
  have hcheck := flitChecked_single (p := p) (f := f) hkind (by rw [hlane]; exact hopen) (by rw [hlane]; exact hskip) (by rw [hlane]; exact hroom)
  unfold Mod.flit
  rw [if_neg (not_not.mpr h6)]
  refine (if_neg (fun h => Bool.false_ne_true (hdiscard.symm.trans h.1))).trans ((if_pos ⟨hcrc, hviol, hnum⟩).trans ?_)
  rw [acceptFlit_eq, hcheck]

/-! ## NAK -/

/-- The lane that answers with NAK (13 R367). -/
def Lane.nakking (l : Lane) : Lane := { l with nakDue := true, discard := true, retryRx := some l.expect, naksSent := l.naksSent + 1 }

/-- Before the eighth in a row a NAK does not retrain. -/
theorem sendNak_few {m : Mod} {p : Nat} (hp : p < m.lanes.length) (h : (m.laneOf p).naksSent < 7) :
    m.sendNak p = ((m.modLane p Lane.nakking).addFld F.LANE_COUNT_COUNT 1 p 3).syncRetry p := by
  have hlane : (((m.modLane p Lane.nakking).addFld F.LANE_COUNT_COUNT 1 p 3).syncRetry p).laneOf p = (m.laneOf p).nakking := by
    rw [laneOf_syncRetry, laneOf_addFld, laneOf_modLane _ hp]
  refine if_neg (?_ : ¬8 ≤ ((((m.modLane p Lane.nakking).addFld F.LANE_COUNT_COUNT 1 p 3).syncRetry p).laneOf p).naksSent)
  rw [hlane]
  show ¬8 ≤ (m.laneOf p).naksSent + 1
  omega

theorem flit_bad {m : Mod} {p : Nat} {f : Flit} (h6 : m.laneState p = 6) (hcrc : f.crcGood = false) (hdiscard : (m.laneOf p).discard = false) :
    m.flit p f = ((m.addFld F.LANE_COUNT_COUNT f.violations p 6).addFld F.LANE_COUNT_COUNT 1 p 2).sendNak p := by
  unfold Mod.flit
  rw [if_neg (not_not.mpr h6)]
  exact (if_neg (fun h => Bool.false_ne_true (hdiscard.symm.trans h.1))).trans (if_neg (fun h => Bool.false_ne_true (hcrc.symm.trans h.1)))

/-! ## Answers of an ACTIVE port -/

/-- A command that changes one port's lane to `l'`, its status and counts. -/
theorem answers_flitStep {port : Fin 10} {s : State} {c : Instr} {f : Mod → Mod} {n : Mod} {P : State → Prop} {g : Lane → Lane} (is : List Nat)
    (l' : Lane) (h : exec c s = s.runF f) (hq : s.m.quiet = true) (hf : f s.m.clearOut = n)
    (hstep : PortStep (flitRegs port is) (modNth s.m.lanes port g) s.m.fab s.m.clearOut n) (his : ∀ i ∈ is, i < 8)
    (hg : g (s.m.laneOf port) = l') (htxq : l'.txq = (s.m.laneOf port).txq) (ho : n.out.all Out.stays = true)
    (hp : OnlyRegs (flitRegs port is) { s.m with lanes := modNth s.m.lanes port (fun _ => l') } n.settle → P { s with m := n.settle }) :
    Answers c s P := by
  have hlanes : modNth s.m.lanes port g = modNth s.m.lanes port (fun _ => l') := modNth_congr {} hg
  have hnone := noneQueued_of_quiet hq
  rw [hlanes] at hstep
  refine answers_portStep h hq (by rw [hf]; exact hstep) (draining_not_flitReg port his)
    (noneQueued_modNth hnone port fun _ _ => htxq.trans (txq_of_noneQueued hnone port)) (fabAtRest_of_quiet hq) (by rw [hf]; exact ho) ?_
  rw [hf]
  exact hp

section
variable {port : Fin 10} {s : State}

theorem answers_flitAccepted (hq : s.m.quiet = true) (h6 : s.m.laneState port = 6) (hp : port.val < s.m.lanes.length) {f : Flit}
    (hcrc : f.crcGood = true) (hviol : f.violations = 0) (hnum : f.num.val = (s.m.laneOf port).expect) (hkind : f.kind.val = 0)
    (hdiscard : (s.m.laneOf port).discard = false) (hopen : (s.m.laneOf port).openVc = []) (hskip : (s.m.laneOf port).skipVc = [])
    (hroom : (modNth (s.m.laneOf port).held (f.vc.val * 2 + b2n f.sub) (· + 1)).all (· ≤ 64) = true) :
    Answers (.flitReceived port f) s (fun t => t.m.out = [] ∧
      t.m.fld F.LANE_COUNT_COUNT port 1 = (s.m.fld F.LANE_COUNT_COUNT port 1 + 1) % 2 ^ 64 ∧
      t.m.fld F.LANE_STATUS_RETRY port = b2n (s.m.laneOf port).retryTx.isSome ∧
      OnlyRegs (flitRegs port [1, 6])
        { s.m with lanes := modNth s.m.lanes port (fun _ => (s.m.laneOf port).accepting (f.vc.val * 2 + b2n f.sub)) } t.m) := by
  have hflit := flit_accepted (m := s.m.clearOut) h6 hp hcrc hviol hnum hdiscard hkind hopen hskip hroom
  refine answers_flitStep [1, 6] _ (exec_flitReceived port f s) hq hflit
    (portStep_addFld (portStep_syncRetry (portStep_modLane (portStep_addFld (portStep_refl _ _) _ _ _ _ (count_mem_flitRegs (by decide))) _ _)
      (status_mem_flitRegs _ _)) _ _ _ _ (count_mem_flitRegs (by decide))) (by decide) rfl rfl rfl (fun honly => ⟨rfl, ?_, ?_, honly⟩)
  · rw [fld_settle, fld_addFld_self _ _ _ _ _ (by decide), fld_count_syncRetry, fld_modLane, fld_count_addFld_ne _ _ _ (by decide), fld_clearOut]
    rfl
  · rw [fld_settle, fld_retry_addFld, fld_retry_syncRetry, laneOf_modLane _ (by exact hp), laneOf_addFld, laneOf_clearOut]
    rfl

/-- What a NAK leaves besides its cause's own counts, `m` being the module with those counted. -/
theorem answers_nak (hq : s.m.quiet = true) (hp : port.val < s.m.lanes.length) (hfew : (s.m.laneOf port).naksSent < 7) {c : Instr} {f : Mod → Mod}
    {m : Mod} {is : List Nat} (h : exec c s = s.runF f) (hf : f s.m.clearOut = m.sendNak port)
    (hm : PortStep (flitRegs port is) s.m.lanes s.m.fab s.m.clearOut m) (hout : m.out = []) (his : ∀ i ∈ is, i < 8) (h3 : 3 ∈ is)
    (h3m : m.fld F.LANE_COUNT_COUNT port 3 = s.m.fld F.LANE_COUNT_COUNT port 3) {Q : State → Prop}
    (hQ : (∀ i, i ≠ 3 → (m.sendNak port).fld F.LANE_COUNT_COUNT port i = m.fld F.LANE_COUNT_COUNT port i) →
      Q { s with m := (m.sendNak port).settle }) :
    Answers c s (fun t => t.m.out = [] ∧ t.m.fld F.LANE_COUNT_COUNT port 3 = (s.m.fld F.LANE_COUNT_COUNT port 3 + 1) % 2 ^ 64 ∧
      t.m.fld F.LANE_STATUS_RETRY port = b2n true ∧
      OnlyRegs (flitRegs port is) { s.m with lanes := modNth s.m.lanes port (fun _ => (s.m.laneOf port).nakking) } t.m ∧ Q t) := by
  have hlanes : m.lanes = s.m.lanes := lanes_of_portStep hm
  have hlane : m.laneOf port = s.m.laneOf port := by
    unfold Mod.laneOf
    rw [hlanes]
  have hpm : port.val < m.lanes.length := by rw [hlanes]; exact hp
  have hsend := sendNak_few hpm (by rw [hlane]; exact hfew)
  have hother : ∀ i, i ≠ 3 → (m.sendNak port).fld F.LANE_COUNT_COUNT port i = m.fld F.LANE_COUNT_COUNT port i := fun i hi => by
    rw [hsend, fld_count_syncRetry, fld_count_addFld_ne _ _ _ (Ne.symm hi), fld_modLane]
  have hstep := portStep_syncRetry (portStep_addFld (portStep_modLane hm port Lane.nakking) F.LANE_COUNT_COUNT 1 port 3
    (count_mem_flitRegs h3)) (status_mem_flitRegs port is)
  rw [← hsend] at hstep
  have hsout : (m.sendNak port).out = [] := by
    rw [hsend]
    exact hout
  refine answers_flitStep is _ h hq hf hstep his rfl rfl (by rw [hsout]; rfl) (fun honly => ⟨hsout, ?_, ?_, honly, hQ hother⟩)
  · rw [fld_settle, hsend, fld_count_syncRetry, fld_addFld_self _ _ _ _ _ (by decide), fld_modLane, h3m]
    rfl
  · rw [fld_settle, hsend, fld_retry_syncRetry, laneOf_addFld, laneOf_modLane _ hpm]
    rfl

/-! ### ACK and NAK from the partner -/

/-- The flits before the one numbered `n` in the replay buffer. -/
theorem takeWhile_before {a b : List (Nat × Nat)} {n x : Nat} (ha : ∀ e ∈ a, e.1 ≠ n) :
    (a ++ (n, x) :: b).takeWhile (fun e => e.1 != n) = a := by
  rw [List.takeWhile_append_of_pos (fun e he => bne_iff_ne.mpr (ha e he)), List.takeWhile_cons_of_neg (by simp), List.append_nil]

theorem dropWhile_before {a b : List (Nat × Nat)} {n x : Nat} (ha : ∀ e ∈ a, e.1 ≠ n) :
    (a ++ (n, x) :: b).dropWhile (fun e => e.1 != n) = (n, x) :: b := by
  rw [List.dropWhile_append_of_pos (fun e he => bne_iff_ne.mpr (ha e he)), List.dropWhile_cons_of_neg (by simp)]

/-- The lane whose first `k` flits are acknowledged (13 R366). -/
def Lane.acknowledged (k : Nat) (l : Lane) : Lane :=
  { l with replay := l.replay.drop k, acked := (l.acked + k) % 8192, naksReceived := 0,
           retryTx := l.retryTx.filter (fun r => (l.replay.drop k).any (fun f => f.1 == r) || r == l.txNext) }

theorem ackIn_of_replay {m : Mod} {p n x : Nat} {a b : List (Nat × Nat)} (h6 : m.laneState p = 6) (hreplay : (m.laneOf p).replay = a ++ (n, x) :: b)
    (ha : ∀ e ∈ a, e.1 ≠ n) : m.ackIn p n (bit ((m.laneOf p).acked + a.length + 1) 12) = (m.modLane p (Lane.acknowledged (a.length + 1))).syncRetry p := by
  have hk : ((m.laneOf p).replay.takeWhile (fun f => f.1 != n)).length = a.length := by rw [hreplay, takeWhile_before ha]
  have hany : (m.laneOf p).replay.any (fun f => f.1 == n) = true := by simp [hreplay]
  unfold Mod.ackIn
  rw [if_neg (not_not.mpr h6)]
  simp only [hk]
  exact if_pos ⟨hany, rfl⟩

theorem answers_ack (hq : s.m.quiet = true) (h6 : s.m.laneState port = 6) (hp : port.val < s.m.lanes.length) {n : Fin 4096} {x : Nat}
    {a b : List (Nat × Nat)} (hreplay : (s.m.laneOf port).replay = a ++ (n.val, x) :: b) (ha : ∀ e ∈ a, e.1 ≠ n.val)
    (hretry : (s.m.laneOf port).retryTx = none) :
    Answers (.ack port n (bit ((s.m.laneOf port).acked + a.length + 1) 12)) s (fun t => t.m.out = [] ∧
      t.m.fld F.LANE_STATUS_RETRY port = b2n (s.m.laneOf port).retryRx.isSome ∧
      OnlyRegs (flitRegs port []) { s.m with lanes := modNth s.m.lanes port (fun _ => { s.m.laneOf port with
        replay := b, acked := ((s.m.laneOf port).acked + a.length + 1) % 8192, naksReceived := 0 }) } t.m) := by
  have hlane : Lane.acknowledged (a.length + 1) (s.m.laneOf port) = { s.m.laneOf port with
      replay := b, acked := ((s.m.laneOf port).acked + a.length + 1) % 8192, naksReceived := 0 } := by
    have hdrop : (s.m.laneOf port).replay.drop (a.length + 1) = b := by rw [hreplay]; simp
    simp [Lane.acknowledged, hdrop, hretry, Nat.add_assoc]
  refine answers_flitStep [] _ (exec_ack port n _ s) hq (ackIn_of_replay (m := s.m.clearOut) h6 hreplay ha)
    (portStep_syncRetry (portStep_modLane (portStep_refl _ _) _ _) (status_mem_flitRegs _ _)) (by simp) hlane rfl rfl
    (fun honly => ⟨rfl, ?_, honly⟩)
  rw [fld_settle, fld_retry_syncRetry, laneOf_modLane _ (by exact hp), laneOf_clearOut, hlane, hretry]
  exact congrArg b2n (Bool.or_false _)

/-- The lane that resends from flit `n` (13 R367). -/
def Lane.resending (n : Nat) (l : Lane) : Lane := { l with retryTx := some n, naksReceived := l.naksReceived + 1 }

theorem nakIn_of_replay {m : Mod} {p n x : Nat} {a b : List (Nat × Nat)} (h6 : m.laneState p = 6) (hp : p < m.lanes.length)
    (hreplay : (m.laneOf p).replay = a ++ (n, x) :: b) (ha : ∀ e ∈ a, e.1 ≠ n) (hfew : (m.laneOf p).naksReceived < 7) :
    m.nakIn p n = (((m.modLane p (Lane.resending n)).addFld F.LANE_COUNT_COUNT 1 p 4).addFld F.LANE_COUNT_COUNT (b.length + 1) p 0).syncRetry p := by
  have hagain : (m.laneOf p).replay.dropWhile (fun f => f.1 != n) = (n, x) :: b := by rw [hreplay, dropWhile_before ha]
  unfold Mod.nakIn
  rw [if_neg (not_not.mpr h6)]
  simp only [hagain]
  refine (if_neg (by simp)).trans (if_neg ?_)
  simp only [laneOf_syncRetry, laneOf_addFld]
  rw [laneOf_modLane _ hp]
  simp only [not_le]
  omega

theorem answers_nakIn (hq : s.m.quiet = true) (h6 : s.m.laneState port = 6) (hp : port.val < s.m.lanes.length) {n : Fin 4096} {x : Nat}
    {a b : List (Nat × Nat)} (hreplay : (s.m.laneOf port).replay = a ++ (n.val, x) :: b) (ha : ∀ e ∈ a, e.1 ≠ n.val)
    (hfew : (s.m.laneOf port).naksReceived < 7) :
    Answers (.nak port n) s (fun t => t.m.out = [] ∧ t.m.fld F.LANE_COUNT_COUNT port 4 = (s.m.fld F.LANE_COUNT_COUNT port 4 + 1) % 2 ^ 64 ∧
      t.m.fld F.LANE_COUNT_COUNT port 0 = (s.m.fld F.LANE_COUNT_COUNT port 0 + (b.length + 1)) % 2 ^ 64 ∧
      t.m.fld F.LANE_STATUS_RETRY port = b2n true ∧ OnlyRegs (flitRegs port [0, 4])
        { s.m with lanes := modNth s.m.lanes port (fun _ => (s.m.laneOf port).resending n) } t.m) := by
  refine answers_flitStep [0, 4] _ (exec_nak port n s) hq (nakIn_of_replay (m := s.m.clearOut) h6 hp hreplay ha hfew)
    (portStep_syncRetry (portStep_addFld (portStep_addFld (portStep_modLane (portStep_refl _ _) _ _) _ _ _ _ (count_mem_flitRegs (by decide)))
      _ _ _ _ (count_mem_flitRegs (by decide))) (status_mem_flitRegs _ _)) (by decide) rfl rfl rfl (fun honly => ⟨rfl, ?_, ?_, ?_, honly⟩)
  · rw [fld_settle, fld_count_syncRetry, fld_count_addFld_ne _ _ _ (by decide), fld_addFld_self _ _ _ _ _ (by decide), fld_modLane, fld_clearOut]
    rfl
  · rw [fld_settle, fld_count_syncRetry, fld_addFld_self _ _ _ _ _ (by decide), fld_count_addFld_ne _ _ _ (by decide), fld_modLane, fld_clearOut]
    rfl
  · rw [fld_settle, fld_retry_syncRetry, laneOf_addFld, laneOf_addFld, laneOf_modLane _ (by exact hp)]
    exact congrArg b2n (Bool.or_true _)

/-! ### Control sequences that change the lane alone -/

/-- A command that only changes one port's lane. -/
theorem answers_modLane {c : Instr} {f : Mod → Mod} (g : Lane → Lane) (l' : Lane) (h : exec c s = s.runF f) (hq : s.m.quiet = true)
    (hf : f s.m.clearOut = s.m.clearOut.modLane port g) (hg : g (s.m.laneOf port) = l') (htxq : l'.txq = (s.m.laneOf port).txq) :
    Answers c s (fun t => t.m.out = [] ∧ OnlyRegs [] { s.m with lanes := modNth s.m.lanes port (fun _ => l') } t.m) := by
  have hlanes : modNth s.m.lanes port g = modNth s.m.lanes port (fun _ => l') := modNth_congr {} hg
  have hnone := noneQueued_of_quiet hq
  have hstep := portStep_modLane (portStep_refl [] s.m.clearOut) port g
  rw [← hf, show modNth s.m.clearOut.lanes port g = _ from hlanes] at hstep
  refine answers_portStep h hq hstep List.not_mem_nil (noneQueued_modNth hnone port fun _ _ => htxq.trans (txq_of_noneQueued hnone port))
    (fabAtRest_of_quiet hq) (by rw [hf]; rfl) (fun honly => ⟨?_, honly⟩)
  rw [hf]
  rfl

theorem answers_crd (hq : s.m.quiet = true) (h6 : s.m.laneState port = 6) (vc : Fin 8) (sub : Bool) (total : Fin 4096) (hvc : vc.val ≤ 5) :
    Answers (.crd port vc sub total) s (fun t => t.m.out = [] ∧ OnlyRegs [] { s.m with lanes := modNth s.m.lanes port (fun _ =>
      { s.m.laneOf port with
        used := modNth (s.m.laneOf port).used (vc.val * 2 + b2n sub)
          (fun u => u - (total.val + 4096 - nth (s.m.laneOf port).txTotal (vc.val * 2 + b2n sub) 0) % 4096),
        txTotal := modNth (s.m.laneOf port).txTotal (vc.val * 2 + b2n sub) (fun _ => total.val) }) } t.m) :=
  answers_modLane (fun l => { l with
    used := modNth l.used (vc.val * 2 + b2n sub) (fun u => u - (total.val + 4096 - nth l.txTotal (vc.val * 2 + b2n sub) 0) % 4096),
    txTotal := modNth l.txTotal (vc.val * 2 + b2n sub) (fun _ => total.val) }) _ (exec_crd port vc sub total s) hq
    ((if_pos hvc).trans (if_neg (not_not.mpr h6))) rfl rfl

/-- An effect that changes nothing. -/
theorem answers_nothing {c : Instr} {f : Mod → Mod} (h : exec c s = s.runF f) (hq : s.m.quiet = true) (hf : f s.m.clearOut = s.m.clearOut) :
    Answers c s (fun t => t.m.out = [] ∧ OnlyRegs [] s.m t.m) := by
  have hstep := portStep_refl [] s.m.clearOut
  refine answers_portStep h hq (by rw [hf]; exact hstep) List.not_mem_nil (noneQueued_of_quiet hq) (fabAtRest_of_quiet hq) (by rw [hf]; rfl)
    (fun honly => ⟨?_, honly⟩)
  rw [hf]
  rfl

theorem answers_bar_request (hq : s.m.quiet = true) (h6 : s.m.laneState port = 6) {l' : Lane}
    (hl : (if (s.m.laneOf port).held.all (· == 0) then { s.m.laneOf port with barDue := (s.m.laneOf port).barDue ++ [true] }
      else { s.m.laneOf port with barWait := some (s.m.laneOf port).held }) = l') :
    Answers (.bar port false) s (fun t => t.m.out = [] ∧ OnlyRegs [] { s.m with lanes := modNth s.m.lanes port (fun _ => l') } t.m) := by
  refine answers_modLane (fun l => if l.held.all (· == 0) then { l with barDue := l.barDue ++ [true] } else { l with barWait := some l.held }) l'
    (exec_bar port false s) hq (if_neg (not_not.mpr h6)) hl ?_
  rw [← hl]
  split <;> rfl

theorem answers_bar_answer (hq : s.m.quiet = true) (h6 : s.m.laneState port = 6) (hd : s.m.fab.draining.contains port.val = true) :
    Answers (.bar port true) s (fun t => t.m.out = [] ∧ t.m.fld F.FAB_PORT_DRAINED 0 port = 1 ∧
      OnlyRegs [F.FAB_PORT_DRAINED.addr 0 port] s.m t.m) := by
  have hf : s.m.clearOut.barIn port true = s.m.clearOut.setFld F.FAB_PORT_DRAINED 1 0 port := (if_neg (not_not.mpr h6)).trans (if_pos hd)
  have hport := port.isLt
  refine answers_portStep (exec_bar port true s) hq (lanes := s.m.lanes) (fab := s.m.fab) ?_
    (List.mem_singleton.not.mpr (fab_ne_draining rfl 0 (by show 0x100 + port.val * 8 < _; omega))) (noneQueued_of_quiet hq)
    (fabAtRest_of_quiet hq) (by rw [hf]; rfl) (fun honly => ⟨?_, ?_, honly⟩)
  · rw [hf]
    exact portStep_setFld (portStep_refl _ s.m.clearOut) _ _ _ _ _ (List.mem_singleton_self _)
  · rw [hf]
    rfl
  · rw [fld_settle, hf]
    exact fld_setFld_fits s.m.clearOut F.FAB_PORT_DRAINED 0 port (by decide) (by decide)

/-! ### The segment's block -/

/-- The control sequences that the block of a segment carries (13 R379), while no credit counts are repeated. -/
def Lane.dueControls (l : Lane) (node : Nat) : List Ctrl :=
  (if l.nakDue then [Ctrl.nak l.expect] else []) ++ (if l.ackDue then [Ctrl.ack ((l.expect + 4095) % 4096) (bit l.accepted 12)] else []) ++
    (if l.hbtDue then [Ctrl.hbt node] else []) ++ l.barDue.map Ctrl.bar ++ l.crdDue.map (fun x => Ctrl.crd (x / 2) (x % 2 == 1) (nth l.total x 0))

/-- The lane after its block has carried what was due. -/
def Lane.blockSent (l : Lane) : Lane :=
  { l with nakDue := false, ackDue := false, hbtDue := false, barDue := [], crdDue := [], blocks := (l.blocks + 1) % 16 }

/-- Control sequences leave through a port, one after another. -/
def Mod.controls (m : Mod) (p : Nat) (cs : List Ctrl) : Mod := cs.foldl (fun m c => m.emit (.control p c)) m

theorem controls_eq (m : Mod) (p : Nat) (cs : List Ctrl) : m.controls p cs = { m with out := m.out ++ cs.map (Out.control p) } := by
  unfold Mod.controls
  induction cs generalizing m with
  | nil => simp
  | cons c cs ih =>
    rw [List.foldl_cons, ih, List.map_cons, List.append_cons]
    rfl

theorem segment_of_awake {m : Mod} {p : Nat} (h6 : m.laneState p = 6) (hawake : m.fld F.LANE_STATUS_TX_ASLEEP p = 0)
    (hblocks : (m.laneOf p).blocks ≠ 15) :
    m.segment p = (m.modLane p Lane.blockSent).controls p ((m.laneOf p).dueControls (m.fld F.FAB_NODE_ID)) := by
  unfold Mod.segment
  rw [if_neg (by rw [hawake]; simp [h6])]
  simp only [if_neg hblocks]
  rfl

theorem answers_segmentBlock (hq : s.m.quiet = true) (h6 : s.m.laneState port = 6) (hawake : s.m.fld F.LANE_STATUS_TX_ASLEEP port = 0)
    (hblocks : (s.m.laneOf port).blocks ≠ 15) :
    Answers (.segmentBlock port) s (fun t => t.m.out = ((s.m.laneOf port).dueControls (s.m.fld F.FAB_NODE_ID)).map (Out.control port) ∧
      OnlyRegs [] { s.m with lanes := modNth s.m.lanes port (fun _ => (s.m.laneOf port).blockSent) } t.m) := by
  have hf := segment_of_awake (m := s.m.clearOut) h6 hawake hblocks
  rw [controls_eq] at hf
  have hlanes : modNth s.m.lanes port Lane.blockSent = modNth s.m.lanes port (fun _ => (s.m.laneOf port).blockSent) := modNth_congr {} rfl
  have hnone := noneQueued_of_quiet hq
  refine answers_portStep (exec_segmentBlock port s) hq (as := []) (lanes := modNth s.m.lanes port (fun _ => (s.m.laneOf port).blockSent))
    (fab := s.m.fab) ?_ List.not_mem_nil (noneQueued_modNth hnone port fun _ _ => txq_of_noneQueued hnone port) (fabAtRest_of_quiet hq) ?_
    (fun honly => ⟨?_, honly⟩)
  · rw [hf, ← hlanes]
    exact ⟨rfl, fun _ _ => rfl⟩
  · rw [hf]
    simp [Out.stays]
  · rw [hf]
    rfl

end

/-- Settles O41: each flit or control sequence changes the lane of its port, that port's status and its counts. -/
theorem flitsMove : Obligations.FlitsMove := by
  unfold Obligations.FlitsMove
  intro port s hq h6 hp l lanes count counts retry nak
  refine ⟨fun f hcrc hviol hnum hkind hdiscard hopen hskip hroom => answers_flitAccepted hq h6 hp hcrc hviol hnum hkind hdiscard hopen hskip hroom,
    fun f hcrc hdiscard hfew => ?bad, fun hdiscard hfew => ?resend,
    fun n x a b hreplay ha hretry => ⟨answers_ack hq h6 hp hreplay ha hretry, fun hfew => answers_nakIn hq h6 hp hreplay ha hfew⟩,
    fun vc sub total => ⟨answers_crd hq h6 vc sub total, fun hvc => answers_nothing (exec_crd port vc sub total s) hq (if_neg (by omega))⟩,
    fun node => answers_modLane _ _ (exec_hbt port node s) hq (if_pos h6) rfl rfl,
    fun hawake => answers_modLane _ _ (exec_heartbeatSend port s) hq (if_pos ⟨h6, hawake⟩) rfl rfl,
    fun hheld => answers_bar_request hq h6 (if_pos hheld), fun hheld => answers_bar_request hq h6 (if_neg (by rw [hheld]; exact Bool.false_ne_true)),
    answers_bar_answer hq h6, answers_segmentBlock hq h6⟩
  case bad =>
    refine answers_nak hq hp hfew (exec_flitReceived port f s) (flit_bad (m := s.m.clearOut) h6 hcrc hdiscard)
      (portStep_addFld (portStep_addFld (portStep_refl _ _) _ _ _ _ (count_mem_flitRegs (by decide))) _ _ _ _ (count_mem_flitRegs (by decide)))
      rfl (by decide) (by decide) ?_ (fun hother => ⟨?_, ?_⟩)
    · rw [fld_count_addFld_ne _ _ _ (by decide), fld_count_addFld_ne _ _ _ (by decide), fld_clearOut]
    · show (Mod.settle _).fld _ _ _ = _
      rw [fld_settle, hother 2 (by decide), fld_addFld_self _ _ _ _ _ (by decide), fld_count_addFld_ne _ _ _ (by decide), fld_clearOut]
      rfl
    · show (Mod.settle _).fld _ _ _ = _
      rw [fld_settle, hother 6 (by decide), fld_count_addFld_ne _ _ _ (by decide), fld_addFld_self _ _ _ _ _ (by decide), fld_clearOut]
      rfl
  case resend =>
    exact answers_nak hq hp hfew (exec_nakResendTimeout port s) (if_pos ⟨h6, hdiscard⟩) (portStep_refl _ _) rfl (by decide) (by decide) rfl
      (fun _ => trivial)

end Sys2Proof.Machine

/-! # Proofs: the training of a port (13 R371-R376, Tables 13.5-13.7) -/

namespace Sys2Proof.Machine

open Sys2Proof

/-! ## Registers of a port -/

theorem laneReg_lt {f : Fld} (hb : f.blk = .lane) (p : Fin 10) {k : Nat} (h : f.off + k * f.stride < 0x10000) :
    f.addr p k < 0x700007000000 := by
  have hp := p.isLt
  unfold Fld.addr
  rw [hb]
  simp only [Block.base]
  omega

theorem fabReg_lt {f : Fld} (hb : f.blk = .fab) (i : Nat) {k : Nat} (h : f.off + k * f.stride < 0x1000000) :
    f.addr i k < 0x700007000000 := by
  unfold Fld.addr
  rw [hb]
  simp only [Block.base]
  omega

/-- DIR_STATUS is none of the registers of the ports and of the fabric. -/
theorem draining_not_mem {as : List Nat} (h : ∀ a ∈ as, a < 0x700007000000) : F.DIR_STATUS_DRAINING.addr 0 0 ∉ as := fun hmem => by
  have := h _ hmem
  exact absurd this (by decide)

/-- Registers of one port at different offsets. -/
theorem fld_setFld_offset (m : Mod) (f g : Fld) (v p k j k' j' : Nat) (hb : f.blk = g.blk) (h : g.off + k' * g.stride ≠ f.off + k * f.stride) :
    (m.setFld f v p k j).fld g p k' j' = m.fld g p k' j' :=
  fld_setFld_addr _ _ _ _ _ _ _ _ _ _ (addr_ne_of_blk hb.symm h)

/-- The module with these outputs. -/
def Mod.saying (m : Mod) (os : List Out) : Mod := { m with out := os }

theorem fld_saying (m : Mod) (os : List Out) (f : Fld) (i k j : Nat) : (m.saying os).fld f i k j = m.fld f i k j := rfl

/-! ## What a lane mask and a capability record depend on -/

theorem usableLanes_congr {m n : Mod} {p : Nat} (hl : (n.laneOf p).excluded = (m.laneOf p).excluded)
    (he : n.fld F.LANE_EXCLUDE_LANES p = m.fld F.LANE_EXCLUDE_LANES p) : n.usableLanes p = m.usableLanes p := by
  unfold Mod.usableLanes
  rw [hl, he]

theorem capRecord_congr {m n : Mod} {p rx : Nat} {b : Bool} (hnode : n.fld F.FAB_NODE_ID = m.fld F.FAB_NODE_ID)
    (hretrain : n.fld F.LANE_STATUS_RETRAINING p = m.fld F.LANE_STATUS_RETRAINING p)
    (hlit : n.fld F.LANE_TX_MASK_LIT p = m.fld F.LANE_TX_MASK_LIT p) (hexpect : (n.laneOf p).expect = (m.laneOf p).expect)
    (hversion : n.runVersion = m.runVersion) : n.capRecord p rx b = m.capRecord p rx b := by
  unfold Mod.capRecord Mod.node
  rw [hnode, hretrain, hlit, hexpect, hversion]

/-! ## Stages -/

theorem nextStage_enough {m : Mod} {p next : Nat} (h : 8 ≤ popCount 32 (m.usableLanes p)) (hn : next ≠ 5) :
    m.nextStage p next = m.setFld F.LANE_STATUS_STATE next p := by
  unfold Mod.nextStage
  rw [if_neg (by omega)]
  exact if_neg hn

theorem nextStage_exchange {m : Mod} {p : Nat} (h : 8 ≤ popCount 32 (m.usableLanes p)) :
    m.nextStage p 5 = (m.setFld F.LANE_STATUS_STATE 5 p).emit (.capability p ((m.setFld F.LANE_STATUS_STATE 5 p).capRecord p 0 false)) := by
  unfold Mod.nextStage
  rw [if_neg (by omega)]
  exact if_pos rfl

/-- The lane with more lanes excluded. -/
def Lane.excluding (mask : Nat) (l : Lane) : Lane := { l with excluded := l.excluded ||| mask }

theorem usableLanes_excluding_zero (m : Mod) (p : Nat) : (m.modLane p (Lane.excluding 0)).usableLanes p = m.usableLanes p := by
  have hlane : Lane.excluding 0 (m.laneOf p) = m.laneOf p := by
    unfold Lane.excluding
    rw [Nat.or_zero]
  rw [modLane_fixed hlane]

theorem usableLanes_setFld (m : Mod) (f : Fld) (v p k j : Nat) (hb : f.blk = .lane) (h : F.LANE_EXCLUDE_LANES.off ≠ f.off + k * f.stride) :
    (m.setFld f v p k j).usableLanes p = m.usableLanes p :=
  usableLanes_congr rfl (fld_setFld_offset m f _ v p k j 0 0 hb (by simpa using h))

theorem capRecord_exclude {m : Mod} {p : Nat} (hp : p < m.lanes.length) (mask : Nat) (b : Bool) :
    ((m.exclude p mask).setFld F.LANE_STATUS_STATE 5 p).capRecord p 0 b = m.capRecord p 0 b := by
  have hlane : ((m.exclude p mask).setFld F.LANE_STATUS_STATE 5 p).laneOf p = Lane.excluding mask (m.laneOf p) :=
    laneOf_modLane (Lane.excluding mask) hp
  refine capRecord_congr (fld_setFld_addr _ _ _ _ _ _ _ _ _ _ (fab_ne_lane rfl rfl 0 p (by decide)))
    (fld_setFld_bitsApart (m.exclude p mask) 5 p 0 p 0 (by decide))
    (fld_setFld_offset (m.exclude p mask) F.LANE_STATUS_STATE _ 5 p 0 0 0 0 rfl (by decide)) ?_ rfl
  rw [hlane]
  rfl

/-! ## LANE_CTL.ENABLE -/

theorem saying_of_emit (m : Mod) (o : Out) (h : m.out = []) : m.emit o = m.saying [o] := by
  unfold Mod.emit Mod.saying
  rw [h]
  rfl

theorem saying_of_emits (m : Mod) (o q : Out) (h : m.out = []) : (m.emit o).emit q = m.saying [o, q] := by
  unfold Mod.emit Mod.saying
  rw [h]
  rfl

theorem laneEnable_detects {m : Mod} {p : Nat} (h0 : m.laneState p = 0) (hok : m.laserOk = true) :
    m.laneEnable p true = ((m.setFld F.LANE_CTL_ENABLE 1 p).setFld F.LANE_STATUS_ATTEMPTS 0 p).enterDetect p := by
  have hstate : (m.setFld F.LANE_CTL_ENABLE 1 p).laneState p = 0 := (fld_setFld_offset m F.LANE_CTL_ENABLE F.LANE_STATUS_STATE 1 p 0 0 0 0 rfl (by decide)).trans h0
  simp only [Mod.laneEnable, b2n, if_true]
  exact if_pos ⟨hstate, hok⟩

theorem laneEnable_off {m : Mod} {p : Nat} (h0 : m.laneState p ≠ 0) (h6 : m.laneState p ≠ 6) (hr : m.fld F.LANE_STATUS_RETRAINING p = 0) :
    m.laneEnable p false = (m.setFld F.LANE_CTL_ENABLE 0 p).portDark p 0 := by
  have hstate : (m.setFld F.LANE_CTL_ENABLE 0 p).laneState p = m.laneState p := fld_setFld_offset m F.LANE_CTL_ENABLE F.LANE_STATUS_STATE 0 p 0 0 0 0 rfl (by decide)
  have hretrain : (m.setFld F.LANE_CTL_ENABLE 0 p).fld F.LANE_STATUS_RETRAINING p = 0 :=
    (fld_setFld_offset m F.LANE_CTL_ENABLE F.LANE_STATUS_RETRAINING 0 p 0 0 0 0 rfl (by decide)).trans hr
  have hcarry : (m.setFld F.LANE_CTL_ENABLE 0 p).carrying p = false := by
    simp [Mod.carrying, hstate, hretrain, h6]
  have h0' : ¬(m.setFld F.LANE_CTL_ENABLE 0 p).laneState p = 0 := by rwa [hstate]
  simp only [Mod.laneEnable, b2n, Bool.false_eq_true, if_false]
  rw [if_neg h0']
  exact if_neg (ne_true_of_eq_false hcarry)

section
variable {ag : Agent} {port : Fin 10} {s : State}

/-- A command that moves the port's state to `n`, `m` being the module before. -/
theorem answers_stage {c : Instr} {f : Mod → Mod} {m : Mod} {as : List Nat} {lanes : List Lane} {n : Nat} {os : List Out} {P : State → Prop}
    (h : exec c s = s.runF f) (hq : s.m.quiet = true) (hm : PortStep as lanes s.m.fab s.m.clearOut m)
    (hf : f s.m.clearOut = (m.setFld F.LANE_STATUS_STATE n port).saying os) (has : ∀ a ∈ as, a < 0x700007000000)
    (hmem : F.LANE_STATUS_STATE.addr port 0 ∈ as) (hl : noneQueued lanes = true) (hos : os.all Out.stays = true) (hn : n < 16)
    (hp : ∀ t : State, t.m = ((m.setFld F.LANE_STATUS_STATE n port).saying os).settle → t.m.laneState port = n → t.m.out = os →
      OnlyRegs as { s.m with lanes := lanes } t.m → P t) : Answers c s P := by
  have hstep : PortStep as lanes s.m.fab s.m.clearOut ((m.setFld F.LANE_STATUS_STATE n port).saying os) := by
    obtain ⟨hn', hregs⟩ := portStep_setFld hm F.LANE_STATUS_STATE n port 0 0 hmem
    refine ⟨?_, hregs⟩
    rw [hn']
    rfl
  refine answers_portStep h hq (by rw [hf]; exact hstep) (draining_not_mem has) hl (fabAtRest_of_quiet hq) (by rw [hf]; exact hos)
    (fun honly => ?_)
  rw [hf] at honly ⊢
  refine hp _ rfl ?_ rfl honly
  exact (fld_settle _ _ _ _ _).trans (fld_setFld_fits m F.LANE_STATUS_STATE port 0 (by decide) hn)

theorem statusReg_lt (p : Fin 10) : F.LANE_STATUS_STATE.addr p 0 < 0x700007000000 := laneReg_lt rfl p (by decide)
theorem ctlReg_lt (p : Fin 10) : F.LANE_CTL_ENABLE.addr p 0 < 0x700007000000 := laneReg_lt rfl p (by decide)

/-- LANE_STATUS and LANE_CTL of the port. -/
theorem stageRegs_lt (p : Fin 10) : ∀ a ∈ [F.LANE_STATUS_STATE.addr p 0, F.LANE_CTL_ENABLE.addr p 0], a < 0x700007000000 :=
  List.forall_mem_cons.mpr ⟨statusReg_lt p, List.forall_mem_singleton.mpr (ctlReg_lt p)⟩

theorem answers_portEnable (hq : s.m.quiet = true) (hag : regAgent ag = true) (h0 : s.m.laneState port = 0) (hok : s.m.laserOk = true) :
    Answers (.portEnable ag port) s (fun t => t.m.laneState port = 1 ∧ t.m.fld F.LANE_CTL_ENABLE port = 1 ∧
      t.m.fld F.LANE_STATUS_ATTEMPTS port = 0 ∧ t.m.out = [.training port 1, .done .ok []] ∧
      OnlyRegs [F.LANE_STATUS_STATE.addr port 0, F.LANE_CTL_ENABLE.addr port 0] s.m t.m) := by
  have hstep := portStep_setFld (portStep_setFld (portStep_refl [F.LANE_STATUS_STATE.addr port 0, F.LANE_CTL_ENABLE.addr port 0] s.m.clearOut)
    F.LANE_CTL_ENABLE 1 port 0 0 (.tail _ (.head _))) F.LANE_STATUS_ATTEMPTS 0 port 0 0 (.head _)
  refine answers_stage (exec_portEnable ag port s) hq hstep (n := 1) (os := [.training port 1, .done .ok []]) ?_ (stageRegs_lt port) (.head _)
    (noneQueued_of_quiet hq) rfl (by decide) (fun t ht hstate hout honly => ⟨hstate, ?_, ?_, hout, honly⟩)
  · refine (byAgent_ok hag rfl).trans ?_
    rw [laneEnable_detects (m := s.m.clearOut) h0 hok]
    exact saying_of_emits _ _ _ rfl
  all_goals rw [ht]; simp (disch := decide) only [fld_settle, fld_saying, fld_setFld_bitsApart, fld_setFld_offset, fld_setFld_fits]

theorem answers_portDisable_dark (hq : s.m.quiet = true) (hag : regAgent ag = true) (h1 : 1 ≤ s.m.laneState port) (h5 : s.m.laneState port ≤ 5)
    (hr : s.m.fld F.LANE_STATUS_RETRAINING port = 0) :
    Answers (.portDisable ag port) s (fun t => t.m.laneState port = 0 ∧ t.m.fld F.LANE_CTL_ENABLE port = 0 ∧ t.m.out = [.done .ok []] ∧
      OnlyRegs [F.LANE_STATUS_STATE.addr port 0, F.LANE_CTL_ENABLE.addr port 0] { s.m with lanes := modNth s.m.lanes port (fun _ => {}) } t.m) := by
  have h0 : s.m.laneState port ≠ 0 := by omega
  have h6 : s.m.laneState port ≠ 6 := by omega
  have hstep := portStep_emit (portStep_modLane (portStep_setFld (portStep_setFld (portStep_setFld
    (portStep_refl [F.LANE_STATUS_STATE.addr port 0, F.LANE_CTL_ENABLE.addr port 0] s.m.clearOut)
    F.LANE_CTL_ENABLE 0 port 0 0 (.tail _ (.head _))) F.LANE_STATUS_STATE 0 port 0 0 (.head _)) F.LANE_STATUS_RETRY 0 port 0 0 (.head _))
    port (fun _ => {})) (.done .ok [])
  refine answers_portStep (exec_portDisable ag port s) hq (as := [F.LANE_STATUS_STATE.addr port 0, F.LANE_CTL_ENABLE.addr port 0])
    (lanes := modNth s.m.lanes port (fun _ => {})) (fab := s.m.fab) ?_ (draining_not_mem (stageRegs_lt port))
    (noneQueued_modNth (noneQueued_of_quiet hq) _ (fun _ _ => rfl)) (fabAtRest_of_quiet hq) ?_ (fun honly => ⟨?_, ?_, ?_, honly⟩)
  all_goals rw [byAgent_ok hag rfl, laneEnable_off (m := s.m.clearOut) h0 h6 hr]
  · exact hstep
  · rfl
  · refine (fld_settle _ _ _ _ _).trans ((fld_setFld_bitsApart _ 0 port 0 port 0 (by decide : F.LANE_STATUS_RETRY.BitsApart F.LANE_STATUS_STATE)).trans ?_)
    exact fld_setFld_fits _ F.LANE_STATUS_STATE port 0 (by decide) (by decide)
  · refine (fld_settle _ _ _ _ _).trans ((fld_setFld_bitsApart _ 0 port 0 port 0 (by decide : F.LANE_STATUS_RETRY.BitsApart F.LANE_CTL_ENABLE)).trans ?_)
    refine (fld_setFld_offset _ F.LANE_STATUS_STATE F.LANE_CTL_ENABLE 0 port 0 0 0 0 rfl (by decide)).trans ?_
    exact fld_setFld_fits _ F.LANE_CTL_ENABLE port 0 (by decide) (by decide)
  · rfl

/-! ## The partner's beacon -/

/-- The COMMA registers of a port. -/
def commaRegs (port : Nat) : List Nat := (List.range 4).map (F.LANE_COMMA_POS.addr port)

theorem commaRegs_lt (port : Fin 10) : ∀ a ∈ commaRegs port, a < 0x700007000000 := fun a ha => by
  obtain ⟨i, hi, rfl⟩ := List.mem_map.mp ha
  have := List.mem_range.mp hi
  exact laneReg_lt rfl port (by show 0x80 + i * 8 < _; omega)

/-- A register of a list that is zeroed one after another. -/
theorem reg_zeroed (is : List Nat) (a : Nat → Nat) (m : Mod) {i : Nat} (h : i ∈ is ∨ m.reg (a i) = 0) :
    (is.foldl (fun m i => m.setReg (a i) 0) m).reg (a i) = 0 := by
  induction is generalizing m with
  | nil => simpa using h
  | cons k ks ih =>
    refine ih _ ?_
    by_cases hk : a i = a k
    · exact .inr (by rw [hk]; exact reg_setReg_self m _ _)
    · rw [reg_setReg_ne _ _ hk]
      rcases h with h | h
      · rcases List.mem_cons.mp h with rfl | h
        · exact absurd rfl hk
        · exact .inl h
      · exact .inr h

theorem reg_clearCommas (m : Mod) (p : Nat) {i : Nat} (h : i < 4) : (m.clearCommas p).reg (F.LANE_COMMA_POS.addr p i) = 0 :=
  reg_zeroed (List.range 4) (F.LANE_COMMA_POS.addr p) m (.inl (List.mem_range.mpr h))

theorem portStep_clearCommas {as : List Nat} {lanes : List Lane} {fab : Fab} {m n : Mod} (h : PortStep as lanes fab m n) {p : Nat}
    (has : ∀ a ∈ commaRegs p, a ∈ as) : PortStep as lanes fab m (n.clearCommas p) :=
  foldl_keeps_mem (PortStep as lanes fab m) _ _ (fun _ _ hk hx => portStep_setReg hx _ (has _ (List.mem_map_of_mem hk))) n h

/-- The lane that enters TRAIN for an attempt. -/
def Lane.fresh (l : Lane) : Lane := { l with excluded := 0, peerSeen := false }

theorem startTrain_eq (m : Mod) (p : Nat) : m.startTrain p =
    (((m.clearCommas p).setFld F.LANE_STATUS_STATE 2 p).modLane p Lane.fresh).emit (.training p 2) := rfl

theorem answers_partnerBeacon (hq : s.m.quiet = true) (h1 : s.m.laneState port = 1) :
    Answers (.partnerBeaconDetected port) s (fun t => t.m.laneState port = 2 ∧ t.m.out = [.training port 2] ∧
      (∀ i < 4, t.m.reg (F.LANE_COMMA_POS.addr port i) = 0) ∧ OnlyRegs (F.LANE_STATUS_STATE.addr port 0 :: commaRegs port)
        { s.m with lanes := modNth s.m.lanes port Lane.fresh } t.m) := by
  have hout : (s.m.clearOut.clearCommas port).out = [] :=
    foldl_keeps (fun m : Mod => m.out = []) (fun m i => m.setReg (F.LANE_COMMA_POS.addr port i) 0) (fun _ _ h => h) (List.range 4)
      s.m.clearOut rfl
  have heffect : (if s.m.clearOut.laneState port = 1 then s.m.clearOut.startTrain port else s.m.clearOut) = s.m.clearOut.startTrain port := if_pos h1
  have hstep := portStep_emit (portStep_modLane (portStep_setFld (portStep_clearCommas
    (portStep_refl (F.LANE_STATUS_STATE.addr port 0 :: commaRegs port) s.m.clearOut) (fun _ h => .tail _ h))
    F.LANE_STATUS_STATE 2 port 0 0 (.head _)) port Lane.fresh) (.training port 2)
  rw [← startTrain_eq] at hstep
  refine answers_portStep (exec_partnerBeaconDetected port s) hq (as := F.LANE_STATUS_STATE.addr port 0 :: commaRegs port)
    (lanes := modNth s.m.lanes port Lane.fresh) (fab := s.m.fab) ?_
    (draining_not_mem (List.forall_mem_cons.mpr ⟨statusReg_lt port, commaRegs_lt port⟩))
    (noneQueued_modNth (noneQueued_of_quiet hq) _ (fun _ h => h)) (fabAtRest_of_quiet hq) ?_ (fun honly => ⟨?_, ?_, fun i hi => ?_, honly⟩)
  all_goals rw [heffect]
  · exact hstep
  all_goals rw [startTrain_eq]
  · show ((s.m.clearOut.clearCommas port).out ++ [_]).all _ = true
    rw [hout]
    rfl
  · exact (fld_settle _ _ _ _ _).trans (fld_setFld_fits (s.m.clearOut.clearCommas port) F.LANE_STATUS_STATE port 0 (by decide) (by decide))
  · show (s.m.clearOut.clearCommas port).out ++ [_] = _
    rw [hout]
    rfl
  · refine (reg_settle _ _).trans ((reg_setReg_ne _ _ ?_).trans (reg_clearCommas s.m.clearOut port hi))
    exact addr_ne_of_blk rfl (by show 0x80 + i * 8 ≠ 0x8 + 0 * 0; omega)

/-! ## TRAIN, LOCK and DESKEW -/

/-- The equaliser taps of a lane. -/
def Mod.setTaps (m : Mod) (p l pre main post : Nat) : Mod :=
  ((m.setFld F.LANE_TAP_PRE pre p l).setFld F.LANE_TAP_MAIN main p l).setFld F.LANE_TAP_POST post p l

theorem saying_of_quiet (m : Mod) (h : m.out = []) : m = m.saying [] := by
  unfold Mod.saying
  rw [← h]

theorem usableLanes_setTaps (m : Mod) (p l pre main post : Nat) : (m.setTaps p l pre main post).usableLanes p = m.usableLanes p := by
  have hoff : F.LANE_EXCLUDE_LANES.off ≠ 0x100 + l * 8 := by show 0x20 ≠ _; omega
  exact (usableLanes_setFld _ F.LANE_TAP_POST _ _ _ _ rfl hoff).trans ((usableLanes_setFld _ F.LANE_TAP_MAIN _ _ _ _ rfl hoff).trans
    (usableLanes_setFld _ F.LANE_TAP_PRE _ _ _ _ rfl hoff))

theorem answers_trainDone (hq : s.m.quiet = true) (pre main post : Fin 16) {lane : Fin 32} (h2 : s.m.laneState port = 2)
    (hleft : 8 ≤ popCount 32 (s.m.usableLanes port)) :
    Answers (.trainDone port [(lane, pre, main, post)]) s (fun t => t.m.laneState port = 3 ∧ t.m.out = [] ∧
      t.m.fld F.LANE_TAP_PRE port lane = pre.val ∧ t.m.fld F.LANE_TAP_MAIN port lane = main.val ∧ t.m.fld F.LANE_TAP_POST port lane = post.val ∧
      OnlyRegs [F.LANE_STATUS_STATE.addr port 0, F.LANE_TAP_PRE.addr port lane] s.m t.m) := by
  have hlane := lane.isLt
  have hregs : F.LANE_TAP_PRE.addr port lane ∈ [F.LANE_STATUS_STATE.addr port 0, F.LANE_TAP_PRE.addr port lane] := .tail _ (.head _)
  have hstep := portStep_setFld (portStep_setFld (portStep_setFld (portStep_refl _ s.m.clearOut) F.LANE_TAP_PRE pre port lane 0 hregs)
    F.LANE_TAP_MAIN main port lane 0 hregs) F.LANE_TAP_POST post port lane 0 hregs
  have hoff : 0x100 + lane.val * 8 ≠ 0x8 := by omega
  have heffect : (s.m.clearOut.setTaps port lane pre main post).nextStage port 3 =
      (s.m.clearOut.setTaps port lane pre main post).setFld F.LANE_STATUS_STATE 3 port :=
    nextStage_enough (by rw [usableLanes_setTaps]; exact hleft) (by decide)
  refine answers_stage (exec_trainDone port _ s) hq hstep (n := 3) (os := []) ?_
    (List.forall_mem_cons.mpr ⟨statusReg_lt port, List.forall_mem_singleton.mpr (laneReg_lt rfl port (by show 0x100 + _ * 8 < _; omega))⟩) (.head _)
    (noneQueued_of_quiet hq) rfl (by decide) (fun t ht hstate hout honly => ⟨hstate, hout, ?_, ?_, ?_, honly⟩)
  · refine (if_neg (not_not.mpr h2)).trans (heffect.trans ?_)
    exact saying_of_quiet _ rfl
  all_goals
    rw [ht, fld_settle, fld_saying]
  · rw [fld_setFld_offset _ F.LANE_STATUS_STATE F.LANE_TAP_PRE 3 port 0 0 lane 0 rfl hoff, fld_setFld_bitsApart _ _ _ _ _ _ (by decide), fld_setFld_bitsApart _ _ _ _ _ _ (by decide)]
    exact fld_setFld_fits _ F.LANE_TAP_PRE port lane (by decide) pre.isLt
  · rw [fld_setFld_offset _ F.LANE_STATUS_STATE F.LANE_TAP_MAIN 3 port 0 0 lane 0 rfl hoff, fld_setFld_bitsApart _ _ _ _ _ _ (by decide)]
    exact fld_setFld_fits _ F.LANE_TAP_MAIN port lane (by decide) main.isLt
  · rw [fld_setFld_offset _ F.LANE_STATUS_STATE F.LANE_TAP_POST 3 port 0 0 lane 0 rfl hoff]
    exact fld_setFld_fits _ F.LANE_TAP_POST port lane (by decide) post.isLt

/-- A field of a lane's byte of LANE_COMMA written with a value that fits reads that value. -/
theorem fld_setFld_comma (m : Mod) (f : Fld) {v : Nat} (p i : Nat) {j : Nat} (h : f.lo + j * f.bs + f.w ≤ 64) (hv : v < 2 ^ f.w) :
    (m.setFld f v p i j).fld f p i j = v := by
  rw [fld_setFld_self _ _ _ _ _ _ h, Nat.mod_eq_of_lt hv]

/-- Another field of the same byte. -/
theorem fld_setFld_comma_ne (m : Mod) (f g : Fld) (v p i j : Nat) (ha : g.addr p i = f.addr p i) (hbs : g.bs = f.bs)
    (h : g.lo + g.w ≤ f.lo ∨ f.lo + f.w ≤ g.lo) (h64 : g.lo + j * g.bs + g.w ≤ 64) : (m.setFld f v p i j).fld g p i j = m.fld g p i j := by
  refine fld_setFld_bits m f g v p i j p i j ha ?_ h64
  rw [hbs]
  omega

/-- A lane's comma position, with its lock bit. -/
def Mod.commaFound (m : Mod) (p l pos : Nat) (lock : Bool) : Mod :=
  ((m.setFld F.LANE_COMMA_POS pos p (l / 8) (l % 8)).setFld F.LANE_COMMA_SEEN 1 p (l / 8) (l % 8)).setFld F.LANE_COMMA_LOCKED (b2n lock) p (l / 8) (l % 8)

section comma
variable {lane : Fin 32}

theorem commaByte_lt (lane : Fin 32) : lane.val % 8 < 8 := Nat.mod_lt _ (by decide)

theorem commaReg_lt (port : Fin 10) (lane : Fin 32) : ∀ a ∈ [F.LANE_COMMA_POS.addr port (lane.val / 8)], a < 0x700007000000 :=
  List.forall_mem_singleton.mpr (laneReg_lt rfl port (by have := lane.isLt; show 0x80 + _ * 8 < _; omega))

theorem exec_commaLocked_eq (port : Fin 10) (lane : Fin 32) (pos : Fin 40) (locked : Bool) (s : State) : exec (.commaLocked port lane pos locked) s =
    s.runF (fun m => if m.laneState port ≠ 3 then m else m.commaFound port lane pos (locked && pos.val % 10 == 0)) := rfl

theorem answers_commaLocked (hq : s.m.quiet = true) (pos : Fin 40) (locked : Bool) (h3 : s.m.laneState port = 3) :
    Answers (.commaLocked port lane pos locked) s (fun t => t.m.out = [] ∧
      t.m.fld F.LANE_COMMA_POS port (lane.val / 8) (lane.val % 8) = pos.val ∧ t.m.fld F.LANE_COMMA_SEEN port (lane.val / 8) (lane.val % 8) = 1 ∧
      t.m.fld F.LANE_COMMA_LOCKED port (lane.val / 8) (lane.val % 8) = b2n (locked && pos.val % 10 == 0) ∧
      OnlyRegs [F.LANE_COMMA_POS.addr port (lane.val / 8)] s.m t.m) := by
  have hbyte := commaByte_lt lane
  have hreg : F.LANE_COMMA_POS.addr port (lane.val / 8) ∈ [F.LANE_COMMA_POS.addr port (lane.val / 8)] := .head _
  have hstep := portStep_setFld (portStep_setFld (portStep_setFld (portStep_refl _ s.m.clearOut) F.LANE_COMMA_POS pos port (lane.val / 8)
    (lane.val % 8) hreg) F.LANE_COMMA_SEEN 1 port (lane.val / 8) (lane.val % 8) hreg)
    F.LANE_COMMA_LOCKED (b2n (locked && pos.val % 10 == 0)) port (lane.val / 8) (lane.val % 8) hreg
  have heffect : (if s.m.clearOut.laneState port ≠ 3 then s.m.clearOut else s.m.clearOut.commaFound port lane pos (locked && pos.val % 10 == 0)) =
      s.m.clearOut.commaFound port lane pos (locked && pos.val % 10 == 0) := if_neg (not_not.mpr h3)
  have hpos := fld_setFld_comma_ne ((s.m.clearOut.setFld F.LANE_COMMA_POS pos port (lane.val / 8) (lane.val % 8)).setFld F.LANE_COMMA_SEEN 1 port
    (lane.val / 8) (lane.val % 8)) F.LANE_COMMA_LOCKED F.LANE_COMMA_POS (b2n (locked && pos.val % 10 == 0)) port (lane.val / 8) (lane.val % 8) rfl rfl
    (by decide) (by show 0 + _ * 8 + 6 ≤ 64; omega)
  refine answers_portStep (exec_commaLocked_eq port lane pos locked s) hq (as := [F.LANE_COMMA_POS.addr port (lane.val / 8)])
    (lanes := s.m.lanes) (fab := s.m.fab) ?_ (draining_not_mem (commaReg_lt port lane)) (noneQueued_of_quiet hq) (fabAtRest_of_quiet hq) ?_
    (fun honly => ⟨?_, ?_, ?_, ?_, honly⟩)
  all_goals rw [heffect]
  · exact hstep
  · rfl
  · rfl
  · refine (fld_settle _ _ _ _ _).trans (hpos.trans ?_)
    refine (fld_setFld_comma_ne _ F.LANE_COMMA_SEEN F.LANE_COMMA_POS _ _ _ _ rfl rfl (by decide) (by show 0 + _ * 8 + 6 ≤ 64; omega)).trans ?_
    exact fld_setFld_comma _ F.LANE_COMMA_POS _ _ (by show 0 + _ * 8 + 6 ≤ 64; omega) (lt_trans pos.isLt (by decide))
  · refine (fld_settle _ _ _ _ _).trans ?_
    refine (fld_setFld_comma_ne _ F.LANE_COMMA_LOCKED F.LANE_COMMA_SEEN _ _ _ _ rfl rfl (by decide) (by show 6 + _ * 8 + 1 ≤ 64; omega)).trans ?_
    exact fld_setFld_comma _ F.LANE_COMMA_SEEN _ _ (by show 6 + _ * 8 + 1 ≤ 64; omega) (by decide)
  · exact (fld_settle _ _ _ _ _).trans (fld_setFld_comma _ F.LANE_COMMA_LOCKED _ _ (by show 7 + _ * 8 + 1 ≤ 64; omega) (b2n_lt _))

theorem answers_laneSlip (hq : s.m.quiet = true) (hag : regAgent ag = true) (h3 : s.m.laneState port = 3) :
    Answers (.laneSlip ag port lane) s (fun t => t.m.out = [.done .ok []] ∧
      t.m.fld F.LANE_COMMA_POS port (lane.val / 8) (lane.val % 8) = (s.m.fld F.LANE_COMMA_POS port (lane.val / 8) (lane.val % 8) + 39) % 40 ∧
      t.m.fld F.LANE_COMMA_LOCKED port (lane.val / 8) (lane.val % 8) = 0 ∧ OnlyRegs [F.LANE_COMMA_POS.addr port (lane.val / 8)] s.m t.m) := by
  have hbyte := commaByte_lt lane
  have hreg : F.LANE_COMMA_POS.addr port (lane.val / 8) ∈ [F.LANE_COMMA_POS.addr port (lane.val / 8)] := .head _
  have hstep := portStep_emit (portStep_setFld (portStep_setFld (portStep_refl _ s.m.clearOut) F.LANE_COMMA_POS
    ((s.m.fld F.LANE_COMMA_POS port (lane.val / 8) (lane.val % 8) + 39) % 40) port (lane.val / 8) (lane.val % 8) hreg)
    F.LANE_COMMA_LOCKED 0 port (lane.val / 8) (lane.val % 8) hreg) (.done .ok [])
  have heffect : s.m.clearOut.laneSlip port lane = (s.m.clearOut.setFld F.LANE_COMMA_POS
      ((s.m.fld F.LANE_COMMA_POS port (lane.val / 8) (lane.val % 8) + 39) % 40) port (lane.val / 8) (lane.val % 8)).setFld
      F.LANE_COMMA_LOCKED 0 port (lane.val / 8) (lane.val % 8) := if_pos h3
  refine answers_portStep (exec_laneSlip ag port lane s) hq (as := [F.LANE_COMMA_POS.addr port (lane.val / 8)])
    (lanes := s.m.lanes) (fab := s.m.fab) ?_ (draining_not_mem (commaReg_lt port lane)) (noneQueued_of_quiet hq) (fabAtRest_of_quiet hq) ?_
    (fun honly => ⟨?_, ?_, ?_, honly⟩)
  all_goals rw [byAgent_ok hag rfl, heffect]
  · exact hstep
  · rfl
  · rfl
  · refine (fld_settle _ _ _ _ _).trans ?_
    refine (fld_setFld_comma_ne _ F.LANE_COMMA_LOCKED F.LANE_COMMA_POS _ _ _ _ rfl rfl (by decide) (by show 0 + _ * 8 + 6 ≤ 64; omega)).trans ?_
    exact fld_setFld_comma _ F.LANE_COMMA_POS _ _ (by show 0 + _ * 8 + 6 ≤ 64; omega) (lt_trans (Nat.mod_lt _ (by decide)) (by decide))
  · exact (fld_settle _ _ _ _ _).trans (fld_setFld_comma _ F.LANE_COMMA_LOCKED _ _ (by show 7 + _ * 8 + 1 ≤ 64; omega) (by decide))

end comma

/-! ## The end of a stage -/

/-- A command that excludes lanes and leaves enough for the next stage. -/
theorem answers_nextStage {c : Instr} {f : Mod → Mod} {mask n : Nat} {os : List Out} (h : exec c s = s.runF f) (hq : s.m.quiet = true)
    (hf : f s.m.clearOut = ((s.m.clearOut.exclude port mask).setFld F.LANE_STATUS_STATE n port).saying os) (hos : os.all Out.stays = true) (hn : n < 16) :
    Answers c s (fun t => t.m.laneState port = n ∧ t.m.out = os ∧
      OnlyRegs [F.LANE_STATUS_STATE.addr port 0] { s.m with lanes := modNth s.m.lanes port (Lane.excluding mask) } t.m) :=
  answers_stage h hq (portStep_modLane (portStep_refl _ s.m.clearOut) port (Lane.excluding mask)) hf
    (List.forall_mem_singleton.mpr (statusReg_lt port)) (.head _) (noneQueued_modNth (noneQueued_of_quiet hq) _ (fun _ h => h)) hos hn
    (fun _ _ hstate hout honly => ⟨hstate, hout, honly⟩)

theorem answers_slipDone (hq : s.m.quiet = true) (hag : regAgent ag = true) (h3 : s.m.laneState port = 3)
    (hleft : 8 ≤ popCount 32 ((s.m.exclude port (s.m.unlocked port)).usableLanes port)) :
    Answers (.slipDone ag port) s (fun t => t.m.laneState port = 4 ∧ t.m.out = [.done .ok []] ∧ OnlyRegs [F.LANE_STATUS_STATE.addr port 0]
      { s.m with lanes := modNth s.m.lanes port (Lane.excluding (s.m.unlocked port)) } t.m) := by
  have heffect : s.m.clearOut.slipDone port = (s.m.clearOut.exclude port (s.m.unlocked port)).setFld F.LANE_STATUS_STATE 4 port :=
    (if_pos h3).trans (nextStage_enough hleft (by decide))
  refine answers_nextStage (exec_slipDone ag port s) hq ?_ rfl (by decide)
  rw [byAgent_ok hag rfl, heffect]
  exact saying_of_emit _ _ rfl

theorem answers_deskewDone (hq : s.m.quiet = true) (hp : port.val < s.m.lanes.length) (mask : BitVec 32) (h4 : s.m.laneState port = 4)
    (hleft : 8 ≤ popCount 32 ((s.m.exclude port mask.toNat).usableLanes port)) :
    Answers (.deskewDone port mask) s (fun t => t.m.laneState port = 5 ∧ t.m.out = [.capability port (s.m.capRecord port 0 false)] ∧
      OnlyRegs [F.LANE_STATUS_STATE.addr port 0] { s.m with lanes := modNth s.m.lanes port (Lane.excluding mask.toNat) } t.m) := by
  refine answers_nextStage (exec_deskewDone port mask s) hq ((if_pos h4).trans ((nextStage_exchange (m := s.m.clearOut.exclude port mask.toNat) hleft).trans ?_)) rfl (by decide)
  rw [capRecord_exclude (m := s.m.clearOut) hp]
  exact saying_of_emit _ _ rfl

theorem answers_trainTimeout (hq : s.m.quiet = true) (mask : BitVec 32) (h2 : s.m.laneState port = 2)
    (hleft : 8 ≤ popCount 32 ((s.m.exclude port mask.toNat).usableLanes port)) :
    Answers (.stageTimeout port mask) s (fun t => t.m.laneState port = 3 ∧ t.m.out = [] ∧
      OnlyRegs [F.LANE_STATUS_STATE.addr port 0] { s.m with lanes := modNth s.m.lanes port (Lane.excluding mask.toNat) } t.m) := by
  refine answers_nextStage (exec_stageTimeout port mask s) hq ((if_pos h2).trans ((nextStage_enough (m := s.m.clearOut.exclude port mask.toNat) (next := 3) hleft (by decide)).trans ?_)) rfl (by decide)
  exact saying_of_quiet _ rfl

end

/-! ## Steps that raise events -/

theorem draining_not_mem_events {as : List Nat} (h : F.DIR_STATUS_DRAINING.addr 0 0 ∉ as) : F.DIR_STATUS_DRAINING.addr 0 0 ∉ as ++ eventRegs :=
  fun hmem => (List.mem_append.mp hmem).elim h (not_eventReg_of_ge (by decide))

theorem quiet_of_regsAndEvents {as : List Nat} {m n : Mod} (h : RegsAndEvents as m n) (hq : m.quiet = true)
    (hd : F.DIR_STATUS_DRAINING.addr 0 0 ∉ as) : n.quiet = true := by
  obtain ⟨hn, -, hregs⟩ := h
  have hdrain : n.fld F.DIR_STATUS_DRAINING = m.fld F.DIR_STATUS_DRAINING := by
    simp only [Mod.fld, hregs _ (draining_not_mem_events hd)]
  rw [← hq]
  refine quiet_congr ?_ ?_ ?_ (memQuiet_congr ?_ ?_ ?_ ?_ ?_ hdrain) (svcReady_congr ?_ ?_ ?_) <;> rw [hn]

/-- A command whose effect is within a frame of registers and event records of a quiet module answers that effect, settled. -/
theorem answers_events {c : Instr} {s : State} {f : Mod → Mod} {as : List Nat} {m : Mod} {P : State → Prop} (h : exec c s = s.runF f)
    (hf : RegsAndEvents as m (f s.m.clearOut)) (hq : m.quiet = true) (hd : F.DIR_STATUS_DRAINING.addr 0 0 ∉ as)
    (ho : (f s.m.clearOut).out.all Out.stays = true)
    (hp : RegsAndEvents as m (f s.m.clearOut).settle → P { s with m := (f s.m.clearOut).settle }) : Answers c s P :=
  answers_runF h (quiet_of_regsAndEvents hf hq hd) ho (hp (regsAndEvents_settle hf))

theorem regsAndEvents_modLane {as : List Nat} {m n : Mod} (h : RegsAndEvents as m n) (p : Nat) (g : Lane → Lane) :
    RegsAndEvents as (m.modLane p g) (n.modLane p g) := by
  obtain ⟨hn, hmem, hregs⟩ := h
  refine ⟨?_, hmem, hregs⟩
  rw [hn]
  rfl

theorem quiet_modLane {m : Mod} (hq : m.quiet = true) (p : Nat) {g : Lane → Lane} (hg : ∀ l : Lane, l.txq = [] → (g l).txq = []) :
    (m.modLane p g).quiet = true :=
  quiet_of_portStep (m := m) (portStep_modLane (portStep_refl [] m) p g) hq List.not_mem_nil (noneQueued_modNth (noneQueued_of_quiet hq) p hg)
    (fabAtRest_of_quiet hq)

/-! ## A failed attempt -/

/-- The failed attempt counted and reported. -/
def Mod.attemptCounted (m : Mod) (p : Nat) : Mod :=
  (((m.setFld F.LANE_STATUS_ATTEMPTS (m.fld F.LANE_STATUS_ATTEMPTS p + 1) p).setFld F.LANE_RX_MASK_USABLE (m.usableLanes p) p).raise 0x0902
    (d1 p ++ d1 (m.fld F.LANE_STATUS_CAUSE p) ++ d1 (m.fld F.LANE_STATUS_ATTEMPTS p + 1) ++ d1 (m.laneState p)))

theorem attemptFails_eq {m : Mod} {p : Nat} (hr : m.fld F.LANE_STATUS_RETRAINING p = 0) : m.attemptFails p =
    if 3 ≤ m.fld F.LANE_STATUS_ATTEMPTS p + 1 then
      ((m.attemptCounted p).raise 0x0905 (d1 p ++ d1 (m.laneState p) ++ d4 ((m.attemptCounted p).laneOf p).excluded)).portDark p 8
    else (m.attemptCounted p).enterDetect p := by
  have hcause : ((m.setFld F.LANE_STATUS_ATTEMPTS (m.fld F.LANE_STATUS_ATTEMPTS p + 1) p).setFld F.LANE_RX_MASK_USABLE (m.usableLanes p) p).fld
      F.LANE_STATUS_CAUSE p = m.fld F.LANE_STATUS_CAUSE p := by
    rw [fld_setFld_offset _ F.LANE_RX_MASK_USABLE F.LANE_STATUS_CAUSE _ _ _ _ _ _ rfl (by decide), fld_setFld_bitsApart _ _ _ _ _ _ (by decide)]
  have hretrain : ¬(m.attemptCounted p).fld F.LANE_STATUS_RETRAINING p = 1 := by
    unfold Mod.attemptCounted
    rw [fld_raise_above _ _ _ _ _ _ rfl, fld_setFld_offset _ F.LANE_RX_MASK_USABLE F.LANE_STATUS_RETRAINING _ _ _ _ _ _ rfl (by decide),
      fld_setFld_bitsApart _ _ _ _ _ _ (by decide), hr]
    decide
  simp only [Mod.attemptFails, hcause]
  exact if_neg hretrain

section
variable {port : Fin 10} {s : State}

theorem stays_attemptCounted {m : Mod} (h : m.out = []) (p : Nat) : (m.attemptCounted p).out.all Out.stays = true := by
  refine stays_raise _ _ ?_
  show m.out.all _ = true
  rw [h]
  rfl

theorem regsAndEvents_attemptCounted (m : Mod) (p : Nat) :
    RegsAndEvents [F.LANE_STATUS_STATE.addr p 0, F.LANE_RX_MASK_USABLE.addr p 0] m (m.attemptCounted p) :=
  regsAndEvents_raise (regsAndEvents_setFld (regsAndEvents_setFld (regsAndEvents_refl _ m) F.LANE_STATUS_ATTEMPTS _ p 0 0 (.head _))
    F.LANE_RX_MASK_USABLE _ p 0 0 (.tail _ (.head _))) _ _

theorem fld_attempts_attemptCounted (m : Mod) {p : Nat} (h : m.fld F.LANE_STATUS_ATTEMPTS p + 1 < 4) :
    (m.attemptCounted p).fld F.LANE_STATUS_ATTEMPTS p = m.fld F.LANE_STATUS_ATTEMPTS p + 1 := by
  unfold Mod.attemptCounted
  rw [fld_raise_above _ _ _ _ _ _ rfl, fld_setFld_offset _ F.LANE_RX_MASK_USABLE F.LANE_STATUS_ATTEMPTS _ _ _ _ _ _ rfl (by decide)]
  exact fld_setFld_fits m F.LANE_STATUS_ATTEMPTS p 0 (by decide) h

theorem attemptRegs_lt (p : Fin 10) : ∀ a ∈ [F.LANE_STATUS_STATE.addr p 0, F.LANE_RX_MASK_USABLE.addr p 0], a < 0x700007000000 :=
  List.forall_mem_cons.mpr ⟨statusReg_lt p, List.forall_mem_singleton.mpr (laneReg_lt rfl p (by decide))⟩

theorem stageTimeout_exchange {m : Mod} {p : Nat} (h5 : m.laneState p = 5) (mask : Nat) : m.stageTimeout p mask = m.attemptFails p := by
  simp [Mod.stageTimeout, h5]

theorem answers_attemptFails_again (hq : s.m.quiet = true) (ex : BitVec 32) (h5 : s.m.laneState port = 5) (hr : s.m.fld F.LANE_STATUS_RETRAINING port = 0)
    (hn : s.m.fld F.LANE_STATUS_ATTEMPTS port + 1 < 3) :
    Answers (.stageTimeout port ex) s (fun t => t.m.laneState port = 1 ∧
      t.m.fld F.LANE_STATUS_ATTEMPTS port = s.m.fld F.LANE_STATUS_ATTEMPTS port + 1 ∧
      Raised t.m 0x0902 (d1 port ++ d1 (s.m.fld F.LANE_STATUS_CAUSE port) ++ d1 (s.m.fld F.LANE_STATUS_ATTEMPTS port + 1) ++ d1 5) ∧
      RegsAndEvents [F.LANE_STATUS_STATE.addr port 0, F.LANE_RX_MASK_USABLE.addr port 0] s.m t.m) := by
  have heffect : s.m.clearOut.stageTimeout port ex.toNat = (s.m.clearOut.attemptCounted port).enterDetect port :=
    (stageTimeout_exchange (m := s.m.clearOut) h5 _).trans ((attemptFails_eq (m := s.m.clearOut) hr).trans (if_neg (Nat.not_le.mpr hn)))
  have hraised : Raised (s.m.clearOut.attemptCounted port) 0x0902
      (d1 port ++ d1 (s.m.fld F.LANE_STATUS_CAUSE port) ++ d1 (s.m.fld F.LANE_STATUS_ATTEMPTS port + 1) ++ d1 (s.m.laneState port)) := raised_raise _ _ _
  rw [h5] at hraised
  have hframe := regsAndEvents_trans (regsAndEvents_clearOut _ s.m) (regsAndEvents_attemptCounted s.m.clearOut port)
  refine answers_events (exec_stageTimeout port ex s) (m := s.m) (as := [F.LANE_STATUS_STATE.addr port 0, F.LANE_RX_MASK_USABLE.addr port 0]) ?_ hq
    (draining_not_mem (attemptRegs_lt port)) ?_ (fun hframe => ⟨?_, ?_, ?_, hframe⟩)
  all_goals rw [heffect]
  · exact regsAndEvents_emit (regsAndEvents_setFld hframe F.LANE_STATUS_STATE 1 port 0 0 (.head _)) _
  · exact (List.all_append ..).trans (Bool.and_eq_true_iff.mpr ⟨stays_attemptCounted rfl _, rfl⟩)
  · exact (fld_settle _ _ _ _ _).trans (fld_setFld_fits _ F.LANE_STATUS_STATE port 0 (by decide) (by decide))
  · refine (fld_settle _ _ _ _ _).trans ((fld_setFld_bitsApart _ 1 port 0 port 0 (by decide : F.LANE_STATUS_STATE.BitsApart F.LANE_STATUS_ATTEMPTS)).trans ?_)
    exact fld_attempts_attemptCounted s.m.clearOut (lt_trans hn (by decide))
  · exact raised_mono hraised (fun o ho => List.mem_append_left _ ho)

theorem answers_attemptFails_last (hq : s.m.quiet = true) (ex : BitVec 32) (h5 : s.m.laneState port = 5) (hr : s.m.fld F.LANE_STATUS_RETRAINING port = 0)
    (hn : s.m.fld F.LANE_STATUS_ATTEMPTS port + 1 = 3) :
    Answers (.stageTimeout port ex) s (fun t => t.m.laneState port = 8 ∧
      Raised t.m 0x0902 (d1 port ++ d1 (s.m.fld F.LANE_STATUS_CAUSE port) ++ d1 (s.m.fld F.LANE_STATUS_ATTEMPTS port + 1) ++ d1 5) ∧
      Raised t.m 0x0905 (d1 port ++ d1 5 ++ d4 (s.m.laneOf port).excluded) ∧
      RegsAndEvents [F.LANE_STATUS_STATE.addr port 0, F.LANE_RX_MASK_USABLE.addr port 0]
        { s.m with lanes := modNth s.m.lanes port (fun _ => {}) } t.m) := by
  have hraised : Raised (s.m.clearOut.attemptCounted port) 0x0902
      (d1 port ++ d1 (s.m.fld F.LANE_STATUS_CAUSE port) ++ d1 (s.m.fld F.LANE_STATUS_ATTEMPTS port + 1) ++ d1 (s.m.laneState port)) := raised_raise _ _ _
  rw [h5] at hraised
  have hframe := regsAndEvents_trans (regsAndEvents_clearOut _ s.m) (regsAndEvents_attemptCounted s.m.clearOut port)
  have hlane : (s.m.clearOut.attemptCounted port).laneOf port = s.m.laneOf port := by
    unfold Mod.laneOf
    rw [hframe.1]
  have heffect : s.m.clearOut.stageTimeout port ex.toNat =
      ((s.m.clearOut.attemptCounted port).raise 0x0905 (d1 port ++ d1 5 ++ d4 (s.m.laneOf port).excluded)).portDark port 8 := by
    rw [stageTimeout_exchange (m := s.m.clearOut) h5, attemptFails_eq (m := s.m.clearOut) hr, hlane, if_pos (by exact hn.ge),
      show s.m.clearOut.laneState port = 5 from h5]
  refine answers_events (exec_stageTimeout port ex s) (m := s.m.modLane port (fun _ => {}))
    (as := [F.LANE_STATUS_STATE.addr port 0, F.LANE_RX_MASK_USABLE.addr port 0]) ?_ (quiet_modLane hq port fun _ _ => rfl)
    (draining_not_mem (attemptRegs_lt port)) ?_ (fun hframe => ⟨?_, ?_, ?_, hframe⟩)
  all_goals rw [heffect]
  · exact regsAndEvents_modLane (regsAndEvents_setFld (regsAndEvents_setFld (regsAndEvents_raise hframe _ _) F.LANE_STATUS_STATE 8 port 0 0 (.head _))
      F.LANE_STATUS_RETRY 0 port 0 0 (.head _)) port _
  · exact stays_raise _ _ (stays_attemptCounted rfl _)
  · refine (fld_settle _ _ _ _ _).trans ((fld_setFld_bitsApart _ 0 port 0 port 0 (by decide : F.LANE_STATUS_RETRY.BitsApart F.LANE_STATUS_STATE)).trans ?_)
    exact fld_setFld_fits _ F.LANE_STATUS_STATE port 0 (by decide) (by decide)
  · exact raised_raise_of_raised hraised _ _
  · exact raised_raise _ _ _

end

/-! ## The partner's capability record -/

theorem widthOf_lt (n : Nat) : widthOf n < 2 ^ 6 := by
  unfold widthOf
  split_ifs <;> decide

/-- The lanes in use, their widths and the ACTIVE state. -/
def Mod.widthsSet (m : Mod) (p txUse rxUse tx rx : Nat) : Mod :=
  let m := (m.setFld F.LANE_TX_MASK_USE txUse p).setFld F.LANE_RX_MASK_USE rxUse p
  let m := (m.setFld F.LANE_RX_MASK_USABLE (m.usableLanes p) p).setFld F.LANE_STATUS_TX_WIDTH tx p
  let m := (m.setFld F.LANE_STATUS_RX_WIDTH rx p).setFld F.LANE_STATUS_STATE 6 p
  m.setFld F.LANE_STATUS_RETRAINING 0 p

/-- The partner in the port's register of the fabric. -/
def Mod.peerSet (m : Mod) (p node port : Nat) : Mod :=
  ((m.setFld F.FAB_PORT_PEER node 0 p).setFld F.FAB_PORT_PEER_PORT port 0 p).setFld F.FAB_PORT_PEER_VALID 1 0 p

/-- Lanes that both partners can use in the receive direction. -/
def Mod.commonLanes (m : Mod) (p : Nat) (r : CapRecord) : Nat := m.usableLanes p &&& r.txLit.toNat

/-- Their width. -/
def Mod.commonWidth (m : Mod) (p : Nat) (r : CapRecord) : Nat := widthOf (popCount 32 (m.commonLanes p r))

/-- The lanes to use of them. -/
def Mod.commonUse (m : Mod) (p : Nat) (r : CapRecord) : Nat := maskOf ((bitsOf 32 (m.commonLanes p r)).take (m.commonWidth p r))

/-- The lane that has seen its partner's record. -/
def Lane.peered (l : Lane) : Lane := { l with peerSeen := true }

/-- The lane that sends from the partner's next number. -/
def Lane.sendingFrom (n : Nat) (l : Lane) : Lane := { l with txNext := n }

/-- The port's lanes and partner set after the answer. -/
def Mod.linkSet (m : Mod) (p : Nat) (r : CapRecord) : Mod :=
  ((((m.modLane p Lane.peered).emit (.capability p (m.capRecord p (m.commonUse p r) true))).widthsSet p r.rxUse.toNat (m.commonUse p r)
    (widthOf (popCount 32 r.rxUse.toNat)) (m.commonWidth p r)).peerSet p r.node r.port).modLane p (Lane.sendingFrom r.rxNext.val)

/-- The data of event 0x0901. -/
def linkData (p : Nat) (r : CapRecord) (w use : Nat) : List Byte :=
  d1 p ++ d2 r.node ++ d1 (widthOf (popCount 32 r.rxUse.toNat)) ++ d1 w ++ d4 use

/-- Registers that a port's way to ACTIVE changes. -/
def linkRegs (p : Nat) : List Nat :=
  [F.LANE_STATUS_STATE.addr p 0, F.LANE_TX_MASK_USE.addr p 0, F.LANE_RX_MASK_USE.addr p 0, F.FAB_PORT_PEER.addr 0 p]

section
variable {m : Mod} {p : Nat} {as : List Nat} {n : Mod}

theorem regsAndEvents_widthsSet (h : RegsAndEvents (linkRegs p) m n) (txUse rxUse tx rx : Nat) :
    RegsAndEvents (linkRegs p) m (n.widthsSet p txUse rxUse tx rx) := by
  have hstatus : F.LANE_STATUS_STATE.addr p 0 ∈ linkRegs p ++ eventRegs := .head _
  have htx : F.LANE_TX_MASK_USE.addr p 0 ∈ linkRegs p ++ eventRegs := .tail _ (.head _)
  have hrx : F.LANE_RX_MASK_USE.addr p 0 ∈ linkRegs p ++ eventRegs := .tail _ (.tail _ (.head _))
  have h1 : RegsAndEvents (linkRegs p) m ((n.setFld F.LANE_TX_MASK_USE txUse p).setFld F.LANE_RX_MASK_USE rxUse p) :=
    regsAndEvents_setFld (regsAndEvents_setFld h F.LANE_TX_MASK_USE txUse p 0 0 htx) F.LANE_RX_MASK_USE rxUse p 0 0 hrx
  have h2 := regsAndEvents_setFld (regsAndEvents_setFld h1 F.LANE_RX_MASK_USABLE
    (((n.setFld F.LANE_TX_MASK_USE txUse p).setFld F.LANE_RX_MASK_USE rxUse p).usableLanes p) p 0 0 hrx) F.LANE_STATUS_TX_WIDTH tx p 0 0 hstatus
  exact regsAndEvents_setFld (regsAndEvents_setFld (regsAndEvents_setFld h2 F.LANE_STATUS_RX_WIDTH rx p 0 0 hstatus)
    F.LANE_STATUS_STATE 6 p 0 0 hstatus) F.LANE_STATUS_RETRAINING 0 p 0 0 hstatus

theorem regsAndEvents_peerSet (h : RegsAndEvents (linkRegs p) m n) (node port : Nat) : RegsAndEvents (linkRegs p) m (n.peerSet p node port) := by
  have hpeer : F.FAB_PORT_PEER.addr 0 p ∈ linkRegs p ++ eventRegs := .tail _ (.tail _ (.tail _ (.head _)))
  exact regsAndEvents_setFld (regsAndEvents_setFld (regsAndEvents_setFld h F.FAB_PORT_PEER node 0 p 0 hpeer)
    F.FAB_PORT_PEER_PORT port 0 p 0 hpeer) F.FAB_PORT_PEER_VALID 1 0 p 0 hpeer

theorem regsAndEvents_linkSet (m : Mod) (p : Nat) (r : CapRecord) :
    RegsAndEvents (linkRegs p) ((m.modLane p Lane.peered).modLane p (Lane.sendingFrom r.rxNext.val)) (m.linkSet p r) :=
  regsAndEvents_modLane (regsAndEvents_peerSet (regsAndEvents_widthsSet (regsAndEvents_emit (regsAndEvents_refl _ _) _) _ _ _ _) _ _) p _

/-- What the ports' fields read after a write of the partner. -/
theorem fld_peerSet_lane (m : Mod) {p : Nat} (hp : p < 10) (node port : Nat) {f : Fld} (hf : f.blk = .lane) :
    (m.peerSet p node port).fld f p = m.fld f p := by
  have haddr (g : Fld) (hg : g.blk = .fab) (hoff : g.off + p * g.stride < 0x1000000) : f.addr p 0 ≠ g.addr 0 p :=
    (fab_ne_lane hg hf 0 p hoff).symm
  have hoff : 0x100 + p * 8 < 0x1000000 := by omega
  exact (fld_setFld_addr _ _ _ _ _ _ _ _ _ _ (haddr F.FAB_PORT_PEER_VALID rfl hoff)).trans
    ((fld_setFld_addr _ _ _ _ _ _ _ _ _ _ (haddr F.FAB_PORT_PEER_PORT rfl hoff)).trans
      (fld_setFld_addr _ _ _ _ _ _ _ _ _ _ (haddr F.FAB_PORT_PEER rfl hoff)))

theorem fld_peerSet (m : Mod) (p : Nat) {node port : Nat} (hnode : node < 2 ^ 14) (hport : port < 2 ^ 4) :
    (m.peerSet p node port).fld F.FAB_PORT_PEER 0 p = node ∧ (m.peerSet p node port).fld F.FAB_PORT_PEER_PORT 0 p = port ∧
    (m.peerSet p node port).fld F.FAB_PORT_PEER_VALID 0 p = 1 := by
  unfold Mod.peerSet
  refine ⟨?_, ?_, fld_setFld_fits _ F.FAB_PORT_PEER_VALID 0 p (by decide) (by decide)⟩
  · rw [fld_setFld_bitsApart _ _ _ _ _ _ (by decide), fld_setFld_bitsApart _ _ _ _ _ _ (by decide)]
    exact fld_setFld_fits _ F.FAB_PORT_PEER 0 p (by decide) hnode
  · rw [fld_setFld_bitsApart _ _ _ _ _ _ (by decide)]
    exact fld_setFld_fits _ F.FAB_PORT_PEER_PORT 0 p (by decide) hport

theorem fld_widthsSet (m : Mod) (p : Nat) {txUse rxUse tx rx : Nat} (htxUse : txUse < 2 ^ 32) (hrxUse : rxUse < 2 ^ 32) (htx : tx < 2 ^ 6)
    (hrx : rx < 2 ^ 6) :
    (m.widthsSet p txUse rxUse tx rx).fld F.LANE_STATUS_STATE p = 6 ∧ (m.widthsSet p txUse rxUse tx rx).fld F.LANE_STATUS_TX_WIDTH p = tx ∧
    (m.widthsSet p txUse rxUse tx rx).fld F.LANE_STATUS_RX_WIDTH p = rx ∧ (m.widthsSet p txUse rxUse tx rx).fld F.LANE_TX_MASK_USE p = txUse ∧
    (m.widthsSet p txUse rxUse tx rx).fld F.LANE_RX_MASK_USE p = rxUse := by
  have hfit (x : Mod) (f : Fld) {v : Nat} (hv : v < 2 ^ f.w) (h : f.lo + f.w ≤ 64) : (x.setFld f v p).fld f p = v := fld_setFld_fits x f p 0 h hv
  have h6 (x : Mod) := hfit x F.LANE_STATUS_STATE (v := 6) (by decide) (by decide)
  have htx' (x : Mod) := hfit x F.LANE_STATUS_TX_WIDTH htx (by decide)
  have hrx' (x : Mod) := hfit x F.LANE_STATUS_RX_WIDTH hrx (by decide)
  have htxUse' (x : Mod) := hfit x F.LANE_TX_MASK_USE htxUse (by decide)
  have hrxUse' (x : Mod) := hfit x F.LANE_RX_MASK_USE hrxUse (by decide)
  unfold Mod.widthsSet
  refine ⟨?_, ?_, ?_, ?_, ?_⟩ <;>
    simp (disch := decide) only [fld_setFld_offset, fld_setFld_bitsApart, h6, htx', hrx', htxUse', hrxUse']

end

/-- The port becomes ACTIVE by a partner that has seen it, at widths that both reach. -/
theorem capability_active {m : Mod} {p : Nat} {r : CapRecord} (hp : p < 10) (h5 : m.laneState p = 5) (hw : 8 ≤ m.commonWidth p r) (hseen : r.peerSeen = true)
    (htx : 8 ≤ widthOf (popCount 32 r.rxUse.toNat)) (hr : m.fld F.LANE_STATUS_RETRAINING p = 0) (hoff : m.fld F.FAB_CTL_ENABLE = 0) :
    m.capability p r = (m.linkSet p r).raise 0x0901 (linkData p r (m.commonWidth p r) (m.commonUse p r)) := by
  have hkept : (((m.modLane p Lane.peered).emit (.capability p (m.capRecord p (m.commonUse p r) true))).fld F.LANE_STATUS_RETRAINING p == 1) = false := by
    show (m.fld F.LANE_STATUS_RETRAINING p == 1) = false
    rw [hr]
    rfl
  have hctl : F.FAB_CTL_ENABLE.addr 0 0 ∉ linkRegs p ++ eventRegs := by
    refine fun hmem => (List.mem_append.mp hmem).elim (fun hmem => ?_) (addr_not_eventReg rfl 0 0)
    simp only [linkRegs, List.mem_cons, List.not_mem_nil, or_false] at hmem
    rcases hmem with h | h | h | h
    · exact fab_ne_lane rfl rfl 0 p (by decide) h
    · exact fab_ne_lane rfl rfl 0 p (by decide) h
    · exact fab_ne_lane rfl rfl 0 p (by decide) h
    · exact addr_ne_of_blk (f := F.FAB_CTL_ENABLE) (g := F.FAB_PORT_PEER) rfl (by show 0 + 0 * 0 ≠ 0x100 + p * 8; omega) h
  have hdown : ((m.linkSet p r).raise 0x0901 (linkData p r (m.commonWidth p r) (m.commonUse p r))).fld F.FAB_CTL_ENABLE = 0 := by
    have hframe := regsAndEvents_raise (regsAndEvents_linkSet m p r) 0x0901 (linkData p r (m.commonWidth p r) (m.commonUse p r))
    refine Eq.trans ?_ hoff
    simp only [Mod.fld, hframe.2.2 _ hctl]
    rfl
  have hactive : ((m.linkSet p r).raise 0x0901 (linkData p r (m.commonWidth p r) (m.commonUse p r))).portActive =
      (m.linkSet p r).raise 0x0901 (linkData p r (m.commonWidth p r) (m.commonUse p r)) :=
    if_neg (fun h => by simp [hdown] at h)
  unfold Mod.capability
  refine (if_neg (not_not.mpr h5)).trans ((if_neg (Nat.not_lt.mpr hw)).trans ((if_neg (by simp [hseen])).trans ((if_neg (Nat.not_lt.mpr htx)).trans
    (Eq.trans ?_ hactive))))
  refine congrArg (fun x : Mod => (x.raise 0x0901 (linkData p r (m.commonWidth p r) (m.commonUse p r))).portActive) ?_
  exact if_neg (ne_true_of_eq_false hkept)

section
variable {port : Fin 10} {s : State}

theorem linkRegs_lt (p : Fin 10) : ∀ a ∈ linkRegs p, a < 0x700007000000 :=
  List.forall_mem_cons.mpr ⟨statusReg_lt p, List.forall_mem_cons.mpr ⟨laneReg_lt rfl p (by decide), List.forall_mem_cons.mpr
    ⟨laneReg_lt rfl p (by decide), List.forall_mem_singleton.mpr (fabReg_lt rfl 0 (by have := p.isLt; show 0x100 + p.val * 8 < _; omega))⟩⟩⟩

theorem commonUse_lt (m : Mod) (p : Nat) (r : CapRecord) : m.commonUse p r < 2 ^ 32 :=
  maskOf_lt fun _ h => List.mem_range.mp (List.mem_of_mem_filter (List.mem_of_mem_take h))

theorem commonWidth_clearOut (m : Mod) (p : Nat) (r : CapRecord) : m.clearOut.commonWidth p r = m.commonWidth p r := rfl
theorem commonUse_clearOut (m : Mod) (p : Nat) (r : CapRecord) : m.clearOut.commonUse p r = m.commonUse p r := rfl
/-- What the port's registers read once it is ACTIVE. -/
structure Linked (m n : Mod) (p : Nat) (r : CapRecord) : Prop where
  state : n.laneState p = 6
  txWidth : n.fld F.LANE_STATUS_TX_WIDTH p = widthOf (popCount 32 r.rxUse.toNat)
  rxWidth : n.fld F.LANE_STATUS_RX_WIDTH p = m.commonWidth p r
  txUse : n.fld F.LANE_TX_MASK_USE p = r.rxUse.toNat
  rxUse : n.fld F.LANE_RX_MASK_USE p = m.commonUse p r
  node : n.fld F.FAB_PORT_PEER 0 p = r.node.val
  port : n.fld F.FAB_PORT_PEER_PORT 0 p = r.port.val
  valid : n.fld F.FAB_PORT_PEER_VALID 0 p = 1

theorem linked_linkSet (m : Mod) {p : Nat} (hp : p < 10) (r : CapRecord) : Linked m (m.linkSet p r) p r := by
  obtain ⟨hstate, htxw, hrxw, htxu, hrxu⟩ := fld_widthsSet ((m.modLane p Lane.peered).emit (.capability p (m.capRecord p (m.commonUse p r) true))) p
    (txUse := r.rxUse.toNat) r.rxUse.isLt (commonUse_lt m p r) (widthOf_lt (popCount 32 r.rxUse.toNat)) (widthOf_lt (popCount 32 (m.commonLanes p r)))
  constructor
  case state => exact (fld_modLane _ _ _ F.LANE_STATUS_STATE _ _ _).trans ((fld_peerSet_lane _ hp _ _ rfl).trans hstate)
  case txWidth => exact (fld_modLane _ _ _ _ _ _ _).trans ((fld_peerSet_lane _ hp _ _ rfl).trans htxw)
  case rxWidth => exact (fld_modLane _ _ _ _ _ _ _).trans ((fld_peerSet_lane _ hp _ _ rfl).trans hrxw)
  case txUse => exact (fld_modLane _ _ _ _ _ _ _).trans ((fld_peerSet_lane _ hp _ _ rfl).trans htxu)
  case rxUse => exact (fld_modLane _ _ _ _ _ _ _).trans ((fld_peerSet_lane _ hp _ _ rfl).trans hrxu)
  case node => exact (fld_modLane _ _ _ _ _ _ _).trans (fld_peerSet _ p r.node.isLt r.port.isLt).1
  case port => exact (fld_modLane _ _ _ _ _ _ _).trans (fld_peerSet _ p r.node.isLt r.port.isLt).2.1
  case valid => exact (fld_modLane _ _ _ _ _ _ _).trans (fld_peerSet _ p r.node.isLt r.port.isLt).2.2

theorem linked_settle {m n : Mod} {p : Nat} {r : CapRecord} (h : Linked m n p r) : Linked m n.settle p r := by
  obtain ⟨hstate, htxw, hrxw, htxu, hrxu, hnode, hport, hvalid⟩ := h
  exact ⟨(fld_settle _ _ _ _ _).trans hstate, (fld_settle _ _ _ _ _).trans htxw, (fld_settle _ _ _ _ _).trans hrxw, (fld_settle _ _ _ _ _).trans htxu,
    (fld_settle _ _ _ _ _).trans hrxu, (fld_settle _ _ _ _ _).trans hnode, (fld_settle _ _ _ _ _).trans hport, (fld_settle _ _ _ _ _).trans hvalid⟩

theorem linked_raise {m n : Mod} {p : Nat} {r : CapRecord} (h : Linked m n p r) (code : Nat) (data : List Byte) : Linked m (n.raise code data) p r := by
  have hread {f : Fld} {i k v : Nat} (hf : f.blk.aboveEvents = true) (hv : n.fld f i k = v) : (n.raise code data).fld f i k = v :=
    (fld_raise_above n code data i k 0 hf).trans hv
  obtain ⟨hstate, htxw, hrxw, htxu, hrxu, hnode, hport, hvalid⟩ := h
  exact ⟨hread rfl hstate, hread rfl htxw, hread rfl hrxw, hread rfl htxu, hread rfl hrxu, hread rfl hnode, hread rfl hport, hread rfl hvalid⟩

theorem linked_clearOut {m n : Mod} {p : Nat} {r : CapRecord} (h : Linked m.clearOut n p r) : Linked m n p r := by
  obtain ⟨hstate, htxw, hrxw, htxu, hrxu, hnode, hport, hvalid⟩ := h
  exact ⟨hstate, htxw, hrxw, htxu, hrxu, hnode, hport, hvalid⟩

theorem answers_capability (hq : s.m.quiet = true) {r : CapRecord} (h5 : s.m.laneState port = 5) (hw : 8 ≤ s.m.commonWidth port r)
    (hseen : r.peerSeen = true) (htx : 8 ≤ widthOf (popCount 32 r.rxUse.toNat)) (hr : s.m.fld F.LANE_STATUS_RETRAINING port = 0)
    (hoff : s.m.fld F.FAB_CTL_ENABLE = 0) :
    Answers (.capabilityRecord port r) s (fun t => Linked s.m t.m port r ∧
      .capability port (s.m.capRecord port (s.m.commonUse port r) true) ∈ t.m.out ∧
      Raised t.m 0x0901 (linkData port r (s.m.commonWidth port r) (s.m.commonUse port r)) ∧
      RegsAndEvents (linkRegs port) ((s.m.modLane port Lane.peered).modLane port (Lane.sendingFrom r.rxNext.val)) t.m) := by
  obtain ⟨e, hout⟩ := out_raise (s.m.clearOut.linkSet port r) 0x0901 (linkData port r (s.m.commonWidth port r) (s.m.commonUse port r))
  have hlinked : (s.m.clearOut.linkSet port r).out = [.capability port (s.m.capRecord port (s.m.commonUse port r) true)] := rfl
  rw [hlinked] at hout
  have heffect := capability_active (m := s.m.clearOut) port.isLt h5 hw hseen htx hr hoff
  rw [commonWidth_clearOut, commonUse_clearOut] at heffect
  refine answers_events (exec_capabilityRecord port r s) (as := linkRegs port)
    (m := (s.m.modLane port Lane.peered).modLane port (Lane.sendingFrom r.rxNext.val)) ?_
    (quiet_modLane (quiet_modLane hq port (g := Lane.peered) fun _ h => h) port (g := Lane.sendingFrom r.rxNext.val) fun _ h => h) (draining_not_mem (linkRegs_lt port)) ?_
    (fun hframe => ⟨?_, ?_, ?_, hframe⟩)
  all_goals rw [heffect]
  · exact regsAndEvents_raise (regsAndEvents_trans ⟨rfl, fun _ _ => rfl, fun _ _ => rfl⟩ (regsAndEvents_linkSet s.m.clearOut port r)) _ _
  · exact stays_raise _ _ rfl
  · exact linked_settle (linked_raise (linked_clearOut (linked_linkSet s.m.clearOut port.isLt r)) _ _)
  · exact (congrArg (_ ∈ ·) hout).mpr (.head _)
  · exact raised_raise _ _ _

end

/-- Settles O43: a training step sets the port's state and the registers of its stage; the partner's record and a failed attempt raise their
events besides. -/
theorem portsTrain : Obligations.PortsTrain := by
  unfold Obligations.PortsTrain
  intro ag port lane s hq hag hport st status ctl enters commas comma left excl
  refine ⟨answers_portEnable hq hag, answers_portDisable_dark hq hag, answers_partnerBeacon hq, fun pre main post h2 hleft => ?train,
    fun pos locked => answers_commaLocked hq pos locked, answers_laneSlip hq hag, answers_slipDone hq hag, answers_deskewDone hq hport,
    answers_trainTimeout hq, ?record, ?fails⟩
  case train =>
    have henough : 8 ≤ popCount 32 (s.m.usableLanes port) := by
      rw [← usableLanes_excluding_zero]
      exact hleft
    exact answers_trainDone hq pre main post h2 henough
  case record =>
    rintro r w tx h5 rfl hw hseen rfl htx hr hoff rx
    obtain ⟨t, ht, ⟨hstate, htxw, hrxw, htxu, hrxu, hnode, hport, hvalid⟩, hcap, hraised, hframe⟩ := answers_capability hq h5 hw hseen htx hr hoff
    have hlanes : (s.m.modLane port Lane.peered).modLane port (Lane.sendingFrom r.rxNext.val) =
        { s.m with lanes := modNth s.m.lanes port (fun l => { l with peerSeen := true, txNext := r.rxNext.val }) } :=
      congrArg (fun ls => ({ s.m with lanes := ls } : Mod)) (modNth_modNth _ _ _ _)
    rw [hlanes] at hframe
    exact ⟨t, ht, hstate, htxw, hrxw, htxu, hrxu, hnode, hport, hvalid, hcap, hraised, hframe⟩
  case fails =>
    intro ex n fails h5 hr
    exact ⟨answers_attemptFails_again hq ex h5 hr, answers_attemptFails_last hq ex h5 hr⟩

end Sys2Proof.Machine

/-! # Proofs: the frames of a die link and the retrain of a bundle (14 R388-R394, R399) -/

namespace Sys2Proof.Machine

open Sys2Proof

/-! ## Registers of a die link -/

/-- Registers of the die links lie below DIR_STATUS. -/
theorem d2dReg_lt {f : Fld} (hb : f.blk = .d2d) (p : Fin 17) {k : Nat} (h : f.off + k * f.stride < 0x10000) :
    f.addr p k < F.DIR_STATUS_DRAINING.addr 0 0 := by
  have hp := p.isLt
  have haddr : F.DIR_STATUS_DRAINING.addr 0 0 = 0x700009000008 := rfl
  rw [haddr]
  unfold Fld.addr
  rw [hb]
  simp only [Block.base]
  omega

theorem draining_not_mem_below {as : List Nat} (h : ∀ a ∈ as, a < F.DIR_STATUS_DRAINING.addr 0 0) : F.DIR_STATUS_DRAINING.addr 0 0 ∉ as :=
  fun hmem => absurd (h _ hmem) (lt_irrefl _)

theorem bundleReg_lt (p : Fin 17) (b : Fin 16) : F.D2D_BUNDLE_RETRAINING.addr p b < F.DIR_STATUS_DRAINING.addr 0 0 :=
  d2dReg_lt rfl p (by have := b.isLt; show 0x100 + _ * 8 < _; omega)

theorem bundleReg_not_draining (p : Fin 17) (b : Fin 16) : F.DIR_STATUS_DRAINING.addr 0 0 ∉ [F.D2D_BUNDLE_RETRAINING.addr p b] :=
  draining_not_mem_below (List.forall_mem_singleton.mpr (bundleReg_lt p b))

/-! ## Bundles -/

section
variable {m : Mod} {p b : Nat}

theorem dportOf_modDport (f : DPort → DPort) (hp : p < m.dports.length) : (m.modDport p f).dportOf p = f (m.dportOf p) :=
  nth_modNth_self m.dports p f {} hp

/-- The model keeps a state of the bundle. -/
def Mod.HasBundle (m : Mod) (p b : Nat) : Prop := p < m.dports.length ∧ b < (m.dportOf p).bundles.length

theorem bundleOf_modBundle (f : Bundle → Bundle) (h : m.HasBundle p b) : (m.modBundle p b f).bundleOf p b = f (m.bundleOf p b) := by
  unfold Mod.bundleOf Mod.modBundle
  rw [dportOf_modDport _ h.1]
  exact nth_modNth_self _ b f {} h.2

theorem hasBundle_modBundle (h : m.HasBundle p b) (f : Bundle → Bundle) : (m.modBundle p b f).HasBundle p b := by
  refine ⟨(length_modNth m.dports p _).symm ▸ h.1, ?_⟩
  unfold Mod.modBundle
  rw [dportOf_modDport _ h.1]
  exact (length_modNth (m.dportOf p).bundles b f).symm ▸ h.2

theorem bundleOf_clearOut (m : Mod) (p b : Nat) : m.clearOut.bundleOf p b = m.bundleOf p b := rfl

theorem modBundle_modBundle (m : Mod) (p b : Nat) (f g : Bundle → Bundle) :
    (m.modBundle p b f).modBundle p b g = m.modBundle p b (fun x => g (f x)) := by
  unfold Mod.modBundle Mod.modDport
  simp only [modNth_modNth]

theorem modBundle_congr {f g : Bundle → Bundle} (h : f (m.bundleOf p b) = g (m.bundleOf p b)) : m.modBundle p b f = m.modBundle p b g :=
  congrArg (fun ds => ({ m with dports := ds } : Mod))
    (modNth_congr {} (congrArg (fun bs => ({ m.dportOf p with bundles := bs } : DPort)) (modNth_congr {} h)))

/-- A change that the bundle's state already shows. -/
theorem modBundle_fixed {f : Bundle → Bundle} (h : f (m.bundleOf p b) = m.bundleOf p b) : m.modBundle p b f = m := by
  rw [modBundle_congr (g := id) h]
  unfold Mod.modBundle Mod.modDport
  simp only [modNth_id]
  rw [show (fun d : DPort => ({ d with bundles := d.bundles } : DPort)) = id from rfl, modNth_id]

theorem fld_modBundle (m : Mod) (p b : Nat) (g : Bundle → Bundle) (f : Fld) (i k j : Nat) : (m.modBundle p b g).fld f i k j = m.fld f i k j := rfl

end

/-! ## Steps of the die links -/

/-- `n` differs from `m` in its outputs, in the listed registers, in the free values drawn and in the die-link ports, which are `ds`. -/
def DieStep (as : List Nat) (ds : List DPort) (fr : Nat) (m n : Mod) : Prop :=
  n = { m with out := n.out, regs := n.regs, dports := ds, fresh := fr } ∧ SameRegsBut as m n

section
variable {as : List Nat} {ds : List DPort} {fr : Nat} {m n : Mod}

theorem dieStep_refl (as : List Nat) (m : Mod) : DieStep as m.dports m.fresh m m := ⟨rfl, fun _ _ => rfl⟩

theorem dieStep_setFld (h : DieStep as ds fr m n) (f : Fld) (v i k j : Nat) (ha : f.addr i k ∈ as) : DieStep as ds fr m (n.setFld f v i k j) := by
  obtain ⟨hn, hregs⟩ := h
  refine ⟨?_, fun b hb => (reg_setFld_ne _ _ _ _ _ _ (ne_of_mem_of_not_mem ha hb).symm).trans (hregs b hb)⟩
  rw [hn]
  rfl

theorem dieStep_satFld (h : DieStep as ds fr m n) (f : Fld) (v i k : Nat) (ha : f.addr i k ∈ as) : DieStep as ds fr m (n.satFld f v i k) :=
  dieStep_setFld h f _ i k 0 ha

theorem dieStep_emit (h : DieStep as ds fr m n) (o : Out) : DieStep as ds fr m (n.emit o) := by
  obtain ⟨hn, hregs⟩ := h
  refine ⟨?_, hregs⟩
  rw [hn]
  rfl

theorem dieStep_modBundle (h : DieStep as ds fr m n) (p b : Nat) (g : Bundle → Bundle) :
    DieStep as (modNth ds p (fun d => { d with bundles := modNth d.bundles b g })) fr m (n.modBundle p b g) := by
  obtain ⟨hn, hregs⟩ := h
  refine ⟨?_, hregs⟩
  rw [hn]
  rfl

theorem dieStep_modDport (h : DieStep as ds fr m n) (p : Nat) (g : DPort → DPort) : DieStep as (modNth ds p g) fr m (n.modDport p g) := by
  obtain ⟨hn, hregs⟩ := h
  refine ⟨?_, hregs⟩
  rw [hn]
  rfl

theorem quiet_of_dieStep (h : DieStep as ds fr m n) (hq : m.quiet = true) (hd : F.DIR_STATUS_DRAINING.addr 0 0 ∉ as) : n.quiet = true := by
  obtain ⟨hn, hregs⟩ := h
  have hdrain : n.fld F.DIR_STATUS_DRAINING = m.fld F.DIR_STATUS_DRAINING := by simp only [Mod.fld, hregs _ hd]
  rw [← hq]
  refine quiet_congr ?_ ?_ ?_ (memQuiet_congr ?_ ?_ ?_ ?_ ?_ hdrain) (svcReady_congr ?_ ?_ ?_) <;> rw [hn]

theorem onlyRegs_of_dieStep (h : DieStep as ds fr m.clearOut n) : OnlyRegs as { m with dports := ds, fresh := fr } n.settle := by
  obtain ⟨hn, hregs⟩ := h
  have hrest : SameRest { m with dports := ds, fresh := fr } n := by
    rw [hn]
    rfl
  have hmem : n.mem = m.mem := by
    rw [hn]
    rfl
  exact onlyRegs_settle hrest hmem hregs

/-- A command whose effect is a step of the die links answers that effect, settled. -/
theorem answers_dieStep {c : Instr} {s : State} {f : Mod → Mod} {P : State → Prop} (h : exec c s = s.runF f) (hf : f s.m.clearOut = n)
    (hq : s.m.quiet = true) (hstep : DieStep as ds fr s.m.clearOut n) (hd : F.DIR_STATUS_DRAINING.addr 0 0 ∉ as)
    (ho : n.out.all Out.stays = true)
    (hp : OnlyRegs as { s.m with dports := ds, fresh := fr } n.settle → P { s with m := n.settle }) : Answers c s P := by
  subst hf
  exact answers_runF h (quiet_of_dieStep hstep hq hd) ho (hp (onlyRegs_of_dieStep hstep))

/-- A step of the die links, framed as one that may raise events. -/
theorem regsAndEvents_of_dieStep (h : DieStep as ds m.fresh m n) : RegsAndEvents as { m with dports := ds } n := by
  obtain ⟨hn, hregs⟩ := h
  refine ⟨?_, fun a _ => ?_, fun a ha => hregs a (fun hmem => ha (List.mem_append_left _ hmem))⟩
  · rw [hn]
  · rw [hn]

end

/-! ## A frame that is good -/

/-- The bundle after the expected data frame. -/
def Bundle.accepting (f : Frame) (x : Bundle) : Bundle :=
  { x with expect := (x.expect + 1) % 256, discard := false, naksSent := 0, lastAck := (f.ack.map BitVec.toNat).or x.lastAck,
           naksReceived := if f.ack.isSome then 0 else x.naksReceived }

/-- The port's credits after a frame word. -/
def DPort.credited (f : Frame) (d : DPort) : DPort :=
  { d with freed := modNth d.freed f.cvc.val (· + (f.total.val + 4096 - nth d.totals f.cvc.val 0) % 4096),
           totals := modNth d.totals f.cvc.val (fun _ => f.total.val) }

section
variable {m : Mod} {p b : Nat} {f : Frame}

/-- The bundle receives frames. -/
structure Mod.Receives (m : Mod) (p b : Nat) : Prop where
  state : m.fld F.D2D_STATUS_STATE p = 2
  retraining : m.fld F.D2D_BUNDLE_RETRAINING p b = 0
  width : m.dirWidth p b true ≠ 3
  bundle : b < bundleCount p

theorem Mod.Receives.not_closed (h : m.Receives p b) : ¬(m.fld F.D2D_STATUS_STATE p ≠ 2 ∨ m.fld F.D2D_BUNDLE_RETRAINING p b = 1 ∨
    m.dirWidth p b true = 3 ∨ bundleCount p ≤ b) := by
  obtain ⟨hstate, hretrain, hwidth, hb⟩ := h
  rintro (h | h | h | h)
  · exact h hstate
  · rw [hretrain] at h
    exact absurd h (by decide)
  · exact hwidth h
  · omega

theorem receives_clearOut (h : m.Receives p b) : m.clearOut.Receives p b := ⟨h.1, h.2, h.3, h.4⟩

theorem frame_accepted (h : m.Receives p b) (hb : m.HasBundle p b) (hcrc : f.crcGood = true)
    (hsync : f.sync = 0xB8) (hbad : f.badLanes = []) (hcvc : ¬f.cvc.val ≤ 5) (hkind : f.kind.val = 1) (hseq : f.seq.toNat = (m.bundleOf p b).expect) :
    m.frame p b f = m.modBundle p b (Bundle.accepting f) := by
  unfold Mod.frame
  rw [if_neg h.not_closed]
  cases hack : f.ack with
  | none =>
    simp [Mod.laneErrors, hcrc, hsync, hbad, hcvc, hkind, hseq]
    exact modBundle_congr (by simp [Bundle.accepting, hack])
  | some n =>
    simp [Mod.laneErrors, hcrc, hsync, hbad, hcvc, hkind, hseq, bundleOf_modBundle _ hb, modBundle_modBundle]
    exact modBundle_congr (by simp [Bundle.accepting, hack])

theorem frame_credits (h : m.Receives p b) (hcrc : f.crcGood = true) (hsync : f.sync = 0xB8) (hbad : f.badLanes = []) (hcvc : f.cvc.val ≤ 5)
    (hkind : f.kind.val ≠ 1) (hack : f.ack = none) : m.frame p b f = m.modDport p (DPort.credited f) := by
  unfold Mod.frame
  rw [if_neg h.not_closed]
  simp [Mod.laneErrors, hcrc, hsync, hbad, hcvc, hkind, hack]
  rfl

theorem frame_rejected (h : m.Receives p b) (hcrc : f.crcGood = false) (hbad : f.badLanes = []) (hdiscard : (m.bundleOf p b).discard = false) :
    m.frame p b f = m.frameRejected p b := by
  unfold Mod.frame
  rw [if_neg h.not_closed]
  simp [Mod.laneErrors, hcrc, hbad, hdiscard]

/-- A parity error of one byte lane. -/
def Mod.laneError (m : Mod) (p b : Nat) (k : Fin 8) : Mod :=
  (m.setFld F.D2D_LANE_ERR_LANE (satAdd 8 (m.fld F.D2D_LANE_ERR_LANE p b k.val) 1) p b k.val).modBundle p b
    (fun x => { x with window := modNth x.window k.val (· + 1) })

/-- An acknowledgement, where the frame word holds one. -/
def Bundle.ackIn (a : Option (BitVec 8)) (x : Bundle) : Bundle :=
  match a with
  | some n => { x with lastAck := some n.toNat, naksReceived := 0 }
  | none => x

theorem frame_badLane (h : m.Receives p b) (hb : m.HasBundle p b) {k : Fin 8} (hcrc : f.crcGood = true)
    (hsync : f.sync = 0xB8) (hbad : f.badLanes = [k]) (hcvc : ¬f.cvc.val ≤ 5) (hkind : f.kind.val = 1) (hdiscard : (m.bundleOf p b).discard = false) :
    m.frame p b f = ((m.laneError p b k).modBundle p b (Bundle.ackIn f.ack)).frameRejected p b := by
  have hlane : (m.laneError p b k).bundleOf p b = { m.bundleOf p b with window := modNth (m.bundleOf p b).window k.val (· + 1) } :=
    bundleOf_modBundle (m := m.setFld F.D2D_LANE_ERR_LANE (satAdd 8 (m.fld F.D2D_LANE_ERR_LANE p b k.val) 1) p b k.val) _ hb
  have hb' : (m.laneError p b k).HasBundle p b :=
    hasBundle_modBundle (m := m.setFld F.D2D_LANE_ERR_LANE (satAdd 8 (m.fld F.D2D_LANE_ERR_LANE p b k.val) 1) p b k.val) hb _
  have hlanes : m.laneErrors p b f.badLanes = m.laneError p b k := by
    rw [hbad]
    rfl
  unfold Mod.frame
  rw [if_neg h.not_closed, hlanes]
  cases hack : f.ack with
  | none =>
    rw [modBundle_fixed (f := Bundle.ackIn none) rfl]
    simp [hcrc, hsync, hbad, hcvc, hkind, hlane, hdiscard]
  | some n =>
    simp [hcrc, hsync, hbad, hcvc, hkind, bundleOf_modBundle _ hb', hlane, hdiscard]
    rfl

end

/-! ## NAKs and retrains -/

section
variable {m : Mod} {p b : Nat}

/-- The bundle after a NAK that it sends. -/
def Bundle.nakking (x : Bundle) : Bundle := { x with discard := true, naksSent := x.naksSent + 1 }

/-- The bundle after a NAK that it receives. -/
def Bundle.nakked (n : Nat) (x : Bundle) : Bundle := { x with naksReceived := x.naksReceived + 1, lastAck := some ((n + 255) % 256) }

/-- A rejected frame, counted and answered. -/
def Mod.nakSent (m : Mod) (p b : Nat) : Mod :=
  ((m.satFld F.D2D_BUNDLE_REPLAYS 1 p b).modBundle p b Bundle.nakking).emit (.frameNak p b (m.bundleOf p b).expect)

theorem fld_ctl_satReplays (m : Mod) (p b : Nat) (f : Fld) (hf : f.blk = .d2d) (h0 : f.off < 0x100 ∧ f.stride = 0) :
    (m.satFld F.D2D_BUNDLE_REPLAYS 1 p b).fld f p = m.fld f p := by
  obtain ⟨hoff, hstride⟩ := h0
  exact fld_setFld_offset m F.D2D_BUNDLE_REPLAYS f _ p b 0 0 0 hf.symm (by rw [hstride]; show f.off + 0 * 0 ≠ 0x100 + b * 8; omega)

theorem frameRejected_eq (hb : m.HasBundle p b) : m.frameRejected p b =
    if m.fld F.D2D_CTL_NAK_LIMIT p ≤ (m.bundleOf p b).naksSent + 1 then (m.nakSent p b).bundleRetrain p b 1 else m.nakSent p b := by
  have hbundle : ((m.satFld F.D2D_BUNDLE_REPLAYS 1 p b).modBundle p b Bundle.nakking).bundleOf p b = Bundle.nakking (m.bundleOf p b) :=
    bundleOf_modBundle (m := m.satFld F.D2D_BUNDLE_REPLAYS 1 p b) _ hb
  have hlimit : (m.nakSent p b).fld F.D2D_CTL_NAK_LIMIT p = m.fld F.D2D_CTL_NAK_LIMIT p := fld_ctl_satReplays m p b _ rfl (by decide)
  have hexpect : (((m.satFld F.D2D_BUNDLE_REPLAYS 1 p b).modBundle p b Bundle.nakking).emit
      (.frameNak p b (((m.satFld F.D2D_BUNDLE_REPLAYS 1 p b).modBundle p b Bundle.nakking).bundleOf p b).expect)) = m.nakSent p b := by
    rw [hbundle]
    rfl
  have hcount : ((m.nakSent p b).bundleOf p b).naksSent = (m.bundleOf p b).naksSent + 1 := congrArg Bundle.naksSent hbundle
  refine Eq.trans (b := if (m.nakSent p b).fld F.D2D_CTL_NAK_LIMIT p ≤ ((m.nakSent p b).bundleOf p b).naksSent then
    (m.nakSent p b).bundleRetrain p b 1 else m.nakSent p b) ?_ ?_
  · rw [← hexpect]
    rfl
  · rw [hlimit, hcount]

theorem frameNakIn_few {n : Nat} (hb : m.HasBundle p b) (hstate : m.fld F.D2D_STATUS_STATE p = 2) (hr : m.fld F.D2D_BUNDLE_RETRAINING p b = 0)
    (hlt : b < bundleCount p) (hfew : (m.bundleOf p b).naksReceived + 1 < m.fld F.D2D_CTL_NAK_LIMIT p) : m.frameNakIn p b n =
    ((m.satFld F.D2D_BUNDLE_REPLAYS 1 p b).modBundle p b (Bundle.nakked n)).emit (.frameResend p b n) := by
  have hbundle : ((m.satFld F.D2D_BUNDLE_REPLAYS 1 p b).modBundle p b (Bundle.nakked n)).bundleOf p b = (m.bundleOf p b).nakked n :=
    bundleOf_modBundle (m := m.satFld F.D2D_BUNDLE_REPLAYS 1 p b) _ hb
  have hlimit : (m.satFld F.D2D_BUNDLE_REPLAYS 1 p b).fld F.D2D_CTL_NAK_LIMIT p = m.fld F.D2D_CTL_NAK_LIMIT p :=
    fld_ctl_satReplays m p b _ rfl (by decide)
  have hopen : ¬(m.fld F.D2D_STATUS_STATE p ≠ 2 ∨ m.fld F.D2D_BUNDLE_RETRAINING p b = 1 ∨ bundleCount p ≤ b) := by
    rw [hstate, hr]
    omega
  refine (if_neg hopen).trans (if_neg ?_)
  show ¬(m.satFld F.D2D_BUNDLE_REPLAYS 1 p b).fld F.D2D_CTL_NAK_LIMIT p ≤
    (((m.satFld F.D2D_BUNDLE_REPLAYS 1 p b).modBundle p b (Bundle.nakked n)).bundleOf p b).naksReceived
  rw [hbundle, hlimit]
  exact Nat.not_le.mpr hfew

/-- The bundle that retrains. -/
def Bundle.retraining (x : Bundle) : Bundle := { x with naksSent := 0, naksReceived := 0, window := List.replicate 8 0 }

theorem bundleRetrain_eq (hstate : m.fld F.D2D_STATUS_STATE p = 2) (hr : m.fld F.D2D_BUNDLE_RETRAINING p b = 0) (hlt : b < bundleCount p) (cause : Nat) :
    m.bundleRetrain p b cause = (((m.setFld F.D2D_BUNDLE_RETRAINING 1 p b).satFld F.D2D_BUNDLE_RETRAINS 1 p b).modBundle p b
      Bundle.retraining).raise 0x0A01 (d1 p ++ d1 b ++ d1 cause) := by
  have hopen : ¬(m.fld F.D2D_STATUS_STATE p ≠ 2 ∨ m.fld F.D2D_BUNDLE_RETRAINING p b = 1 ∨ bundleCount p ≤ b) := by
    rw [hstate, hr]
    omega
  exact if_neg hopen

end

/-! ## Writes of D2D_BUNDLE -/

/-- The fields of a write that RETRAIN does not set come from the data as written. -/
theorem bits_retrainData (v : Nat) : bits (v ||| 0x40) 5 1 = bits v 5 1 ∧ bits (v ||| 0x40) 16 16 = bits v 16 16 ∧ bit (v ||| 0x40) 6 = true := by
  have hlow : (v ||| 0x40) % 2 ^ 6 = v % 2 ^ 6 := by
    rw [Nat.or_mod_two_pow, show 0x40 % 2 ^ 6 = 0 from rfl, Nat.or_zero]
  refine ⟨bits_congr_mod hlow (by decide), ?_, ?_⟩
  · unfold bits
    rw [Nat.shiftRight_or_distrib, show 0x40 >>> 16 = 0 from rfl, Nat.or_zero]
  · rw [bit_eq_testBit, Nat.testBit_or, show Nat.testBit 0x40 6 = true by decide, Bool.or_true]

/-- The fields that a write of D2D_BUNDLE sets. -/
def Mod.bundleFields (m : Mod) (p b v : Nat) : Mod :=
  ((m.setFld F.D2D_BUNDLE_EXCLUDE (bits v 5 1) p b).setFld F.D2D_BUNDLE_RETRAINS (bits v 16 16) p b).setFld F.D2D_BUNDLE_REPLAYS (bits v 32 32) p b

theorem bundleWrite_retrain {m : Mod} {p b v : Nat} (hexcl : bits v 5 1 = m.fld F.D2D_BUNDLE_EXCLUDE p b) (hv : bit v 6 = true) :
    m.bundleWrite p b v = ((m.bundleFields p b v).bundleRetrain p b 4, .ok) := by
  unfold Mod.bundleWrite
  refine (if_neg fun h => h.2 hexcl).trans ?_
  exact Prod.ext (if_pos hv) rfl

theorem fld_bundleFields (m : Mod) (p b v : Nat) : (m.bundleFields p b v).fld F.D2D_STATUS_STATE p = m.fld F.D2D_STATUS_STATE p ∧
    (m.bundleFields p b v).fld F.D2D_BUNDLE_RETRAINING p b = m.fld F.D2D_BUNDLE_RETRAINING p b ∧
    (m.bundleFields p b v).fld F.D2D_BUNDLE_RETRAINS p b = bits v 16 16 := by
  have hoff : 0x8 + 0 * 0 ≠ 0x100 + b * 8 := by omega
  unfold Mod.bundleFields
  refine ⟨?_, ?_, ?_⟩
  · exact (fld_setFld_offset _ F.D2D_BUNDLE_REPLAYS F.D2D_STATUS_STATE _ p b 0 0 0 rfl hoff).trans
      ((fld_setFld_offset _ F.D2D_BUNDLE_RETRAINS F.D2D_STATUS_STATE _ p b 0 0 0 rfl hoff).trans
        (fld_setFld_offset _ F.D2D_BUNDLE_EXCLUDE F.D2D_STATUS_STATE _ p b 0 0 0 rfl hoff))
  · rw [fld_setFld_bitsApart _ _ _ _ _ _ (by decide), fld_setFld_bitsApart _ _ _ _ _ _ (by decide), fld_setFld_bitsApart _ _ _ _ _ _ (by decide)]
  · rw [fld_setFld_bitsApart _ _ _ _ _ _ (by decide)]
    exact fld_setFld_fits _ F.D2D_BUNDLE_RETRAINS p b (by decide) (bits_lt _ _ _)

theorem dieStep_bundleFields (m : Mod) (p b v : Nat) :
    DieStep [F.D2D_BUNDLE_RETRAINING.addr p b] m.dports m.fresh m (m.bundleFields p b v) :=
  dieStep_setFld (dieStep_setFld (dieStep_setFld (dieStep_refl _ m) F.D2D_BUNDLE_EXCLUDE _ p b 0 (.head _)) F.D2D_BUNDLE_RETRAINS _ p b 0 (.head _))
    F.D2D_BUNDLE_REPLAYS _ p b 0 (.head _)

/-! ## The window of parity errors -/

/-- The port with the counts of its window cleared. -/
def DPort.windowless (d : DPort) : DPort := { d with bundles := d.bundles.map (fun b => { b with window := List.replicate 8 0 }) }

/-- Bundles with a lane at the limit. -/
def Mod.windowHits (m : Mod) (p : Nat) : List Nat :=
  (List.range (bundleCount p)).filter (fun b => (m.bundleOf p b).window.any (fun n => m.fld F.D2D_CTL_LANE_LIMIT p ≤ n))

theorem windowHits_clearOut (m : Mod) (p : Nat) : m.clearOut.windowHits p = m.windowHits p := rfl

theorem laneWindow_eq (m : Mod) (p : Nat) :
    m.laneWindow p = (m.windowHits p).foldl (fun m b => m.bundleRetrain p b 2) (m.modDport p DPort.windowless) := rfl

theorem window_below {m : Mod} {p c : Nat} (h : (m.bundleOf p c).window.all (· < m.fld F.D2D_CTL_LANE_LIMIT p) = true) :
    (m.bundleOf p c).window.any (fun n => m.fld F.D2D_CTL_LANE_LIMIT p ≤ n) = false := by
  simp only [List.all_eq_true, decide_eq_true_eq, List.any_eq_false] at h ⊢
  exact fun n hn => Nat.not_le.mpr (h n hn)

theorem windowHits_none {m : Mod} {p : Nat} (h : ∀ c < bundleCount p, (m.bundleOf p c).window.all (· < m.fld F.D2D_CTL_LANE_LIMIT p) = true) :
    m.windowHits p = [] :=
  List.filter_eq_nil_iff.mpr fun c hc => ne_true_of_eq_false (window_below (h c (List.mem_range.mp hc)))

/-- A list of numbers below `n` of which only one passes. -/
theorem filter_range_single {n b : Nat} {q : Nat → Bool} (hb : b < n) (hq : q b = true) (hne : ∀ c < n, c ≠ b → q c = false) :
    (List.range n).filter q = [b] := by
  have hsame : (List.range n).filter q = (List.range n).filter (· == b) := List.filter_congr fun c hc => by
    by_cases hcb : c = b
    · rw [hcb, hq, beq_self_eq_true]
    · rw [hne c (List.mem_range.mp hc) hcb, beq_eq_false_iff_ne.mpr hcb]
  rw [hsame, List.filter_beq, List.count_eq_one_of_mem List.nodup_range (List.mem_range.mpr hb)]
  rfl

theorem windowHits_single {m : Mod} {p b : Nat} (hb : b < bundleCount p)
    (hothers : ∀ c < bundleCount p, c ≠ b → (m.bundleOf p c).window.all (· < m.fld F.D2D_CTL_LANE_LIMIT p) = true)
    (hhit : (m.bundleOf p b).window.any (m.fld F.D2D_CTL_LANE_LIMIT p ≤ ·) = true) : m.windowHits p = [b] :=
  filter_range_single hb hhit fun c hc hcb => window_below (hothers c hc hcb)

section
variable {ag : Agent} {port : Fin 17} {b : Fin 16} {s : State}

/-- The bundle's register counts one more replay. -/
theorem fld_replays_sat (m : Mod) (p b : Nat) :
    (m.satFld F.D2D_BUNDLE_REPLAYS 1 p b).fld F.D2D_BUNDLE_REPLAYS p b = min (m.fld F.D2D_BUNDLE_REPLAYS p b + 1) 0xFFFFFFFF :=
  fld_satFld_at m F.D2D_BUNDLE_REPLAYS p b (by decide)

/-- A command that only changes the die-link ports. -/
theorem answers_dports {c : Instr} {f : Mod → Mod} {ds : List DPort} (h : exec c s = s.runF f) (hq : s.m.quiet = true)
    (hf : f s.m.clearOut = { s.m.clearOut with dports := ds }) :
    Answers c s (fun t => t.m.out = [] ∧ OnlyRegs [] { s.m with dports := ds } t.m) :=
  answers_dieStep h hf hq (as := []) (ds := ds) (fr := s.m.fresh) ⟨rfl, fun _ _ => rfl⟩ List.not_mem_nil rfl (fun honly => ⟨rfl, honly⟩)

/-- A command that counts a replay, changes the bundle's state and answers its partner. -/
theorem answers_replay {c : Instr} {f : Mod → Mod} {g : Bundle → Bundle} {o : Out} (h : exec c s = s.runF f) (hq : s.m.quiet = true)
    (hf : f s.m.clearOut = ((s.m.clearOut.satFld F.D2D_BUNDLE_REPLAYS 1 port b).modBundle port b g).emit o) (ho : o.stays = true) :
    Answers c s (fun t => t.m.out = [o] ∧ t.m.fld F.D2D_BUNDLE_REPLAYS port b = min (s.m.fld F.D2D_BUNDLE_REPLAYS port b + 1) 0xFFFFFFFF ∧
      OnlyRegs [F.D2D_BUNDLE_RETRAINING.addr port b] (s.m.modBundle port b g) t.m) := by
  have hstep := dieStep_emit (dieStep_modBundle (dieStep_satFld (dieStep_refl [F.D2D_BUNDLE_RETRAINING.addr port b] s.m.clearOut)
    F.D2D_BUNDLE_REPLAYS 1 port b (.head _)) port b g) o
  refine answers_dieStep h hf hq hstep (bundleReg_not_draining port b) ?_ (fun honly => ⟨rfl, ?_, honly⟩)
  · exact Bool.and_eq_true_iff.mpr ⟨ho, rfl⟩
  · exact (fld_settle _ _ _ _ _).trans (fld_replays_sat s.m.clearOut port b)

/-- What a retrain leaves: the bundle's bit, the event, nothing else. -/
theorem retrained {m : Mod} {ds : List DPort} {n : Mod} (hstep : DieStep [F.D2D_BUNDLE_RETRAINING.addr port b] ds m.fresh m n)
    (hstate : n.fld F.D2D_STATUS_STATE port = 2) (hr : n.fld F.D2D_BUNDLE_RETRAINING port b = 0) (hlt : b.val < bundleCount port)
    (ho : n.out.all Out.stays = true) (cause : Nat) :
    (n.bundleRetrain port b cause).fld F.D2D_BUNDLE_RETRAINING port b = 1 ∧
    (n.bundleRetrain port b cause).fld F.D2D_BUNDLE_RETRAINS port b = min (n.fld F.D2D_BUNDLE_RETRAINS port b + 1) 0xFFFF ∧
    Raised (n.bundleRetrain port b cause) 0x0A01 (d1 port ++ d1 b ++ d1 cause) ∧ (n.bundleRetrain port b cause).out.all Out.stays = true ∧
    RegsAndEvents [F.D2D_BUNDLE_RETRAINING.addr port b] { m with dports := (n.bundleRetrain port b cause).dports } (n.bundleRetrain port b cause) := by
  rw [bundleRetrain_eq hstate hr hlt]
  have hframe := regsAndEvents_raise (regsAndEvents_of_dieStep (dieStep_modBundle (dieStep_satFld (dieStep_setFld hstep F.D2D_BUNDLE_RETRAINING 1 port b 0
    (.head _)) F.D2D_BUNDLE_RETRAINS 1 port b (.head _)) port b Bundle.retraining)) 0x0A01 (d1 port ++ d1 b ++ d1 cause)
  refine ⟨?_, ?_, raised_raise _ _ _, stays_raise _ _ ho, ?_⟩
  · refine (fld_raise_above _ _ _ _ _ _ rfl).trans ((fld_modBundle _ _ _ _ _ _ _ _).trans ?_)
    exact (fld_setFld_bitsApart _ _ _ _ _ _ (by decide)).trans (fld_setFld_fits n F.D2D_BUNDLE_RETRAINING port b (by decide) (by decide))
  · refine (fld_raise_above _ _ _ _ _ _ rfl).trans ((fld_modBundle _ _ _ _ _ _ _ _).trans ?_)
    refine (fld_satFld_at _ F.D2D_BUNDLE_RETRAINS port b (by decide)).trans ?_
    rw [fld_setFld_bitsApart _ _ _ _ _ _ (by decide)]
    rfl
  · have hdports := congrArg Mod.dports hframe.1
    rw [show ((((n.setFld F.D2D_BUNDLE_RETRAINING 1 port b).satFld F.D2D_BUNDLE_RETRAINS 1 port b).modBundle port b Bundle.retraining).raise 0x0A01
      (d1 port ++ d1 b ++ d1 cause)).dports = _ from hdports]
    exact hframe

theorem dports_quiet {m : Mod} (hq : m.quiet = true) (ds : List DPort) : ({ m with dports := ds } : Mod).quiet = true :=
  quiet_of_dieStep (as := []) (ds := ds) (fr := m.fresh) (m := m) ⟨rfl, fun _ _ => rfl⟩ hq List.not_mem_nil

/-- A command that retrains the bundle. -/
theorem answers_retrain {c : Instr} {f : Mod → Mod} {ds : List DPort} {n : Mod} {cause : Nat} (h : exec c s = s.runF f) (hq : s.m.quiet = true)
    (hf : f s.m.clearOut = n.bundleRetrain port b cause) (hstep : DieStep [F.D2D_BUNDLE_RETRAINING.addr port b] ds s.m.fresh s.m.clearOut n)
    (hstate : n.fld F.D2D_STATUS_STATE port = 2) (hr : n.fld F.D2D_BUNDLE_RETRAINING port b = 0) (hlt : b.val < bundleCount port)
    (ho : n.out.all Out.stays = true) :
    Answers c s (fun t => t.m.fld F.D2D_BUNDLE_RETRAINING port b = 1 ∧ Raised t.m 0x0A01 (d1 port ++ d1 b ++ d1 cause) ∧
      RegsAndEvents [F.D2D_BUNDLE_RETRAINING.addr port b] { s.m with dports := t.m.dports } t.m) := by
  obtain ⟨hbit, -, hraised, hstays, hframe⟩ := retrained hstep hstate hr hlt ho cause
  have hframe' := regsAndEvents_trans (regsAndEvents_clearOut _ { s.m with dports := (n.bundleRetrain port b cause).dports }) hframe
  refine answers_events h (m := { s.m with dports := (n.bundleRetrain port b cause).dports }) (by rw [hf]; exact hframe') (dports_quiet hq _)
    (bundleReg_not_draining port b) (by rw [hf]; exact hstays) (fun hsettled => ?_)
  rw [hf] at hsettled ⊢
  exact ⟨(fld_settle _ _ _ _ _).trans hbit, hraised, hsettled⟩

section frames
variable (hq : s.m.quiet = true) (hopen : s.m.Receives port b) (hb : s.m.HasBundle port b)
include hq hopen hb

theorem answers_frameAccepted {f : Frame} (hcrc : f.crcGood = true) (hsync : f.sync = 0xB8) (hbad : f.badLanes = []) (hcvc : ¬f.cvc.val ≤ 5)
    (hkind : f.kind.val = 1) (hseq : f.seq.toNat = (s.m.bundleOf port b).expect) :
    Answers (.frameReceive port b f) s (fun t => t.m.out = [] ∧ OnlyRegs [] (s.m.modBundle port b (Bundle.accepting f)) t.m) :=
  answers_dports (exec_frameReceive port b f s) hq (frame_accepted (receives_clearOut hopen) hb hcrc hsync hbad hcvc hkind hseq)

omit hb in
theorem answers_frameCredits {f : Frame} (hcrc : f.crcGood = true) (hsync : f.sync = 0xB8) (hbad : f.badLanes = []) (hcvc : f.cvc.val ≤ 5)
    (hkind : f.kind.val ≠ 1) (hack : f.ack = none) :
    Answers (.frameReceive port b f) s (fun t => t.m.out = [] ∧ OnlyRegs [] (s.m.modDport port (DPort.credited f)) t.m) :=
  answers_dports (exec_frameReceive port b f s) hq (frame_credits (receives_clearOut hopen) hcrc hsync hbad hcvc hkind hack)

theorem answers_frameRejected {f : Frame} (hcrc : f.crcGood = false) (hbad : f.badLanes = []) (hdiscard : (s.m.bundleOf port b).discard = false)
    (hfew : (s.m.bundleOf port b).naksSent + 1 < s.m.fld F.D2D_CTL_NAK_LIMIT port) :
    Answers (.frameReceive port b f) s (fun t => t.m.out = [.frameNak port b (s.m.bundleOf port b).expect] ∧
      t.m.fld F.D2D_BUNDLE_REPLAYS port b = min (s.m.fld F.D2D_BUNDLE_REPLAYS port b + 1) 0xFFFFFFFF ∧
      OnlyRegs [F.D2D_BUNDLE_RETRAINING.addr port b] (s.m.modBundle port b Bundle.nakking) t.m) :=
  answers_replay (exec_frameReceive port b f s) hq ((frame_rejected (receives_clearOut hopen) hcrc hbad hdiscard).trans
    ((frameRejected_eq (m := s.m.clearOut) hb).trans (if_neg (Nat.not_le.mpr hfew)))) rfl

theorem answers_frameRejected_limit {f : Frame} (hcrc : f.crcGood = false) (hbad : f.badLanes = []) (hdiscard : (s.m.bundleOf port b).discard = false)
    (hmany : s.m.fld F.D2D_CTL_NAK_LIMIT port ≤ (s.m.bundleOf port b).naksSent + 1) :
    Answers (.frameReceive port b f) s (fun t => t.m.fld F.D2D_BUNDLE_RETRAINING port b = 1 ∧ Raised t.m 0x0A01 (d1 port ++ d1 b ++ d1 1) ∧
      RegsAndEvents [F.D2D_BUNDLE_RETRAINING.addr port b] { s.m with dports := t.m.dports } t.m) := by
  have hstep := dieStep_emit (dieStep_modBundle (dieStep_satFld (dieStep_refl [F.D2D_BUNDLE_RETRAINING.addr port b] s.m.clearOut)
    F.D2D_BUNDLE_REPLAYS 1 port b (.head _)) port b Bundle.nakking) (.frameNak port b (s.m.bundleOf port b).expect)
  have heffect := (frame_rejected (receives_clearOut hopen) hcrc hbad hdiscard).trans
    ((frameRejected_eq (m := s.m.clearOut) hb).trans (if_pos hmany))
  refine answers_retrain (exec_frameReceive port b f s) hq heffect hstep ?_ ?_ hopen.bundle rfl
  · exact (fld_ctl_satReplays s.m.clearOut port b F.D2D_STATUS_STATE rfl (by decide)).trans hopen.state
  · exact (fld_setFld_bitsApart s.m.clearOut _ _ _ _ _ (by decide)).trans hopen.retraining

theorem answers_frameBadLane {f : Frame} {k : Fin 8} (hcrc : f.crcGood = true) (hsync : f.sync = 0xB8) (hbad : f.badLanes = [k]) (hcvc : ¬f.cvc.val ≤ 5)
    (hkind : f.kind.val = 1) (hdiscard : (s.m.bundleOf port b).discard = false)
    (hfew : (s.m.bundleOf port b).naksSent + 1 < s.m.fld F.D2D_CTL_NAK_LIMIT port) :
    Answers (.frameReceive port b f) s (fun t => t.m.out = [.frameNak port b (s.m.bundleOf port b).expect] ∧
      t.m.fld F.D2D_LANE_ERR_LANE port b k = min (s.m.fld F.D2D_LANE_ERR_LANE port b k + 1) 255) := by
  have hlane : (s.m.clearOut.laneError port b k).HasBundle port b :=
    hasBundle_modBundle (m := s.m.clearOut.setFld F.D2D_LANE_ERR_LANE (satAdd 8 (s.m.fld F.D2D_LANE_ERR_LANE port b k) 1) port b k) hb _
  have hacked : ((s.m.clearOut.laneError port b k).modBundle port b (Bundle.ackIn f.ack)).bundleOf port b =
      Bundle.ackIn f.ack { s.m.bundleOf port b with window := modNth (s.m.bundleOf port b).window k.val (· + 1) } := by
    rw [bundleOf_modBundle _ hlane]
    exact congrArg _ (bundleOf_modBundle (m := s.m.clearOut.setFld F.D2D_LANE_ERR_LANE (satAdd 8 (s.m.fld F.D2D_LANE_ERR_LANE port b k) 1) port b k) _ hb)
  have hkeeps (x : Bundle) : (x.ackIn f.ack).naksSent = x.naksSent ∧ (x.ackIn f.ack).expect = x.expect := by
    cases f.ack <;> exact ⟨rfl, rfl⟩
  have hlimit : ((s.m.clearOut.laneError port b k).modBundle port b (Bundle.ackIn f.ack)).fld F.D2D_CTL_NAK_LIMIT port =
      s.m.fld F.D2D_CTL_NAK_LIMIT port :=
    fld_setFld_offset s.m.clearOut F.D2D_LANE_ERR_LANE F.D2D_CTL_NAK_LIMIT _ port b k 0 0 rfl (by show 0 + 0 * 0 ≠ 0x400 + b.val * 8; omega)
  have heffect : s.m.clearOut.frame port b f = ((s.m.clearOut.laneError port b k).modBundle port b (Bundle.ackIn f.ack)).nakSent port b := by
    rw [frame_badLane (receives_clearOut hopen) hb hcrc hsync hbad hcvc hkind hdiscard, frameRejected_eq (hasBundle_modBundle hlane _), hlimit, hacked,
      (hkeeps _).1]
    exact if_neg (Nat.not_le.mpr hfew)
  have hregs : F.D2D_LANE_ERR_LANE.addr port b ∈ [F.D2D_BUNDLE_RETRAINING.addr port b, F.D2D_LANE_ERR_LANE.addr port b] := .tail _ (.head _)
  have hstep := dieStep_emit (dieStep_modBundle (dieStep_satFld (dieStep_modBundle (dieStep_modBundle (dieStep_setFld (dieStep_refl _ s.m.clearOut)
    F.D2D_LANE_ERR_LANE (satAdd 8 (s.m.fld F.D2D_LANE_ERR_LANE port b k) 1) port b k hregs) port b
    (fun x => { x with window := modNth x.window k.val (· + 1) })) port b (Bundle.ackIn f.ack)) F.D2D_BUNDLE_REPLAYS 1 port b (.head _)) port b
    Bundle.nakking) (.frameNak port b (((s.m.clearOut.laneError port b k).modBundle port b (Bundle.ackIn f.ack)).bundleOf port b).expect)
  refine answers_dieStep (exec_frameReceive port b f s) heffect hq hstep (draining_not_mem_below (List.forall_mem_cons.mpr ⟨bundleReg_lt port b,
    List.forall_mem_singleton.mpr (d2dReg_lt rfl port (by have := b.isLt; show 0x400 + _ * 8 < _; omega))⟩)) rfl (fun _ => ⟨?_, ?_⟩)
  · show [Out.frameNak port b (((s.m.clearOut.laneError port b k).modBundle port b (Bundle.ackIn f.ack)).bundleOf port b).expect] = _
    rw [hacked, (hkeeps _).2]
  · have hk := k.isLt
    refine (fld_settle _ _ _ _ _).trans ?_
    refine (fld_setFld_offset _ F.D2D_BUNDLE_REPLAYS F.D2D_LANE_ERR_LANE _ port b 0 b k rfl
      (by have := b.isLt; show 0x400 + b.val * 8 ≠ 0x100 + b.val * 8; omega)).trans ?_
    exact fld_setFld_comma s.m.clearOut F.D2D_LANE_ERR_LANE port b (by show 0 + _ * 8 + 8 ≤ 64; omega)
      (lt_of_le_of_lt (Nat.min_le_right _ _) (by decide))

theorem answers_frameNak (n : BitVec 8) (hfew : (s.m.bundleOf port b).naksReceived + 1 < s.m.fld F.D2D_CTL_NAK_LIMIT port) :
    Answers (.frameNak port b n) s (fun t => t.m.out = [.frameResend port b n.toNat] ∧
      t.m.fld F.D2D_BUNDLE_REPLAYS port b = min (s.m.fld F.D2D_BUNDLE_REPLAYS port b + 1) 0xFFFFFFFF ∧
      OnlyRegs [F.D2D_BUNDLE_RETRAINING.addr port b] (s.m.modBundle port b (Bundle.nakked n.toNat)) t.m) :=
  answers_replay (exec_frameNak port b n s) hq (frameNakIn_few (m := s.m.clearOut) hb hopen.state hopen.retraining hopen.bundle hfew) rfl

omit hb in
theorem answers_bundleRetrain (hag : regAgent ag = true) (data : Word) (hexcl : bits data.toNat 5 1 = s.m.fld F.D2D_BUNDLE_EXCLUDE port b) :
    Answers (.bundleRetrain ag port b data) s (fun t => (t.m.fld F.D2D_BUNDLE_RETRAINING port b = 1 ∧ Raised t.m 0x0A01 (d1 port ++ d1 b ++ d1 4) ∧
      RegsAndEvents [F.D2D_BUNDLE_RETRAINING.addr port b] { s.m with dports := t.m.dports } t.m) ∧ .done .ok [] ∈ t.m.out ∧
      t.m.fld F.D2D_BUNDLE_RETRAINS port b = min (bits data.toNat 16 16 + 1) 0xFFFF) := by
  obtain ⟨hv5, hv16, hv6⟩ := bits_retrainData data.toNat
  have hwrite := bundleWrite_retrain (m := s.m.clearOut) (p := port) (b := b) (v := data.toNat ||| 0x40) (hv5.trans hexcl) hv6
  obtain ⟨hstate, hr, hcount⟩ := fld_bundleFields s.m.clearOut port b (data.toNat ||| 0x40)
  rw [hv16] at hcount
  obtain ⟨hbit, hcounted, hraised, hstays, hframe⟩ := retrained (dieStep_bundleFields s.m.clearOut port b
    (data.toNat ||| 0x40)) (hstate.trans hopen.state) (hr.trans hopen.retraining) hopen.bundle rfl 4
  have hframe' := regsAndEvents_trans (regsAndEvents_clearOut _ { s.m with
    dports := ((s.m.clearOut.bundleFields port b (data.toNat ||| 0x40)).bundleRetrain port b 4).dports }) hframe
  have hmod : s.m.clearOut.byAgent ag (F.D2D_BUNDLE_RETRAIN.addr port b)
      (fun m => if bundleCount port ≤ b.val then (m, .ok) else m.bundleWrite port b (data.toNat ||| 0x40)) =
      ((s.m.clearOut.bundleFields port b (data.toNat ||| 0x40)).bundleRetrain port b 4).emit (.done .ok []) := by
    have hin : (if bundleCount port ≤ b.val then (s.m.clearOut, Status.ok) else s.m.clearOut.bundleWrite port b (data.toNat ||| 0x40)) =
        ((s.m.clearOut.bundleFields port b (data.toNat ||| 0x40)).bundleRetrain port b 4, .ok) :=
      (if_neg (Nat.not_le.mpr hopen.bundle)).trans hwrite
    rw [byAgent_ok hag (by rw [hin]), hin]
  refine answers_events (exec_bundleRetrain ag port b data s)
    (m := { s.m with dports := ((s.m.clearOut.bundleFields port b (data.toNat ||| 0x40)).bundleRetrain port b 4).dports })
    (by rw [hmod]; exact regsAndEvents_emit hframe' _) (dports_quiet hq _) (bundleReg_not_draining port b) ?_ (fun hsettled => ?_)
  · rw [hmod]
    exact (List.all_append ..).trans (Bool.and_eq_true_iff.mpr ⟨hstays, rfl⟩)
  · rw [hmod] at hsettled ⊢
    refine ⟨⟨(fld_settle _ _ _ _ _).trans hbit, raised_mono hraised fun o ho => List.mem_append_left _ ho, hsettled⟩,
      List.mem_append_right _ (.head _), (fld_settle _ _ _ _ _).trans (hcounted.trans ?_)⟩
    rw [hcount]

omit hb in
theorem answers_window_hit
    (hothers : ∀ c < bundleCount port, c ≠ b.val → (s.m.bundleOf port c).window.all (· < s.m.fld F.D2D_CTL_LANE_LIMIT port) = true)
    (hhit : (s.m.bundleOf port b).window.any (s.m.fld F.D2D_CTL_LANE_LIMIT port ≤ ·) = true) :
    Answers (.laneErrorWindow port) s (fun t => t.m.fld F.D2D_BUNDLE_RETRAINING port b = 1 ∧ Raised t.m 0x0A01 (d1 port ++ d1 b ++ d1 2) ∧
      RegsAndEvents [F.D2D_BUNDLE_RETRAINING.addr port b] { s.m with dports := t.m.dports } t.m) := by
  have heffect : s.m.clearOut.laneWindow port = (s.m.clearOut.modDport port DPort.windowless).bundleRetrain port b 2 := by
    rw [laneWindow_eq, windowHits_clearOut, windowHits_single hopen.bundle hothers hhit, List.foldl_cons, List.foldl_nil]
  exact answers_retrain (exec_laneErrorWindow port s) hq heffect (dieStep_modDport (dieStep_refl _ s.m.clearOut) port DPort.windowless)
    ((fld_modDport _ _ _ _ _ _ _).trans hopen.state) ((fld_modDport _ _ _ _ _ _ _).trans hopen.retraining) hopen.bundle rfl

end frames

theorem answers_window_clear (hq : s.m.quiet = true)
    (h : ∀ c < bundleCount port, (s.m.bundleOf port c).window.all (· < s.m.fld F.D2D_CTL_LANE_LIMIT port) = true) :
    Answers (.laneErrorWindow port) s (fun t => t.m.out = [] ∧ OnlyRegs [] (s.m.modDport port DPort.windowless) t.m) := by
  refine answers_dports (exec_laneErrorWindow port s) hq ?_
  rw [laneWindow_eq, windowHits_clearOut, windowHits_none h]
  rfl

end

/-! ## A retrain whose directions both pass -/

section
variable {m : Mod} {p b : Nat}

/-- The direction of a bundle that passed its steps. -/
def BundleDir.passed (_ : BundleDir) : BundleDir := { stepFailed := false, ict := [] }

/-- The steps of a direction that passes. -/
def Mod.stepsPassed (m : Mod) (p b : Nat) (rx : Bool) : Mod :=
  (((m.setFld F.D2D_SPARE_CLOCK_BAD 0 p (spareReg b rx)).setFld F.D2D_SPARE_SPARE_BAD 0 p (spareReg b rx)).setFld F.D2D_SPARE_FAILED 0 p
    (spareReg b rx)).modBundle p b (fun x => x.modDir rx BundleDir.passed)

theorem modDir_modDir (x : Bundle) (rx : Bool) (f g : BundleDir → BundleDir) : (x.modDir rx f).modDir rx g = x.modDir rx (fun d => g (f d)) := by
  cases rx <;> rfl

theorem dir_modDir (x : Bundle) (rx : Bool) (f : BundleDir → BundleDir) : (x.modDir rx f).dir rx = f (x.dir rx) := by
  cases rx <;> rfl

theorem setFld_modBundle (m : Mod) (p b : Nat) (g : Bundle → Bundle) (f : Fld) (v i k j : Nat) :
    (m.modBundle p b g).setFld f v i k j = (m.setFld f v i k j).modBundle p b g := rfl

theorem stepClock_passed (m : Mod) {t : DirTest} {b : Nat} (ht : t.bundle.val = b) (hclock : t.clockBad = false) (p : Nat) :
    m.stepClock p t true = (m.setFld F.D2D_SPARE_CLOCK_BAD 0 p (spareReg b t.rx)).modBundle p b
      (fun x => x.modDir t.rx (fun d => { d with stepFailed := false })) := by
  subst ht
  unfold Mod.stepClock
  rw [if_pos rfl, hclock]
  rfl

theorem stepDeskew_passed (m : Mod) {t : DirTest} {b : Nat} (ht : t.bundle.val = b) (hdeskew : t.deskewBad = false) (p : Nat) :
    m.stepClock p t false = m.modBundle p b (fun x => x.modDir t.rx (fun d => { d with stepFailed := d.stepFailed || false })) := by
  subst ht
  unfold Mod.stepClock
  rw [if_neg Bool.false_ne_true, hdeskew]

theorem stepIct_passed {t : DirTest} {b : Nat} (ht : t.bundle.val = b) (hfailed : t.failed = []) (hdir : ((m.bundleOf p b).dir t.rx).stepFailed = false) :
    m.stepIct p t = ((m.setFld F.D2D_SPARE_SPARE_BAD 0 p (spareReg b t.rx)).setFld F.D2D_SPARE_FAILED 0 p (spareReg b t.rx)).modBundle p b
      (fun x => x.modDir t.rx (fun d => { d with ict := [] })) := by
  subst ht
  unfold Mod.stepIct
  rw [if_neg (ne_true_of_eq_false hdir), hfailed]
  rfl

theorem steps_of_passing (hb : m.HasBundle p b) {t : DirTest} (ht : t.bundle.val = b) (hclock : t.clockBad = false) (hdeskew : t.deskewBad = false)
    (hfailed : t.failed = []) : ((m.stepClock p t true).stepClock p t false).stepIct p t = m.stepsPassed p b t.rx := by
  have hb' : (m.setFld F.D2D_SPARE_CLOCK_BAD 0 p (spareReg b t.rx)).HasBundle p b := hb
  rw [stepClock_passed m ht hclock, stepDeskew_passed _ ht hdeskew, modBundle_modBundle, stepIct_passed ht hfailed]
  · rw [setFld_modBundle, setFld_modBundle, modBundle_modBundle]
    refine modBundle_congr ?_
    simp only [modDir_modDir]
    rfl
  · rw [bundleOf_modBundle _ hb', modDir_modDir, dir_modDir]
    rfl

/-- Step 4 of a direction that passes: full width, no wire spared. -/
def Mod.fullWidth (m : Mod) (p b : Nat) (rx : Bool) : Mod :=
  ((m.modBundle p b (fun x => { x with trained := true })).setDirWidth p b rx 0).setSpareMap p b rx []

/-! ### What full width leaves of the registers -/

theorem fld_setSpareMap (m : Mod) (p b : Nat) (rx : Bool) (mp : List (Nat × Nat)) {f : Fld} (k j : Nat) (hf : f.blk = .d2d)
    (h : f.off + k * f.stride ≠ 0x200 + spareReg b rx * 8) : (m.setSpareMap p b rx mp).fld f p k j = m.fld f p k j := by
  refine foldl_keeps (fun x : Mod => x.fld f p k j = m.fld f p k j) _ (fun x s hx => ?_) _ _ rfl
  exact (fld_setFld_offset _ F.D2D_SPARE_TARGET f _ _ _ _ _ _ hf.symm h).trans
    ((fld_setFld_offset _ F.D2D_SPARE_VALID f _ _ _ _ _ _ hf.symm h).trans hx)

theorem fld_setDirWidth (m : Mod) (p b : Nat) (rx : Bool) (w : Nat) {f : Fld} (k j : Nat) (hf : f.blk = .d2d)
    (h : f.off + k * f.stride ≠ 0x100 + b * 8) : (m.setDirWidth p b rx w).fld f p k j = m.fld f p k j := by
  cases rx
  · exact fld_setFld_offset _ F.D2D_BUNDLE_TX_WIDTH f _ _ _ _ _ _ hf.symm h
  · exact fld_setFld_offset _ F.D2D_BUNDLE_RX_WIDTH f _ _ _ _ _ _ hf.symm h

theorem dirWidth_setDirWidth (m : Mod) (p b : Nat) (rx : Bool) {w : Nat} (h : w < 2 ^ 2) : (m.setDirWidth p b rx w).dirWidth p b rx = w := by
  cases rx
  · exact fld_setFld_fits m F.D2D_BUNDLE_TX_WIDTH p b (by decide) h
  · exact fld_setFld_fits m F.D2D_BUNDLE_RX_WIDTH p b (by decide) h

theorem dirWidth_congr {m n : Mod} (h : ∀ f : Fld, f.blk = .d2d → f.off = 0x100 → f.stride = 8 → n.fld f p b = m.fld f p b) (rx : Bool) :
    n.dirWidth p b rx = m.dirWidth p b rx := by
  cases rx
  · exact h F.D2D_BUNDLE_TX_WIDTH rfl rfl rfl
  · exact h F.D2D_BUNDLE_RX_WIDTH rfl rfl rfl

/-- A spare's VALID bit after its map is cleared. -/
theorem fld_valid_setSpareMap_nil (m : Mod) (p b : Nat) (rx : Bool) {s : Nat} (hs : s < 4) :
    (m.setSpareMap p b rx []).fld F.D2D_SPARE_VALID p (spareReg b rx) s = 0 := by
  have hself (x : Mod) : (x.setFld F.D2D_SPARE_VALID 0 p (spareReg b rx) s).fld F.D2D_SPARE_VALID p (spareReg b rx) s = 0 :=
    fld_setFld_comma x F.D2D_SPARE_VALID p (spareReg b rx) (by show 7 + s * 8 + 1 ≤ 64; omega) (by decide)
  have hvalid (x : Mod) (k : Nat) (h : x.fld F.D2D_SPARE_VALID p (spareReg b rx) s = 0) :
      (x.setFld F.D2D_SPARE_VALID 0 p (spareReg b rx) k).fld F.D2D_SPARE_VALID p (spareReg b rx) s = 0 := by
    by_cases hk : k = s
    · rw [hk]
      exact hself x
    · refine (fld_setFld_bits x F.D2D_SPARE_VALID F.D2D_SPARE_VALID 0 p (spareReg b rx) k p (spareReg b rx) s rfl ?_ ?_).trans h
      · show 7 + s * 8 + 1 ≤ 7 + k * 8 ∨ 7 + k * 8 + 1 ≤ 7 + s * 8
        omega
      · show 7 + s * 8 + 1 ≤ 64
        omega
  have htarget (x : Mod) (k : Nat) (h : x.fld F.D2D_SPARE_VALID p (spareReg b rx) s = 0) :
      (x.setFld F.D2D_SPARE_TARGET 0 p (spareReg b rx) k).fld F.D2D_SPARE_VALID p (spareReg b rx) s = 0 :=
    (fld_setFld_bits x F.D2D_SPARE_TARGET F.D2D_SPARE_VALID 0 p (spareReg b rx) k p (spareReg b rx) s rfl
      (by show 7 + s * 8 + 1 ≤ 0 + k * 8 ∨ 0 + k * 8 + 7 ≤ 7 + s * 8; omega) (by show 7 + s * 8 + 1 ≤ 64; omega)).trans h
  exact foldl_reaches (fun x : Mod => x.fld F.D2D_SPARE_VALID p (spareReg b rx) s = 0)
    (fun x k => (x.setFld F.D2D_SPARE_VALID 0 p (spareReg b rx) k).setFld F.D2D_SPARE_TARGET 0 p (spareReg b rx) k)
    (fun x k h => htarget _ _ (hvalid x k h)) (List.mem_range.mpr hs) (fun x => htarget _ _ (hself x)) m

theorem spareMap_setSpareMap_nil (m : Mod) (p b : Nat) (rx : Bool) : (m.setSpareMap p b rx []).spareMap p b rx = [] := by
  unfold Mod.spareMap
  rw [List.map_eq_nil_iff, List.filter_eq_nil_iff]
  intro s hs
  rw [fld_valid_setSpareMap_nil m p b rx (List.mem_range.mp hs)]
  decide

theorem dirWidth_fullWidth (m : Mod) (p : Nat) {b : Nat} (hb : b < 16) (rx : Bool) : (m.fullWidth p b rx).dirWidth p b rx = 0 := by
  refine Eq.trans (dirWidth_congr (fun f hf hoff hstride => fld_setSpareMap _ p b rx [] b 0 hf ?_) rx) (dirWidth_setDirWidth _ p b rx (by decide))
  rw [hoff, hstride]
  omega

/-- Nothing failed, and every spare passes. -/
theorem chooseWidth_none : chooseWidth [] (List.range 4) = (0, []) := rfl

/-- A direction at full width that spares no wire, as before or not, raises nothing. -/
theorem widthEvents_full {rx : Bool} (hwidth : m.dirWidth p b rx = 0) (hmap : m.spareMap p b rx = []) (w : Nat) : m.widthEvents p b rx w [] = m := by
  unfold Mod.widthEvents
  rw [hwidth, hmap]
  by_cases h : 0 = w
  · exact if_pos ⟨h, rfl⟩
  · rw [if_neg fun hw => h hw.1]
    rfl

theorem stepSpare_of_passing {rx : Bool} (hb : b < 16) (hdir : (m.bundleOf p b).dir rx = BundleDir.passed {}) (hexcl : m.fld F.D2D_BUNDLE_EXCLUDE p b = 0)
    (hmap : m.spareMap p b rx = []) : m.stepSpare p b rx = m.fullWidth p b rx := by
  have hevents : (m.fullWidth p b rx).widthEvents p b rx (m.dirWidth p b rx) [] = m.fullWidth p b rx :=
    widthEvents_full (dirWidth_fullWidth m p hb rx) (spareMap_setSpareMap_nil _ p b rx) _
  have hfailed : (List.range 73).filter (fun w => ((m.bundleOf p b).dir rx).ict.contains w || (([] : List (Nat × Nat)).map (·.2)).contains w) = [] := by
    rw [hdir]
    exact List.filter_eq_nil_iff.mpr fun _ _ => Bool.false_ne_true
  have hspares : (List.range 4).filter (fun s => !((m.bundleOf p b).dir rx).ict.contains (73 + s)) = List.range 4 := by
    rw [hdir]
    exact List.filter_eq_self.mpr fun _ _ => rfl
  have hchosen : ¬(((m.bundleOf p b).dir rx).stepFailed = true ∨
      (m.modBundle p b (fun x => { x with trained := true })).fld F.D2D_BUNDLE_EXCLUDE p b = 1) := by
    rw [hdir, fld_modBundle, hexcl]
    decide
  unfold Mod.stepSpare
  refine Eq.trans ?_ hevents
  simp only [hmap, hfailed, hspares, chooseWidth_none, if_neg hchosen]
  rfl

/-! ### What the steps leave of the registers -/

/-- A field of a spare register above the map's bytes. -/
structure Fld.SpareFlag (f : Fld) : Prop where
  blk : f.blk = .d2d
  off : f.off = 0x200
  stride : f.stride = 8
  lo : 32 ≤ f.lo

theorem fld_valid_setSpareFlag (m : Mod) {f : Fld} (hf : f.SpareFlag) (v p k k' : Nat) {s : Nat} (hs : s < 4) :
    (m.setFld f v p k).fld F.D2D_SPARE_VALID p k' s = m.fld F.D2D_SPARE_VALID p k' s := by
  obtain ⟨hblk, hoff, hstride, hlo⟩ := hf
  by_cases hk : k' = k
  · subst hk
    refine fld_setFld_bits m f F.D2D_SPARE_VALID v p k' 0 p k' s ?_ ?_ ?_
    · unfold Fld.addr
      rw [hblk, hoff, hstride]
      rfl
    · refine .inl ?_
      show 7 + s * 8 + 1 ≤ f.lo + 0 * f.bs
      omega
    · show 7 + s * 8 + 1 ≤ 64
      omega
  · refine fld_setFld_offset m f F.D2D_SPARE_VALID v p k 0 k' s hblk ?_
    rw [hoff, hstride]
    show 0x200 + k' * 8 ≠ _
    omega

theorem spareMap_nil_of_valid {m n : Mod} {p b : Nat} {rx : Bool}
    (hvalid : ∀ s < 4, n.fld F.D2D_SPARE_VALID p (spareReg b rx) s = m.fld F.D2D_SPARE_VALID p (spareReg b rx) s) (h : m.spareMap p b rx = []) :
    n.spareMap p b rx = [] := by
  unfold Mod.spareMap at h ⊢
  rw [List.map_eq_nil_iff, List.filter_eq_nil_iff] at h ⊢
  exact fun s hs => by
    rw [hvalid s (List.mem_range.mp hs)]
    exact h s hs

theorem spareMap_stepsPassed (rx : Bool) {rx' : Bool} (h : m.spareMap p b rx' = []) : (m.stepsPassed p b rx).spareMap p b rx' = [] := by
  have hfailed : F.D2D_SPARE_FAILED.SpareFlag := ⟨rfl, rfl, rfl, by decide⟩
  have hbad : F.D2D_SPARE_SPARE_BAD.SpareFlag := ⟨rfl, rfl, rfl, by decide⟩
  have hclock : F.D2D_SPARE_CLOCK_BAD.SpareFlag := ⟨rfl, rfl, rfl, by decide⟩
  refine spareMap_nil_of_valid (fun s hs => ?_) h
  unfold Mod.stepsPassed
  rw [fld_modBundle, fld_valid_setSpareFlag _ hfailed _ _ _ _ hs, fld_valid_setSpareFlag _ hbad _ _ _ _ hs, fld_valid_setSpareFlag _ hclock _ _ _ _ hs]

theorem fld_stepsPassed (m : Mod) (p b : Nat) (rx : Bool) {f : Fld} (k : Nat) (hf : f.blk = .d2d) (h : f.off + k * f.stride < 0x200) :
    (m.stepsPassed p b rx).fld f p k = m.fld f p k := by
  have hoff : f.off + k * f.stride ≠ 0x200 + spareReg b rx * 8 := by omega
  unfold Mod.stepsPassed
  rw [fld_modBundle, fld_setFld_offset _ F.D2D_SPARE_FAILED f _ _ _ _ _ _ hf.symm hoff,
    fld_setFld_offset _ F.D2D_SPARE_SPARE_BAD f _ _ _ _ _ _ hf.symm hoff, fld_setFld_offset m F.D2D_SPARE_CLOCK_BAD f _ _ _ _ _ _ hf.symm hoff]

theorem bundleOf_stepsPassed (hb : m.HasBundle p b) (rx : Bool) :
    (m.stepsPassed p b rx).HasBundle p b ∧ (m.stepsPassed p b rx).bundleOf p b = (m.bundleOf p b).modDir rx BundleDir.passed := by
  unfold Mod.stepsPassed
  have hb' : (((m.setFld F.D2D_SPARE_CLOCK_BAD 0 p (spareReg b rx)).setFld F.D2D_SPARE_SPARE_BAD 0 p (spareReg b rx)).setFld F.D2D_SPARE_FAILED 0 p
    (spareReg b rx)).HasBundle p b := hb
  exact ⟨hasBundle_modBundle hb' _, bundleOf_modBundle _ hb'⟩

theorem dports_setDirWidth (m : Mod) (p b : Nat) (rx : Bool) (w : Nat) : (m.setDirWidth p b rx w).dports = m.dports := by
  cases rx <;> rfl

theorem dports_setSpareMap (m : Mod) (p b : Nat) (rx : Bool) (mp : List (Nat × Nat)) : (m.setSpareMap p b rx mp).dports = m.dports := by
  refine foldl_keeps (fun x : Mod => x.dports = m.dports) _ (fun x s hx => ?_) _ _ rfl
  exact hx

theorem dports_fullWidth (m : Mod) (p b : Nat) (rx : Bool) :
    (m.fullWidth p b rx).dports = (m.modBundle p b (fun x => { x with trained := true })).dports :=
  (dports_setSpareMap _ p b rx []).trans (dports_setDirWidth _ p b rx 0)

theorem bundleOf_congr {m n : Mod} (h : n.dports = m.dports) : n.bundleOf p b = m.bundleOf p b ∧ (m.HasBundle p b → n.HasBundle p b) := by
  unfold Mod.bundleOf Mod.HasBundle Mod.dportOf
  rw [h]
  exact ⟨rfl, id⟩

theorem bundleOf_setFld (m : Mod) (f : Fld) (v i k j p b : Nat) :
    (m.setFld f v i k j).bundleOf p b = m.bundleOf p b ∧ (m.HasBundle p b → (m.setFld f v i k j).HasBundle p b) := ⟨rfl, id⟩

theorem bundleOf_fullWidth (hb : m.HasBundle p b) (rx : Bool) :
    (m.fullWidth p b rx).HasBundle p b ∧ (m.fullWidth p b rx).bundleOf p b = { m.bundleOf p b with trained := true } := by
  obtain ⟨hbundle, hhas⟩ := bundleOf_congr (p := p) (b := b) (dports_fullWidth m p b rx)
  exact ⟨hhas (hasBundle_modBundle hb _), hbundle.trans (bundleOf_modBundle _ hb)⟩

theorem spareMap_fullWidth (hb : b < 16) (h : m.spareMap p b true = []) : (m.fullWidth p b false).spareMap p b true = [] := by
  refine spareMap_nil_of_valid (fun s hs => ?_) h
  refine (fld_setSpareMap _ p b false [] _ s rfl ?_).trans (fld_setDirWidth _ p b false 0 _ s rfl ?_)
  · show 0x200 + (2 * b + 1) * 8 ≠ 0x200 + (2 * b + 0) * 8
    omega
  · show 0x200 + (2 * b + 1) * 8 ≠ 0x100 + b * 8
    omega

theorem fld_exclude_fullWidth (m : Mod) (p : Nat) (hb : b < 16) (rx : Bool) :
    (m.fullWidth p b rx).fld F.D2D_BUNDLE_EXCLUDE p b = m.fld F.D2D_BUNDLE_EXCLUDE p b := by
  refine (fld_setSpareMap _ p b rx [] b 0 rfl (by show 0x100 + b * 8 ≠ 0x200 + _ * 8; omega)).trans ?_
  cases rx
  · exact fld_setFld_bitsApart _ _ _ _ _ _ (by decide)
  · exact fld_setFld_bitsApart _ _ _ _ _ _ (by decide)

theorem dirWidth_false_fullWidth_true (m : Mod) (p : Nat) (hb : b < 16) : (m.fullWidth p b true).dirWidth p b false = m.dirWidth p b false := by
  refine (fld_setSpareMap _ p b true [] b 0 rfl (by show 0x100 + b * 8 ≠ 0x200 + _ * 8; omega)).trans ?_
  exact fld_setFld_bitsApart _ _ _ _ _ _ (by decide)

theorem fld_newParams (m : Mod) (p b : Nat) {f : Fld} (k : Nat) (hf : f.blk = .d2d) (h : f.off + k * f.stride < 0x1000) :
    (m.newParams p b).fld f p k = m.fld f p k := by
  refine foldl_keeps (fun x : Mod => x.fld f p k = m.fld f p k) _ (fun x j hx => ?_) _ _ rfl
  exact (fld_setFld_offset x F.D2D_TRAIN_PARAM_VALUE f _ _ _ _ _ _ hf.symm (by show _ ≠ 0x1000 + _ * 8; omega)).trans hx

theorem dports_newParams (m : Mod) (p b : Nat) : (m.newParams p b).dports = m.dports := by
  refine foldl_keeps (fun x : Mod => x.dports = m.dports) _ (fun x s hx => ?_) _ _ rfl
  exact hx

/-! ### The retrain's end -/

/-- Both directions of the bundle after their steps. -/
def Mod.bothPassed (m : Mod) (p b : Nat) : Mod :=
  (((m.stepsPassed p b false).stepsPassed p b true).fullWidth p b false).fullWidth p b true

/-- The bundle carries traffic again. -/
def Mod.retrainPassed (m : Mod) (p b : Nat) : Mod :=
  (((m.bothPassed p b).newParams p b).setFld F.D2D_BUNDLE_RETRAINING 0 p b).modBundle p b (fun x => { x with discard := false })

theorem dir_passed (x : Bundle) (rx : Bool) : ((x.modDir false BundleDir.passed).modDir true BundleDir.passed).dir rx = BundleDir.passed {} := by
  cases rx <;> rfl

/-- The steps of both directions, one after the other. -/
theorem steps_of_both (hb : m.HasBundle p b) (h16 : b < 16) (hexcl : m.fld F.D2D_BUNDLE_EXCLUDE p b = 0) (htx : m.spareMap p b false = [])
    (hrx : m.spareMap p b true = []) :
    (((m.stepsPassed p b false).stepsPassed p b true).stepSpare p b false).stepSpare p b true = m.bothPassed p b := by
  obtain ⟨hb1, hbundle1⟩ := bundleOf_stepsPassed hb false
  obtain ⟨hb2, hbundle2⟩ := bundleOf_stepsPassed hb1 true
  obtain ⟨-, hbundle3⟩ := bundleOf_fullWidth hb2 false
  rw [hbundle1] at hbundle2
  rw [hbundle2] at hbundle3
  have hlow : F.D2D_BUNDLE_EXCLUDE.off + b * F.D2D_BUNDLE_EXCLUDE.stride < 0x200 := by
    show 0x100 + b * 8 < 0x200
    omega
  have hexcl2 : ((m.stepsPassed p b false).stepsPassed p b true).fld F.D2D_BUNDLE_EXCLUDE p b = 0 := by
    rw [fld_stepsPassed _ p b true b rfl hlow, fld_stepsPassed _ p b false b rfl hlow, hexcl]
  have hmap {rx : Bool} (h : m.spareMap p b rx = []) : ((m.stepsPassed p b false).stepsPassed p b true).spareMap p b rx = [] :=
    spareMap_stepsPassed true (spareMap_stepsPassed false h)
  rw [stepSpare_of_passing (rx := false) h16 (by rw [hbundle2]; exact dir_passed _ false) hexcl2 (hmap htx)]
  refine stepSpare_of_passing (rx := true) h16 ?_ ?_ (spareMap_fullWidth h16 (hmap hrx))
  · rw [hbundle3]
    exact dir_passed (m.bundleOf p b) true
  · rw [fld_exclude_fullWidth _ p h16, hexcl2]

theorem bundleOf_bothPassed (hb : m.HasBundle p b) : (m.bothPassed p b).HasBundle p b ∧ ((m.bothPassed p b).bundleOf p b).trained = true ∧
    ((m.bothPassed p b).bundleOf p b).lastAck = (m.bundleOf p b).lastAck := by
  obtain ⟨hb1, hbundle1⟩ := bundleOf_stepsPassed hb false
  obtain ⟨hb2, hbundle2⟩ := bundleOf_stepsPassed hb1 true
  obtain ⟨hb3, hbundle3⟩ := bundleOf_fullWidth hb2 false
  obtain ⟨hb4, hbundle4⟩ := bundleOf_fullWidth hb3 true
  refine ⟨hb4, ?_, ?_⟩
  · show (((((m.stepsPassed p b false).stepsPassed p b true).fullWidth p b false).fullWidth p b true).bundleOf p b).trained = true
    rw [hbundle4]
  · show (((((m.stepsPassed p b false).stepsPassed p b true).fullWidth p b false).fullWidth p b true).bundleOf p b).lastAck = _
    rw [hbundle4, hbundle3, hbundle2, hbundle1]
    rfl

theorem bundleOf_retrainPassed (hb : m.HasBundle p b) : ((m.retrainPassed p b).bundleOf p b).trained = true ∧
    ((m.retrainPassed p b).bundleOf p b).lastAck = (m.bundleOf p b).lastAck := by
  obtain ⟨hb', htrained, hack⟩ := bundleOf_bothPassed hb
  obtain ⟨hbundle, hhas⟩ := bundleOf_congr (p := p) (b := b) (dports_newParams (m.bothPassed p b) p b)
  have hset := bundleOf_setFld ((m.bothPassed p b).newParams p b) F.D2D_BUNDLE_RETRAINING 0 p b 0 p b
  have hbundle' : (m.retrainPassed p b).bundleOf p b = { (m.bothPassed p b).bundleOf p b with discard := false } := by
    unfold Mod.retrainPassed
    rw [bundleOf_modBundle _ (hset.2 (hhas hb')), hset.1, hbundle]
  rw [hbundle']
  exact ⟨htrained, hack⟩

theorem dirWidth_retrainPassed (m : Mod) (p : Nat) (h16 : b < 16) (rx : Bool) : (m.retrainPassed p b).dirWidth p b rx = 0 := by
  have hboth : (m.bothPassed p b).dirWidth p b rx = 0 := by
    unfold Mod.bothPassed
    cases rx
    · rw [dirWidth_false_fullWidth_true _ p h16, dirWidth_fullWidth _ p h16]
    · rw [dirWidth_fullWidth _ p h16]
  have hparams : ((m.bothPassed p b).newParams p b).dirWidth p b rx = 0 := by
    rw [dirWidth_congr (fun f hf hoff hstride => fld_newParams _ p b b hf (by rw [hoff, hstride]; omega)) rx, hboth]
  refine Eq.trans ?_ hparams
  cases rx
  · exact (fld_modBundle _ _ _ _ _ _ _ _).trans (fld_setFld_bitsApart _ _ _ _ _ _ (by decide))
  · exact (fld_modBundle _ _ _ _ _ _ _ _).trans (fld_setFld_bitsApart _ _ _ _ _ _ (by decide))

/-- A bundle at full width gives the port units in that direction. -/
theorem dirUnits_pos {rx : Bool} (hb : b < bundleCount p) (htrained : (m.bundleOf p b).trained = true) (hwidth : m.dirWidth p b rx = 0) :
    0 < m.dirUnits p rx := by
  unfold Mod.dirUnits
  rw [← List.sum_eq_foldl]
  refine lt_of_lt_of_le Nat.two_pos (List.le_sum_of_mem (List.mem_map.mpr ⟨b, List.mem_range.mpr hb, ?_⟩))
  simp only [htrained, hwidth, if_true]

theorem fld_syncUnits (m : Mod) (p : Nat) {f : Fld} (k : Nat) (hf : f.blk = .d2d) (h : f.off + k * f.stride ≠ 0x8 + 0 * 0) :
    (m.syncUnits p).fld f p k = m.fld f p k :=
  (fld_setFld_offset _ F.D2D_STATUS_RX_UNITS f _ _ _ _ _ _ hf.symm h).trans (fld_setFld_offset _ F.D2D_STATUS_TX_UNITS f _ _ _ _ _ _ hf.symm h)

theorem dirUnits_syncUnits (m : Mod) (p : Nat) (rx : Bool) : (m.syncUnits p).dirUnits p rx = m.dirUnits p rx := by
  unfold Mod.dirUnits
  refine congrArg (fun l : List Nat => l.foldl (· + ·) 0) (List.map_congr_left fun b _ => ?_)
  have hwidth : (m.syncUnits p).dirWidth p b rx = m.dirWidth p b rx := by
    refine dirWidth_congr (fun f hf hoff hstride => ?_) rx
    exact fld_syncUnits m p b hf (by rw [hoff, hstride]; omega)
  rw [hwidth]
  rfl

theorem fld_retraining_retrainPassed (m : Mod) (p b : Nat) : (m.retrainPassed p b).fld F.D2D_BUNDLE_RETRAINING p b = 0 :=
  (fld_modBundle _ _ _ _ _ _ _ _).trans (fld_setFld_fits _ F.D2D_BUNDLE_RETRAINING p b (by decide) (by decide))

theorem portWorks_retrainPassed (hb : m.HasBundle p b) (hlt : b < bundleCount p) (h16 : b < 16) (o : Out) :
    (((m.retrainPassed p b).emit o).syncUnits p).portWorks p = true := by
  have htrained : (((m.retrainPassed p b).emit o).bundleOf p b).trained = true := (bundleOf_retrainPassed hb).1
  have hwidth (rx : Bool) : ((m.retrainPassed p b).emit o).dirWidth p b rx = 0 := dirWidth_retrainPassed m p h16 rx
  unfold Mod.portWorks
  rw [dirUnits_syncUnits, dirUnits_syncUnits]
  simp [dirUnits_pos hlt htrained (hwidth false), dirUnits_pos hlt htrained (hwidth true)]

/-- Bundles whose retrain ends with these tests. -/
def Mod.retrainsEnding (m : Mod) (p : Nat) (ts : List DirTest) : List Nat :=
  (List.range (bundleCount p)).filter (fun b => m.fld F.D2D_BUNDLE_RETRAINING p b == 1 && ts.any (fun t => t.bundle.val == b))

/-- The end of one bundle's retrain. -/
def Mod.retrainEnd (m : Mod) (p : Nat) (ts : List DirTest) (b : Nat) : Mod :=
  let mine := ts.filter (fun t => t.bundle.val == b)
  let m := mine.foldl (fun m t => ((m.stepClock p t true).stepClock p t false).stepIct p t) m
  let m := [false, true].foldl (fun m rx => m.stepSpare p b rx) m
  let m := (m.newParams p b).setFld F.D2D_BUNDLE_RETRAINING 0 p b
  let m := m.modBundle p b (fun x => { x with discard := false })
  m.emit (.frameResend p b ((((m.bundleOf p b).lastAck.map (· + 1)).getD 0) % 256))

theorem retrainDone_eq (m : Mod) (p : Nat) (ts : List DirTest) : m.retrainDone p ts =
    if (m.retrainsEnding p ts).isEmpty ∨ (((m.retrainsEnding p ts).foldl (fun m b => m.retrainEnd p ts b) m).syncUnits p).portWorks p then
      ((m.retrainsEnding p ts).foldl (fun m b => m.retrainEnd p ts b) m).syncUnits p
    else (((m.retrainsEnding p ts).foldl (fun m b => m.retrainEnd p ts b) m).syncUnits p).enterSlate p 4 := rfl

/-- The frame that the bundle resends first. -/
def Bundle.resendFrom (x : Bundle) : Nat := ((x.lastAck.map (· + 1)).getD 0) % 256

theorem retrainEnd_of_passing (hb : m.HasBundle p b) (h16 : b < 16) (hexcl : m.fld F.D2D_BUNDLE_EXCLUDE p b = 0) (htx : m.spareMap p b false = [])
    (hrx : m.spareMap p b true = []) {t u : DirTest} (ht : t.bundle.val = b ∧ t.rx = false ∧ t.clockBad = false ∧ t.deskewBad = false ∧ t.failed = [])
    (hu : u.bundle.val = b ∧ u.rx = true ∧ u.clockBad = false ∧ u.deskewBad = false ∧ u.failed = []) :
    m.retrainEnd p [t, u] b = (m.retrainPassed p b).emit (.frameResend p b (m.bundleOf p b).resendFrom) := by
  obtain ⟨htb, htx', htclock, htdeskew, htfailed⟩ := ht
  obtain ⟨hub, hux, huclock, hudeskew, hufailed⟩ := hu
  have hmine : [t, u].filter (fun t => t.bundle.val == b) = [t, u] := by
    simp [htb, hub]
  have hsteps : [t, u].foldl (fun m t => ((m.stepClock p t true).stepClock p t false).stepIct p t) m = (m.stepsPassed p b false).stepsPassed p b true := by
    rw [List.foldl_cons, List.foldl_cons, List.foldl_nil, steps_of_passing hb htb htclock htdeskew htfailed, htx',
      steps_of_passing (bundleOf_stepsPassed hb false).1 hub huclock hudeskew hufailed, hux]
  unfold Mod.retrainEnd Bundle.resendFrom
  rw [← (bundleOf_retrainPassed hb).2]
  simp only [hmine, hsteps, List.foldl_cons, List.foldl_nil, steps_of_both hb h16 hexcl htx hrx]
  rfl

/-! ### Its frame -/

/-- Registers that the end of a bundle's retrain changes. -/
def retrainRegs (p b : Nat) : List Nat :=
  [F.D2D_BUNDLE_RETRAINING.addr p b, F.D2D_STATUS_TX_UNITS.addr p 0, F.D2D_SPARE_VALID.addr p (spareReg b false),
    F.D2D_SPARE_VALID.addr p (spareReg b true)] ++ (List.range 16).map (fun j => F.D2D_TRAIN_PARAM_VALUE.addr p (16 * b + j))

theorem bundle_mem_retrainRegs (p b : Nat) : F.D2D_BUNDLE_RETRAINING.addr p b ∈ retrainRegs p b := List.mem_append_left _ (.head _)
theorem units_mem_retrainRegs (p b : Nat) : F.D2D_STATUS_TX_UNITS.addr p 0 ∈ retrainRegs p b := List.mem_append_left _ (.tail _ (.head _))

theorem spare_mem_retrainRegs (p b : Nat) (rx : Bool) : F.D2D_SPARE_VALID.addr p (spareReg b rx) ∈ retrainRegs p b := by
  cases rx
  · exact List.mem_append_left _ (.tail _ (.tail _ (.head _)))
  · exact List.mem_append_left _ (.tail _ (.tail _ (.tail _ (.head _))))

theorem param_mem_retrainRegs (p b : Nat) {j : Nat} (hj : j ∈ List.range 16) : F.D2D_TRAIN_PARAM_VALUE.addr p (16 * b + j) ∈ retrainRegs p b :=
  List.mem_append_right _ (List.mem_map_of_mem hj)

/-- A step of the die links whose registers are those of the end of a retrain. -/
def RetrainStep (p b : Nat) (m n : Mod) : Prop := DieStep (retrainRegs p b) n.dports n.fresh m n ∧ n.out = m.out

variable {n : Mod}

theorem retrainStep_refl (m : Mod) : RetrainStep p b m m := ⟨dieStep_refl _ m, rfl⟩

theorem retrainStep_setFld (h : RetrainStep p b m n) (f : Fld) (v i k j : Nat) (ha : f.addr i k ∈ retrainRegs p b) :
    RetrainStep p b m (n.setFld f v i k j) := ⟨dieStep_setFld h.1 f v i k j ha, h.2⟩

theorem retrainStep_modBundle (h : RetrainStep p b m n) (g : Bundle → Bundle) : RetrainStep p b m (n.modBundle p b g) :=
  ⟨dieStep_modBundle h.1 p b g, h.2⟩

theorem retrainStep_stepsPassed (h : RetrainStep p b m n) (rx : Bool) : RetrainStep p b m (n.stepsPassed p b rx) := by
  have hspare := spare_mem_retrainRegs p b rx
  exact retrainStep_modBundle (retrainStep_setFld (retrainStep_setFld (retrainStep_setFld h F.D2D_SPARE_CLOCK_BAD _ _ _ _ hspare)
    F.D2D_SPARE_SPARE_BAD _ _ _ _ hspare) F.D2D_SPARE_FAILED _ _ _ _ hspare) _

theorem retrainStep_fullWidth (h : RetrainStep p b m n) (rx : Bool) : RetrainStep p b m (n.fullWidth p b rx) := by
  have hspare := spare_mem_retrainRegs p b rx
  have hwidth : RetrainStep p b m ((n.modBundle p b (fun x => { x with trained := true })).setDirWidth p b rx 0) := by
    cases rx
    · exact retrainStep_setFld (retrainStep_modBundle h _) F.D2D_BUNDLE_TX_WIDTH _ _ _ _ (bundle_mem_retrainRegs p b)
    · exact retrainStep_setFld (retrainStep_modBundle h _) F.D2D_BUNDLE_RX_WIDTH _ _ _ _ (bundle_mem_retrainRegs p b)
  refine foldl_keeps (RetrainStep p b m) _ (fun x s hx => ?_) _ _ hwidth
  exact retrainStep_setFld (retrainStep_setFld hx F.D2D_SPARE_VALID _ _ _ _ hspare) F.D2D_SPARE_TARGET _ _ _ _ hspare

theorem retrainStep_newParams (h : RetrainStep p b m n) : RetrainStep p b m (n.newParams p b) := by
  have hdrawn : RetrainStep p b m ({ n with fresh := n.fresh + 1 + 15 } : Mod) := by
    obtain ⟨⟨hn, hregs⟩, hout⟩ := h
    refine ⟨⟨?_, hregs⟩, hout⟩
    rw [hn]
  refine foldl_keeps_mem (RetrainStep p b m) _ _ (fun x j hj hx => ?_) _ hdrawn
  exact retrainStep_setFld hx F.D2D_TRAIN_PARAM_VALUE _ _ _ _ (param_mem_retrainRegs p b hj)

theorem retrainStep_retrainPassed (m : Mod) (p b : Nat) : RetrainStep p b m (m.retrainPassed p b) :=
  retrainStep_modBundle (retrainStep_setFld (retrainStep_newParams (retrainStep_fullWidth (retrainStep_fullWidth (retrainStep_stepsPassed
    (retrainStep_stepsPassed (retrainStep_refl m) false) true) false) true)) F.D2D_BUNDLE_RETRAINING 0 p b 0 (bundle_mem_retrainRegs p b)) _

end

section
variable {ag : Agent} {port : Fin 17} {b : Fin 16} {s : State}

theorem dieStep_syncUnits {as : List Nat} {ds : List DPort} {fr : Nat} {m n : Mod} {p : Nat} (h : DieStep as ds fr m n)
    (ha : F.D2D_STATUS_TX_UNITS.addr p 0 ∈ as) : DieStep as ds fr m (n.syncUnits p) :=
  dieStep_setFld (dieStep_setFld h F.D2D_STATUS_TX_UNITS _ p 0 0 ha) F.D2D_STATUS_RX_UNITS _ p 0 0 ha

theorem out_syncUnits_emit (m : Mod) (o : Out) (p : Nat) : ((m.emit o).syncUnits p).out = m.out ++ [o] := rfl

/-- A command whose effect is a step of the die links, its ports and free values as it leaves them. -/
theorem answers_dieStep_self {c : Instr} {f : Mod → Mod} {as : List Nat} {ds : List DPort} {fr : Nat} {n : Mod} {P : State → Prop}
    (h : exec c s = s.runF f) (hf : f s.m.clearOut = n) (hq : s.m.quiet = true) (hstep : DieStep as ds fr s.m.clearOut n)
    (hd : F.DIR_STATUS_DRAINING.addr 0 0 ∉ as) (ho : n.out.all Out.stays = true)
    (hp : ∀ t : State, t.m = n.settle → OnlyRegs as { s.m with dports := t.m.dports, fresh := t.m.fresh } t.m → P t) : Answers c s P := by
  refine answers_dieStep h hf hq hstep hd ho (fun honly => hp _ rfl ?_)
  have hds : n.dports = ds := by rw [hstep.1]
  have hfr : n.fresh = fr := by rw [hstep.1]
  subst hds hfr
  exact honly

theorem retrainRegs_lt (port : Fin 17) (b : Fin 16) : ∀ a ∈ retrainRegs port b, a < F.DIR_STATUS_DRAINING.addr 0 0 := by
  have hb := b.isLt
  have hspare (rx : Bool) : F.D2D_SPARE_VALID.addr port (spareReg b rx) < F.DIR_STATUS_DRAINING.addr 0 0 := by
    have hrx := b2n_lt rx
    exact d2dReg_lt rfl port (by show 0x200 + (2 * b.val + b2n rx) * 8 < _; omega)
  intro a ha
  rcases List.mem_append.mp ha with ha | ha
  · simp only [List.mem_cons, List.not_mem_nil, or_false] at ha
    rcases ha with rfl | rfl | rfl | rfl
    · exact bundleReg_lt port b
    · exact d2dReg_lt rfl port (by decide)
    · exact hspare false
    · exact hspare true
  · obtain ⟨j, hj, rfl⟩ := List.mem_map.mp ha
    have := List.mem_range.mp hj
    exact d2dReg_lt rfl port (by show 0x1000 + _ * 8 < _; omega)

theorem retrainDone_passed {m : Mod} {p b : Nat} (hb : m.HasBundle p b) (h16 : b < 16) (hlt : b < bundleCount p)
    (honly : ∀ c < bundleCount p, m.fld F.D2D_BUNDLE_RETRAINING p c = 1 ↔ c = b) (hexcl : m.fld F.D2D_BUNDLE_EXCLUDE p b = 0)
    (htx : m.spareMap p b false = []) (hrx : m.spareMap p b true = []) {t u : DirTest}
    (ht : t.bundle.val = b ∧ t.rx = false ∧ t.clockBad = false ∧ t.deskewBad = false ∧ t.failed = [])
    (hu : u.bundle.val = b ∧ u.rx = true ∧ u.clockBad = false ∧ u.deskewBad = false ∧ u.failed = []) :
    m.retrainDone p [t, u] = ((m.retrainPassed p b).emit (.frameResend p b (m.bundleOf p b).resendFrom)).syncUnits p := by
  have hending : m.retrainsEnding p [t, u] = [b] := by
    refine filter_range_single hlt ?_ fun c hc hcb => ?_
    · simp [(honly b hlt).mpr rfl, ht.1]
    · simp [(honly c hc).not.mpr hcb]
  have hend := retrainEnd_of_passing hb h16 hexcl htx hrx ht hu
  have hworks := portWorks_retrainPassed hb hlt h16 (.frameResend p b (m.bundleOf p b).resendFrom)
  rw [retrainDone_eq, hending, List.foldl_cons, List.foldl_nil, hend]
  exact if_pos (.inr hworks)

theorem answers_retrainDone (hq : s.m.quiet = true) (hb : s.m.HasBundle port b) (hlt : b.val < bundleCount port)
    (honly : ∀ c < bundleCount port, s.m.fld F.D2D_BUNDLE_RETRAINING port c = 1 ↔ c = b.val) (hexcl : s.m.fld F.D2D_BUNDLE_EXCLUDE port b = 0)
    (htx : s.m.spareMap port b false = []) (hrx : s.m.spareMap port b true = []) :
    Answers (.bundleRetrainComplete port [⟨b, false, false, false, []⟩, ⟨b, true, false, false, []⟩]) s (fun t =>
      t.m.out = [.frameResend port b (s.m.bundleOf port b).resendFrom] ∧ t.m.fld F.D2D_BUNDLE_RETRAINING port b = 0 ∧
      t.m.dirWidth port b false = 0 ∧ t.m.dirWidth port b true = 0 ∧
      OnlyRegs (retrainRegs port b) { s.m with dports := t.m.dports, fresh := t.m.fresh } t.m) := by
  have heffect := retrainDone_passed (m := s.m.clearOut) hb b.isLt hlt honly hexcl htx hrx (t := ⟨b, false, false, false, []⟩)
    (u := ⟨b, true, false, false, []⟩) ⟨rfl, rfl, rfl, rfl, rfl⟩ ⟨rfl, rfl, rfl, rfl, rfl⟩
  rw [bundleOf_clearOut] at heffect
  obtain ⟨hpassed, hout⟩ := retrainStep_retrainPassed s.m.clearOut port b
  have hstep := dieStep_syncUnits (dieStep_emit hpassed (.frameResend port b (s.m.bundleOf port b).resendFrom)) (units_mem_retrainRegs port b)
  have hread (f : Fld) (hf : f.blk = .d2d) (hoff : f.off = 0x100) (hstride : f.stride = 8) (o : Out) :
      (((s.m.clearOut.retrainPassed port b).emit o).syncUnits port).settle.fld f port b = (s.m.clearOut.retrainPassed port b).fld f port b := by
    rw [fld_settle]
    exact fld_syncUnits _ port b hf (by rw [hoff, hstride]; omega)
  have hsent : (((s.m.clearOut.retrainPassed port b).emit (.frameResend port b (s.m.bundleOf port b).resendFrom)).syncUnits port).out =
      [.frameResend port b (s.m.bundleOf port b).resendFrom] := by
    rw [out_syncUnits_emit, hout]
    rfl
  refine answers_dieStep_self (exec_bundleRetrainComplete port _ s) heffect hq hstep (draining_not_mem_below (retrainRegs_lt port b))
    (by rw [hsent]; rfl) (fun t ht hregs => ⟨(congrArg Mod.out ht).trans hsent, ?_, ?_, ?_, hregs⟩)
  all_goals rw [ht]
  · exact (hread F.D2D_BUNDLE_RETRAINING rfl rfl rfl _).trans (fld_retraining_retrainPassed s.m.clearOut port b)
  · exact (dirWidth_congr (fun f hf hoff hstride => hread f hf hoff hstride _) false).trans (dirWidth_retrainPassed s.m.clearOut port b.isLt false)
  · exact (dirWidth_congr (fun f hf hoff hstride => hread f hf hoff hstride _) true).trans (dirWidth_retrainPassed s.m.clearOut port b.isLt true)

end

/-- Settles O46: a frame and a NAK change the bundle's state and count their replays, a retrain raises its event, and its end brings both directions
of the bundle to full width. -/
theorem dieLinksCarryFrames : Obligations.DieLinksCarryFrames := by
  unfold Obligations.DieLinksCarryFrames
  intro ag port b s hq hag hlt hport hbundle hstate x reg upd replays retrains
  have hb : s.m.HasBundle port b := ⟨hport, hbundle⟩
  refine ⟨fun hr hwidth => ?receives, answers_window_clear hq, ?complete⟩
  case receives =>
    have hopen : s.m.Receives port b := ⟨hstate, hr, hwidth, hlt⟩
    refine ⟨fun f hcrc hsync hbad hcvc hkind hseq => answers_frameAccepted hq hopen hb hcrc hsync hbad (Nat.not_le.mpr hcvc) hkind hseq,
      fun f hcrc hsync hbad hcvc hkind hack => answers_frameCredits hq hopen hcrc hsync hbad hcvc hkind hack,
      fun f hcrc hbad hdiscard => ⟨answers_frameRejected hq hopen hb hcrc hbad hdiscard, answers_frameRejected_limit hq hopen hb hcrc hbad hdiscard⟩,
      fun f k hbad hcrc hsync hkind hcvc hdiscard => answers_frameBadLane hq hopen hb hcrc hsync hbad (Nat.not_le.mpr hcvc) hkind hdiscard,
      answers_frameNak hq hopen hb, answers_bundleRetrain hq hopen hag, answers_window_hit hq hopen⟩
  case complete =>
    rintro ts rfl honly hexcl htx hrx
    exact answers_retrainDone hq hb hlt honly hexcl htx hrx

end Sys2Proof.Machine

/-! # Proofs: packets that this module sends on or discards (12 R321, R328-R331, R354, Table 12.7; 13 R365, R366, R369) -/

namespace Sys2Proof.Machine

open Sys2Proof

/-! ## A packet that leaves at once -/

section
variable {m : Mod} {q : Nat} {x : Packet}

/-- The lane after one packet's flits. -/
def Lane.sending (x : Packet) (l : Lane) : Lane := l.sendFlits x.vcIdx (1 + x.len.toNat)

/-- The packet has left through the port. -/
def Mod.sent (m : Mod) (q : Nat) (x : Packet) : Mod :=
  ((m.modLane q (Lane.sending x)).addFld F.LANE_COUNT_COUNT (1 + x.len.toNat) q 0).emit (.packet q x)

/-- Credits and replay room for every flit of the packet. -/
def Lane.roomFor (l : Lane) (x : Packet) : Prop := 1 + x.len.toNat ≤ min (l.freeCredits x.vcIdx) (4096 - l.replay.length)

theorem pumpNext_of_room {l : Lane} (h : l.roomFor x) :
    Pump.next { lane := l } (x, 0) = { lane := Lane.sending x l, kept := [], blocked := [], sent := [x], flits := 1 + x.len.toNat } := by
  unfold Lane.roomFor at h
  simp [Pump.next, Lane.sending, Nat.min_eq_left h]

/-- A packet that finds the queue empty and room for all of it is sent. -/
theorem sendOn_eq (hq : q < m.lanes.length) (h6 : m.laneState q = 6) (hawake : m.fld F.LANE_STATUS_TX_ASLEEP q = 0) (htxq : (m.laneOf q).txq = [])
    (hroom : (m.laneOf q).roomFor x) : m.sendOn q x = m.sent q x := by
  have hlane : (m.modLane q (fun l => { l with txq := l.txq ++ [(x, 0)] })).laneOf q = { m.laneOf q with txq := [(x, 0)] } := by
    rw [laneOf_modLane _ hq, htxq]
    rfl
  have hroom' : ({ m.laneOf q with txq := [(x, 0)] } : Lane).roomFor x := hroom
  have hopen : ¬(([(x, 0)] : List (Packet × Nat)).isEmpty = true ∨ (m.modLane q (fun l => { l with txq := l.txq ++ [(x, 0)] })).laneState q ≠ 6 ∨
      (m.modLane q (fun l => { l with txq := l.txq ++ [(x, 0)] })).fld F.LANE_STATUS_TX_ASLEEP q = 1) := by
    rintro (h | h | h)
    · exact Bool.false_ne_true h
    · exact h h6
    · rw [fld_modLane, hawake] at h
      exact absurd h (by decide)
  have hlanes : (m.modLane q (fun l => { l with txq := l.txq ++ [(x, 0)] })).modLane q
      (fun _ => { Lane.sending x { m.laneOf q with txq := [(x, 0)] } with txq := [] }) = m.modLane q (Lane.sending x) := by
    refine congrArg (fun ls => ({ m with lanes := ls } : Mod)) ((modNth_modNth _ _ _ _).trans (modNth_congr {} ?_))
    show ({ Lane.sending x { m.laneOf q with txq := [(x, 0)] } with txq := [] } : Lane) = Lane.sending x (m.laneOf q)
    rw [← htxq]
    rfl
  unfold Mod.sendOn Mod.pump
  rw [hlane, if_neg hopen, List.foldl_cons, List.foldl_nil, pumpNext_of_room hroom']
  exact congrArg (fun n : Mod => (n.addFld F.LANE_COUNT_COUNT (1 + x.len.toNat) q 0).emit (.packet q x)) hlanes

/-! ## What the receive buffers' release leaves -/

theorem freed_keeps (l : Lane) (x n : Nat) : (l.freed x n).used = l.used ∧ (l.freed x n).replay = l.replay ∧ (l.freed x n).txq = l.txq := by
  unfold Lane.freed
  split <;> exact ⟨rfl, rfl, rfl⟩

/-- A part of the lane that the release of receive buffers keeps. -/
theorem laneOf_freeFlits {β : Type} {f : Lane → β} (hf : ∀ (l : Lane) (x n : Nat), f (l.freed x n) = f l) (m : Mod) (p : Nat) (y : Packet) (q : Nat) :
    f ((m.freeFlits p y).laneOf q) = f (m.laneOf q) := by
  by_cases h : p = q
  · subst h
    exact nth_modNth_keeps (fun l => hf l _ _) m.lanes p {}
  · exact congrArg f (nth_modNth_ne m.lanes p q _ {} h)

theorem roomFor_congr {l l' : Lane} (hused : l'.used = l.used) (hreplay : l'.replay = l.replay) {y : Packet} (h : l.roomFor y) : l'.roomFor y := by
  unfold Lane.roomFor Lane.freeCredits Lane.shared at h ⊢
  rw [hused, hreplay]
  exact h

theorem roomFor_freeFlits {y : Packet} {p : Nat} (h : (m.laneOf q).roomFor x) : ((m.freeFlits p y).laneOf q).roomFor x :=
  roomFor_congr (laneOf_freeFlits (fun l x n => (freed_keeps l x n).1) m p y q) (laneOf_freeFlits (fun l x n => (freed_keeps l x n).2.1) m p y q) h

theorem txq_freeFlits (p : Nat) (y : Packet) (h : (m.laneOf q).txq = []) : ((m.freeFlits p y).laneOf q).txq = [] :=
  (laneOf_freeFlits (fun l x n => (freed_keeps l x n).2.2) m p y q).trans h

theorem noneQueued_freeFlits (h : noneQueued m.lanes = true) (p : Nat) (y : Packet) : noneQueued (m.freeFlits p y).lanes = true :=
  noneQueued_modNth h p fun l hl => (freed_keeps l _ _).2.2.trans hl

theorem length_freeFlits (m : Mod) (p : Nat) (y : Packet) : (m.freeFlits p y).lanes.length = m.lanes.length := length_modNth _ _ _

theorem noneQueued_sending {lanes : List Lane} (h : noneQueued lanes = true) (q : Nat) (x : Packet) :
    noneQueued (modNth lanes q (Lane.sending x)) = true := noneQueued_modNth h q fun _ hl => hl

end

/-! ## Counters of the fabric and of a port -/

theorem fabCount_ne_lane {f : Fld} (hf : f.blk = .lane) (q : Nat) {k : Nat} (hk : k < 8) (j : Nat) : F.FAB_COUNT_COUNT.addr 0 k ≠ f.addr q j :=
  fab_ne_lane rfl hf 0 q (by show 0x300 + k * 8 < _; omega)

/-- A port's field after a fabric counter. -/
theorem fld_addFabCount_lane (m : Mod) (n : Nat) {k : Nat} (hk : k < 8) {f : Fld} (hf : f.blk = .lane) (q j : Nat) :
    (m.addFld F.FAB_COUNT_COUNT n 0 k).fld f q j = m.fld f q j :=
  fld_setFld_addr _ _ _ _ _ _ _ _ _ _ (fabCount_ne_lane hf q hk j).symm

/-- A fabric counter after a port's field. -/
theorem fld_fabCount_addLane (m : Mod) (n : Nat) {k : Nat} (hk : k < 8) (q j : Nat) :
    (m.addFld F.LANE_COUNT_COUNT n q j).fld F.FAB_COUNT_COUNT 0 k = m.fld F.FAB_COUNT_COUNT 0 k :=
  fld_setFld_addr _ _ _ _ _ _ _ _ _ _ (fabCount_ne_lane rfl q hk j)

/-- Two counters of the fabric. -/
theorem fld_fabCount_ne (m : Mod) (n : Nat) {k k' : Nat} (h : k' ≠ k) :
    (m.addFld F.FAB_COUNT_COUNT n 0 k).fld F.FAB_COUNT_COUNT 0 k' = m.fld F.FAB_COUNT_COUNT 0 k' :=
  fld_setFld_offset m F.FAB_COUNT_COUNT F.FAB_COUNT_COUNT _ 0 k 0 k' 0 rfl (by show 0x300 + k' * 8 ≠ 0x300 + k * 8; omega)

theorem fld_sent_fabCount (m : Mod) (q : Nat) (x : Packet) {k : Nat} (hk : k < 8) :
    (m.sent q x).fld F.FAB_COUNT_COUNT 0 k = m.fld F.FAB_COUNT_COUNT 0 k := fld_fabCount_addLane (m.modLane q (Lane.sending x)) _ hk q 0

theorem fabCount_lt {k : Nat} (hk : k < 8) : F.FAB_COUNT_COUNT.addr 0 k < 0x700007000000 := fabReg_lt rfl 0 (by show 0x300 + k * 8 < _; omega)
theorem laneCount_lt (q : Fin 10) : F.LANE_COUNT_COUNT.addr q 0 < 0x700007000000 := laneReg_lt rfl q (by decide)

/-! ## A packet that goes on -/

section
variable {port q : Fin 10} {p : Packet} {s : State}

/-- The module once a packet that came through `i` has left through `q`. -/
def Mod.relayed (m : Mod) (i q : Nat) (p y : Packet) : Mod := ((m.freeFlits i p).addFld F.FAB_COUNT_COUNT 1 0 2).sent q y

theorem relayed_of_room {m : Mod} {i q : Nat} {p y : Packet} (hlen : q < m.lanes.length) (h6 : m.laneState q = 6) (hawake : m.fld F.LANE_STATUS_TX_ASLEEP q = 0)
    (htxq : (m.laneOf q).txq = []) (hroom : (m.laneOf q).roomFor y) :
    ((m.freeFlits i p).addFld F.FAB_COUNT_COUNT 1 0 2).sendOn q y = m.relayed i q p y := by
  refine sendOn_eq ((length_freeFlits m i p).symm ▸ hlen) ?_ ?_ (txq_freeFlits i p htxq) (roomFor_freeFlits hroom)
  · exact (fld_addFabCount_lane (m.freeFlits i p) 1 (by decide) rfl q 0).trans h6
  · exact (fld_addFabCount_lane (m.freeFlits i p) 1 (by decide) rfl q 0).trans hawake

/-- A packet for another node that breaks no rule goes on. -/
theorem arrive_forward {m : Mod} {i : Nat} {f : Mod → Mod} (htakes : m.takes i p) (hdst : p.dst.val ≠ m.fld F.FAB_NODE_ID) (hvc : p.vc.val ≠ 4)
    (hty : p.ty ≠ 0x62) : m.arrive i p f = m.forward i p := by
  obtain ⟨h6, haccepts, hviol⟩ := htakes
  have hty' : p.ty.toNat ≠ 0x62 := fun h => hty (BitVec.eq_of_toNat_eq h)
  have hjoin : m.joinPasses p = false := decide_eq_false fun h => hty' h.1
  unfold Mod.arrive
  rw [if_neg (not_not.mpr h6), haccepts, hviol, hjoin]
  exact (if_neg (by decide)).trans ((if_neg Bool.false_ne_true).trans (if_neg (by rintro (h | h | h); exacts [hdst h, hvc h, hty' h])))

theorem forward_routed {m : Mod} {i q : Nat} (hsrc : p.srcrt = false) (hhops : 1 < p.hops.toNat) (hfence : m.fenced p.dst.val = false)
    (hroute : m.route (some i) { p with hops := p.hops - 1 } = .port q) :
    m.forward i p = ((m.freeFlits i p).addFld F.FAB_COUNT_COUNT 1 0 2).sendOn q (m.asSent (some i) q { p with hops := p.hops - 1 }) := by
  unfold Mod.forward
  rw [if_neg (Nat.not_le.mpr hhops), if_neg (by rw [hsrc]; decide)]
  unfold Mod.passOn
  rw [if_neg (by rw [hfence, Bool.and_false]; decide), hroute]
  rfl

theorem portStep_relayed (m : Mod) (i q : Nat) (p y : Packet) :
    PortStep [F.FAB_COUNT_COUNT.addr 0 2, F.LANE_COUNT_COUNT.addr q 0] (modNth (m.freeFlits i p).lanes q (Lane.sending y)) m.fab m (m.relayed i q p y) :=
  portStep_emit (portStep_addFld (portStep_modLane (portStep_addFld (portStep_modLane (portStep_refl _ m) i _) F.FAB_COUNT_COUNT 1 0 2 (.head _)) q
    (Lane.sending y)) F.LANE_COUNT_COUNT _ q 0 (.tail _ (.head _))) _

/-- A command that passes a packet on answers the packet, the counters and the ports. -/
theorem answers_relayed {c : Instr} {f : Mod → Mod} {y : Packet} (h : exec c s = s.runF f) (hq : s.m.quiet = true)
    (hf : f s.m.clearOut = s.m.clearOut.relayed port q p y) :
    Answers c s (fun t => t.m.out = [.packet q y] ∧ t.m.fld F.FAB_COUNT_COUNT 0 2 = (s.m.fld F.FAB_COUNT_COUNT 0 2 + 1) % 2 ^ 64 ∧
      OnlyRegs [F.FAB_COUNT_COUNT.addr 0 2, F.LANE_COUNT_COUNT.addr q 0]
        { s.m with lanes := modNth (s.m.freeFlits port p).lanes q (Lane.sending y) } t.m) := by
  have hstep := portStep_relayed s.m.clearOut port q p y
  have hregs : ∀ a ∈ [F.FAB_COUNT_COUNT.addr 0 2, F.LANE_COUNT_COUNT.addr q 0], a < 0x700007000000 :=
    List.forall_mem_cons.mpr ⟨fabCount_lt (by decide), List.forall_mem_singleton.mpr (laneCount_lt q)⟩
  refine answers_portStep h hq (by rw [hf]; exact hstep) (draining_not_mem hregs)
    (noneQueued_sending (noneQueued_freeFlits (m := s.m) (noneQueued_of_quiet hq) port p) q y) (fabAtRest_of_quiet hq) (by rw [hf]; rfl)
    (fun honly => ⟨?_, ?_, honly⟩)
  all_goals rw [hf]
  · rfl
  · refine (fld_settle _ _ _ _ _).trans ((fld_sent_fabCount _ q y (by decide)).trans ?_)
    exact fld_addFld_self (s.m.clearOut.freeFlits port p) F.FAB_COUNT_COUNT 1 0 2 (by decide)

theorem answers_forward_routed (hq : s.m.quiet = true) (htakes : s.m.takes port p) (hdst : p.dst.val ≠ s.m.fld F.FAB_NODE_ID) (hvc : p.vc.val ≠ 4)
    (hty : p.ty ≠ 0x62) (hfence : s.m.fenced p.dst.val = false) (hsrc : p.srcrt = false) (hhops : 1 < p.hops.toNat)
    (hleaves : s.m.leaves (some port.val) q { p with hops := p.hops - 1 }) :
    Answers (.packetForward port p) s (fun t => t.m.out = [.packet q (s.m.asSent (some port.val) q { p with hops := p.hops - 1 })] ∧
      t.m.fld F.FAB_COUNT_COUNT 0 2 = (s.m.fld F.FAB_COUNT_COUNT 0 2 + 1) % 2 ^ 64 ∧
      OnlyRegs [F.FAB_COUNT_COUNT.addr 0 2, F.LANE_COUNT_COUNT.addr q 0]
        { s.m with lanes := (s.m.freeFlits port p).lanesAfter (some port.val) q { p with hops := p.hops - 1 } } t.m) := by
  obtain ⟨hroute, hlen, h6, hawake, hroom⟩ := hleaves
  refine answers_relayed (exec_packetForward port p s) hq ?_
  refine (arrive_forward (m := s.m.clearOut) htakes hdst hvc hty).trans ((forward_routed (m := s.m.clearOut) hsrc hhops hfence hroute).trans ?_)
  exact relayed_of_room (m := s.m.clearOut) hlen h6 hawake (txq_of_noneQueued (noneQueued_of_quiet hq) q) hroom

/-! ### By PATH -/

/-- A byte written inside a head, or right after it. -/
theorem leAt_splice_byte (h : List Byte) {i : Nat} (hi : i ≤ h.length) (b : Byte) : leAt (splice h i [b]) i 1 = b.toNat := by
  have hdrop : (splice h i [b]).drop i = b :: h.drop (i + 1) := by
    unfold splice
    rw [List.append_assoc, List.drop_append_of_le_length (by rw [List.length_take, Nat.min_eq_left hi]), List.drop_eq_nil_of_le (by
      rw [List.length_take, Nat.min_eq_left hi])]
    rfl
  unfold leAt
  rw [hdrop]
  simp [ofBytes]

theorem length_of_byteAt {p : Packet} {i : Nat} (h : 0 < p.byteAt i) : i < p.head.length := by
  by_contra hlen
  unfold Packet.byteAt leAt at h
  rw [List.drop_eq_nil_of_le (Nat.not_lt.mp hlen)] at h
  exact absurd h (by decide)

theorem pathPos_stepPath {p : Packet} (h : 0x37 ≤ p.head.length) : (stepPath p).pathPos = (p.pathPos + 255) % 256 := by
  unfold Packet.pathPos Packet.byteAt stepPath
  rw [leAt_splice_byte _ h, BitVec.toNat_ofNat]
  rfl

/-- A packet routed by PATH that breaks no rule has an entry at its position. -/
theorem pathPos_lt_of_takes {m : Mod} {i : Nat} (htakes : m.takes i p) (hsrc : p.srcrt = true) (hdst : p.dst.val ≠ m.fld F.FAB_NODE_ID) :
    p.pathPos < p.pathLen := by
  obtain ⟨-, -, hviol⟩ := htakes
  by_contra hpos
  have hbad : p.srcrt = true ∧ p.dst.val ≠ m.fld F.FAB_NODE_ID ∧
      (p.pathLen ≤ p.pathPos ∨ 12 < p.pathLen ∨ 10 ≤ p.pathEntry p.pathPos ∨ m.laneState (p.pathEntry p.pathPos) ≠ 6) :=
    ⟨hsrc, hdst, .inl (Nat.not_lt.mp hpos)⟩
  unfold Mod.violationOf at hviol
  simp only [if_pos hbad] at hviol
  split_ifs at hviol

theorem answers_forward_path (hq : s.m.quiet = true) (htakes : s.m.takes port p) (hdst : p.dst.val ≠ s.m.fld F.FAB_NODE_ID) (hvc : p.vc.val ≠ 4)
    (hty : p.ty ≠ 0x62) (hsrc : p.srcrt = true) (hhops : 1 < p.hops.toNat) (hentry : p.pathEntry p.pathPos = q.val)
    (hroom : s.m.hasRoom (some port.val) q { p with hops := p.hops - 1 }) :
    Answers (.packetForward port p) s (fun t => ∃ y, t.m.out = [.packet q y] ∧ y.pathPos = (p.pathPos + 255) % 256 ∧ y.dst = p.dst ∧
      y.hops = p.hops - 1 ∧ y.body = p.body) := by
  obtain ⟨hlen, h6, hawake, hroom⟩ := hroom
  have hhead : 0x37 ≤ p.head.length := length_of_byteAt (lt_of_le_of_lt (Nat.zero_le _) (pathPos_lt_of_takes htakes hsrc hdst))
  have hforward : s.m.clearOut.forward port p = ((s.m.clearOut.freeFlits port p).addFld F.FAB_COUNT_COUNT 1 0 2).sendOn q
      { stepPath { p with hops := p.hops - 1 } with sub := s.m.clearOut.subAfter q (some port.val) p.sub } := by
    unfold Mod.forward
    rw [if_neg (Nat.not_le.mpr hhops), if_pos hsrc, hentry]
  obtain ⟨t, ht, hout, -, -⟩ := answers_relayed (q := q) (exec_packetForward port p s) hq
    ((arrive_forward (m := s.m.clearOut) htakes hdst hvc hty).trans (hforward.trans
      (relayed_of_room (m := s.m.clearOut) hlen h6 hawake (txq_of_noneQueued (noneQueued_of_quiet hq) q) hroom)))
  exact ⟨t, ht, _, hout, pathPos_stepPath (p := { p with hops := p.hops - 1 }) hhead, rfl, rfl, rfl⟩

end

/-! ## Violations (12 R354) -/

section
variable {m : Mod} {code port src ty : Nat}

/-- The violation counted and logged. -/
def Mod.violLogged (m : Mod) (code port src ty : Nat) : Mod :=
  ((((((m.addFld F.FAB_COUNT_COUNT 1 0 3).setFld F.FAB_VIOL_LOG_CODE code).setFld F.FAB_VIOL_LOG_PORT port).setFld F.FAB_VIOL_LOG_SRC src).setFld
    F.FAB_VIOL_LOG_TYPE ty)).setFld F.FAB_VIOL_LOG_VALID 1

/-- What a violation leaves: its count, its log, and an event for the first of its code. -/
structure Violated (m n : Mod) (code port src ty : Nat) : Prop where
  count : n.fld F.FAB_COUNT_COUNT 0 3 = (m.fld F.FAB_COUNT_COUNT 0 3 + 1) % 2 ^ 64
  valid : n.fld F.FAB_VIOL_LOG_VALID = 1
  code : n.fld F.FAB_VIOL_LOG_CODE = code
  port : n.fld F.FAB_VIOL_LOG_PORT = port
  src : n.fld F.FAB_VIOL_LOG_SRC = src
  type : n.fld F.FAB_VIOL_LOG_TYPE = ty

theorem violated_violLogged (m : Mod) (hcode : code < 2 ^ 4) (hport : port < 2 ^ 4) (hsrc : src < 2 ^ 14) (hty : ty < 2 ^ 8) :
    Violated m (m.violLogged code port src ty) code port src ty := by
  have hcount (f : Fld) (x : Mod) (v : Nat) (hb : f.blk = .fab) (hoff : f.off = 0x30) (hstride : f.stride = 0) :
      (x.setFld f v).fld F.FAB_COUNT_COUNT 0 3 = x.fld F.FAB_COUNT_COUNT 0 3 :=
    fld_setFld_offset x f F.FAB_COUNT_COUNT v 0 0 0 3 0 hb (by rw [hoff, hstride]; decide)
  have hfit (f : Fld) (x : Mod) {v : Nat} (h : f.lo + f.w ≤ 64) (hv : v < 2 ^ f.w) : (x.setFld f v).fld f = v := fld_setFld_fits x f 0 0 h hv
  have hc (x : Mod) := hfit F.FAB_VIOL_LOG_CODE x (by decide) hcode
  have hp (x : Mod) := hfit F.FAB_VIOL_LOG_PORT x (by decide) hport
  have hs (x : Mod) := hfit F.FAB_VIOL_LOG_SRC x (by decide) hsrc
  have ht (x : Mod) := hfit F.FAB_VIOL_LOG_TYPE x (by decide) hty
  unfold Mod.violLogged
  constructor
  case count =>
    rw [hcount F.FAB_VIOL_LOG_VALID _ _ rfl rfl rfl, hcount F.FAB_VIOL_LOG_TYPE _ _ rfl rfl rfl, hcount F.FAB_VIOL_LOG_SRC _ _ rfl rfl rfl,
      hcount F.FAB_VIOL_LOG_PORT _ _ rfl rfl rfl, hcount F.FAB_VIOL_LOG_CODE _ _ rfl rfl rfl]
    exact fld_addFld_self m F.FAB_COUNT_COUNT 1 0 3 (by decide)
  case valid => exact hfit F.FAB_VIOL_LOG_VALID _ (by decide) (by decide)
  case code => simp (disch := decide) only [fld_setFld_bitsApart, hc]
  case port => simp (disch := decide) only [fld_setFld_bitsApart, hp]
  case src => simp (disch := decide) only [fld_setFld_bitsApart, hs]
  case type => simp (disch := decide) only [fld_setFld_bitsApart, ht]

theorem violated_raise {n : Mod} (h : Violated m n code port src ty) (c : Nat) (d : List Byte) : Violated m (n.raise c d) code port src ty := by
  have hread {f : Fld} {i k v : Nat} (hf : f.blk.aboveEvents = true) (hv : n.fld f i k = v) : (n.raise c d).fld f i k = v :=
    (fld_raise_above n c d i k 0 hf).trans hv
  obtain ⟨hcount, hvalid, hcode, hport, hsrc, htype⟩ := h
  exact ⟨hread rfl hcount, hread rfl hvalid, hread rfl hcode, hread rfl hport, hread rfl hsrc, hread rfl htype⟩

theorem violated_settle {n : Mod} (h : Violated m n code port src ty) : Violated m n.settle code port src ty := by
  obtain ⟨hcount, hvalid, hcode, hport, hsrc, htype⟩ := h
  exact ⟨(fld_settle _ _ _ _ _).trans hcount, (fld_settle _ _ _ _ _).trans hvalid, (fld_settle _ _ _ _ _).trans hcode,
    (fld_settle _ _ _ _ _).trans hport, (fld_settle _ _ _ _ _).trans hsrc, (fld_settle _ _ _ _ _).trans htype⟩

theorem violated_modFab {n : Mod} (h : Violated m n code port src ty) (g : Fab → Fab) : Violated m (n.modFab g) code port src ty := by
  obtain ⟨hcount, hvalid, hcode, hport, hsrc, htype⟩ := h
  exact ⟨hcount, hvalid, hcode, hport, hsrc, htype⟩

theorem violated_freeFlits {n : Mod} {i : Nat} {p : Packet} (h : Violated (m.clearOut.freeFlits i p) n code port src ty) :
    Violated m n code port src ty := by
  obtain ⟨hcount, hvalid, hcode, hport, hsrc, htype⟩ := h
  exact ⟨hcount, hvalid, hcode, hport, hsrc, htype⟩

theorem fab_violLogged (m : Mod) (code port src ty : Nat) : (m.violLogged code port src ty).fab = m.fab := rfl

/-- The event of the first violation of a code. -/
def Mod.violEvent (m : Mod) (code : Nat) : Mod :=
  (m.modFab (fun f => { f with violSeen := f.violSeen ||| 2 ^ code })).raise 0x0808 (d8 (m.reg (F.FAB_VIOL_LOG_CODE.addr 0 0)).toNat)

theorem violation_eq (m : Mod) (code port src ty : Nat) : m.violation code port src ty =
    if bit m.fab.violSeen code then m.violLogged code port src ty else (m.violLogged code port src ty).violEvent code := rfl

/-- Registers of a violation. -/
def violRegs : List Nat := [F.FAB_COUNT_COUNT.addr 0 3, F.FAB_VIOL_LOG_CODE.addr 0 0]

theorem regsAndEvents_violLogged (m : Mod) (code port src ty : Nat) : RegsAndEvents violRegs m (m.violLogged code port src ty) := by
  have hlog : F.FAB_VIOL_LOG_CODE.addr 0 0 ∈ violRegs ++ eventRegs := .tail _ (.head _)
  have hcount := regsAndEvents_setFld (regsAndEvents_refl violRegs m) F.FAB_COUNT_COUNT (m.fld F.FAB_COUNT_COUNT 0 3 + 1) 0 3 0 (.head _)
  exact regsAndEvents_setFld (regsAndEvents_setFld (regsAndEvents_setFld (regsAndEvents_setFld (regsAndEvents_setFld hcount
    F.FAB_VIOL_LOG_CODE code 0 0 0 hlog) F.FAB_VIOL_LOG_PORT port 0 0 0 hlog) F.FAB_VIOL_LOG_SRC src 0 0 0 hlog)
    F.FAB_VIOL_LOG_TYPE ty 0 0 0 hlog) F.FAB_VIOL_LOG_VALID 1 0 0 0 hlog

theorem regsAndEvents_modFab {as : List Nat} {m n : Mod} (h : RegsAndEvents as m n) (g : Fab → Fab) : RegsAndEvents as (m.modFab g) (n.modFab g) := by
  obtain ⟨hn, hmem, hregs⟩ := h
  refine ⟨?_, hmem, hregs⟩
  rw [hn]
  rfl

/-- A violation's effect: the record, its frame, and at most its event among the outputs. -/
theorem violation_effect (m : Mod) (hcode : code < 2 ^ 4) (hport : port < 2 ^ 4) (hsrc : src < 2 ^ 14) (hty : ty < 2 ^ 8) :
    Violated m (m.violation code port src ty) code port src ty ∧ (bit m.fab.violSeen code = false → ∃ d, Raised (m.violation code port src ty) 0x0808 d) ∧
    RegsAndEvents violRegs { m with fab := { m.fab with violSeen := (m.violation code port src ty).fab.violSeen } } (m.violation code port src ty) ∧
    ∀ o ∈ (m.violation code port src ty).out, o ∈ m.out ∨ ∃ r, o = .event r := by
  have hlogged := violated_violLogged m hcode hport hsrc hty
  have hframe := regsAndEvents_violLogged m code port src ty
  rw [violation_eq]
  cases hseen : bit m.fab.violSeen code with
  | true =>
    rw [if_pos rfl, fab_violLogged]
    exact ⟨hlogged, fun h => absurd h (by decide), hframe, fun o ho => .inl ho⟩
  | false =>
    have hmarked := regsAndEvents_modFab hframe (fun f => { f with violSeen := f.violSeen ||| 2 ^ code })
    obtain ⟨r, hout⟩ := out_raise ((m.violLogged code port src ty).modFab (fun f => { f with violSeen := f.violSeen ||| 2 ^ code })) 0x0808
      (d8 ((m.violLogged code port src ty).reg (F.FAB_VIOL_LOG_CODE.addr 0 0)).toNat)
    have hraised := regsAndEvents_raise hmarked 0x0808 (d8 ((m.violLogged code port src ty).reg (F.FAB_VIOL_LOG_CODE.addr 0 0)).toNat)
    have hfab : ((m.violLogged code port src ty).violEvent code).fab = { m.fab with violSeen := m.fab.violSeen ||| 2 ^ code } := by
      have hfab := congrArg Mod.fab hraised.1
      exact hfab
    rw [if_neg Bool.false_ne_true]
    refine ⟨violated_raise (violated_modFab hlogged _) _ _, fun _ => ⟨_, raised_raise _ _ _⟩, ?_, fun o ho => ?_⟩
    · rw [hfab]
      exact hraised
    · unfold Mod.violEvent at ho
      rw [hout] at ho
      rcases List.mem_append.mp ho with ho | ho
      · exact .inl ho
      · exact .inr ⟨r, List.mem_singleton.mp ho⟩

end

/-! ## Packets that are discarded -/

section
variable {port : Fin 10} {p : Packet} {s : State}

/-- The codes that a packet can violate by itself (12 Table 12.7). -/
theorem violationOf_mem {m : Mod} {i code : Nat} (h : m.violationOf i p = some code) : code ∈ [1, 2, 6, 9, 10] := by
  simp only [Mod.violationOf] at h
  split_ifs at h <;> (obtain rfl := Option.some.inj h; decide)

theorem violationOf_lt {m : Mod} {i code : Nat} (h : m.violationOf i p = some code) : code < 2 ^ 4 ∧ code ≠ 5 :=
  (by decide : ∀ c ∈ [1, 2, 6, 9, 10], c < 2 ^ 4 ∧ c ≠ 5) code (violationOf_mem h)

theorem quiet_violSeen {m : Mod} (hq : m.quiet = true) (v : Nat) : ({ m with fab := { m.fab with violSeen := v } } : Mod).quiet = true :=
  quiet_of_portStep (as := []) (lanes := m.lanes) (fab := { m.fab with violSeen := v }) (m := m) ⟨rfl, fun _ _ => rfl⟩ hq List.not_mem_nil
    (noneQueued_of_quiet hq) (fabAtRest_of_quiet hq)

theorem quiet_freeFlits {m : Mod} (hq : m.quiet = true) (i : Nat) (p : Packet) : (m.freeFlits i p).quiet = true :=
  quiet_modLane hq i fun l hl => (freed_keeps l _ _).2.2.trans hl

/-- The module after a violating packet. -/
def Mod.discarded (m : Mod) (code i : Nat) (p : Packet) : Mod := (m.freeFlits i p).violation code i p.src.val p.ty.toNat

theorem discarded_effect (m : Mod) {code : Nat} (port : Fin 10) (p : Packet) (hcode : code < 2 ^ 4) :
    Violated (m.freeFlits port p) (m.discarded code port p) code port p.src.val p.ty.toNat ∧
    (bit m.fab.violSeen code = false → ∃ d, Raised (m.discarded code port p) 0x0808 d) ∧
    RegsAndEvents violRegs { m.freeFlits port p with fab := { m.fab with violSeen := (m.discarded code port p).fab.violSeen } }
      (m.discarded code port p) ∧ ∀ o ∈ (m.discarded code port p).out, o ∈ m.out ∨ ∃ r, o = .event r :=
  violation_effect (m.freeFlits port p) hcode (lt_trans port.isLt (by decide)) p.src.isLt p.ty.isLt

/-- A field whose register is outside the frame. -/
theorem fld_of_regsAndEvents {as : List Nat} {m n : Mod} (h : RegsAndEvents as m n) {f : Fld} {i k j : Nat} (hf : f.addr i k ∉ as ++ eventRegs) :
    n.fld f i k j = m.fld f i k j := by
  simp only [Mod.fld, h.2.2 _ hf]

theorem violRegs_lt : ∀ a ∈ violRegs, a < 0x700007000000 := by decide

theorem stays_of_events {m : Mod} {os : List Out} (hos : os = []) (h : ∀ o ∈ m.out, o ∈ os ∨ ∃ r, o = .event r) : m.out.all Out.stays = true := by
  refine List.all_eq_true.mpr fun o ho => ?_
  rcases h o ho with h | ⟨r, rfl⟩
  · rw [hos] at h
    exact absurd h List.not_mem_nil
  · rfl

theorem answers_violation (hq : s.m.quiet = true) {code : Nat} (h6 : s.m.laneState port = 6) (haccepts : s.m.accepts p = true)
    (hviol : s.m.violationOf port p = some code) (h2 : code ≠ 2) :
    Answers (.packetForward port p) s (fun t => Violated s.m t.m code port p.src.val p.ty.toNat ∧
      (bit s.m.fab.violSeen code = false → ∃ d, Raised t.m 0x0808 d) ∧ RegsAndEvents violRegs
        { s.m with lanes := (s.m.freeFlits port p).lanes, fab := { s.m.fab with violSeen := t.m.fab.violSeen } } t.m) := by
  obtain ⟨hcode, h5⟩ := violationOf_lt hviol
  have heffect : s.m.clearOut.arrive port p id = s.m.clearOut.discarded code port p := by
    unfold Mod.arrive
    rw [if_neg (not_not.mpr (show s.m.clearOut.laneState port = 6 from h6)), show s.m.clearOut.accepts p = true from haccepts,
      show s.m.clearOut.violationOf port p = some code from hviol]
    refine (if_neg (by decide)).trans ?_
    show s.m.clearOut.violate code port p = _
    unfold Mod.violate
    rw [if_neg (by simp [h2]), if_neg h5]
    rfl
  obtain ⟨hviolated, hraised, hframe, hout⟩ := discarded_effect s.m.clearOut port p hcode
  have hframe' := regsAndEvents_trans (regsAndEvents_clearOut violRegs
    { s.m.freeFlits port p with fab := { s.m.fab with violSeen := (s.m.clearOut.discarded code port p).fab.violSeen } }) hframe
  refine answers_events (exec_packetForward port p s) (by rw [heffect]; exact hframe') (quiet_violSeen (quiet_freeFlits hq port p) _)
    (draining_not_mem violRegs_lt) (by rw [heffect]; exact stays_of_events rfl hout) (fun hsettled => ?_)
  rw [heffect] at hsettled ⊢
  exact ⟨violated_settle (violated_freeFlits hviolated), hraised, hsettled⟩

theorem answers_lastHop (hq : s.m.quiet = true) (htakes : s.m.takes port p) (hdst : p.dst.val ≠ s.m.fld F.FAB_NODE_ID) (hvc : p.vc.val ≠ 4)
    (hty : p.ty ≠ 0x62) (hhops : p.hops.toNat ≤ 1) :
    Answers (.packetForward port p) s (fun t => t.m.fld F.FAB_COUNT_COUNT 0 5 = (s.m.fld F.FAB_COUNT_COUNT 0 5 + 1) % 2 ^ 64 ∧
      t.m.fld F.FAB_VIOL_LOG_CODE = 5 ∧ ∀ (j : Fin 10) (y : Packet), .packet j y ∉ t.m.out) := by
  have hviolate : s.m.clearOut.violate 5 port p = (s.m.clearOut.discarded 5 port p).addFld F.FAB_COUNT_COUNT 1 0 5 := by
    unfold Mod.violate
    rw [if_neg (by rw [show decide (5 = 2) = false from rfl, Bool.false_and]; exact Bool.false_ne_true)]
    exact if_pos rfl
  have heffect : s.m.clearOut.arrive port p id = (s.m.clearOut.discarded 5 port p).addFld F.FAB_COUNT_COUNT 1 0 5 :=
    (arrive_forward (m := s.m.clearOut) htakes hdst hvc hty).trans ((if_pos hhops).trans hviolate)
  obtain ⟨hviolated, -, hframe, hout⟩ := discarded_effect s.m.clearOut port p (code := 5) (by decide)
  have hframe' := regsAndEvents_trans (regsAndEvents_clearOut violRegs
    { s.m.freeFlits port p with fab := { s.m.fab with violSeen := (s.m.clearOut.discarded 5 port p).fab.violSeen } }) hframe
  have hcount5 : (s.m.clearOut.discarded 5 port p).fld F.FAB_COUNT_COUNT 0 5 = s.m.fld F.FAB_COUNT_COUNT 0 5 :=
    fld_of_regsAndEvents hframe' (by decide)
  have hcounted := regsAndEvents_setFld (regsAndEvents_mono hframe' (bs := F.FAB_COUNT_COUNT.addr 0 5 :: violRegs) fun _ h => .tail _ h)
    F.FAB_COUNT_COUNT ((s.m.clearOut.discarded 5 port p).fld F.FAB_COUNT_COUNT 0 5 + 1) 0 5 0 (.head _)
  refine answers_events (exec_packetForward port p s) (by rw [heffect]; exact hcounted) (quiet_violSeen (quiet_freeFlits hq port p) _)
    (draining_not_mem (by decide)) (by rw [heffect]; exact stays_of_events rfl hout) (fun _ => ⟨?_, ?_, fun j y hy => ?_⟩)
  all_goals rw [heffect] at *
  · refine (fld_settle _ _ _ _ _).trans ((fld_addFld_self _ F.FAB_COUNT_COUNT 1 0 5 (by decide)).trans ?_)
    rw [hcount5]
    rfl
  · exact (fld_settle _ _ _ _ _).trans ((fld_setFld_offset _ F.FAB_COUNT_COUNT F.FAB_VIOL_LOG_CODE _ 0 5 0 0 0 rfl (by decide)).trans hviolated.code)
  · rcases hout _ hy with h | ⟨r, h⟩
    · exact absurd h List.not_mem_nil
    · exact Out.noConfusion h

theorem answers_notAccepted (hq : s.m.quiet = true) (h6 : s.m.laneState port = 6) (hno : s.m.accepts p = false) :
    Answers (.packetForward port p) s (fun t => t.m.out = [] ∧ OnlyRegs [] { s.m with lanes := (s.m.freeFlits port p).lanes } t.m) := by
  have heffect : s.m.clearOut.arrive port p id = s.m.clearOut.freeFlits port p :=
    (if_neg (not_not.mpr h6)).trans (if_pos (by rw [show s.m.clearOut.accepts p = false from hno]; rfl))
  have hstep := portStep_modLane (portStep_refl [] s.m.clearOut) port
    (fun l => l.freed p.vcIdx (min (nth l.held p.vcIdx 0) (1 + p.len.toNat)))
  refine answers_portStep (exec_packetForward port p s) hq (by rw [heffect]; exact hstep) List.not_mem_nil
    (noneQueued_freeFlits (m := s.m) (noneQueued_of_quiet hq) port p) (fabAtRest_of_quiet hq) (by rw [heffect]; rfl) (fun honly => ⟨?_, honly⟩)
  rw [heffect]
  rfl

end

/-- Settles O36: a packet for another node frees its buffers and is sent; one that violates a rule is discarded with its record. -/
theorem packetsPass : Obligations.PacketsPass := by
  unfold Obligations.PacketsPass
  refine ⟨fun port q p s hq htakes hdst hvc hty hfence => ⟨?_, ?_, ?_⟩, fun port p code s hq => ⟨?_, fun h6 => ?_, ?_⟩⟩
  · exact fun hsrc hhops hleaves => answers_forward_routed hq htakes hdst hvc hty hfence hsrc hhops hleaves
  · exact fun hsrc hhops hentry hroom => answers_forward_path hq htakes hdst hvc hty hsrc hhops hentry hroom
  · exact fun hhops => answers_lastHop hq htakes hdst hvc hty hhops
  · intro h6 haccepts hviol h2
    obtain ⟨t, ht, ⟨hcount, hvalid, hcode, hport, hsrc, htype⟩, hraised, hframe⟩ := answers_violation hq h6 haccepts hviol h2
    exact ⟨t, ht, hcount, hvalid, hcode, hport, hsrc, htype, hraised, hframe⟩
  · exact answers_nothing (exec_packetForward port p s) hq (if_pos h6)
  · exact answers_notAccepted hq

end Sys2Proof.Machine

/-! # Proofs: requests of compute-die memory that are performed at once (08 R229, R236; 11 R300, R303), and packets that this module sends -/

namespace Sys2Proof.Machine

open Sys2Proof

/-! ## Accesses of a compute die's array -/

/-- The bytes [off, off + n) of a compute die's array, and an access of them that nothing stops: the die is reached, its banks are ON, no line
is in the directory, and no request waits there or at the array. -/
structure OnChip (m : Mod) (arr : Fin 17) (off n : Nat) : Prop where
  die : arr.val < 16
  inside : off + n ≤ sramSize arr
  dir : m.dir = []
  retry : m.retry = []
  reqSrc : m.reqSrc = []
  slate : m.portSlate arr = false
  alone : (m.sramOf arr).ywait = []
  on : ∀ b < 1024, m.bankState arr b = 0

/-- The module after a write of these bytes; a hint names their line for a Push. -/
def Mod.wrote (m : Mod) (a : Nat) (d : List (Option Byte)) (hint : Option Nat) : Mod :=
  ({ m with mem := m.mem.writeAt a d } : Mod).hinted a d.length .ok hint

section
variable {m : Mod} {arr : Fin 17} {off n : Nat}

theorem OnChip.part (h : OnChip m arr off n) {i k : Nat} (hk : i + k ≤ n) : OnChip m arr (off + i) k := by
  obtain ⟨hdie, hin, hdir, hretry, hsrc, hslate, halone, hon⟩ := h
  exact ⟨hdie, by omega, hdir, hretry, hsrc, hslate, halone, hon⟩

theorem OnChip.meetBank (h : OnChip m arr off n) (o : Nat) : m.meetBank arr (bankOf arr o) = (m, 0) := by
  have hon := h.on _ (bankOf_lt arr o)
  rw [meetBank_of_not_ret (by rw [hon]; decide), hon]

theorem OnChip.addr_lt (h : OnChip m arr off n) (hn : 1 ≤ n) : sramBase arr + off < 0x400500000000 := by
  have hdie := h.die
  have hin : off + n ≤ 0x38000000 := by simpa only [sramSize, if_neg hdie.ne] using h.inside
  rw [sramBase, if_neg hdie.ne]
  omega

theorem OnChip.addr_ge (h : OnChip m arr off n) : 0x400100000000 ≤ sramBase arr + off := by
  rw [sramBase, if_neg h.die.ne]
  omega

/-- What a hinted write keeps. -/
theorem hinted_eq (m : Mod) (a n : Nat) (hint : Option Nat) :
    ∃ due, m.hinted a n .ok hint = { m with pushDue := m.pushDue ++ due } ∧ ∀ e ∈ due, ∃ p ∈ blocksOf a n, e.1 = p.1 / 64 * 64 := by
  cases hint with
  | none => exact ⟨[], by rw [List.append_nil]; rfl, fun e he => absurd he List.not_mem_nil⟩
  | some t =>
    refine ⟨_, rfl, fun e he => ?_⟩
    obtain ⟨p, hp, rfl⟩ := List.mem_map.mp he
    exact ⟨p, hp, rfl⟩

theorem onChip_wrote (h : OnChip m arr off n) (a : Nat) (d : List (Option Byte)) (hint : Option Nat) : OnChip (m.wrote a d hint) arr off n := by
  obtain ⟨due, hdue, -⟩ := hinted_eq { m with mem := m.mem.writeAt a d } a d.length hint
  unfold Mod.wrote
  rw [hdue]
  obtain ⟨hdie, hin, hdir, hretry, hsrc, hslate, halone, hon⟩ := h
  exact ⟨hdie, hin, hdir, hretry, hsrc, hslate, halone, hon⟩

/-- A request of the bytes passes the directory and reaches the array's Y port at once. -/
theorem ncIssue_onChip (h : OnChip m arr off n) (hn : 1 ≤ n) {r : NcReq} (ha : r.addr = sramBase arr + off) :
    m.ncIssue r = m.sramPerform arr off r := by
  have hin : off < sramSize arr := by have := h.inside; omega
  have hheld : m.heldBack r = false := by simp [Mod.heldBack, ha, lpddrAt_window]
  rw [ncIssue_of_noEntry h.dir h.retry h.reqSrc hheld]
  simp [Mod.memPerform, ha, lpddrAt_window, sramAt_window hin]

theorem sramPerform_onChip (h : OnChip m arr off n) {r : NcReq} (hs : r.sport = false) : m.sramPerform arr off r =
    ((m.yPerform r.ag arr off r.op r.atom).1.hinted r.addr (opLen r.op) (m.yPerform r.ag arr off r.op r.atom).2.1 r.hint,
      .done (m.yPerform r.ag arr off r.op r.atom).2.1 (if r.quiet then [] else (m.yPerform r.ag arr off r.op r.atom).2.2)) := by
  have hbehind : m.yBehind arr off (opLen r.op) = false := by simp [Mod.yBehind, h.alone]
  simp [Mod.sramPerform, hs, h.slate, hbehind]

/-- The array's bytes are local memory, under their own addresses. -/
theorem localMem_onChip (h : OnChip m arr off n) (hn : 1 ≤ n) {src : Src} {ag : Agent} {op : MemOp} {hint : Option Nat} {ochre : Bool}
    (hop : opLen op = n) : m.localMem src ag (sramBase arr + off) op (0, false) hint ochre =
      ((m.sramAccess (some ag) arr off op).1.hinted (sramBase arr + off) n (m.sramAccess (some ag) arr off op).2.1 hint,
        .done (m.sramAccess (some ag) arr off op).2.1 (m.sramAccess (some ag) arr off op).2.2) := by
  have hlt := h.addr_lt hn
  have halias : aliasOf (sramBase arr + off) = none := by
    have hset : ¬(0x500000000000 ≤ sramBase arr + off ∧ sramBase arr + off < 0x600000000000) := by omega
    have hclear : ¬(0x600000000000 ≤ sramBase arr + off ∧ sramBase arr + off < 0x700000000000) := by omega
    rw [aliasOf, if_neg hset, if_neg hclear]
  have hiss := ncIssue_onChip h hn (r := { src := src, ag := ag, op := op, addr := sramBase arr + off, hint := hint, ochre := ochre }) rfl
  rw [sramPerform_onChip h rfl] at hiss
  simp only [Mod.localMem, halias, Mod.memAccess, hop, Nat.ne_of_gt hn, memPopulated_window hn h.inside, hiss, if_false, Bool.not_true,
    Bool.false_eq_true, Mod.yPerform]

/-- A read within a block returns the bytes. -/
theorem localMem_read_onChip (h : OnChip m arr off n) (hn : 1 ≤ n) (hb : off % 64 + n ≤ 64)
    (hgood : ∀ i < n, m.mem.parityBad (sramBase arr + off + i) = false) (src : Src) (ag : Agent) (ochre : Bool) :
    m.localMem src ag (sramBase arr + off) (.read n) (0, false) none ochre = (m, .done .ok (m.mem.readAt (sramBase arr + off) n)) := by
  rw [localMem_onChip h hn rfl, sramAccess_read_of_block hn hb, sramReadPiece_of_on (h.meetBank off) fun i hi => by simp [hgood i hi]]
  rfl

/-- A write within a block changes the bytes that it gives. -/
theorem localMem_write_onChip (h : OnChip m arr off n) (hn : 1 ≤ n) (hb : off % 64 + n ≤ 64) {d : List (Option Byte)} (hd : d.length = n)
    (src : Src) (ag : Agent) (hint : Option Nat) :
    m.localMem src ag (sramBase arr + off) (.write d) (0, false) hint = (m.wrote (sramBase arr + off) d hint, .done .ok []) := by
  subst hd
  rw [localMem_onChip h hn rfl, sramAccess_write_of_block hn hb, sramWritePiece_of_on (h.meetBank off)]
  rfl

/-- An atomic of a quantity replaces it and returns the old value. -/
theorem memAtom_onChip (h : OnChip m arr off 8) (hoff : off % 8 = 0) (hgood : ∀ i < 8, m.mem.parityBad (sramBase arr + off + i) = false)
    (src : Src) (ag : Agent) (x : AtomOp) : m.memAtom src ag (sramBase arr + off) x =
      (m.withQuantity arr off (atomResult x (m.quantity arr off)), .done .ok (m.mem.readAt (sramBase arr + off) 8)) := by
  have hq : YQuantity m arr off := ⟨hoff, h.inside, h.dir, h.retry, h.reqSrc, h.slate, h.on _ (bankOf_lt arr off), h.alone, hgood⟩
  have halign : (sramBase arr + off) % 8 = 0 := by
    have hbase : sramBase arr % 8 = 0 := by
      unfold sramBase
      split <;> omega
    omega
  have hiss := ncIssue_onChip h (by decide) (r := { src := src, ag := ag, op := .read 8, addr := sramBase arr + off, atom := some x }) rfl
  rw [sramPerform_onChip h rfl, yPerform_atom hq] at hiss
  simp only [Mod.memAtom, halign, memPopulated_window (by decide) h.inside, hiss, ne_eq, not_true, if_false, Bool.not_true, Bool.false_eq_true]
  rfl

end

/-! ## Hinted lines that are not cacheable (11 R303) -/

/-- The lines that wait for a Push lie in no package and not in the hub buffer. -/
def Mod.pushesNone (m : Mod) : Prop := ∀ e ∈ m.pushDue, cacheableHere e.1 = false

theorem cacheableHere_onChip {arr : Fin 17} {o : Nat} (hdie : arr.val < 16) (ho : o < sramSize arr) : cacheableHere (sramBase arr + o) = false := by
  simp [cacheableHere, lpddrAt_window, sramAt_window ho, hdie.ne]

theorem sramBase_mod (arr : Nat) : sramBase arr % 64 = 0 := by
  unfold sramBase
  split <;> omega

theorem pushesNone_wrote {m : Mod} {arr : Fin 17} {off : Nat} {d : List (Option Byte)} (hm : m.pushesNone) (h : OnChip m arr off d.length)
    (hn : 1 ≤ d.length) (hb : off % 64 + d.length ≤ 64) (hint : Option Nat) : (m.wrote (sramBase arr + off) d hint).pushesNone := by
  obtain ⟨due, hdue, hlines⟩ := hinted_eq { m with mem := m.mem.writeAt (sramBase arr + off) d } (sramBase arr + off) d.length hint
  have hbase := sramBase_mod arr
  unfold Mod.pushesNone Mod.wrote
  rw [hdue]
  refine List.forall_mem_append.mpr ⟨hm, fun e he => ?_⟩
  obtain ⟨p, hp, he⟩ := hlines e he
  rw [blocksOf_within hn (by omega), List.mem_singleton] at hp
  have hline : e.1 = sramBase arr + off / 64 * 64 := by rw [he, hp]; dsimp only; omega
  rw [hline]
  exact cacheableHere_onChip h.die (by have := h.inside; omega)

theorem pushHinted_of_none {m : Mod} (h : m.pushesNone) : m.pushHinted = { m with pushDue := [] } := by
  unfold Mod.pushHinted
  split
  next he => rw [List.isEmpty_iff] at he; rw [← he]
  next =>
    have hfree : ∀ e ∈ m.pushDue, m.lineHolds e.1 = false := fun e he => by
      have hlp : (lpddrAt e.1).isSome = false := (Bool.or_eq_false_iff.mp (h e he)).1
      rw [Option.isSome_eq_false_iff, Option.isNone_iff_eq_none] at hlp
      simp [Mod.lineHolds, hlp]
    have hstay : m.pushDue.filter (fun p => m.lineHolds p.1) = [] := List.filter_eq_nil_iff.mpr fun e he => by rw [hfree e he]; decide
    rw [hstay]
    exact foldl_id _ _ _ fun e he => if_pos (.inr (.inr (h e (List.mem_of_mem_filter he))))

/-- With nothing else waiting at the memory, the end of a command drops such lines. -/
theorem memSettle_of_pushesNone {m : Mod} (hq : ({ m with pushDue := [] } : Mod).memQuiet = true) (hdir : m.dir = []) (h : m.pushesNone) :
    m.memSettle = { m with pushDue := [] } := by
  unfold Mod.memSettle
  split
  next hm =>
    simp only [memQuiet_eq, Bool.and_eq_true, List.isEmpty_iff] at hm
    obtain ⟨⟨⟨⟨⟨-, -⟩, -⟩, hpush⟩, -⟩, -⟩ := hm
    rw [← hpush]
  next =>
    simp only [memQuiet_eq, Bool.and_eq_true, List.isEmpty_iff, beq_iff_eq] at hq
    obtain ⟨⟨⟨⟨⟨hmc, -⟩, hoch⟩, -⟩, -⟩, -⟩ := hq
    have hcalm (k : Nat) : (m.endHold k).admitAll k = m := by
      obtain ⟨hback, hhold, hdata⟩ := mcOf_calm hmc k
      have hmod : m.modMc k (fun c => { c with hold := [], homeData := [] }) = m := by
        refine congrArg (fun c => ({ m with mc := c } : Mod)) ((modNth_congr {} (g := id) ?_).trans (modNth_id _ _))
        show ({ m.mcOf k with hold := [], homeData := [] } : Mc) = m.mcOf k
        rw [← hhold, ← hdata]
      have hend : m.endHold k = m := by
        unfold Mod.endHold
        split
        · rfl
        · simp [show (m.mcOf k).homeData = [] from hdata, show (m.mcOf k).hold = [] from hhold, hmod, hdir]
      rw [hend]
      simp [Mod.admitAll, show (m.mcOf k).backlog = [] from hback]
    have hfold : (List.range 24).foldl (fun m k => (m.endHold k).admitAll k) m = m := foldl_id _ _ _ fun k _ => hcalm k
    have hadmit : m.ochAdmit = m := by simp [Mod.ochAdmit, show m.ochSrc = [] from hoch]
    have hsettle : ({ m with pushDue := [] } : Mod).dirSettle = { m with pushDue := [] } := by
      simp [Mod.dirSettle, hdir]
    dsimp only
    rw [hfold, hadmit, pushHinted_of_none h, hsettle]

/-- A command whose effect leaves only such lines to be pushed answers its effect without them, settled. -/
theorem answers_pushesNone {c : Instr} {s : State} {f : Mod → Mod} {n : Mod} {P : State → Prop} (h : exec c s = s.runF f)
    (hn : f s.m.clearOut = n) (hq : ({ n with pushDue := [] } : Mod).quiet = true) (hdir : n.dir = []) (hpush : n.pushesNone)
    (ho : n.out.all Out.stays = true) (hp : P { s with m := ({ n with pushDue := [] } : Mod).settle }) : Answers c s P := by
  simp only [Mod.quiet, Bool.and_eq_true, Bool.not_eq_true'] at hq
  obtain ⟨⟨hidle, hmem⟩, hsvc⟩ := hq
  refine answers_concluded h ?_ hp
  have hquiet := conclude_quiet ({ n with pushDue := [] } : Mod) hidle hmem hsvc ho
  unfold Mod.conclude at hquiet ⊢
  rw [memSettle_quiet ({ n with pushDue := [] } : Mod) hmem] at hquiet
  rw [hn, memSettle_of_pushesNone hmem hdir hpush]
  exact hquiet

/-! ## A packet of this module after a counter (12 R329) -/

section
variable (m : Mod) (n : Nat) {k : Nat} (hk : k < 8)
include hk

/-- A fabric register away from the counters. -/
theorem fld_addFabCount_fab {f : Fld} (hf : f.blk = .fab) (j j' : Nat) (h : f.off + j * f.stride < 0x300 ∨ 0x340 ≤ f.off + j * f.stride) :
    (m.addFld F.FAB_COUNT_COUNT n 0 k).fld f 0 j j' = m.fld f 0 j j' := by
  refine fld_setFld_addr _ _ _ _ _ _ _ _ _ _ (addr_ne_of_blk hf ?_)
  have hoff : F.FAB_COUNT_COUNT.off + k * F.FAB_COUNT_COUNT.stride = 0x300 + k * 8 := rfl
  omega

theorem portChosen_addFabCount {q : Nat} (hq : q < 10) : (m.addFld F.FAB_COUNT_COUNT n 0 k).portChosen q = m.portChosen q := by
  unfold Mod.portChosen
  rw [fld_addFabCount_fab m n hk rfl q 0 (.inl (by show 0x100 + q * 8 < _; omega))]
  rfl

theorem portUsable_addFabCount {q : Nat} (hq : q < 10) : (m.addFld F.FAB_COUNT_COUNT n 0 k).portUsable q = m.portUsable q := by
  unfold Mod.portUsable Mod.laneState
  rw [portChosen_addFabCount m n hk hq, fld_addFabCount_lane m n hk rfl, fld_addFabCount_lane m n hk rfl]

theorem portHeld_addFabCount (q : Nat) : (m.addFld F.FAB_COUNT_COUNT n 0 k).portHeld q = m.portHeld q := by
  unfold Mod.portHeld Mod.laneState
  rw [fld_addFabCount_lane m n hk rfl, fld_addFabCount_lane m n hk rfl, fld_addFabCount_lane m n hk rfl]

theorem subAfter_addFabCount {q : Nat} (hq : q < 10) (sub : Bool) :
    (m.addFld F.FAB_COUNT_COUNT n 0 k).subAfter q none sub = m.subAfter q none sub := by
  unfold Mod.subAfter
  rw [fld_addFabCount_fab m n hk rfl q 0 (.inl (by show 0x100 + q * 8 < _; omega))]

theorem candidates_addFabCount (node : Nat) : (m.addFld F.FAB_COUNT_COUNT n 0 k).candidates node = m.candidates node := by
  unfold Mod.candidates
  rw [fld_addFabCount_fab m n hk (f := F.FAB_ROUTE_C0) rfl node 0 (.inr (by show _ ≤ 0x100000 + node * 8; omega)),
    fld_addFabCount_fab m n hk (f := F.FAB_ROUTE_C1) rfl node 0 (.inr (by show _ ≤ 0x100000 + node * 8; omega)),
    fld_addFabCount_fab m n hk (f := F.FAB_ROUTE_C2) rfl node 0 (.inr (by show _ ≤ 0x100000 + node * 8; omega)),
    fld_addFabCount_fab m n hk (f := F.FAB_ROUTE_C3) rfl node 0 (.inr (by show _ ≤ 0x100000 + node * 8; omega))]

end

theorem bestPort_congr {f g : Nat → Nat} : ∀ {ps : List Nat}, (∀ p ∈ ps, f p = g p) → bestPort f ps = bestPort g ps ∧ ∀ q, bestPort f ps = some q → q ∈ ps
  | [], _ => ⟨rfl, fun _ h => nomatch h⟩
  | p :: ps, h => by
    obtain ⟨hbest, hmem⟩ := bestPort_congr fun x hx => h x (List.mem_cons_of_mem p hx)
    unfold bestPort
    rw [← hbest]
    cases hb : bestPort f ps with
    | none => exact ⟨rfl, fun q hq => by rw [Option.some.inj hq]; exact .head _⟩
    | some q =>
      have hq := hmem q hb
      dsimp only
      rw [h p (.head _), h q (.tail _ hq)]
      refine ⟨rfl, fun r hr => ?_⟩
      split at hr <;> rw [← Option.some.inj hr]
      · exact .tail _ hq
      · exact .head _

/-- Counting a packet does not change its way. -/
theorem route_addFabCount (m : Mod) (n : Nat) {k : Nat} (hk : k < 8) {x : Packet} (hx : x.srcrt = false) :
    (m.addFld F.FAB_COUNT_COUNT n 0 k).route none x = m.route none x := by
  have hlt : ∀ q ∈ m.candidates x.dst.val, q < 10 := fun q hq => of_decide_eq_true (List.mem_filter.mp hq).2
  have hus : (m.candidates x.dst.val).filter (m.addFld F.FAB_COUNT_COUNT n 0 k).portUsable = (m.candidates x.dst.val).filter m.portUsable :=
    List.filter_congr fun q hq => portUsable_addFabCount m n hk (hlt q hq)
  have hbest := (bestPort_congr (ps := (m.candidates x.dst.val).filter m.portUsable)
    (f := fun q => ((m.addFld F.FAB_COUNT_COUNT n 0 k).laneOf q).freeCredits (x.vc.val * 2 + b2n ((m.addFld F.FAB_COUNT_COUNT n 0 k).subAfter q none x.sub)))
    (g := fun q => (m.laneOf q).freeCredits (x.vc.val * 2 + b2n (m.subAfter q none x.sub)))
    fun q hq => by rw [subAfter_addFabCount m n hk (hlt q (List.mem_of_mem_filter hq))]; rfl).1
  have hany : (m.candidates x.dst.val).any (fun q => (m.addFld F.FAB_COUNT_COUNT n 0 k).portChosen q && (m.addFld F.FAB_COUNT_COUNT n 0 k).portHeld q) =
      (m.candidates x.dst.val).any (fun q => m.portChosen q && m.portHeld q) :=
    Bool.eq_iff_iff.mpr (List.any_eq_true.trans ((exists_congr fun q => and_congr_right fun hq => by
      rw [portChosen_addFabCount m n hk (hlt q hq), portHeld_addFabCount m n hk q]).trans List.any_eq_true.symm))
  have hvalid := fld_addFabCount_fab m n hk (f := F.FAB_ROUTE_VALID) rfl x.dst.val 0 (.inr (by show _ ≤ 0x100000 + x.dst.val * 8; omega))
  simp only [Mod.route, hx, Bool.false_eq_true, if_false, hvalid, candidates_addFabCount m n hk, hus, hbest, hany]

end Sys2Proof.Machine

/-! # Proofs: requests of another member and their responses (12 R319, R336-R338, Table 12.4) -/

namespace Sys2Proof.Machine

open Sys2Proof

/-! ## A request of this module is taken and answered -/

/-- The module once a packet for it is counted. -/
def Mod.counted (m : Mod) : Mod := m.addFld F.FAB_COUNT_COUNT 1 0 1

/-- The module with this memory, these lines to be pushed, and the free values drawn so far. -/
def Mod.holding (m : Mod) (x : Mem) (due : List (Nat × Nat)) (e : Nat) : Mod := { m with mem := x, pushDue := due, fresh := e }

/-- The module once a response has left. -/
def Mod.replied (m : Mod) (q : Nat) (x : Packet) : Mod := (m.addFld F.FAB_COUNT_COUNT 1 0 0).sent q x

section
variable {m : Mod} {q : Nat} {p x : Packet}

/-- A packet for this module that breaks no rule is taken. -/
theorem arrive_here {i : Nat} {f : Mod → Mod} (htakes : m.takes i p) (hdst : p.dst.val = m.fld F.FAB_NODE_ID) (hty : p.ty ≠ 0x62) :
    m.arrive i p f = (f m.counted).freeTaken i p := by
  obtain ⟨h6, haccepts, hviol⟩ := htakes
  have hjoin : m.joinPasses p = false := decide_eq_false fun h => hty (BitVec.eq_of_toNat_eq h.1)
  unfold Mod.arrive
  rw [if_neg (not_not.mpr h6), haccepts, hviol, hjoin]
  exact (if_neg (by decide)).trans ((if_neg Bool.false_ne_true).trans (if_pos (.inl hdst)))

/-- The receive buffers of a taken packet are free where no request waits at its source. -/
theorem freeTaken_of_calm (hmc : m.mc.all Mc.calm = true) (hoch : m.ochSrc = []) (hsrc : m.reqSrc = []) (i : Nat) (p : Packet) :
    m.freeTaken i p = m.freeFlits i p := by
  have hback (src : Src) : m.mc.any (fun c => c.backlog.any (fun b => b.req.src == src)) = false := by
    simp only [List.any_eq_false, Bool.not_eq_true]
    intro c hc
    have hcalm := List.all_eq_true.mp hmc c hc
    simp only [Mc.calm, Bool.and_eq_true, List.isEmpty_iff] at hcalm
    simp [hcalm.1.1]
  unfold Mod.freeTaken Mod.keeps Mod.atSource
  rw [hback, hoch, hsrc]
  exact if_neg (by simp)

theorem route_counted (hx : x.srcrt = false) : m.counted.route none x = m.route none x := route_addFabCount m 1 (by decide) hx

/-- The response of a member leaves at once where its route has room. -/
theorem answer_of_leaves {i : Nat} {st : Status} {data : List Byte} {lines : Bool} (hrole : m.fld F.FAB_ROLE_STATE = 2)
    (htxq : (m.laneOf q).txq = []) (hleaves : m.leaves none q x)
    (hx : x = mkPacket (if lines then 3 else 2) (if lines then 0x41 else 0x40) p.src.val p.dst.val p.tag.val st.toNat (data.take 64) (data.drop 64)) :
    m.answer i p st data lines = m.replied q (m.asSent none q x) := by
  obtain ⟨hroute, hlen, h6, hawake, hroom⟩ := hleaves
  have hsend : m.answer i p st data lines = m.sendPacket x := by
    unfold Mod.answer Mod.response
    rw [hrole, hx]
    rfl
  rw [hsend]
  unfold Mod.sendPacket
  rw [hroute]
  exact sendOn_eq hlen ((fld_addFabCount_lane m 1 (by decide) rfl q 0).trans h6) ((fld_addFabCount_lane m 1 (by decide) rfl q 0).trans hawake) htxq hroom

theorem leaves_counted (hq : q < 10) (hx : x.srcrt = false) (h : m.leaves none q x) : m.counted.leaves none q x := by
  obtain ⟨hroute, hlen, h6, hawake, hroom⟩ := h
  refine ⟨(route_counted hx).trans hroute, hlen, (fld_addFabCount_lane m 1 (by decide) rfl q 0).trans h6,
    (fld_addFabCount_lane m 1 (by decide) rfl q 0).trans hawake, ?_⟩
  unfold Mod.creditOf at hroom ⊢
  rw [show m.counted.subAfter q none x.sub = m.subAfter q none x.sub from subAfter_addFabCount m 1 (by decide) hq x.sub]
  exact hroom

theorem asSent_counted (hq : q < 10) (x : Packet) : m.counted.asSent none q x = m.asSent none q x := by
  unfold Mod.asSent
  rw [show m.counted.subAfter q none x.sub = m.subAfter q none x.sub from subAfter_addFabCount m 1 (by decide) hq x.sub]

/-! ### The ports after the response -/

theorem freed_sending (l : Lane) (y : Packet) (k n : Nat) : (Lane.sending y l).freed k n = Lane.sending y (l.freed k n) := by
  unfold Lane.freed
  split <;> rfl

theorem modNth_comm {α : Type} (l : List α) {i j : Nat} (h : i ≠ j) (f g : α → α) : modNth (modNth l i f) j g = modNth (modNth l j g) i f := by
  induction l generalizing i j with
  | nil => rfl
  | cons x xs ih =>
    cases i <;> cases j
    · exact absurd rfl h
    · rfl
    · rfl
    · exact congrArg (x :: ·) (ih fun he => h (congrArg _ he))

/-- The receive buffers are freed alike before and after the response. -/
theorem lanes_freeFlits_sending (m : Mod) (i q : Nat) (p y : Packet) :
    ((m.modLane q (Lane.sending y)).freeFlits i p).lanes = modNth (m.freeFlits i p).lanes q (Lane.sending y) := by
  by_cases h : q = i
  · subst h
    refine (modNth_modNth _ _ _ _).trans (.trans ?_ (modNth_modNth _ _ _ _).symm)
    exact congrArg (modNth m.lanes q) (funext fun l => freed_sending l y _ _)
  · exact modNth_comm m.lanes h _ _

end

/-- The registers of a request and its response. -/
def replyRegs (q : Nat) : List Nat := [F.FAB_COUNT_COUNT.addr 0 0, F.FAB_COUNT_COUNT.addr 0 1, F.LANE_COUNT_COUNT.addr q 0]

theorem portStep_replied (m : Mod) (i q : Nat) (p y : Packet) :
    PortStep (replyRegs q) (modNth (m.freeFlits i p).lanes q (Lane.sending y)) m.fab m ((m.counted.replied q y).freeFlits i p) := by
  have hcounted := portStep_addFld (portStep_addFld (portStep_refl (replyRegs q) m) F.FAB_COUNT_COUNT 1 0 1 (.tail _ (.head _))) F.FAB_COUNT_COUNT 1 0 0 (.head _)
  have hsent := portStep_emit (portStep_addFld (portStep_modLane hcounted q (Lane.sending y)) F.LANE_COUNT_COUNT (1 + y.len.toNat) q 0
    (.tail _ (.tail _ (.head _)))) (.packet q y)
  have h := portStep_modLane hsent i (fun l => l.freed p.vcIdx (min (nth l.held p.vcIdx 0) (1 + p.len.toNat)))
  rw [show modNth (modNth m.lanes q (Lane.sending y)) i _ = modNth (m.freeFlits i p).lanes q (Lane.sending y) from lanes_freeFlits_sending m i q p y] at h
  exact h

theorem fld_freeFlits (m : Mod) (i : Nat) (p : Packet) (f : Fld) (j k k' : Nat) : (m.freeFlits i p).fld f j k k' = m.fld f j k k' := rfl

theorem fabCount_replied (m : Mod) (i q : Nat) (p y : Packet) {k : Nat} (hk : k < 2) :
    ((m.counted.replied q y).freeFlits i p).fld F.FAB_COUNT_COUNT 0 k = (m.fld F.FAB_COUNT_COUNT 0 k + 1) % 2 ^ 64 := by
  have hw : F.FAB_COUNT_COUNT.w = 64 := rfl
  unfold Mod.replied Mod.counted
  rw [fld_freeFlits, fld_sent_fabCount _ _ _ (by omega : k < 8), ← hw]
  rcases (by omega : k = 0 ∨ k = 1) with rfl | rfl
  · rw [fld_addFld_self _ _ _ _ _ (by decide), fld_fabCount_ne m 1 (by decide)]
  · rw [fld_fabCount_ne _ 1 (by decide), fld_addFld_self _ _ _ _ _ (by decide)]

theorem laneCount_replied (m : Mod) (i q : Nat) (p y : Packet) : ((m.counted.replied q y).freeFlits i p).fld F.LANE_COUNT_COUNT q 0 =
    (m.fld F.LANE_COUNT_COUNT q 0 + (1 + y.len.toNat)) % 2 ^ 64 := by
  have hw : F.LANE_COUNT_COUNT.w = 64 := rfl
  unfold Mod.replied Mod.counted Mod.sent
  rw [fld_freeFlits, fld_emit, fld_addFld_self _ _ _ _ _ (by decide), hw, fld_modLane, fld_addFabCount_lane _ _ (by decide) rfl,
    fld_addFabCount_lane _ _ (by decide) rfl]

theorem quiet_holding {m : Mod} (h : m.quiet = true) (x : Mem) (e : Nat) : (m.holding x [] e).quiet = true := by
  have hpush : m.pushDue = [] := by
    simp only [Mod.quiet, memQuiet_eq, Bool.and_eq_true, List.isEmpty_iff] at h
    obtain ⟨⟨-, ⟨⟨⟨-, hpush⟩, -⟩, -⟩⟩, -⟩ := h
    exact hpush
  rw [← h]
  exact quiet_congr rfl rfl rfl (memQuiet_congr rfl rfl rfl hpush.symm rfl rfl) (svcReady_congr rfl rfl rfl)

/-- What the responder needs of the module: it is a member, the packet is for it, and nothing waits. -/
structure Responds (s : State) (port q : Fin 10) (p x : Packet) : Prop where
  quiet : s.m.quiet = true
  role : s.m.fld F.FAB_ROLE_STATE = 2
  dst : p.dst.val = s.m.fld F.FAB_NODE_ID
  dir : s.m.dir = []
  reqSrc : s.m.reqSrc = []
  takes : s.m.takes port p
  leaves : s.m.leaves none q x

/-- What a request's response leaves, but for the memory. -/
def Replied (s : State) (port q : Fin 10) (p x : Packet) (t : State) : Prop :=
  t.m.out = [.packet q (s.m.asSent none q x)] ∧
    (∀ k < 2, t.m.fld F.FAB_COUNT_COUNT 0 k = (s.m.fld F.FAB_COUNT_COUNT 0 k + 1) % 2 ^ 64) ∧
    t.m.fld F.LANE_COUNT_COUNT q 0 = (s.m.fld F.LANE_COUNT_COUNT q 0 + 1 + x.len.toNat) % 2 ^ 64 ∧
    SameRest { s.m with lanes := (s.m.freeFlits port p).lanesAfter none q x, fresh := t.m.fresh } t.m ∧
    SameRegsBut [F.FAB_COUNT_COUNT.addr 0 0, F.FAB_COUNT_COUNT.addr 0 1, F.LANE_COUNT_COUNT.addr q 0] s.m t.m

/-- A command whose effect is such a module, where nothing else waits, answers it without the lines to be pushed, settled. -/
theorem answers_holding {c : Instr} {s : State} {f : Mod → Mod} {n : Mod} {x : Mem} {due : List (Nat × Nat)} {e : Nat} {P : State → Prop}
    (h : exec c s = s.runF f) (hn : f s.m.clearOut = n.holding x due e) (hq : n.quiet = true) (hdir : n.dir = [])
    (hdue : ∀ d ∈ due, cacheableHere d.1 = false) (ho : n.out.all Out.stays = true) (hp : P { s with m := (n.holding x [] e).settle }) : Answers c s P :=
  answers_pushesNone h hn (quiet_holding hq x e) hdir hdue ho hp

theorem fld_holding (m : Mod) (x : Mem) (due : List (Nat × Nat)) (e : Nat) (f : Fld) (i k j : Nat) : (m.holding x due e).fld f i k j = m.fld f i k j := rfl
theorem len_asSent (m : Mod) (q : Nat) (x : Packet) : (m.asSent none q x).len = x.len := rfl

theorem sameRest_holding {as : List Nat} {lanes : List Lane} {m n : Mod} (h : PortStep as lanes m.fab m.clearOut n) (hpush : m.pushDue = []) (x : Mem)
    (e : Nat) : SameRest { m with lanes := lanes, fresh := e } (n.holding x [] e) := by
  obtain ⟨hn, -⟩ := h
  unfold SameRest
  rw [hn, ← hpush]
  rfl

section
variable {s : State} {port q : Fin 10} {p x : Packet}

/-- A module whose request's part of the memory is done, settled after the response. -/
theorem replied_settle (hpush : s.m.pushDue = []) (mem : Mem) (e : Nat) : Replied s port q p x
    { s with m := (((s.m.clearOut.counted.replied q (s.m.asSent none q x)).freeFlits port p).holding mem [] e).settle } := by
  have hstep := portStep_replied s.m.clearOut port q p (s.m.asSent none q x)
  have hlanes : modNth (s.m.clearOut.freeFlits port p).lanes q (Lane.sending (s.m.asSent none q x)) = (s.m.freeFlits port p).lanesAfter none q x := rfl
  have hlane := laneCount_replied s.m.clearOut port q p (s.m.asSent none q x)
  rw [hlanes] at hstep
  refine ⟨rfl, fun k hk => ?_, ?_, sameRest_settle (sameRest_holding hstep hpush mem e), fun a ha => (reg_settle _ a).trans (hstep.2 a ha)⟩
  · rw [fld_settle, fld_holding, fabCount_replied s.m.clearOut port q p _ hk, fld_clearOut]
  · rw [fld_settle, fld_holding, hlane, fld_clearOut, ← Nat.add_assoc, len_asSent]

/-- A request whose part of the memory is done at once is answered by its response. -/
theorem answers_replied {c : Instr} {f : Mod → Mod} {data : List Byte} {lines : Bool} {mem : Mem} {due : List (Nat × Nat)} {e : Nat}
    {P : State → Prop} (h : exec c s = s.runF (fun m => m.arrive port.val p f)) (hr : Responds s port q p x) (hty : p.ty ≠ 0x62)
    (hx : x = mkPacket (if lines then 3 else 2) (if lines then 0x41 else 0x40) p.src.val p.dst.val p.tag.val 0 (data.take 64) (data.drop 64))
    (hf : ∀ n, (s.m.clearOut.counted.holding mem due e).answer port.val p .ok data lines = n → n.collQuiet = true → f s.m.clearOut.counted = n)
    (hdue : ∀ d ∈ due, cacheableHere d.1 = false) (hp : ∀ t : State, (∀ a, t.m.mem.byte a = mem.byte a) → P t) :
    Answers c s (fun t => Replied s port q p x t ∧ P t) := by
  obtain ⟨hq, hrole, hdst, hdir, hsrc, htakes, hleaves⟩ := hr
  have hsrcrt : x.srcrt = false := by rw [hx]; rfl
  have hleaves' : (s.m.clearOut.counted.holding mem due e).leaves none q x := leaves_counted (m := s.m.clearOut) q.isLt hsrcrt hleaves
  have hrole' : (s.m.clearOut.counted.holding mem due e).fld F.FAB_ROLE_STATE = 2 :=
    (fld_addFabCount_fab s.m.clearOut 1 (by decide) rfl 0 0 (.inl (by decide))).trans hrole
  have hanswer := answer_of_leaves (i := port.val) (p := p) (st := .ok) (data := data) (lines := lines) hrole'
    (txq_of_noneQueued (noneQueued_of_quiet hq) q) hleaves' hx
  have hsent : (s.m.clearOut.counted.holding mem due e).asSent none q x = s.m.asSent none q x := asSent_counted (m := s.m.clearOut) q.isLt x
  rw [hsent] at hanswer
  have hcalm := calm_of_quiet hq
  have hcoll : s.m.collQuiet = true := by
    simp only [Mod.quiet, Mod.idle, Bool.and_eq_true] at hq
    exact hq.1.1.2
  have hstep := portStep_replied s.m.clearOut port q p (s.m.asSent none q x)
  have hregs : ∀ a ∈ replyRegs q, a < 0x700007000000 :=
    List.forall_mem_cons.mpr ⟨fabCount_lt (by decide), List.forall_mem_cons.mpr ⟨fabCount_lt (by decide), List.forall_mem_singleton.mpr (laneCount_lt q)⟩⟩
  have hquiet := quiet_of_portStep hstep hq (draining_not_mem hregs)
    (noneQueued_sending (noneQueued_freeFlits (m := s.m) (noneQueued_of_quiet hq) port p) q _) (fabAtRest_of_quiet hq)
  have hpush : s.m.pushDue = [] := by
    simp only [Mod.quiet, memQuiet_eq, Bool.and_eq_true, List.isEmpty_iff] at hq
    obtain ⟨⟨-, ⟨⟨⟨-, hpush⟩, -⟩, -⟩⟩, -⟩ := hq
    exact hpush
  have hoch : s.m.ochSrc = [] := by
    simp only [Mod.quiet, memQuiet_eq, Bool.and_eq_true, List.isEmpty_iff] at hq
    obtain ⟨⟨-, ⟨⟨⟨⟨-, hoch⟩, -⟩, -⟩, -⟩⟩, -⟩ := hq
    exact hoch
  have harrive : s.m.clearOut.arrive port.val p f = ((s.m.clearOut.counted.replied q (s.m.asSent none q x)).freeFlits port p).holding mem due e := by
    rw [arrive_here (m := s.m.clearOut) htakes hdst hty, hf _ hanswer hcoll]
    exact freeTaken_of_calm (m := (s.m.clearOut.counted.holding mem due e).replied q (s.m.asSent none q x)) hcalm hoch hsrc port p
  have hdir' : ((s.m.clearOut.counted.replied q (s.m.asSent none q x)).freeFlits port p).dir = [] := by
    rw [hstep.1]
    exact hdir
  exact answers_holding h harrive hquiet hdir' hdue rfl ⟨replied_settle hpush mem e, hp _ fun a => byte_settle _ a⟩

end

end Sys2Proof.Machine

/-! # Proofs: requests of another member for a compute die's memory (12 R319, R336-R338, Table 12.4) -/

namespace Sys2Proof.Machine

open Sys2Proof

/-! ## Packets that break no rule -/

theorem wellFormed_of_takes {m : Mod} {i : Nat} {p : Packet} (h : m.takes i p) : lengthOk p = true ∧ alignOk p = true := by
  obtain ⟨-, -, hviol⟩ := h
  have hok : (reservedSet p || !lengthOk p || !alignOk p) = false := by
    by_contra hbad
    rw [Bool.not_eq_false] at hbad
    unfold Mod.violationOf at hviol
    simp only [if_pos hbad] at hviol
    split_ifs at hviol
  simpa using (Bool.or_eq_false_iff.mp hok).imp_left fun h => (Bool.or_eq_false_iff.mp h).2

/-! ## Collectives that expect nothing -/

theorem collStep_of_none {m : Mod} {q seq : Nat} (h : ∀ op ∈ (m.ctx q).ops, op.coll = none) : m.collStep q seq = m := by
  unfold Mod.collStep
  cases hop : m.op? q seq with
  | none => rfl
  | some op => simp only [h op (List.mem_of_find?_eq_some hop)]

theorem coll_of_collQuiet {m : Mod} (h : m.collQuiet = true) (q : Nat) : ∀ op ∈ (m.ctx q).ops, op.coll = none := by
  simp only [Mod.collQuiet, List.all_eq_true, Option.isNone_iff_eq_none] at h
  exact nth_of_forall (P := fun c : Ctx => ∀ op ∈ c.ops, op.coll = none) h (fun op hop => absurd hop List.not_mem_nil) q

/-- Where no collective runs, a write is seen by none. -/
theorem seenWrite_of_collQuiet {m : Mod} (h : m.collQuiet = true) (p : Packet) (n : Nat) : m.seenWrite p n = m := by
  have hwritten : m.collWritten p.src.val p.addr n = m := by
    refine foldl_id _ _ _ fun q _ => ?_
    have hops := coll_of_collQuiet h q
    refine congrArg (fun c => ({ m with ctxs := c } : Mod)) ((modNth_congr {} (g := id) ?_).trans (modNth_id _ _))
    have hsame : (nth m.ctxs q {}).ops.map (fun op => { op with coll := op.coll.map (fun c => { c with
        expect := c.expect.filter (fun x => !(x.1 == p.src.val && decide (p.addr ≤ x.2.1 ∧ x.2.1 + x.2.2 ≤ p.addr + n))) }) }) = (nth m.ctxs q {}).ops :=
      (List.map_congr_left fun op hop => by rw [hops op hop, Option.map_none, ← hops op hop]; rfl).trans (List.map_id _)
    rw [hsame]
    rfl
  unfold Mod.seenWrite
  rw [hwritten]
  exact foldl_id _ _ _ fun q _ => foldl_id _ _ _ fun op _ => collStep_of_none (coll_of_collQuiet h q)

/-! ## What the home does with a request -/

section
variable {m m' : Mod} {port : Fin 10} {p : Packet} {d : List Byte}

theorem registerRegion_of_lt (h : p.addr < 0x400500000000) : registerRegion p.addr = false := decide_eq_false (by omega)

theorem inboundMem_done {op : MemOp} {hint : Option Nat} {lines ochre : Bool} (haddr : p.addr < 0x400500000000)
    (h : m.localMem (inboundSrc port p) .fabric p.addr op (0, false) hint ochre = (m', .done .ok d)) :
    m.inboundMem port p op hint lines ochre = m'.answer port.val p .ok d lines := by
  unfold Mod.inboundMem
  rw [registerRegion_of_lt haddr, h]
  simp

theorem mgmtPacket_done {op : MemOp} (haddr : p.addr < 0x400500000000) (hsrc : p.src.val = m.fld F.FAB_ROLE_MANAGER)
    (h : m.localMem (inboundSrc port p) .fabMgmt p.addr op = (m', .done .ok d)) : m.mgmtPacket port p op = m'.answer port.val p .ok d false := by
  have hlow : p.addr < 0x700000000000 := by omega
  unfold Mod.mgmtPacket Mod.localAccess
  rw [if_neg (not_not.mpr hsrc), if_pos hlow, h]

theorem inboundAtom_done (hge : 0x400100000000 ≤ p.addr) (haddr : p.addr < 0x400500000000)
    (h : m.memAtom (inboundSrc port p) .fabric p.addr (packetAtom p) = (m', .done .ok d)) : m.inboundAtom port p = m'.answer port.val p .ok d false := by
  have hregion : regionOf p.addr ≠ .special := by
    have h1 : ¬((p.addr : Int) < 0) := by omega
    have h2 : ¬((p.addr : Int) < 0x18000000000) := by omega
    have h3 : ¬((p.addr : Int) < 0x400000000000) := by omega
    have h4 : ¬((p.addr : Int) < 0x400080000000) := by omega
    have h5 : ¬((p.addr : Int) < 0x400100000000) := by omega
    have h6 : (p.addr : Int) < 0x400500000000 := by omega
    rw [regionOf, if_neg h1, if_neg h2, if_neg h3, if_neg h4, if_neg h5, if_pos h6]
    exact Region.noConfusion
  unfold Mod.inboundAtom
  rw [if_neg hregion, h]

end

/-! ## The lines of a bulk request (12 R337) -/

section
variable {arr : Fin 17} {src : Src}

/-- Every line is read; together they are the bytes. -/
theorem bulkLines_read {m : Mod} {n : Nat} : ∀ {off : Nat}, OnChip m arr off (64 * n) → off % 64 = 0 →
    (∀ i < 64 * n, m.mem.parityBad (sramBase arr + off + i) = false) → ∃ ds, Mod.bulkLines src
      ((List.range n).map (fun i => (sramBase arr + off + 64 * i, MemOp.read 64))) none m = some (m, .ok, ds) ∧
      (∀ x ∈ ds, x.1 = .ok) ∧ (ds.map (·.2)).flatten = m.mem.readAt (sramBase arr + off) (64 * n) := by
  induction n with
  | zero => exact fun _ _ _ => ⟨[], rfl, fun x hx => absurd hx List.not_mem_nil, rfl⟩
  | succ n ih =>
    intro off h hoff hgood
    obtain ⟨ds, hds, hok, hflat⟩ := ih (h.part (i := 64) (k := 64 * n) (by omega)) (by omega) fun i hi => by
      rw [← Nat.add_assoc, Nat.add_assoc (sramBase arr + off)]
      exact hgood (64 + i) (by omega)
    have hfirst := localMem_read_onChip (h.part (i := 0) (k := 64) (by omega)) (by decide) (by omega) (fun i hi => hgood i (by omega)) src .fabric false
    rw [Nat.add_zero] at hfirst
    have hrest : (List.range n).map ((fun i => (sramBase arr + off + 64 * i, MemOp.read 64)) ∘ Nat.succ) =
        (List.range n).map (fun i => (sramBase arr + (off + 64) + 64 * i, MemOp.read 64)) :=
      List.map_congr_left fun i _ => by
        have haddr : sramBase arr + off + 64 * (i + 1) = sramBase arr + (off + 64) + 64 * i := by omega
        exact congrArg (·, MemOp.read 64) haddr
    refine ⟨(.ok, m.mem.readAt (sramBase arr + off) 64) :: ds, ?_, List.forall_mem_cons.mpr ⟨rfl, hok⟩, ?_⟩
    · rw [List.range_succ_eq_map, List.map_cons, List.map_map, hrest]
      unfold Mod.bulkLines
      rw [Nat.mul_zero, Nat.add_zero (sramBase arr + off), hfirst]
      dsimp only
      rw [hds]
      rfl
    · rw [List.map_cons, List.flatten_cons, hflat, ← Nat.add_assoc, readAt_append, Nat.mul_succ, Nat.add_comm 64]

/-- Every line is written. -/
theorem bulkLines_write {n : Nat} (hint : Option Nat) : ∀ {m : Mod} {off : Nat} {body : List Byte}, OnChip m arr off (64 * n) → off % 64 = 0 →
    body.length = 64 * n → m.pushesNone → ∃ x due ds, Mod.bulkLines src
      ((List.range n).map (fun i => (sramBase arr + off + 64 * i, MemOp.write (((body.drop (64 * i)).take 64).map some)))) hint m =
        some (m.holding x due m.fresh, .ok, ds) ∧ (∀ e ∈ due, cacheableHere e.1 = false) ∧
      (∀ i < 64 * n, x.byte (sramBase arr + off + i) = nth body i 0) ∧
      ∀ a, a < sramBase arr + off ∨ sramBase arr + off + 64 * n ≤ a → x.byte a = m.mem.byte a := by
  induction n with
  | zero => exact fun _ _ _ hpush => ⟨_, _, [], rfl, hpush, fun i hi => absurd hi (Nat.not_lt_zero i), fun _ _ => rfl⟩
  | succ n ih =>
    intro m off body h hoff hlen hpush
    have hchunk : ((body.take 64).map some).length = 64 := by rw [List.length_map, List.length_take]; omega
    have hpart := h.part (i := 0) (k := 64) (by omega)
    rw [Nat.add_zero] at hpart
    have hfirst := localMem_write_onChip hpart (by decide) (by omega) hchunk src .fabric hint
    obtain ⟨due₀, hwrote⟩ : ∃ due, m.wrote (sramBase arr + off) ((body.take 64).map some) hint =
        m.holding (m.mem.writeAt (sramBase arr + off) ((body.take 64).map some)) due m.fresh := by
      obtain ⟨due, hdue, -⟩ := hinted_eq { m with mem := m.mem.writeAt (sramBase arr + off) ((body.take 64).map some) } (sramBase arr + off)
        ((body.take 64).map some).length hint
      exact ⟨_, hdue⟩
    have hpushes := pushesNone_wrote (d := (body.take 64).map some) hpush (by rwa [hchunk]) (by rw [hchunk]; decide) (by rw [hchunk]; omega) hint
    have hstays := onChip_wrote h (sramBase arr + off) ((body.take 64).map some) hint
    obtain ⟨x, due, ds, hds, hdue, hin, hout⟩ := ih (body := body.drop 64) (hstays.part (i := 64) (k := 64 * n) (by omega)) (by omega)
      (by rw [List.length_drop]; omega) hpushes
    have hrest : (List.range n).map ((fun i => (sramBase arr + off + 64 * i, MemOp.write (((body.drop (64 * i)).take 64).map some))) ∘ Nat.succ) =
        (List.range n).map (fun i => (sramBase arr + (off + 64) + 64 * i, MemOp.write ((((body.drop 64).drop (64 * i)).take 64).map some))) :=
      List.map_congr_left fun i _ => by
        have haddr : sramBase arr + off + 64 * (i + 1) = sramBase arr + (off + 64) + 64 * i := by omega
        have hdrop : body.drop (64 * (i + 1)) = (body.drop 64).drop (64 * i) := by rw [List.drop_drop, Nat.mul_succ, Nat.add_comm]
        show (sramBase arr + off + 64 * (i + 1), MemOp.write (((body.drop (64 * (i + 1))).take 64).map some)) = _
        rw [haddr, hdrop]
    rw [hwrote] at hfirst hds hout
    refine ⟨x, due, (.ok, []) :: ds, ?_, hdue, fun i hi => ?_, fun a ha => ?_⟩
    · rw [List.range_succ_eq_map, List.map_cons, List.map_map, hrest]
      unfold Mod.bulkLines
      rw [Nat.mul_zero, Nat.add_zero (sramBase arr + off), List.drop_zero, hfirst]
      dsimp only
      rw [hds]
      rfl
    · by_cases hlow : i < 64
      · refine (hout _ (.inl (by omega))).trans ((byte_writeAt_of_lt m.mem _ ((body.take 64).map some) (by rwa [hchunk])).trans ?_)
        rw [nth_map_some (by rw [List.length_take]; omega)]
        simp [nth, List.getD_eq_getElem?_getD, hlow]
      · have hhigh := hin (i - 64) (by omega)
        rw [show sramBase arr + (off + 64) + (i - 64) = sramBase arr + off + i by omega] at hhigh
        rw [hhigh]
        simp [nth, List.getD_eq_getElem?_getD, Nat.add_sub_cancel' (Nat.not_lt.mp hlow)]
    · exact (hout a (by omega)).trans (byte_writeAt_of_outside m.mem _ ((body.take 64).map some) (by rw [hchunk]; omega))

end

/-! ## The requests -/

theorem onChip_counted {m : Mod} {arr : Fin 17} {off n : Nat} (h : OnChip m arr off n) : OnChip m.counted arr off n := by
  obtain ⟨hdie, hin, hdir, hretry, hsrc, hslate, halone, hon⟩ := h
  have hcount : F.FAB_COUNT_COUNT.addr 0 1 < 0x700007000000 := fabCount_lt (by decide)
  refine ⟨hdie, hin, hdir, hretry, hsrc, ?_, halone, fun b hb => ?_⟩
  · unfold Mod.portSlate at hslate ⊢
    rw [show m.counted.fld F.D2D_STATUS_STATE arr = m.fld F.D2D_STATUS_STATE arr from
      fld_setFld_addr _ _ _ _ _ _ _ _ _ _ (by show 0x700007000000 + arr.val * 0x10000 + 0x8 + 0 * 0 ≠ _; omega)]
    exact hslate
  · refine (fld_setFld_addr _ _ _ _ _ _ _ _ _ _ ?_).trans (hon b hb)
    have haddr : F.BANK_STATE_ST.addr arr (b / 32) = 0x710000002000 + arr * 0x1000000 + 0x100 + b / 32 * 8 := by
      unfold Fld.addr Block.base
      simp [F.BANK_STATE_ST, hdie.ne]
    rw [haddr]
    omega

/-- A request for `n` bytes of a compute die's array, from offset `off`, that nothing stops. -/
structure Requested (s : State) (arr : Fin 17) (p : Packet) (off n : Nat) : Prop where
  addr : p.addr = sramBase arr + off
  chip : OnChip s.m.clearOut.counted arr off n
  good : ∀ i < n, s.m.mem.parityBad (p.addr + i) = false

/-- The bytes from `a` are now those of `g`, and no others changed. -/
def Stored (s : State) (a n : Nat) (g : Nat → Byte) (t : State) : Prop :=
  (∀ i < n, t.m.mem.byte (a + i) = g i) ∧ ∀ y, y < a ∨ a + n ≤ y → t.m.mem.byte y = s.m.mem.byte y

/-- The response that a request of this module is answered with. -/
def responseTo (p : Packet) (data : List Byte) (lines : Bool) : Packet :=
  mkPacket (if lines then 3 else 2) (if lines then 0x41 else 0x40) p.src.val p.dst.val p.tag.val 0 (data.take 64) (data.drop 64)

section
variable {s : State} {port q : Fin 10} {p : Packet} {arr : Fin 17} {off n : Nat} {c : Instr} {f : Mod → Mod} {data : List Byte} {lines : Bool}

theorem addr_lt_of_requested (h : Requested s arr p off n) (hn : 1 ≤ n) : p.addr < 0x400500000000 := by
  rw [h.addr]
  exact h.chip.addr_lt hn

theorem pushesNone_of_quiet {m : Mod} (h : m.quiet = true) : m.pushesNone := by
  simp only [Mod.quiet, memQuiet_eq, Bool.and_eq_true, List.isEmpty_iff] at h
  obtain ⟨⟨-, ⟨⟨⟨-, hpush⟩, -⟩, -⟩⟩, -⟩ := h
  unfold Mod.pushesNone
  rw [hpush]
  exact fun d hd => absurd hd List.not_mem_nil

/-- A request that only reads; free values may be drawn. -/
theorem answers_read (h : exec c s = s.runF (fun m => m.arrive port.val p f)) (hr : Responds s port q p (responseTo p data lines)) (hty : p.ty ≠ 0x62)
    {e : Nat} (hf : f s.m.clearOut.counted = ({ s.m.clearOut.counted with fresh := e } : Mod).answer port.val p .ok data lines) :
    Answers c s (fun t => Replied s port q p (responseTo p data lines) t ∧ SameMem s.m t.m) :=
  answers_replied (mem := s.m.mem) (due := s.m.pushDue) (e := e) h hr hty rfl (fun _ hn _ => hf.trans hn) (pushesNone_of_quiet hr.quiet) fun _ hbyte => hbyte

/-- A write of bytes within one line. -/
theorem answers_write (h : exec c s = s.runF (fun m => m.arrive port.val p f)) (hr : Responds s port q p (responseTo p [] false)) (hty : p.ty ≠ 0x62)
    {d : List (Option Byte)} (hq : Requested s arr p off d.length) (hn : 1 ≤ d.length) (hb : off % 64 + d.length ≤ 64) {hint : Option Nat}
    (hf : ∀ k, (s.m.clearOut.counted.wrote p.addr d hint).answer port.val p .ok [] false = k → k.collQuiet = true → f s.m.clearOut.counted = k) :
    Answers c s (fun t => Replied s port q p (responseTo p [] false) t ∧
      Stored s p.addr d.length (fun i => (nth d i none).getD (s.m.mem.byte (p.addr + i))) t) := by
  obtain ⟨due, hdue, -⟩ := hinted_eq { s.m.clearOut.counted with mem := s.m.mem.writeAt p.addr d } p.addr d.length hint
  have hpushes := pushesNone_wrote (m := s.m.clearOut.counted) (pushesNone_of_quiet (m := s.m) hr.quiet) hq.chip hn hb hint
  have hwrote : s.m.clearOut.counted.wrote p.addr d hint = s.m.clearOut.counted.holding (s.m.mem.writeAt p.addr d) (s.m.pushDue ++ due) s.m.fresh := hdue
  rw [← hq.addr, hwrote] at hpushes
  rw [hwrote] at hf
  exact answers_replied h hr hty rfl hf hpushes fun t hbyte => ⟨fun i hi => (hbyte _).trans (byte_writeAt_of_lt s.m.mem _ d hi),
    fun y hy => (hbyte y).trans (byte_writeAt_of_outside s.m.mem _ d hy)⟩

/-- The offset is aligned as the address is. -/
theorem off_mod {k : Nat} (hk : 64 % k = 0) (h : Requested s arr p off n) (ha : p.addr % k = 0) : off % k = 0 := by
  have hbase : sramBase arr % k = 0 := Nat.mod_eq_zero_of_dvd ((Nat.dvd_of_mod_eq_zero hk).trans (Nat.dvd_of_mod_eq_zero (sramBase_mod arr)))
  rw [h.addr] at ha
  exact (Nat.dvd_iff_mod_eq_zero ..).mp ((Nat.dvd_add_right (Nat.dvd_of_mod_eq_zero hbase)).mp (Nat.dvd_of_mod_eq_zero ha))

/-- A line's request: its address is the line's, and a packet with a body has 64 bytes of it. -/
theorem line_of_takes {m : Mod} {i : Nat} (h : m.takes i p) (hty : p.ty = 0x01 ∨ p.ty = 0x03 ∨ p.ty = 0x04) :
    p.addr % 64 = 0 ∧ (p.ty ≠ 0x01 → p.body.length = 64) := by
  obtain ⟨hlen, halign⟩ := wellFormed_of_takes h
  rcases hty with hty | hty | hty
  all_goals simp [alignOk, lengthOk, hty] at hlen halign
  · exact ⟨halign, fun hne => absurd hty hne⟩
  all_goals exact ⟨halign, fun _ => by omega⟩

theorem narrow_of_takes {m : Mod} {i : Nat} (h : m.takes i p) (hty : p.ty = 0x02) : 3 ≤ p.byteAt 0x18 ∧ p.byteAt 0x18 ≤ 5 ∧
    p.addr % 2 ^ p.byteAt 0x18 = 0 := by
  obtain ⟨-, halign⟩ := wellFormed_of_takes h
  simp [alignOk, hty, and_assoc] at halign
  exact halign

theorem bulk_of_takes {m : Mod} {i : Nat} (h : m.takes i p) (hty : p.ty = 0x06 ∨ p.ty = 0x07) :
    p.addr % 64 = 0 ∧ (p.ty = 0x07 → p.body.length = 64 * p.byteAt 0x19) ∧ 1 ≤ p.byteAt 0x19 := by
  obtain ⟨hlen, halign⟩ := wellFormed_of_takes h
  rcases hty with hty | hty
  all_goals simp [alignOk, lengthOk, hty, and_assoc] at hlen halign
  · obtain ⟨-, -, hpos, -⟩ := hlen
    exact ⟨halign.1, fun h => absurd (hty.symm.trans h) (by decide), hpos⟩
  · obtain ⟨hbody, hpos, -, hblocks⟩ := hlen
    rw [hblocks]
    exact ⟨halign.1, fun _ => hbody, hpos⟩

theorem answers_lineRead (h : exec c s = s.runF (fun m => m.arrive port.val p (fun m => m.inboundMem port p (.read 64) none true)))
    (hty : p.ty = 0x01) (hr : Responds s port q p (responseTo p (s.m.mem.readAt p.addr 64) true)) (hreq : Requested s arr p off 64) :
    Answers c s (fun t => Replied s port q p (responseTo p (s.m.mem.readAt p.addr 64) true) t ∧ SameMem s.m t.m) := by
  have hoff : off % 64 = 0 := off_mod (by decide) hreq (line_of_takes hr.takes (.inl hty)).1
  refine answers_read (e := s.m.fresh) h hr (by rw [hty]; decide) (inboundMem_done (addr_lt_of_requested hreq (by decide)) ?_)
  have hread := localMem_read_onChip hreq.chip (by decide) (by omega) (by rw [← hreq.addr]; exact hreq.good) (inboundSrc port p) .fabric false
  rw [← hreq.addr] at hread
  exact hread

theorem answers_narrowRead (h : exec c s = s.runF (fun m => m.arrive port.val p (fun m => m.inboundMem port p (.read (2 ^ p.byteAt 0x18)) none false true)))
    (hty : p.ty = 0x02) (hn : n = 2 ^ p.byteAt 0x18) (hr : Responds s port q p (responseTo p (s.m.mem.readAt p.addr n) false))
    (hreq : Requested s arr p off n) : Answers c s (fun t => Replied s port q p (responseTo p (s.m.mem.readAt p.addr n) false) t ∧ SameMem s.m t.m) := by
  obtain ⟨hlow, hhigh, halign⟩ := narrow_of_takes hr.takes hty
  have hwithin : 1 ≤ n ∧ 64 % n = 0 ∧ (off % n = 0 → off % 64 + n ≤ 64) := by
    rw [hn]
    rcases (by omega : p.byteAt 0x18 = 3 ∨ p.byteAt 0x18 = 4 ∨ p.byteAt 0x18 = 5) with hs | hs | hs <;> rw [hs] <;> omega
  obtain ⟨hpos, hdvd, hblock⟩ := hwithin
  have hb := hblock (off_mod hdvd hreq (by rw [hn]; exact halign))
  refine answers_read (e := s.m.fresh) h hr (by rw [hty]; decide) (inboundMem_done (addr_lt_of_requested hreq hpos) ?_)
  have hread := localMem_read_onChip hreq.chip hpos hb (by rw [← hreq.addr]; exact hreq.good) (inboundSrc port p) .fabric true
  rw [← hreq.addr] at hread
  rw [← hn]
  exact hread

theorem answers_lineWrite {d : List (Option Byte)} {hint : Option Nat} {p' : Packet} {k : Nat}
    (h : exec c s = s.runF (fun m => m.arrive port.val p (fun m => (m.inboundMem port p (.write d) hint false).seenWrite p' k)))
    (hty : p.ty = 0x03 ∨ p.ty = 0x04) (hr : Responds s port q p (responseTo p [] false)) (hreq : Requested s arr p off 64) (hd : d.length = 64) :
    Answers c s (fun t => Replied s port q p (responseTo p [] false) t ∧
      Stored s p.addr 64 (fun i => (nth d i none).getD (s.m.mem.byte (p.addr + i))) t) := by
  have hoff : off % 64 = 0 := off_mod (by decide) hreq (line_of_takes hr.takes (.inr hty)).1
  have hne : p.ty ≠ 0x62 := by rcases hty with hty | hty <;> rw [hty] <;> decide
  rw [← hd] at hreq ⊢
  refine answers_write (hint := hint) h hr hne hreq (by omega) (by omega) fun n hn hcoll => ?_
  have hwrite := localMem_write_onChip hreq.chip (by omega) (by omega) rfl (inboundSrc port p) .fabric hint
  rw [← hreq.addr] at hwrite
  rw [inboundMem_done (addr_lt_of_requested hreq (by omega)) hwrite, hn]
  exact seenWrite_of_collQuiet hcoll p' k

theorem answers_atom (h : exec c s = s.runF (fun m => m.arrive port.val p (fun m => m.inboundAtom port p))) (hty : p.ty = 0x05) (hoff : off % 8 = 0)
    (hr : Responds s port q p (responseTo p (s.m.mem.readAt p.addr 8) false)) (hreq : Requested s arr p off 8) :
    Answers c s (fun t => Replied s port q p (responseTo p (s.m.mem.readAt p.addr 8) false) t ∧
      Stored s p.addr 8 (fun i => nth (toBytes 8 (atomResult (packetAtom p) (ofBytes (s.m.mem.readAt p.addr 8)))) i 0) t) := by
  have hge : 0x400100000000 ≤ p.addr := by
    rw [hreq.addr]
    exact hreq.chip.addr_ge
  have hatom := memAtom_onChip hreq.chip hoff (by rw [← hreq.addr]; exact hreq.good) (inboundSrc port p) .fabric (packetAtom p)
  unfold Mod.withQuantity Mod.quantity at hatom
  rw [← hreq.addr] at hatom
  refine answers_replied (due := s.m.pushDue) (e := s.m.fresh)
    (mem := s.m.mem.writeAt p.addr ((toBytes 8 (atomResult (packetAtom p) (ofBytes (s.m.mem.readAt p.addr 8)))).map some)) h hr (by rw [hty]; decide) rfl
    (fun _ hn _ => (inboundAtom_done hge (addr_lt_of_requested hreq (by decide)) hatom).trans hn) (pushesNone_of_quiet (m := s.m) hr.quiet)
    fun t hbyte => ⟨fun i hi => (hbyte _).trans ?_, fun y hy => (hbyte y).trans (byte_writeAt_of_outside s.m.mem _ _ (by simpa using hy))⟩
  exact (byte_writeAt_of_lt s.m.mem _ _ (by simpa using hi)).trans (nth_map_some (by simpa using hi) _)

theorem fld_manager_counted (m : Mod) : m.counted.fld F.FAB_ROLE_MANAGER = m.fld F.FAB_ROLE_MANAGER :=
  fld_addFabCount_fab m 1 (by decide) rfl 0 0 (.inl (by decide))

theorem answers_mrd (h : exec c s = s.runF (fun m => m.arrive port.val p (fun m => m.mgmtPacket port p (.read 8)))) (hty : p.ty = 0x60)
    (hmgr : p.src.val = s.m.fld F.FAB_ROLE_MANAGER) (hoff : off % 8 = 0) (hr : Responds s port q p (responseTo p (s.m.mem.readAt p.addr 8) false))
    (hreq : Requested s arr p off 8) :
    Answers c s (fun t => Replied s port q p (responseTo p (s.m.mem.readAt p.addr 8) false) t ∧ SameMem s.m t.m) := by
  have hread := localMem_read_onChip hreq.chip (by decide) (by omega) (by rw [← hreq.addr]; exact hreq.good) (inboundSrc port p) .fabMgmt false
  rw [← hreq.addr] at hread
  exact answers_read (e := s.m.fresh) h hr (by rw [hty]; decide) (mgmtPacket_done (addr_lt_of_requested hreq (by decide))
    (hmgr.trans (fld_manager_counted s.m.clearOut).symm) hread)

theorem answers_mwr {v : Nat} (h : exec c s = s.runF (fun m => m.arrive port.val p (fun m => m.mgmtPacket port p (.write ((toBytes 8 v).map some)))))
    (hty : p.ty = 0x61) (hmgr : p.src.val = s.m.fld F.FAB_ROLE_MANAGER) (hoff : off % 8 = 0) (hr : Responds s port q p (responseTo p [] false))
    (hreq : Requested s arr p off 8) :
    Answers c s (fun t => Replied s port q p (responseTo p [] false) t ∧ Stored s p.addr 8 (fun i => nth (toBytes 8 v) i 0) t) := by
  have hlen : ((toBytes 8 v).map some).length = 8 := by simp
  have hwrite := localMem_write_onChip hreq.chip (by decide) (by omega) hlen (inboundSrc port p) .fabMgmt none
  rw [← hreq.addr] at hwrite
  obtain ⟨t, ht, hrep, hin, hout⟩ := answers_write (d := (toBytes 8 v).map some) (hint := none) h hr (by rw [hty]; decide) (by rwa [hlen])
    (by rw [hlen]; decide) (by rw [hlen]; omega) fun n hn _ => (mgmtPacket_done (addr_lt_of_requested hreq (by decide))
      (hmgr.trans (fld_manager_counted s.m.clearOut).symm) hwrite).trans hn
  rw [hlen] at hin hout
  exact ⟨t, ht, hrep, fun i hi => (hin i hi).trans (nth_map_some (by simpa using hi) _), hout⟩

theorem answers_bulkRead (h : exec c s = s.runF (fun m => m.arrive port.val p (fun m => m.bulkRead port p))) (hty : p.ty = 0x06)
    (hn : n = 64 * p.byteAt 0x19) (hr : Responds s port q p (responseTo p (s.m.mem.readAt p.addr n) true)) (hreq : Requested s arr p off n) :
    Answers c s (fun t => Replied s port q p (responseTo p (s.m.mem.readAt p.addr n) true) t ∧ SameMem s.m t.m) := by
  obtain ⟨halign, -, hpos⟩ := bulk_of_takes hr.takes (.inl hty)
  have hoff : off % 64 = 0 := off_mod (by decide) hreq halign
  subst hn
  obtain ⟨ds, hlines, hok, hflat⟩ := bulkLines_read (src := inboundSrc port p) hreq.chip hoff (by rw [← hreq.addr]; exact hreq.good)
  rw [← hreq.addr] at hlines hflat
  have hgood : ds.takeWhile (fun x => x.1 == .ok) = ds := List.takeWhile_eq_self_iff.mpr fun x hx => by rw [hok x hx]; rfl
  refine answers_read (e := s.m.fresh + 1) h hr (by rw [hty]; decide) ?_
  unfold Mod.bulkRead
  rw [registerRegion_of_lt (addr_lt_of_requested hreq (by omega)), if_neg Bool.false_ne_true]
  dsimp only
  rw [hlines]
  dsimp only
  rw [hgood, hflat, length_readAt, Nat.sub_self, show s.m.clearOut.counted.drawBytes 0 = ({ s.m.clearOut.counted with fresh := s.m.fresh + 1 }, []) from rfl,
    List.append_nil]
  rfl

theorem answers_bulkWrite (h : exec c s = s.runF (fun m => m.arrive port.val p (fun m => (m.bulkWrite port p).seenWrite p (64 * p.byteAt 0x19))))
    (hty : p.ty = 0x07) (hn : n = 64 * p.byteAt 0x19) (hr : Responds s port q p (responseTo p [] false)) (hreq : Requested s arr p off n) :
    Answers c s (fun t => Replied s port q p (responseTo p [] false) t ∧ Stored s p.addr n (fun i => nth p.body i 0) t) := by
  obtain ⟨halign, hbody, hpos⟩ := bulk_of_takes hr.takes (.inr hty)
  have hoff : off % 64 = 0 := off_mod (by decide) hreq halign
  subst hn
  obtain ⟨x, due, ds, hlines, hdue, hin, hout⟩ := bulkLines_write (src := inboundSrc port p) (hintTarget p) hreq.chip hoff (hbody hty)
    (pushesNone_of_quiet (m := s.m) hr.quiet)
  rw [← hreq.addr] at hlines hin hout
  refine answers_replied (mem := x) (due := due) (e := s.m.fresh) h hr (by rw [hty]; decide) rfl (fun n hn hcoll => ?_) hdue
    fun t hbyte => ⟨fun i hi => (hbyte _).trans (hin i hi), fun y hy => (hbyte y).trans (hout y hy)⟩
  have hwrite : s.m.clearOut.counted.bulkWrite port p = n := by
    unfold Mod.bulkWrite
    rw [registerRegion_of_lt (addr_lt_of_requested hreq (by omega)), if_neg Bool.false_ne_true]
    dsimp only
    rw [hlines]
    exact hn
  rw [hwrite]
  exact seenWrite_of_collQuiet hcoll p _

end

/-- What a masked write leaves at a byte. -/
theorem byte_maskedLine (p : Packet) {i : Nat} (hi : i < 64) (b : Byte) :
    (nth (maskedLine p) i none).getD b = if bit (p.word 8) i then nth p.body i 0 else b := by
  have hnth : nth (maskedLine p) i none = if bit (p.word 8) i then some (nth p.body i 0) else none := by
    simp [maskedLine, nth, List.getD_eq_getElem?_getD, hi]
  rw [hnth]
  split <;> rfl

/-- Settles O35: the request's part of the memory is done at once, one line after another for a bulk request, and its response leaves at once. -/
theorem requestsAnswered : Obligations.RequestsAnswered := by
  unfold Obligations.RequestsAnswered
  intro port q p arr off n s hq hrole hdst hdir hretry hsrc haddr hin hslate halone hon hgood goes bytes keeps stores
  have hreq (ty : BitVec 8) : Requested s arr.castSucc { p with ty := ty } off n :=
    ⟨haddr, onChip_counted ⟨arr.isLt, hin, hdir, hretry, hsrc, hslate, halone, hon⟩, hgood⟩
  have hgoes (ty : BitVec 8) {c : Instr} {data : List Byte} {lines : Bool} {P : State → Prop}
      (h : Responds s port q { p with ty := ty } (responseTo { p with ty := ty } data lines) →
        Answers c s (fun t => Replied s port q { p with ty := ty } (responseTo { p with ty := ty } data lines) t ∧ P t)) : goes ty c data lines P := by
    intro x hx htakes hleaves
    subst hx
    obtain ⟨t, ht, ⟨hout, hcount, hlane, hrest, hregs⟩, hP⟩ := h ⟨hq, hrole, hdst, hdir, hsrc, htakes, hleaves⟩
    exact ⟨t, ht, hout, hcount, hlane, hrest, hregs, hP⟩
  refine ⟨?rd64, ?rdn, ?bulkr, ?wr64, ?wrm, ?bulkw, ?narrow⟩
  case rd64 =>
    intro hn
    subst hn
    exact hgoes 0x01 fun hr => answers_lineRead (exec_rd64 port p s) rfl hr (hreq 0x01)
  case rdn => exact fun hn => hgoes 0x02 fun hr => answers_narrowRead (exec_rdn port p s) rfl hn hr (hreq 0x02)
  case bulkr => exact fun hn => hgoes 0x06 fun hr => answers_bulkRead (exec_bulkr port p s) rfl hn hr (hreq 0x06)
  case wr64 =>
    intro hn
    subst hn
    refine hgoes 0x03 fun hr => ?_
    have hbody : p.body.length = 64 := (line_of_takes hr.takes (.inr (.inl rfl))).2 (by decide : (0x03 : BitVec 8) ≠ 0x01)
    have hd : ((p.body.take 64).map some).length = 64 := by rw [List.length_map, List.length_take, hbody, Nat.min_self]
    obtain ⟨t, ht, hrep, hin, hout⟩ := answers_lineWrite (exec_wr64 port p s) (.inl rfl) hr (hreq 0x03) hd
    refine ⟨t, ht, hrep, fun i hi => (hin i hi).trans ?_, hout⟩
    show (nth ((p.body.take 64).map some) i none).getD (s.m.mem.byte (p.addr + i)) = nth p.body i 0
    rw [List.take_of_length_le hbody.le, nth_map_some (by rwa [hbody])]
  case wrm =>
    intro hn
    subst hn
    refine hgoes 0x04 fun hr => ?_
    have hd : (maskedLine p).length = 64 := by rw [maskedLine, List.length_map, List.length_range]
    obtain ⟨t, ht, hrep, hin, hout⟩ := answers_lineWrite (exec_wrm port p s) (.inr rfl) hr (hreq 0x04) hd
    refine ⟨t, ht, hrep, fun i hi => (hin i hi).trans ?_, hout⟩
    exact byte_maskedLine p hi _
  case bulkw => exact fun hn => hgoes 0x07 fun hr => answers_bulkWrite (exec_bulkw port p s) rfl hn hr (hreq 0x07)
  case narrow =>
    intro hn hoff
    subst hn
    exact ⟨hgoes 0x05 fun hr => answers_atom (exec_atom port p s) rfl hoff hr (hreq 0x05), fun _ _ hmgr =>
      ⟨hgoes 0x60 fun hr => answers_mrd (exec_mrd port p s) rfl hmgr hoff hr (hreq 0x60),
        hgoes 0x61 fun hr => answers_mwr (exec_mwr port p s) rfl hmgr hoff hr (hreq 0x61)⟩⟩

end Sys2Proof.Machine

/-! # Proofs: MOD_RST_N rises while a core's access waits (02 R45; 16 R436; 19 R478)

O54 asks nothing of the state in its clauses for the pins, so a core may have an access waiting. The end of the command performs it, after the
boot has started; a store to DT_EXPECT then stops the boot, with a cause of its own. -/

namespace Sys2Proof.Machine

open Sys2Proof

-- The kernel evaluates states here. One after another, these evaluations stay within the check's memory; side by side they need not.
set_option Elab.async false

/-- The version and the security version of both image slots are 0 in the flash. -/
def emptySlots : Mem :=
  { cells := [false, true].flatMap (fun b => (List.range 8).map (fun i => (slotBase b + 8 + i, 0))) }

/-- MOD_RST_N is low; an application core's store to DT_EXPECT of the hub waits at its core. -/
def storeAtReset : State := ⟨[], {
    pwrgd := true, rstN := false, state := .reset, minSvn := 1, mem := emptySlots,
    coreq := [{ ag := .ac 1, kind := 3, addr := F.DT_EXPECT_EXPECT.addr 0 16, op := .write (List.replicate 8 (some 1)) }] }⟩

/-- What the island's tests and the management die's link come to: the hub's signature is 0. -/
def zeroSig : BootIn := { puf := true, hubSig := 0, mgdSig := 0, mp := true }

/-- The state that the rise leaves. -/
def resetReleased : State := { storeAtReset with m := (storeAtReset.m.clearOut.rstRelease zeroSig).conclude.settle }

theorem exec_modRstNRelease_storeAtReset : exec (.modRstNRelease zeroSig) storeAtReset = .next resetReleased := rfl

/-- The newest two causes: the boot that stopped at the store, and the management die's recovery. The rise is the third. -/
theorem resetReleased_causes : (resetReleased.m.causes.take 2).map (·.code) = [0x10, 0x0D] := by decide +kernel

/-- Refutes O54: its clause for the rise of MOD_RST_N has cause 0x08 among the newest two, of every state; in `resetReleased` neither slot held
an image (cause 0x0D), and the store that waited made the hub's boot-set signature the wrong one, which stopped the boot (cause 0x10). -/
theorem not_moduleResets : ¬ Obligations.ModuleResets := by
  unfold Obligations.ModuleResets
  rintro ⟨h, -⟩
  obtain ⟨-, -, -, hpins⟩ := h .march 0 zeroSig storeAtReset
  obtain ⟨-, -, -, hrise, -⟩ := hpins rfl
  obtain ⟨t, ht, -, -, ⟨r, hr, hcode⟩, -⟩ := hrise rfl
  rw [exec_modRstNRelease_storeAtReset, Host.Outcome.next.injEq] at ht
  subst ht
  have hcodes : r.code ∈ (resetReleased.m.causes.take 2).map (·.code) := List.mem_map_of_mem hr
  rw [resetReleased_causes, hcode] at hcodes
  exact absurd hcodes (by decide)

end Sys2Proof.Machine
